-- ==== Sys2Proof/Syntax.lean ====
section
/-! DEFINITION. The commands the block takes, one constructor per row of the opcode table, and the operand types
they carry: messages, cells, packets, link-control slots, sensor frames. -/

namespace Sys2Proof

/-! ### Die-to-die messages (R26, R27) -/

/-- The GDP opcodes (R27), the reserved ones included. -/
inductive GdpOp where
  | nop | read | readResp | write | writeAck | atomic | atomicResp | counterSignal | cell | mgmt | telemetry
  | linkCtrl | reserved (code : BitVec 6)
  deriving DecidableEq, Repr

/-- A GDP message: its 16-byte header and its payload (R26). -/
structure GdpMsg where
  op : GdpOp
  prio : BitVec 2
  hint : BitVec 2
  poison : Bool
  tag : BitVec 12
  src : Byte
  dst : Byte
  status : BitVec 4
  aop : BitVec 4
  addr : Offset
  /-- bytes asked for by a READ; otherwise the payload's length -/
  len : BitVec 9
  payload : List Byte
  deriving DecidableEq, Repr

/-- The settled set that a SETTLE message carries (R36, R37). -/
structure Settle where
  proto : Half
  features : Word
  /-- the settled ordering class: false STRICT, true ADDRESS -/
  addressOrder : Bool
  maxPayload : Byte
  rate : Byte
  modules : Byte
  crc : Word32
  deriving DecidableEq, Repr

/-! ### Cells and slots (R58, R94) -/

/-- A tensor-network cell (R94): 16 header bytes and 48 payload bytes. -/
structure Cell where
  type : BitVec 4
  flags : BitVec 4
  dest : Half
  src : Half
  age : BitVec 6
  defl : BitVec 4
  stream : BitVec 14
  seq : Half
  len : BitVec 6
  offset : BitVec 42
  payload : BitVec 384
  deriving DecidableEq, Repr

/-- A link-control slot (R58). -/
structure CtrlSlot where
  ctrl : Byte
  epoch : Byte
  txSeq : Half
  ackSeq : Half
  tnready : Bool
  arg : BitVec 448
  deriving DecidableEq, Repr

/-- One lane's frame in a superframe: 16 data words and a check word (R53). -/
structure LaneFrame where
  words : List Word32
  check : Word32
  deriving DecidableEq, Repr

/-- What an engine's monitors show at one sample (R48). Powers are in 0.01 dBm, bias in 0.1 mA. -/
structure EngineSample where
  bias : List Nat
  m1 : List Int
  m2 : List Int
  m3 : List Int
  m4 : List Int
  /-- per fibre: 18 channels, then the total -/
  m5 : List (List Int)
  deriving DecidableEq, Repr

def EngineSample.zero : EngineSample :=
  { bias := List.replicate 18 0, m1 := List.replicate 18 0, m2 := List.replicate 8 0, m3 := List.replicate 144 0,
    m4 := List.replicate 8 0, m5 := List.replicate 8 (List.replicate 19 0) }

/-! ### General-network packets (R131–R134) -/

/-- A general-network packet: header, payload and trailer. -/
structure GnPacket where
  ptype : BitVec 4
  vc : BitVec 3
  poison : Bool
  hint : BitVec 2
  dest : BitVec 20
  src : BitVec 20
  tag : Half
  len : BitVec 13
  status : BitVec 4
  aop : BitVec 4
  size : Bool
  crVc : BitVec 3
  crCount : BitVec 13
  addr : Offset
  opA : Word
  opB : Word
  hcrc : Word32
  payload : List Byte
  poisonMap : Word
  dcrc : Word32
  deriving DecidableEq, Repr

/-! ### Counters and waits -/

/-- Where an add to a counter comes from (R194, R208). -/
inductive AddSrc where
  /-- unit `u` of core `c`: 0 control core, 1 array, 2 vector engine, 3 core DMA (R209) -/
  | core (c : Nat) (u : Nat)
  /-- command `num` of queue `q` -/
  | queue (q : Nat) (num : Word32)
  /-- a tensor-network cell; `seq` names it -/
  | cell (src : Half) (stream : BitVec 14) (seq : Half)
  /-- a GN request: node, tag, port and packet size -/
  | gn (node : BitVec 20) (tag : Half) (port : Nat)
  /-- a message of a die-to-die link -/
  | gdp (link : Nat) (tag : BitVec 12)
  /-- the management path (R449) -/
  | mgmt
  deriving DecidableEq, Repr

/-- Who waits on a counter (R199, R209). -/
inductive WaitOwner where
  /-- the command at the head of queue `q` -/
  | queue (q : Nat)
  /-- unit `u` of core `c` -/
  | core (c : Nat) (u : Nat)
  deriving DecidableEq, Repr

/-- Which of the three objects of R91 a write names. -/
inductive ShapeObject where
  | domainX | domainY | bundle
  deriving DecidableEq, Repr

/-! ### HBM -/

/-- An access that reaches the home of its HBM line (R244), with the symbol errors the pins showed (R253). -/
structure HbmAccess where
  /-- chip offset of the first byte; the access stays within one 64-byte line -/
  addr : Nat
  /-- bytes accessed -/
  len : Nat
  /-- none: a read; the bytes of a write and whether they are poisoned -/
  write : Option (List Byte × Bool)
  hint : BitVec 2
  /-- symbols of the stored word in error: position 0–71 and the value XORed in -/
  errors : List (Fin 72 × Byte)
  deriving DecidableEq, Repr

/-! ### Control-core instructions (R277–R291) -/

/-- The loads of RV64GC. -/
inductive LoadKind where
  | lb | lh | lw | ld | lbu | lhu | lwu | flw | fld
  deriving DecidableEq, Repr

/-- The stores of RV64GC. -/
inductive StoreKind where
  | sb | sh | sw | sd | fsw | fsd
  deriving DecidableEq, Repr

/-- The AMO operations of the A extension. -/
inductive AmoOp where
  | swap | add | xor | and | or | min | max | minu | maxu
  deriving DecidableEq, Repr

/-- The Zicsr operations. -/
inductive CsrOp where
  | rw | rs | rc
  deriving DecidableEq, Repr

/-- The source of a Zicsr operation: a register or a 5-bit immediate. -/
inductive CsrSrc where
  | reg (r : BitVec 5) | imm (v : BitVec 5)
  deriving DecidableEq, Repr

/-- How a core's self-test ends (R307, R379, R380). -/
inductive SelfTest where
  | pass
  /-- a unit failed (R274) -/
  | unit (u : Fin 4)
  /-- the boot subset: unit, RECORD_ID, first differing output byte, 16 bytes from it as expected and as got -/
  | differs (u : Fin 4) (record : Word) (byte : Word32) (expected got : BitVec 128)
  deriving DecidableEq, Repr

/-! ### Power and temperature -/

/-- The units that can enter Fallow (R431). -/
inductive FallowUnit where
  | core (c : Fin 256) | array (c : Fin 256) | vector (c : Fin 256) | dma (c : Fin 256)
  | commandProcessor (site : Fin 8) | updateEngine (e : Fin 8)
  deriving DecidableEq, Repr

/-- Which Ditchrider units fell silent (R411). -/
inductive UnitLoss where
  | standby | worker (site : Fin 8) | bothMasters
  deriving DecidableEq, Repr

/-- One 10 µs frame of samples of the Ditchrider units' own sensors (R413): those whose reading changed, and those without
a sample. Every other one that has been sampled before repeats its reading. Engines and cellar dies send theirs (R409). -/
structure SensorFrame where
  readings : List (Nat × Rat)
  missing : List Nat
  deriving DecidableEq, Repr

/-- The levels of a temperature group that R421 orders. -/
inductive ThermLevel where
  | warning | throttle | shutdown
  deriving DecidableEq, Repr

/-! ### Management (R441–R450, R481) -/

/-- The roles of R442. -/
inductive Role where
  | monitor | operator | owner
  deriving DecidableEq, Repr

/-- What a client's certificate shows at a handshake (R441–R443). -/
structure ClientCert where
  /-- the certificate as sent -/
  bytes : List Byte
  /-- the role its subject OU gives, none for any other value -/
  ou : Option Role
  /-- the DEVICE_UID its subject serial number names, if it names one -/
  serial : Option Word
  deriving DecidableEq, Repr

/-- One entry of a GET (R445). -/
structure GetEntry where
  index : Half
  sub : Byte
  offset : Word32
  length : Half
  deriving DecidableEq, Repr

/-- One entry of a SET (R445). -/
structure SetEntry where
  index : Half
  sub : Byte
  /-- type code: BOOL 0, U8 1, U16 2, U32 3, U64 4, I32 5, I64 6, F32 7, TIME64 8, STR 9, BLOB 10 -/
  type : Byte
  value : List Byte
  deriving DecidableEq, Repr

/-- A request to a cellar die (R385): the requesting site and the access. -/
structure CellarReq where
  site : Fin 8
  access : HbmAccess
  deriving DecidableEq, Repr

/-- The commands: one constructor per row of the opcode table, in the table's order. -/
inductive Instr where
  | resetNAssert (width : Nat)
  | resetNRelease (testEn : Bool) (uartLow : Bool)
  | vaonUp
  | shutdownNReleaseTimer
  | vaonLoss
  | railOutOfRangeTimeout (rail : Fin 27)
  | refclkLoss
  | regulatorPhaseFail (site : Fin 8) (domain : Fin 4)
  | sensorFrame (frame : SensorFrame)
  | powerSample
  | powerStepTimer
  | powerExcursionShutdown
  | weirStepDownInterval (site : Fin 8)
  | weirStepUpInterval (site : Fin 8)
  | frequencyStepDone (site : Fin 8)
  | ditchriderHeartbeat
  | standbyTakeover
  | ditchriderUnitLoss (loss : UnitLoss)
  | compensationTick (site : Fin 8)
  | fallowEntry (fallow : FallowUnit)
  | fallowWake (fallow : FallowUnit)
  | hbmSelfRefreshEntry (stack : Fin 34)
  | shutdownNow (value : Bool)
  | reArm (value : Bool)
  | siteTopStepWrite (site : Fin 8) (value : Byte)
  | thermalLevelWrite (group : Fin 61) (level : ThermLevel) (value : Word32)
  | gdpAdapterActive (link : Fin 34) (modules : Nat) (rate : Byte)
  | gdpDescriptorReceived (link : Fin 34) (desc : List Byte)
  | gdpSettleReceived (link : Fin 34) (settle : Settle)
  | gdpLinkActive (link : Fin 34)
  | gdpBringupTimeout (link : Fin 34) (peerInReset : Bool)
  | gdpLinkLost (link : Fin 34)
  | gdpRead (link : Fin 34) (msg : GdpMsg)
  | gdpWrite (link : Fin 34) (msg : GdpMsg)
  | gdpAtomic (link : Fin 34) (msg : GdpMsg)
  | gdpCounterSignal (link : Fin 34) (msg : GdpMsg)
  | gdpCell (link : Fin 34) (msg : GdpMsg)
  | gdpMgmt (link : Fin 34) (msg : GdpMsg)
  | gdpTelemetry (link : Fin 34) (msg : GdpMsg) (readings : List (Nat × Rat))
  | gdpResponse (link : Fin 34) (msg : GdpMsg)
  | gdpRequestTimeout (link : Fin 34) (tag : BitVec 12)
  | gdpModuleFailure (link : Fin 34) (module : Fin 26)
  | spareReq (link : Fin 34) (module : Fin 26)
  | gdpSpareTrained (link : Fin 34) (flit : Nat)
  | gdpSwitch (link : Fin 34) (flit : Nat)
  | laneRetryLimitExceeded (link : Fin 34) (module : Fin 26) (lane : Fin 64) (retries : Nat)
  | enginePowerUp (engine : Fin 20)
  | engineMonitorSample (engine : Fin 20) (sample : EngineSample)
  | superframeReceived (port : Fin 160) (frames : List (Nat × LaneFrame))
  | linkControlTick (port : Fin 160)
  | idle (port : Fin 160) (slot : CtrlSlot)
  | retry (port : Fin 160) (slot : CtrlSlot)
  | replay (port : Fin 160) (slot : CtrlSlot)
  | linkRetrain (port : Fin 160)
  | laneOffer (port : Fin 160) (slot : CtrlSlot)
  | laneReady (port : Fin 160) (slot : CtrlSlot)
  | laneSwitch (port : Fin 160) (slot : CtrlSlot)
  | laneSwitchAck (port : Fin 160) (slot : CtrlSlot)
  | laneRequest (port : Fin 160) (slot : CtrlSlot)
  | laneDown (port : Fin 160) (slot : CtrlSlot)
  | widthChange (port : Fin 160) (slot : CtrlSlot)
  | laneMap (port : Fin 160) (slot : CtrlSlot)
  | monitor (port : Fin 160) (slot : CtrlSlot)
  | bert (port : Fin 160) (slot : CtrlSlot)
  | loopReq (port : Fin 160) (slot : CtrlSlot)
  | drainNotice (port : Fin 160) (slot : CtrlSlot)
  | reservedCtrlSlot (port : Fin 160) (slot : CtrlSlot)
  | spareLaserLocked (port : Fin 160)
  | laneReadyTimeout (port : Fin 160)
  | probeBurstTimer (port : Fin 160)
  | probeWordReceived (port : Fin 160) (word : BitVec 128)
  | portVerified (port : Fin 160) (discarded : Nat)
  | circuitBerTimeExpiry (port : Fin 160) (rx : List Nat) (tx : List Nat) (bits : Nat)
  | lossOfLight (port : Fin 160)
  | spmMonitorTimer (port : Fin 160)
  | spmHoldOffExpiry (port : Fin 160)
  | portDrainComplete (port : Fin 160)
  | portDrainDeadline (port : Fin 160)
  | portAdminDisable (port : Fin 160)
  | portAdminEnable (port : Fin 160)
  | portAdminCircuit (port : Fin 160)
  | portRoleWrite (port : Fin 160) (role : Byte)
  | safetyModeWrite (mode : Byte)
  | chipNumberWrite (value : Half)
  | chipAssignedWrite (value : Bool)
  | domainShapeWrite (which : ShapeObject) (value : Byte)
  | tnreadyChange
  | portFreshnessExpiry (port : Fin 160)
  | routerSlot
  | cellPut (cell : Cell)
  | cellSignal (cell : Cell)
  | cellAtomicAdd (cell : Cell)
  | cellAck (cell : Cell)
  | cellAckFin (cell : Cell)
  | cellNack (cell : Cell)
  | cellCollData (cell : Cell)
  | cellMcast (cell : Cell)
  | cellTime (port : Fin 160) (cell : Cell) (stamp : Word)
  | cellProbe (cell : Cell)
  | cellReservedType (cell : Cell)
  | ackTimeExpiry (src : Half) (stream : BitVec 14)
  | retxTimeout (stream : BitVec 14) (seq : Half)
  | backoffExpiry (stream : BitVec 14) (seq : Half)
  | streamIdleExpiry (stream : BitVec 14)
  | sluiceApply (line : Nat)
  | timebaseExchangeTimer
  | timebaseHoldover
  | tbMasterWrite (value : Word32)
  | destRelease (chip : Half)
  | probeTarget (chip : Half)
  | probeReplyTimeout
  | gnNodeWrite (value : Word32)
  | rackMembersWrite (members : List Word32)
  | gnRead (port : Fin 160) (packet : GnPacket)
  | gnWrite (port : Fin 160) (packet : GnPacket)
  | gnWriteFlagged (port : Fin 160) (packet : GnPacket)
  | gnAtomic (port : Fin 160) (packet : GnPacket)
  | gnResponse (port : Fin 160) (packet : GnPacket)
  | gnCredit (port : Fin 160) (packet : GnPacket)
  | gnBadPacket (port : Fin 160) (packet : GnPacket)
  | creditReturnTimer (port : Fin 160) (vc : Fin 8)
  | bulkAging (port : Fin 160)
  | gnPacketsReturned (port : Fin 160)
  | granuleHoldRelease (granule : Nat)
  | writeFlaggedRelease (tag : Half)
  | windowEntryCommit (entry : Fin 1024) (word : Word)
  | deadTimeExpiry (tag : Half)
  | targetRelease (node : Word32)
  | sqDoorbell (queue : Fin 16384) (value : Word32)
  | cqDoorbell (queue : Fin 16384) (value : Word32)
  | ctrlEnable (queue : Fin 16384)
  | ctrlDisable (queue : Fin 16384)
  | queueConfigWrite (queue : Fin 16384) (index : Fin 8) (word : Word)
  | commandFetch (queue : Fin 16384)
  | cmdNop (queue : Fin 16384)
  | cmdKernel (queue : Fin 16384)
  | cmdCopy (queue : Fin 16384)
  | cmdFill (queue : Fin 16384)
  | cmdPut (queue : Fin 16384)
  | cmdSignal (queue : Fin 16384)
  | cmdWait (queue : Fin 16384)
  | cmdFence (queue : Fin 16384)
  | cmdCollective (queue : Fin 16384)
  | cmdUpdate (queue : Fin 16384)
  | cmdMarker (queue : Fin 16384)
  | cmdReservedOpcode (queue : Fin 16384)
  | commandComplete (queue : Fin 16384) (num : Word32)
  | waitLimitExpiry (queue : Fin 16384)
  | queuePrioAging (queue : Fin 16384)
  | queueDrainDeadline (queue : Fin 16384)
  | jobEnd (value : Bool)
  | jobSanitiseStart
  | jobSanitiseDone
  | counterAdd (counter : BitVec 18) (amount : Word) (src : AddSrc)
  | waitRegister (counter : BitVec 18) (threshold : Word) (owner : WaitOwner)
  | pollIntervalExpiry (counter : BitVec 18) (owner : WaitOwner)
  | barrierBind (barrier : Fin 4096) (word : Word)
  | barrierUnbind (barrier : Fin 4096) (word : Word)
  | barrierDescWrite (barrier : Fin 4096) (index : Fin 3) (word : Word)
  | arrivalResendTimer (src : AddSrc)
  | counterPageWrite (core : Fin 256) (offset : BitVec 13) (value : Word) (src : AddSrc)
  | commBind (slot : Fin 4096) (word : Word)
  | commUnbind (slot : Fin 4096) (word : Word)
  | collStart (cell : Cell)
  | collGrant (cell : Cell)
  | collAbort (cell : Cell)
  | collComplete (slot : Fin 4096) (seq : Word32)
  | mismatchGatherExpiry (slot : Fin 4096) (seq : Word32)
  | collWatchdogExpiry (slot : Fin 4096) (seq : Word32)
  | collMemberFailed (chip : Half)
  | collDrainDeadline (slot : Fin 4096)
  | earlyStoreDiscard (commId : Half)
  | hbmAccess (access : HbmAccess)
  | channelAccessTimeout (channel : Fin 1024)
  | interleaveEntryCommit (entry : Fin 64) (word : Word)
  | keepRelease (value : Bool)
  | odeccReadTimer (counts : List (Nat × Nat))
  | patrolScrub (line : Nat) (errors : List (Fin 72 × Byte))
  | mapoutRequest (channel : Half)
  | mapoutStart (channel : Fin 1024)
  | unitCopyDone (unit : Nat)
  | mapoutComplete
  | shrinkAck (value : Bool)
  | shrinkGraceExpiry
  | marginPeriodTimer (pc : Fin 2048)
  | marginNow (pc : Half)
  | sweepPhaseDone (pc : Fin 2048) (windows : List (Int × Int × Int × Int))
  | hbmRefresh (pc : Fin 2048)
  | ctrlLoad (core : Fin 264) (kind : LoadKind) (rd : BitVec 5) (rs1 : BitVec 5) (imm : BitVec 12) (short : Bool)
  | ctrlStore (core : Fin 264) (kind : StoreKind) (rs1 : BitVec 5) (rs2 : BitVec 5) (imm : BitVec 12) (short : Bool)
  | ctrlAmo (core : Fin 264) (op : AmoOp) (dbl : Bool) (rd : BitVec 5) (rs1 : BitVec 5) (rs2 : BitVec 5)
  | ctrlLrSc (core : Fin 264) (store : Bool) (dbl : Bool) (rd : BitVec 5) (rs1 : BitVec 5) (rs2 : BitVec 5)
  | fence (core : Fin 264)
  | fenceI (core : Fin 264)
  | ecallEbreak (core : Fin 264) (ebreak : Bool)
  | csrWrite (core : Fin 264) (op : CsrOp) (csr : BitVec 12) (rd : BitVec 5) (src : CsrSrc)
  | rv64Instruction (core : Fin 264) (word : Word32)
  | xsigl (core : Fin 264) (rd : BitVec 5) (rs1 : BitVec 5) (rs2 : BitVec 5)
  | xwaitl (core : Fin 264) (rd : BitVec 5) (rs1 : BitVec 5) (rs2 : BitVec 5)
  | xrdl (core : Fin 264) (rd : BitVec 5) (rs1 : BitVec 5) (rs2 : BitVec 5)
  | xsigc (core : Fin 264) (rd : BitVec 5) (rs1 : BitVec 5) (rs2 : BitVec 5)
  | xwaitc (core : Fin 264) (rd : BitVec 5) (rs1 : BitVec 5) (rs2 : BitVec 5)
  | xqwait (core : Fin 264) (rd : BitVec 5) (rs1 : BitVec 5) (rs2 : BitVec 5)
  | xwaitu (core : Fin 264) (rd : BitVec 5) (rs1 : BitVec 5) (rs2 : BitVec 5)
  | xend (core : Fin 264) (rd : BitVec 5) (rs1 : BitVec 5) (rs2 : BitVec 5)
  | xdcopy (core : Fin 264) (rd : BitVec 5) (rs1 : BitVec 5) (rs2 : BitVec 5)
  | xdcopy2 (core : Fin 264) (rd : BitVec 5) (rs1 : BitVec 5) (rs2 : BitVec 5)
  | xdfill (core : Fin 264) (rd : BitVec 5) (rs1 : BitVec 5) (rs2 : BitVec 5)
  | xamofaddW (core : Fin 264) (rd : BitVec 5) (rs1 : BitVec 5) (rs2 : BitVec 5)
  | xaldw (core : Fin 264) (rd : BitVec 5) (rs1 : BitVec 5) (rs2 : BitVec 5)
  | xamm (core : Fin 264) (rd : BitVec 5) (rs1 : BitVec 5) (rs2 : BitVec 5)
  | xadrain (core : Fin 264) (rd : BitVec 5) (rs1 : BitVec 5) (rs2 : BitVec 5)
  | xaclr (core : Fin 264) (rd : BitVec 5) (rs1 : BitVec 5) (rs2 : BitVec 5)
  | vcopy (core : Fin 264) (form : BitVec 3) (rd : BitVec 5) (rs1 : BitVec 5) (rs2 : BitVec 5)
  | vadd (core : Fin 264) (form : BitVec 3) (rd : BitVec 5) (rs1 : BitVec 5) (rs2 : BitVec 5)
  | vsub (core : Fin 264) (form : BitVec 3) (rd : BitVec 5) (rs1 : BitVec 5) (rs2 : BitVec 5)
  | vmul (core : Fin 264) (form : BitVec 3) (rd : BitVec 5) (rs1 : BitVec 5) (rs2 : BitVec 5)
  | vfma (core : Fin 264) (form : BitVec 3) (rd : BitVec 5) (rs1 : BitVec 5) (rs2 : BitVec 5)
  | vmin (core : Fin 264) (form : BitVec 3) (rd : BitVec 5) (rs1 : BitVec 5) (rs2 : BitVec 5)
  | vmax (core : Fin 264) (form : BitVec 3) (rd : BitVec 5) (rs1 : BitVec 5) (rs2 : BitVec 5)
  | vabs (core : Fin 264) (form : BitVec 3) (rd : BitVec 5) (rs1 : BitVec 5) (rs2 : BitVec 5)
  | vneg (core : Fin 264) (form : BitVec 3) (rd : BitVec 5) (rs1 : BitVec 5) (rs2 : BitVec 5)
  | vand (core : Fin 264) (form : BitVec 3) (rd : BitVec 5) (rs1 : BitVec 5) (rs2 : BitVec 5)
  | vor (core : Fin 264) (form : BitVec 3) (rd : BitVec 5) (rs1 : BitVec 5) (rs2 : BitVec 5)
  | vxor (core : Fin 264) (form : BitVec 3) (rd : BitVec 5) (rs1 : BitVec 5) (rs2 : BitVec 5)
  | vshl (core : Fin 264) (form : BitVec 3) (rd : BitVec 5) (rs1 : BitVec 5) (rs2 : BitVec 5)
  | vshr (core : Fin 264) (form : BitVec 3) (rd : BitVec 5) (rs1 : BitVec 5) (rs2 : BitVec 5)
  | vcmpeq (core : Fin 264) (form : BitVec 3) (rd : BitVec 5) (rs1 : BitVec 5) (rs2 : BitVec 5)
  | vcmplt (core : Fin 264) (form : BitVec 3) (rd : BitVec 5) (rs1 : BitVec 5) (rs2 : BitVec 5)
  | vcmple (core : Fin 264) (form : BitVec 3) (rd : BitVec 5) (rs1 : BitVec 5) (rs2 : BitVec 5)
  | vsel (core : Fin 264) (form : BitVec 3) (rd : BitVec 5) (rs1 : BitVec 5) (rs2 : BitVec 5)
  | vcvt (core : Fin 264) (form : BitVec 3) (rd : BitVec 5) (rs1 : BitVec 5) (rs2 : BitVec 5)
  | vexp (core : Fin 264) (form : BitVec 3) (rd : BitVec 5) (rs1 : BitVec 5) (rs2 : BitVec 5)
  | vlog (core : Fin 264) (form : BitVec 3) (rd : BitVec 5) (rs1 : BitVec 5) (rs2 : BitVec 5)
  | vrcp (core : Fin 264) (form : BitVec 3) (rd : BitVec 5) (rs1 : BitVec 5) (rs2 : BitVec 5)
  | vrsqrt (core : Fin 264) (form : BitVec 3) (rd : BitVec 5) (rs1 : BitVec 5) (rs2 : BitVec 5)
  | vsqrt (core : Fin 264) (form : BitVec 3) (rd : BitVec 5) (rs1 : BitVec 5) (rs2 : BitVec 5)
  | vsin (core : Fin 264) (form : BitVec 3) (rd : BitVec 5) (rs1 : BitVec 5) (rs2 : BitVec 5)
  | vcos (core : Fin 264) (form : BitVec 3) (rd : BitVec 5) (rs1 : BitVec 5) (rs2 : BitVec 5)
  | vtanh (core : Fin 264) (form : BitVec 3) (rd : BitVec 5) (rs1 : BitVec 5) (rs2 : BitVec 5)
  | vsigmoid (core : Fin 264) (form : BitVec 3) (rd : BitVec 5) (rs1 : BitVec 5) (rs2 : BitVec 5)
  | vrsum (core : Fin 264) (form : BitVec 3) (rd : BitVec 5) (rs1 : BitVec 5) (rs2 : BitVec 5)
  | vrmax (core : Fin 264) (form : BitVec 3) (rd : BitVec 5) (rs1 : BitVec 5) (rs2 : BitVec 5)
  | vrmin (core : Fin 264) (form : BitVec 3) (rd : BitVec 5) (rs1 : BitVec 5) (rs2 : BitVec 5)
  | vaccsr (core : Fin 264) (form : BitVec 3) (rd : BitVec 5) (rs1 : BitVec 5) (rs2 : BitVec 5)
  | vgather (core : Fin 264) (form : BitVec 3) (rd : BitVec 5) (rs1 : BitVec 5) (rs2 : BitVec 5)
  | vscatter (core : Fin 264) (form : BitVec 3) (rd : BitVec 5) (rs1 : BitVec 5) (rs2 : BitVec 5)
  | arrayInstrStart (core : Fin 264)
  | vectorInstrStart (core : Fin 264)
  | dmaInstrStart (core : Fin 264)
  | unitInstrComplete (core : Fin 264) (unit : Fin 4) (index : Nat) (hw : Bool)
  | kernelTimeLimitExpiry (core : Fin 264)
  | coreDrainDeadline (core : Fin 264)
  | coreAdminOffline (core : Fin 256)
  | coreAdminOnline (core : Fin 256)
  | coreSelfTestDone (core : Fin 256) (result : SelfTest)
  | nvRun (core : Half)
  | detModeWrite (value : Bool)
  | srSeedWrite (value : Word)
  | updateLayerStart (die : Fin 2)
  | updateLayerEnd (die : Fin 2)
  | updateDrainDeadline
  | cellarAccess (req : CellarReq)
  | engineAdminWrite (engine : Fin 8) (value : Byte)
  | dtlsHandshake (cert : ClientCert)
  | sessionIdleTimeout (session : Nat)
  | get (session : Nat) (req : Word32) (snapshot : Bool) (entries : List GetEntry)
  | set (session : Nat) (req : Word32) (entries : List SetEntry)
  | subscribe (session : Nat) (req : Word32) (severity : Byte) (subsystems : Half)
  | eventAck (session : Nat) (req : Word32) (seq : Word)
  | memRead (session : Nat) (req : Word32) (offset : Word) (length : Half)
  | memWrite (session : Nat) (req : Word32) (offset : Word) (data : List Byte)
  | attest (session : Nat) (req : Word32) (nonce : List Byte)
  | imageBegin (session : Nat) (req : Word32) (component : Byte) (total : Word32)
  | imageData (session : Nat) (req : Word32) (offset : Word32) (data : List Byte)
  | imageEnd (session : Nat) (req : Word32)
  | imageAbort (session : Nat) (req : Word32)
  | imageIdleTimeout
  | eulenReset (session : Nat) (req : Word32)
  | badMessage (session : Nat) (req : Word32) (type : Byte)
  | uartFrame (bytes : List Byte)
  | activationUnitDone (unit : Nat) (differs : Bool)
  | activationTimeout (unit : Nat)
  | eventResendTimer (session : Nat) (seq : Word)
  | snapshotExpiry (session : Nat)
  | configDone (value : Bool)
  | configWindowExpiry
  | jobReady
  | ownerRootWrite (cert : List Byte)
  | ownerRelease (value : Bool)
  | debugRequest (scope : Byte)
  | debugResponse (response : List Byte)
  | recoveryRequest (value : Bool)
  | objectWrite (index : Half) (sub : Byte) (type : Byte) (value : List Byte)
  | healthEvaluation
  | suspectSet (value : Byte)
  | quarantine
  | drainChip
  | drainQueue (queue : Half)
  | drainCore (core : Half)
  | drainPort (port : Half)
  | drainSlot (slot : Half)
  | shadow (peer : Word32) (startStep : Word32) (ring : Word) (ringLog2 : Byte) (counter : Word32)
  | source (peer : Word32) (startStep : Word32) (ring : Word) (ringLog2 : Byte) (counter : Word32)
  | stop
  | promote
  | drainDone
  | mirrorRecordWrite (queue : Fin 16384) (num : Word32)
  | shadowCommandComplete (queue : Fin 16384) (num : Word32)
  | suspectScoreClearTimer
  | receiveRingsLocked (port : Fin 160)
  | loopbackDurationExpiry (port : Fin 160)
  | engineSelfTestDone (engine : Fin 8) (pass : Bool)
  | alertNRelease
  | mgmtLinkUp
  | lightReturn (port : Fin 160)
  deriving DecidableEq, Repr

end Sys2Proof
end

