-- ==== Sys2Proof/Decode.lean ====
section
/-! DEFINITION. Commands by the bits of the opcode table: it gives no row any bits, so no word spells a command. -/

namespace Sys2Proof

/-- The command that a word spells (DESIGN CHOICE log 10). -/
def decodeTableWord (_ _ : Nat) : Option Instr := none

end Sys2Proof
end

