-- ==== Sys2Proof/Config.lean ====
section
/-! DEFINITION. What an implementation fixes and what the spec leaves open. Every constant here is opaque: nothing can
be proved of its value, so a statement holds for every value it can have (DESIGN CHOICE log 5). -/

namespace Sys2Proof

/-- Free values, drawn one after the other with the counter the state holds. -/
opaque Config.freeWord : Nat → Word

/-- The set, within its channel's slice, of a line of the memory-side cache (R249 gives 1,536 sets, not the mapping) (DESIGN CHOICE log 12). -/
opaque Config.cacheSet : Nat → Nat

/-- Bank and row of an address within a pseudo-channel, by its controller table (R247); true: the newly activated one. -/
opaque Config.hbmBank : Bool → Nat → Nat
opaque Config.hbmRow : Bool → Nat → Nat

/-- xcore as the control core of an update engine reads it (R284 gives it for the 256 cores). -/
opaque Config.engineCore : Nat → Byte

/-- Within the error bound of R340: which of the FP32 values around the exact one a function gives (its FUNCT7, the
operand's bits); outside any bound, the value; and the flags NX (bit 0) and UF (bit 1), which the rule does not state. -/
opaque Config.transcendental : Nat → Nat → Nat
opaque Config.transcendentalFlags : Nat → Nat → Nat

/-- Spare rows of a bank of a pseudo-channel (R258). -/
opaque Config.spareRows : Nat → Nat → Nat

/-- Rows of a channel repaired at the factory (R272, Fuse). -/
opaque Config.factoryRows : Nat → Half

/-- Bank groups of a pseudo-channel, less one (R271). -/
opaque Config.bankGroups : Nat

/-- DIE_UID of the base die of a site (R34, Fuse). -/
opaque Config.dieUid : Nat → Word

/-- The credit grant of a link for a class, P0–P3 (R34, Fuse). -/
opaque Config.gdpCredits : Nat → Nat → Half

/-- The end-of-life maximum of a laser's bias current, 0.1 mA, and its nominal M1 reading, 0.01 dBm (R73 gives neither). -/
opaque Config.biasMax : Nat → Nat → Nat
opaque Config.tapNominal : Nat → Nat → Int

/-- What an M3 reading of a ring out of lock, and an M4 and an M2 reading that are low, look like (R74, R84 give no threshold) (DESIGN CHOICE log 14). -/
opaque Config.ringLost : Int → Bool
opaque Config.tapLow : Int → Bool
opaque Config.splitLow : Int → Bool

/-- Whether a reading lies outside the physical range of a sensor that measures no temperature (R413 gives only that of
temperatures). -/
opaque Config.sensorOut : Nat → Rat → Bool

/-- The fused trim tables of R430: site, trim (0 RC oscillator, 1 charge pump, 2 loop filter, 3 bandgap), point 0–15. -/
opaque Config.trimPoint : Nat → Nat → Nat → Rat

/-- Whether a RESET_N pulse between 1 µs and 10 µs, of that many ns, resets the package (R504 gives only the ends) (DESIGN CHOICE log 15). -/
opaque Config.shortPulseResets : Nat → Bool

/-- What HBM training finds in a boot, by BOOT_COUNT: the pseudo-channels whose training fails three times (R260), and, for the
timing and VREF minima, the pins that fail the check at half of them: pseudo-channel, pin, whether it is the VREF check that
failed, and the window reported (R268) (DESIGN CHOICE log 168). -/
opaque Config.untrained : Nat → List Nat
opaque Config.narrowPins : Nat → Nat → Nat → List (Nat × Nat × Bool × Nat)

/-- What the boot subset finds at a site's reduction unit in a boot: the RECORD_ID of the first record that differs, its
first differing output byte, and 16 bytes from it as expected and as got; none if none does (R379). -/
opaque Config.reductionTest : Nat → Nat → Option (Nat × Nat × Nat × Nat)

/-- Fuses, ROM and MRAM as manufactured: the firmware public keys and the Ryuver debug key (R460, R466), the image of each
component with 0 the ROM recovery loader (R461), the SVN fuses blown (R460), the identity certificates and the Ryuver CA
(R463), DEVICE_SERIAL and MGMT_MAC (R473). -/
opaque Config.romKey : Nat → Nat × Nat
opaque Config.ryuverDebugKey : Nat × Nat
opaque Config.factoryBytes : Nat → List Byte
opaque Config.factoryKey : Nat → Fin 4
opaque Config.svnFuses : Nat → Nat
opaque Config.deviceCert : List Byte
opaque Config.ryuverCa : List Byte
opaque Config.serial : List Byte
opaque Config.mac : List Byte

/-- The image of a component as manufactured, signed under one of the four keys (R458, R460). -/
def Config.factoryImage (k : Nat) : List Byte :=
  let b := Config.factoryBytes k
  b.take 80 ++ List.replicate (80 - b.length) 0 ++ [BitVec.ofNat 8 (Config.factoryKey k).val] ++ b.drop 81

/-- ARRAY_REPAIR of a core (R330, Fuse). -/
opaque Config.arrayRepair : Nat → Word

/-- X.509: whether bytes are a valid DER certificate, and whether a certificate chains to a root (R442, R443) (DESIGN CHOICE log 13). -/
opaque Config.validCert : List Byte → Bool
opaque Config.chainsTo : List Byte → List Byte → Bool

/-- The alias certificate of a site's Ditchrider unit by the measurements of ROM and firmware, and its signature, r then s,
over a message, the n-th it makes (R462–R464). -/
opaque Config.aliasCert : Nat → List Byte → List Byte → List Byte
opaque Config.aliasSign : Nat → Nat → List Byte → List Byte

end Sys2Proof
end

