-- ==== Sys2Proof/Machine/Tab.lean ====
section
/-! DEFINITION. Sparse tables: a list of (key, value) pairs in one canonical form (keys strictly rising, no entry equal
to what an unlisted key holds). Memory, counters, queues, ports and the dictionary objects are such tables. -/

namespace Sys2Proof.Machine

/-- A sparse table over natural keys. -/
abbrev Tab (α : Type) := List (Nat × α)

/-- The value at `k`; `d` is what an unlisted key holds. -/
def Tab.get {α : Type} (d : α) : Tab α → Nat → α
  | [], _ => d
  | (k', v) :: r, k => if k = k' then v else Tab.get d r k

/-- The table without any entry at `k`. -/
def Tab.erase {α : Type} : Tab α → Nat → Tab α
  | [], _ => []
  | (k', v) :: r, k => if k = k' then Tab.erase r k else (k', v) :: Tab.erase r k

/-- The table with `v` at `k`, in key order. -/
def Tab.insert {α : Type} : Tab α → Nat → α → Tab α
  | [], k, v => [(k, v)]
  | (k', v') :: r, k, v =>
    if k < k' then (k, v) :: (k', v') :: r
    else if k = k' then (k, v) :: r
    else (k', v') :: Tab.insert r k v

/-- Write `v` at `k`; writing the default removes the entry. -/
def Tab.set {α : Type} [DecidableEq α] (d : α) (t : Tab α) (k : Nat) (v : α) : Tab α :=
  if v = d then Tab.erase t k else Tab.insert t k v

/-- The canonical form. -/
def Tab.wf {α : Type} [DecidableEq α] (d : α) (t : Tab α) : Bool :=
  decide (t.Pairwise (fun a b => a.1 < b.1)) && t.all (fun p => decide (p.2 ≠ d))

/-- Apply `f` at `k`. -/
def Tab.modify {α : Type} [DecidableEq α] (d : α) (t : Tab α) (k : Nat) (f : α → α) : Tab α :=
  Tab.set d t k (f (Tab.get d t k))

/-- Keep the entries whose key satisfies `p`; the others hold the default again. -/
def Tab.keep {α : Type} (p : Nat → Bool) (t : Tab α) : Tab α :=
  t.filter (fun e => p e.1)

end Sys2Proof.Machine
end

