-- ==== Sys2Proof/Machine/Bits.lean ====
section
/-! DEFINITION. Bit fields, little-endian bytes (R12) and CRC-32C. -/

namespace Sys2Proof.Machine

/-- Bits [hi:lo] of a number. -/
def bitsOf (x hi lo : Nat) : Nat := x / 2 ^ lo % 2 ^ (hi + 1 - lo)

/-- Bit n of a number. -/
def bitOf (x n : Nat) : Bool := x / 2 ^ n % 2 == 1

/-- x with v in bits [hi:lo]. -/
def setBits (x hi lo v : Nat) : Nat :=
  x - bitsOf x hi lo * 2 ^ lo + v % 2 ^ (hi + 1 - lo) * 2 ^ lo

/-- x, read as a two's-complement number of n bits. -/
def signed (n x : Nat) : Int :=
  if x % 2 ^ n ≥ 2 ^ (n - 1) then (x % 2 ^ n : Int) - 2 ^ n else (x % 2 ^ n : Int)

/-- An integer as a two's-complement number of n bits. -/
def toTwos (n : Nat) (i : Int) : Nat := (i % (2 ^ n : Int)).toNat

/-- The n little-endian bytes of a number (R12). -/
def leBytes : Nat → Nat → List Byte
  | 0, _ => []
  | n + 1, x => BitVec.ofNat 8 x :: leBytes n (x / 256)

/-- The number that little-endian bytes hold (R12). -/
def leNat : List Byte → Nat
  | [] => 0
  | b :: r => b.toNat + 256 * leNat r

/-- The number that big-endian bytes hold. -/
def beNat (bs : List Byte) : Nat := leNat bs.reverse

def beBytes (n x : Nat) : List Byte := (leBytes n x).reverse

/-- `len` bytes from `off` on, zero past the end. -/
def slice (l : List Byte) (off len : Nat) : List Byte :=
  let x := (l.drop off).take len
  x ++ List.replicate (len - x.length) 0

/-- The list cut or filled with zeros to n bytes. -/
def fit (n : Nat) (l : List Byte) : List Byte := slice l 0 n

/-- The number of ones among the lowest n bits. -/
def popCount : Nat → Nat → Nat
  | 0, _ => 0
  | n + 1, x => x % 2 + popCount n (x / 2)

/-- One byte of CRC-32C, least significant bit first (reflected polynomial 0x82F6_3B78). -/
def crcByte (c : Nat) (b : Nat) : Nat :=
  (List.range 8).foldl (fun c _ => if c % 2 = 1 then (c / 2) ^^^ 0x82F63B78 else c / 2) (c ^^^ b)

/-- CRC-32C of bytes: polynomial 0x1EDC_6F41, initial all-ones, final inversion (R34). -/
def crc32c (bs : List Byte) : Nat :=
  bs.foldl (fun c b => crcByte c b.toNat) 0xFFFFFFFF ^^^ 0xFFFFFFFF

/-- The list with entry i replaced. -/
def setAt {α : Type} : List α → Nat → α → List α
  | [], _, _ => []
  | _ :: r, 0, v => v :: r
  | x :: r, n + 1, v => x :: setAt r n v

/-- Entry i, or a default. -/
def nth {α : Type} (d : α) (l : List α) (i : Nat) : α := l.getD i d

/-- The first maximal element by a measure, if any. -/
def maxBy {α : Type} (f : α → Int) : List α → Option α
  | [] => none
  | x :: r =>
    match maxBy f r with
    | none => some x
    | some y => if f y > f x then some y else some x

/-- The smallest element of a list of numbers, `d` for the empty list. -/
def minOf (d : Nat) (l : List Nat) : Nat := l.foldl min d

end Sys2Proof.Machine
end

