-- ==== Sys2Proof/Machine/Float.lean ====
section
/-! DEFINITION. Binary floating point, computed exactly and rounded once: the values of the IEEE formats, rounding in
the five modes, the operations of IEEE 754-2019 that the control core and the vector engine use (R280, R338). -/

namespace Sys2Proof.Machine

/-- A binary interchange format: exponent bits and fraction bits. -/
structure Fmt where
  ebits : Nat
  mbits : Nat
  deriving DecidableEq, Repr

def Fmt.fp64 : Fmt := ⟨11, 52⟩
def Fmt.fp32 : Fmt := ⟨8, 23⟩
def Fmt.bf16 : Fmt := ⟨8, 7⟩
def Fmt.fp16 : Fmt := ⟨5, 10⟩
def Fmt.e5m2 : Fmt := ⟨5, 2⟩
/-- binary32 with a 40-bit fraction, as XF32 entries hold it (R317). -/
def Fmt.xf40 : Fmt := ⟨8, 40⟩

def Fmt.bias (f : Fmt) : Nat := 2 ^ (f.ebits - 1) - 1
def Fmt.width (f : Fmt) : Nat := 1 + f.ebits + f.mbits
/-- The exponent of the last place of a subnormal. -/
def Fmt.emin (f : Fmt) : Int := 1 - (f.bias : Int) - f.mbits

/-- A floating-point value: a finite value is (-1)^neg × m × 2^e. -/
inductive FVal where
  | fin (neg : Bool) (m : Nat) (e : Int)
  | inf (neg : Bool)
  | nan (signalling : Bool)
  deriving DecidableEq, Repr

def FVal.isZero : FVal → Bool
  | .fin _ m _ => m == 0
  | _ => false

def FVal.neg? : FVal → Bool
  | .fin n _ _ => n
  | .inf n => n
  | .nan _ => false

def FVal.negate : FVal → FVal
  | .fin n m e => .fin (!n) m e
  | .inf n => .inf (!n)
  | v => v

def FVal.isNan : FVal → Bool
  | .nan _ => true
  | _ => false

def FVal.isSnan : FVal → Bool
  | .nan s => s
  | _ => false

/-- The rounding modes, with the codes of frm: RNE 0, RTZ 1, RDN 2, RUP 3, RMM 4. -/
inductive RMode where
  | rne | rtz | rdn | rup | rmm
  deriving DecidableEq, Repr

/-- The mode of an frm code; 5–7 are reserved. -/
def RMode.ofCode : Nat → Option RMode
  | 0 => some .rne | 1 => some .rtz | 2 => some .rdn | 3 => some .rup | 4 => some .rmm | _ => none

/-- The exception flags, as fflags orders them. -/
structure FFlags where
  nv : Bool
  dz : Bool
  of : Bool
  uf : Bool
  nx : Bool
  deriving DecidableEq, Repr

def FFlags.none : FFlags := ⟨false, false, false, false, false⟩
def FFlags.invalid : FFlags := ⟨true, false, false, false, false⟩
def FFlags.join (a b : FFlags) : FFlags := ⟨a.nv || b.nv, a.dz || b.dz, a.of || b.of, a.uf || b.uf, a.nx || b.nx⟩
def FFlags.bits (a : FFlags) : BitVec 5 :=
  BitVec.ofNat 5 (a.nv.toNat * 16 + a.dz.toNat * 8 + a.of.toNat * 4 + a.uf.toNat * 2 + a.nx.toNat)

/-- The value a bit pattern holds. -/
def Fmt.decode (f : Fmt) (bits : Nat) : FVal :=
  let frac := bits % 2 ^ f.mbits
  let ex := (bits / 2 ^ f.mbits) % 2 ^ f.ebits
  let neg := (bits / 2 ^ (f.mbits + f.ebits)) % 2 == 1
  if ex = 2 ^ f.ebits - 1 then
    if frac = 0 then .inf neg else .nan (frac / 2 ^ (f.mbits - 1) == 0)
  else if ex = 0 then .fin neg frac f.emin
  else .fin neg (2 ^ f.mbits + frac) (f.emin + (ex - 1 : Int))

/-- The canonical quiet NaN (R355). -/
def Fmt.qnan (f : Fmt) : Nat := (2 ^ f.ebits - 1) * 2 ^ f.mbits + 2 ^ (f.mbits - 1)

def Fmt.signBit (f : Fmt) (neg : Bool) : Nat := if neg then 2 ^ (f.mbits + f.ebits) else 0

def Fmt.infBits (f : Fmt) (neg : Bool) : Nat := f.signBit neg + (2 ^ f.ebits - 1) * 2 ^ f.mbits

def Fmt.maxBits (f : Fmt) (neg : Bool) : Nat := f.infBits neg - 1

/-- m × 2^s for s of either sign, as integer part and whether anything was cut off. -/
def shiftInt (m : Nat) (s : Int) : Nat :=
  if s ≥ 0 then m * 2 ^ s.toNat else m / 2 ^ (-s).toNat

/-- Round m × 2^e (plus a little more when `sticky`) to a multiple of 2^q: the multiple and whether it is inexact. -/
def roundAt (rm : RMode) (neg : Bool) (m : Nat) (e : Int) (sticky : Bool) (q : Int) : Nat × Bool :=
  if q ≤ e then
    let r := m * 2 ^ (e - q).toNat
    let up := match rm with
      | .rdn => neg && sticky
      | .rup => !neg && sticky
      | _ => false
    (if up then r + 1 else r, sticky)
  else
    let s := (q - e).toNat
    let t := m / 2 ^ s
    let r := m % 2 ^ s
    let half := 2 ^ (s - 1)
    let inexact := r != 0 || sticky
    let up := match rm with
      | .rne => (r > half || (r == half && (sticky || t % 2 == 1)))
      | .rmm => r ≥ half
      | .rtz => false
      | .rdn => neg && inexact
      | .rup => !neg && inexact
    (if up then t + 1 else t, inexact)

/-- The place of the last bit for a value of `len` bits at exponent e in a format. -/
def Fmt.place (f : Fmt) (len : Nat) (e : Int) : Int :=
  max (e + len - (f.mbits + 1)) f.emin

/-- Tininess after rounding: rounded as if the exponent range were unbounded, the result is below the smallest normal. -/
def Fmt.tiny (f : Fmt) (rm : RMode) (neg : Bool) (m : Nat) (e : Int) (sticky : Bool) : Bool :=
  let q := e + (if m = 0 then 0 else Nat.log2 m + 1 : Nat) - (f.mbits + 1)
  q < f.emin && !((roundAt rm neg m e sticky q).1 ≥ 2 ^ (f.mbits + 1) && q + 1 ≥ f.emin)

/-- Round a non-zero exact value to a format (IEEE 754, tininess after rounding): bits and flags. -/
def Fmt.roundFin (f : Fmt) (rm : RMode) (neg : Bool) (m : Nat) (e : Int) (sticky : Bool) : Nat × FFlags :=
  let len := if m = 0 then 0 else Nat.log2 m + 1
  let q := f.place len e
  let (r, inexact) := roundAt rm neg m e sticky q
  -- carry into the next binade
  let (r, q) := if r = 2 ^ (f.mbits + 1) then (2 ^ f.mbits, q + 1) else (r, q)
  let ex := if r < 2 ^ f.mbits then 0 else (q - f.emin).toNat + 1
  if ex ≥ 2 ^ f.ebits - 1 then
    let toInf := match rm with
      | .rne => true | .rmm => true | .rtz => false | .rdn => neg | .rup => !neg
    (if toInf then f.infBits neg else f.maxBits neg, ⟨false, false, true, false, true⟩)
  else
    let frac := if r < 2 ^ f.mbits then r else r - 2 ^ f.mbits
    (f.signBit neg + ex * 2 ^ f.mbits + frac, ⟨false, false, false, f.tiny rm neg m e sticky && inexact, inexact⟩)

/-- Round any value to a format; NaN becomes the canonical one, and a signalling NaN raises invalid. -/
def Fmt.round (f : Fmt) (rm : RMode) : FVal → Nat × FFlags
  | .nan s => (f.qnan, if s then FFlags.invalid else FFlags.none)
  | .inf n => (f.infBits n, FFlags.none)
  | .fin n m e => if m = 0 then (f.signBit n, FFlags.none) else f.roundFin rm n m e false

/-! ### Exact arithmetic -/

/-- A signed integer times a power of two. -/
def FVal.int : FVal → Int × Int
  | .fin n m e => ((if n then -(m : Int) else m), e)
  | _ => (0, 0)

/-- The exact sum of two dyadics. -/
def dyAdd (a b : Int × Int) : Int × Int :=
  let e := min a.2 b.2
  (a.1 * 2 ^ (a.2 - e).toNat + b.1 * 2 ^ (b.2 - e).toNat, e)

def dyMul (a b : Int × Int) : Int × Int := (a.1 * b.1, a.2 + b.2)

/-- a < b for dyadics. -/
def dyLt (a b : Int × Int) : Bool := (dyAdd a (-b.1, b.2)).1 < 0

/-- A dyadic as a value; an exact zero takes the sign given. -/
def FVal.ofDy (zneg : Bool) (d : Int × Int) : FVal :=
  if d.1 = 0 then .fin zneg 0 d.2 else .fin (d.1 < 0) d.1.natAbs d.2

/-- a + b; an exact zero sum of unlike signs is +0, or −0 when rounding down. -/
def FVal.add (rm : RMode) (a b : FVal) : FVal × FFlags :=
  match a, b with
  | .nan s, y => (.nan false, if s || y.isSnan then FFlags.invalid else FFlags.none)
  | x, .nan s => (.nan false, if s || x.isSnan then FFlags.invalid else FFlags.none)
  | .inf n, .inf n' => if n = n' then (.inf n, FFlags.none) else (.nan false, FFlags.invalid)
  | .inf n, _ => (.inf n, FFlags.none)
  | _, .inf n => (.inf n, FFlags.none)
  | .fin n m e, .fin n' m' e' =>
    let z := if n = n' then n else decide (rm = .rdn)
    (FVal.ofDy z (dyAdd (FVal.int (.fin n m e)) (FVal.int (.fin n' m' e'))), FFlags.none)

/-- a × b, exact. -/
def FVal.mul (a b : FVal) : FVal × FFlags :=
  match a, b with
  | .nan s, y => (.nan false, if s || y.isSnan then FFlags.invalid else FFlags.none)
  | x, .nan s => (.nan false, if s || x.isSnan then FFlags.invalid else FFlags.none)
  | .inf n, y => if y.isZero then (.nan false, FFlags.invalid) else (.inf (n != y.neg?), FFlags.none)
  | x, .inf n => if x.isZero then (.nan false, FFlags.invalid) else (.inf (n != x.neg?), FFlags.none)
  | .fin n m e, .fin n' m' e' => (.fin (n != n') (m * m') (e + e'), FFlags.none)

/-- a × b + c, exact. -/
def FVal.fma (rm : RMode) (a b c : FVal) : FVal × FFlags :=
  let (p, f1) := FVal.mul a b
  let (r, f2) := FVal.add rm p c
  (r, f1.join f2)

/-- a / b rounded once to a format. -/
def Fmt.div (f : Fmt) (rm : RMode) (a b : FVal) : Nat × FFlags :=
  match a, b with
  | .nan s, y => (f.qnan, if s || y.isSnan then FFlags.invalid else FFlags.none)
  | x, .nan s => (f.qnan, if s || x.isSnan then FFlags.invalid else FFlags.none)
  | .inf _, .inf _ => (f.qnan, FFlags.invalid)
  | .inf n, y => (f.infBits (n != y.neg?), FFlags.none)
  | x, .inf n => (f.signBit (n != x.neg?), FFlags.none)
  | .fin n m e, .fin n' m' e' =>
    if m' = 0 then
      if m = 0 then (f.qnan, FFlags.invalid)
      else (f.infBits (n != n'), ⟨false, true, false, false, false⟩)
    else if m = 0 then (f.signBit (n != n'), FFlags.none)
    else
      let k := f.mbits + 4 + Nat.log2 m'
      let num := m * 2 ^ k
      f.roundFin rm (n != n') (num / m') (e - e' - k) (num % m' != 0)

/-- The integer square root, bit by bit. -/
def isqrtAux : Nat → Nat → Nat → Nat
  | 0, _, r => r
  | k + 1, n, r =>
    let c := r + 2 ^ k
    isqrtAux k n (if c * c ≤ n then c else r)

def isqrt (n : Nat) : Nat := isqrtAux (Nat.log2 n / 2 + 1) n 0

/-- The square root rounded once to a format. -/
def Fmt.sqrt (f : Fmt) (rm : RMode) (a : FVal) : Nat × FFlags :=
  match a with
  | .nan s => (f.qnan, if s then FFlags.invalid else FFlags.none)
  | .inf n => if n then (f.qnan, FFlags.invalid) else (f.infBits false, FFlags.none)
  | .fin n m e =>
    if m = 0 then (f.signBit n, FFlags.none)
    else if n then (f.qnan, FFlags.invalid)
    else
      -- an even exponent and enough bits
      let k := 2 * (f.mbits + 4) + (if e % 2 = 0 then 0 else 1)
      let x := m * 2 ^ k
      let r := isqrt x
      f.roundFin rm false r ((e - k) / 2) (r * r != x)

/-- A value as a rational. -/
def FVal.toRat : FVal → Rat
  | .fin n m e =>
    let v : Rat := if e ≥ 0 then ((m * 2 ^ e.toNat : Nat) : Rat) else mkRat m (2 ^ (-e).toNat)
    if n then -v else v
  | _ => 0

/-- A rational rounded to nearest even. -/
def Fmt.ofRat (f : Fmt) (r : Rat) : Nat :=
  if r.num = 0 then 0
  else (f.div .rne (.fin (r.num < 0) r.num.natAbs 0) (.fin false r.den 0)).1

/-- An F32 word as a rational, if it is finite. -/
def f32ToRat (w : Nat) : Option Rat :=
  match Fmt.fp32.decode w with
  | .fin n m e => some (FVal.toRat (.fin n m e))
  | _ => none

/-- A rational as an F32 word, to nearest even. -/
def ratToF32 (r : Rat) : Nat := Fmt.fp32.ofRat r

end Sys2Proof.Machine
end

