-- ==== Sys2Proof/Machine/Types/Queue.lean ====
section
/-! DEFINITION. The state of the queues and of the job (05_queues_commands). -/

namespace Sys2Proof.Machine

/-- STATE of a queue (R166, R171). -/
inductive QState where
  | disabled | active | draining | error
  deriving DecidableEq, Repr

/-- The completion statuses of R185 (codes 0x00–0x0B). -/
inductive Status where
  | ok | partly | cancelled | timeout | mismatch | unreachable | poisoned | refused | dropped
  | memberFailed | noResource | mappedOut
  deriving DecidableEq, Repr

/-- The code of a status. -/
def Status.code : Status → Byte
  | .ok => 0x00 | .partly => 0x01 | .cancelled => 0x02 | .timeout => 0x03 | .mismatch => 0x04
  | .unreachable => 0x05 | .poisoned => 0x06 | .refused => 0x07 | .dropped => 0x08
  | .memberFailed => 0x09 | .noResource => 0x0A | .mappedOut => 0x0B

/-- Where a fetched command stands (R169, R180). -/
inductive Phase where
  /-- fetched, not yet at the head -/
  | fetched
  /-- at the head: checked (R179), its waits begun -/
  | waiting
  /-- started and not completed -/
  | started
  /-- every effect done; its signal and its record are still to come -/
  | finished
  deriving DecidableEq, Repr

/-- Where a command's signal stands (R174, R187). -/
inductive SigState where
  | notSent | held | sent | landed
  deriving DecidableEq, Repr

/-- A fetched command that has not completed (R166's INFLIGHT counts these). -/
structure QEntry where
  /-- its number since the queue was enabled (R168) -/
  num : Word32
  /-- its 64 bytes (R172) -/
  raw : BitVec 512
  phase : Phase
  /-- the order in which its waits were all met (R181) -/
  ready : Option Nat
  /-- the timebase when it reached the head (R175 MARKER, R184) -/
  headTime : Word
  /-- failed segments, or failed cores of a KERNEL, with their statuses (R186, R303) -/
  fails : List (Nat × Status)
  /-- the cores, cells, tags or layers still outstanding -/
  outstanding : Nat
  /-- when a KERNEL's first core failed, and that core (R303) -/
  failAt : Option (Nat × Nat)
  /-- the status once it is settled -/
  status : Status
  /-- the record's DETAIL [23:0] (R184) -/
  detail : BitVec 24
  sig : SigState
  /-- SEG_MAP where it is not the failed segments: COLLECTIVE (R237), or a shadow's record (R490) -/
  segMap : Option Word
  /-- what the check at the head read: a KERNEL's header (R295), an UPDATE's descriptors (R388) -/
  held : List (BitVec 1024)
  deriving DecidableEq, Repr

/-- A queue: its control block (R166) and what it has fetched. -/
structure Queue where
  sqBase : Word
  cqBase : Word
  sqLog2 : BitVec 5
  cqLog2 : BitVec 5
  prio : BitVec 2
  stopOnErr : Bool
  cqCountEn : Bool
  cqCounter : BitVec 18
  sqHead : Word32
  sqTail : Word32
  cqTail : Word32
  cqHead : Word32
  waitLimit : Word32
  state : QState
  lastStatus : Byte
  lastIndex : Half
  /-- in ring order -/
  entries : List QEntry
  /-- its ready command has waited 1 ms (R181) -/
  aged : Bool
  deriving DecidableEq, Repr

/-- The control block's reset values (R166). -/
def Queue.reset : Queue :=
  { sqBase := 0, cqBase := 0, sqLog2 := 6, cqLog2 := 6, prio := 1, stopOnErr := true, cqCountEn := false,
    cqCounter := 0, sqHead := 0, sqTail := 0, cqTail := 0, cqHead := 0, waitLimit := 0, state := .disabled,
    lastStatus := 0, lastIndex := 0, entries := [], aged := false }

/-- The job's sequence (R190). -/
structure Job where
  /-- JOB_STATE: 0 Idle, 1 Running, 2 Ending, 3 Sanitising -/
  state : Nat
  /-- the AON time of the JOB_END write -/
  endTime : Nat
  deriving DecidableEq, Repr

end Sys2Proof.Machine
end

