-- ==== Sys2Proof/Machine/Types/Tn.lean ====
section
/-! DEFINITION. The state of the tensor network's router and Headgate (03_tensor_network). -/

namespace Sys2Proof.Machine

/-- Which piece of work a sent cell, a GN tag or a DMA transfer belongs to. -/
inductive Work where
  /-- segments `seg` to `last` of command `num` of queue `q` (R186) -/
  | cmd (q : Nat) (num : Word32) (seg last : Nat)
  /-- the signal of command `num` of queue `q` (R174) -/
  | cmdSignal (q : Nat) (num : Word32)
  /-- sequence `seq` on communicator slot `slot` (R221) -/
  | coll (slot : Nat) (seq : Word32)
  /-- a control-core load, or an AMO, of core `c` (R276) -/
  | core (c : Nat)
  /-- a control-core store of core `c` -/
  | coreStore (c : Nat)
  /-- core-DMA instruction `id` of core `c` (R293) -/
  | dma (c : Nat) (id : Nat)
  /-- a mirrored effect (R489) -/
  | mirror
  /-- a multicast relay (R120) -/
  | relay
  /-- nobody waits for it -/
  | none
  deriving DecidableEq, Repr

/-- Who owns a send stream (R108, R120, R221). -/
inductive StreamOwner where
  | queue (q : Nat) | coll (slot : Nat) | relay
  deriving DecidableEq, Repr

/-- A sequenced cell in the retransmit store (R104, R107, R111). -/
structure TxCell where
  cell : Cell
  work : Work
  /-- retransmissions without an ACK or a NACK (R112) -/
  retx : Nat
  /-- consecutive NACKs (R107) -/
  nacks : Nat
  /-- in a back-off, with the AON time at which it ends -/
  backoff : Option Nat
  deriving DecidableEq, Repr

/-- A bound send stream (R108–R113, R516). -/
structure SendStream where
  owner : StreamOwner
  dest : Half
  /-- SEQ of the next cell -/
  nextSeq : Half
  /-- unacknowledged cells, in SEQ order -/
  cells : List TxCell
  /-- cells that wait for the window or the retransmit store, without a SEQ yet (R104, R108) -/
  pend : List TxCell
  /-- held under R112 or R125 -/
  held : Bool
  /-- a FIN is out (R113) -/
  closing : Bool
  /-- a cell was refused BAD_ADDR: no new cell, close when empty (R516) -/
  refused : Bool
  /-- AON time of its last cell -/
  lastCell : Nat
  deriving DecidableEq, Repr

/-- A receive context (R109, R110). -/
structure RxContext where
  src : Half
  stream : BitVec 14
  /-- every SEQ up to cum has landed -/
  cum : Half
  /-- landed SEQs ahead of cum -/
  landed : List Half
  /-- landings since the last ACK -/
  unacked : Nat
  /-- cells parked until cum comes within 4,096 -/
  parked : List Cell
  deriving DecidableEq, Repr

/-- A held signal or add (R114, R120, R206). -/
structure PendingSignal where
  src : Half
  stream : BitVec 14
  seq : Half
  /-- what it covers; none once it is only a held barrier arrival -/
  cover : Option Half
  counter : Nat
  amount : Word
  /-- a multicast SIGNAL to relay: row or column (R120) -/
  mcast : Option Cell
  deriving DecidableEq, Repr

/-- A line queue of the sluice (R117): a line and the PUTs waiting for it. -/
structure SluiceLine where
  line : Nat
  /-- waiting parts, oldest first -/
  cells : List Cell
  /-- slot(L) in ns -/
  slot : Nat
  deriving DecidableEq, Repr

/-- TB_STATE (R122, R123). -/
inductive TbState where
  | unlocked | locked | holdover | master
  deriving DecidableEq, Repr

def TbState.code : TbState → Nat
  | .unlocked => 0 | .locked => 1 | .holdover => 2 | .master => 3

/-- The router, the Headgate and the timebase filter. -/
structure Tn where
  /-- cells that have just arrived (R99) -/
  arrivals : List Cell
  /-- the transit buffer (R101) -/
  transit : List Cell
  /-- cells offered for injection, oldest first -/
  inject : List Cell
  /-- when each port was last used, by the router's clock -/
  portUse : Tab Nat
  portClock : Nat
  /-- ports marked routing-down for a stale link-control slot (R92) -/
  stale : Tab Bool
  /-- cells ejected and not yet processed (R103) -/
  ejected : List Cell
  /-- bound send streams by STREAM (R108) -/
  streams : Tab (Option SendStream)
  contexts : List RxContext
  pendingSignals : List PendingSignal
  sluice : List SluiceLine
  /-- lines a PUT was applied to, and when (R117) -/
  recentPuts : Tab Nat
  /-- consecutive UNREACHABLE NACKs per destination (R125) -/
  unreach : Tab Nat
  /-- destinations held (R125) -/
  heldDests : Tab Bool
  tbState : TbState
  /-- nanoseconds the counter still adds, or withholds if negative (R122), and its last correction (R123) -/
  tbSlew : Int
  tbRate : Int
  /-- TB_PARENT (R121) -/
  tbParent : Word32
  /-- TB_OFFSET, ns (R127) -/
  tbOffset : Int
  /-- the last offsets, newest first, at most eight (R122) -/
  offsets : List Int
  /-- the timebase has locked once since reset (R122) -/
  everLocked : Bool
  /-- the TNREADY last sent (R92) -/
  readySent : Bool
  /-- the target of an outstanding PROBE (R127) -/
  probe : Option Half
  /-- PROBE_RESULT (R127) -/
  probeResult : Word
  deriving DecidableEq, Repr

def Tn.reset : Tn :=
  { arrivals := [], transit := [], inject := [], portUse := [], portClock := 0, stale := [],
    ejected := [], streams := [], contexts := [], pendingSignals := [], sluice := [], recentPuts := [], unreach := [], heldDests := [],
    tbState := .unlocked, tbSlew := 0, tbRate := 0, tbParent := 0xFFFFFFFF, tbOffset := 0, offsets := [], everLocked := false,
    readySent := false, probe := none, probeResult := 0 }

end Sys2Proof.Machine
end

