-- ==== Sys2Proof/Machine/Types/Gn.lean ====
section
/-! DEFINITION. The state of the general network and the rack window (04_general_network_rack_memory). -/

namespace Sys2Proof.Machine

/-- A window entry (R143): the staged bytes 0–23 and the value in use (R145). -/
structure WindowEntry where
  /-- bytes 0–23 as last written -/
  staged : BitVec 192
  /-- the value in use -/
  live : BitVec 256
  deriving DecidableEq, Repr

/-- LIMIT resets to 0xFFF, everything else to zero (R143). -/
def WindowEntry.reset : WindowEntry := ⟨0xFFF#192 <<< 76, 0xFFF#256 <<< 76⟩

/-- Where the data of a READ, or the old value of an ATOMIC, goes. -/
inductive Sink where
  /-- nowhere -/
  | none
  /-- register rd of core c: bytes, sign extension, floating-point file; the instruction's length -/
  | reg (c : Nat) (rd : Nat) (bytes : Nat) (signed : Bool) (fp : Bool) (len : Nat)
  /-- chip memory from an offset on, with a cache hint -/
  | mem (addr : Nat) (hint : BitVec 2)
  deriving DecidableEq, Repr

/-- A rack request of this chip (R157): what was asked and who waits for it. -/
structure GnReq where
  tag : Half
  pkt : GnPacket
  /-- the packet's first rack address -/
  rack : Nat
  /-- the port it leaves on -/
  port : Nat
  /-- the port-map index of a window under PIN (R149) -/
  pin : Option Nat
  work : Work
  sink : Sink
  deriving DecidableEq, Repr

/-- A WRITE_FLAGGED that waits for earlier operations to its target (R154, R155). -/
structure FlaggedHold where
  req : GnReq
  /-- the tags it waits for -/
  waitFor : List Half
  /-- the first status other than OK among them -/
  failed : Option Status
  deriving DecidableEq, Repr

/-- A packet queued at a port's output (R139). -/
structure OutPacket where
  port : Nat
  pkt : GnPacket
  /-- it has waited 1 ms (R139) -/
  aged : Bool
  deriving DecidableEq, Repr

/-- Credits of one port (R138), VC 0–7. -/
structure GnCredits where
  /-- slots this end may send -/
  tx : List Nat
  /-- slots received and not yet returned -/
  owed : List Nat
  /-- round-robin pointers of the two groups (R139) -/
  rr1 : Nat
  rr2 : Nat
  deriving DecidableEq, Repr

def GnCredits.none : GnCredits := ⟨List.replicate 8 0, List.replicate 8 0, 0, 0⟩

/-- The general network unit. -/
structure Gn where
  /-- RACK_MEMBERS (R141) -/
  members : List Nat
  window : Tab WindowEntry
  /-- outstanding requests by tag (R157), oldest first -/
  reqs : List GnReq
  /-- requests that wait for a tag (R157), oldest first -/
  waiting : List GnReq
  /-- requests held because their granule moved to a new port (R153) -/
  granuleHeld : List GnReq
  flaggedHeld : List FlaggedHold
  /-- packets at the port outputs, oldest first -/
  outq : List OutPacket
  credits : Tab GnCredits
  /-- packets started on a port and not yet acknowledged by its link: port, the port's slot count at their last slot, packet -/
  unacked : List (Nat × Nat × GnPacket)
  /-- packets a failed or drained port returned (R140): port, packet -/
  returned : List (Nat × GnPacket)
  /-- Dead targets (R158) -/
  dead : List Nat
  /-- the usable GN ports when PORT_MAP was last rebuilt (R149) -/
  usable : List Nat
  /-- next tag to try -/
  nextTag : Half
  deriving DecidableEq, Repr

def Gn.reset : Gn :=
  { members := [], window := [], reqs := [], waiting := [], granuleHeld := [], flaggedHeld := [], outq := [], credits := [],
    unacked := [], returned := [], dead := [], usable := [], nextTag := 0 }

end Sys2Proof.Machine
end

