-- ==== Sys2Proof/Machine/Types/Core.lean ====
section
/-! DEFINITION. The state of a core: control core, units, matrix array (09_compute_core, 10_matrix_array). -/

namespace Sys2Proof.Machine

/-- CORE_STATE (R305). -/
inductive CoreState where
  | offline | idle | starting | running | ending | draining | testing
  deriving DecidableEq, Repr

def CoreState.code : CoreState → Nat
  | .offline => 0 | .idle => 1 | .starting => 2 | .running => 3 | .ending => 4 | .draining => 5 | .testing => 6

/-- The fault causes of R300. -/
inductive Cause where
  | addr | withdrawn | align | illegal | det | poison | remote | unit | brk | time | cancel | hw
  deriving DecidableEq, Repr

def Cause.code : Cause → Byte
  | .addr => 0x01 | .withdrawn => 0x02 | .align => 0x03 | .illegal => 0x04 | .det => 0x05 | .poison => 0x06
  | .remote => 0x07 | .unit => 0x08 | .brk => 0x09 | .time => 0x0A | .cancel => 0x0B | .hw => 0x0C

/-- The core status of a cause (R300); UNIT and REMOTE carry their own. -/
def Cause.status : Cause → Status
  | .addr => .refused | .withdrawn => .mappedOut | .align => .refused | .illegal => .refused | .det => .refused
  | .poison => .poisoned | .remote => .timeout | .unit => .poisoned | .brk => .refused | .time => .timeout
  | .cancel => .cancelled | .hw => .poisoned

/-- FAULT_RECORD (R304). -/
structure FaultRecord where
  timestamp : Word
  addr : Word
  pc : Word
  index : Half
  queue : BitVec 14
  unit : BitVec 2
  sub : Byte
  status : Byte
  cause : Byte
  deriving DecidableEq, Repr

def FaultRecord.zero : FaultRecord := ⟨0, 0, 0, 0, 0, 0, 0, 0, 0⟩

/-- A unit instruction as issued: operands and CSRs captured (R284, R292). -/
inductive UnitOp where
  /-- XQWAIT (R288) -/
  | wait (ctr : Nat) (threshold : Word)
  /-- XDCOPY -/
  | dcopy (dst src : Word) (len : Nat) (cfg : Word)
  /-- XDCOPY2 -/
  | dcopy2 (dst src : Word) (rowBytes rows : Nat) (srcStride dstStride : Nat) (cfg : Word)
  /-- XDFILL -/
  | dfill (dst : Word) (pattern : Word) (len : Nat) (cfg : Word)
  /-- XALDW: stride, address in own memory, bank, D, N, xatype -/
  | aldw (stride addr : Nat) (bank d n : Nat) (atype : Word)
  /-- XAMM: stride, address, bank, M, first row, ACCUM, SPARSE, xatype, and the bank's D and N by its shadow -/
  | amm (stride addr : Nat) (bank m row : Nat) (accum sparse : Bool) (atype : Word) (d n : Nat)
  /-- XADRAIN: destination, first row, rows, CLEAR, stride, xatype -/
  | adrain (dst : Nat) (row rows : Nat) (clear : Bool) (stride : Nat) (atype : Word)
  /-- XACLR -/
  | aclr (row rows : Nat)
  /-- a vector instruction: FUNCT7, form, rd, rs1, the value rs2 gives, xvcount, xvtype, xvmask, frm, xsrtp, VEC_TRAP_EN -/
  | vec (op : Nat) (form : Nat) (rd rs1 : Word) (b : Word) (vcount vtype vmask : Word) (rm : BitVec 3) (srtp : Word)
      (trap : Byte)
  deriving DecidableEq, Repr

/-- A unit instruction in its queue or started. -/
structure UnitInstr where
  /-- its place in the core's issue order -/
  id : Nat
  op : UnitOp
  /-- the core-local counter it signals (R284) -/
  sig : Option Nat
  /-- remote tags still outstanding, for the core DMA -/
  outstanding : Nat
  /-- the fault its execution met: SUB and status (R327, R347, R293) -/
  fault : Option (Byte × Status)
  /-- the faulting address, zero if none -/
  faultAddr : Word
  deriving DecidableEq, Repr

/-- Why the instruction at a control core's pc has not retired yet. -/
inductive Stall where
  /-- XWAITL -/
  | waitL (ctr : Nat) (threshold : Word)
  /-- XWAITC -/
  | waitC (ctr : Nat) (threshold : Word)
  /-- XWAITU -/
  | waitU (units : BitVec 3)
  /-- XSIGC whose add is held by a barrier; once settled, the status it retires with (R287) -/
  | sigC (status : Option Nat)
  /-- a load, AMO or store that waits for the rack -/
  | rack
  /-- anything else that waits: stores to land, a unit's queue to have room, units to end -/
  | busy
  deriving DecidableEq, Repr

/-- The kernel a core runs (R294–R297). -/
structure KernelCtx where
  queue : Nat
  num : Word32
  /-- the image's offset, code length and time limit in ms -/
  code : Nat
  codeLen : Nat
  timeLimit : Nat
  fateShare : Bool
  deriving DecidableEq, Repr

/-- A weight bank (R311–R315). -/
structure Bank where
  loaded : Bool
  wfmt : BitVec 4
  d : Nat
  n : Nat
  /-- K rows of N element codes -/
  rows : List (List Nat)
  /-- K / 32 rows of N scale bytes, for MX formats -/
  scales : List (List Nat)
  deriving DecidableEq, Repr

def Bank.empty : Bank := ⟨false, 0, 0, 0, [], []⟩

/-- The kinds of an accumulator row (R317). -/
inductive AccKind where
  | empty | fixed | mxf32 | xf32
  deriving DecidableEq, Repr

def AccKind.code : AccKind → Nat
  | .empty => 0 | .fixed => 1 | .mxf32 => 2 | .xf32 => 3

/-- The class of a FIXED entry (R317). -/
inductive AccClass where
  | finite | posInf | negInf | nan
  deriving DecidableEq, Repr

/-- An accumulator entry: 88 data bits and its class (R311). -/
structure AccEntry where
  bits : BitVec 88
  cls : AccClass
  deriving DecidableEq, Repr

def AccEntry.zero : AccEntry := ⟨0, .finite⟩

/-- An accumulator row: its tag and its entries (R317). -/
structure AccRow where
  kind : AccKind
  poison : Bool
  integer : Bool
  fpos : Nat
  entries : Tab AccEntry
  deriving DecidableEq, Repr

def AccRow.empty : AccRow := ⟨.empty, false, false, 0, []⟩

/-- The matrix array of a core. -/
structure ArraySt where
  banks : Tab Bank
  /-- the control core's shadow of the tags: LOADED, WFMT, D, N (R315) -/
  shadow : Tab (Bool × BitVec 4 × Nat × Nat)
  /-- accumulator rows 0–1,023 -/
  acc : Tab AccRow
  deriving DecidableEq, Repr

def ArraySt.reset : ArraySt := ⟨[], [], []⟩

/-- A core. -/
structure CoreSt where
  /-- CORE_STATE (R305) -/
  state : CoreState
  /-- in Fallow (R305 bit 7, R431) -/
  fallow : Bool
  /-- its units in Fallow, by unit number (R431) -/
  unitFallow : BitVec 4
  pc : Word
  /-- x1–x31 and f0–f31 -/
  x : Tab Word
  f : Tab Word
  /-- fcsr: frm and fflags -/
  frm : BitVec 3
  fflags : BitVec 5
  /-- the Xdxn CSRs 0x800–0x80A (R284) -/
  csrs : Tab Word
  /-- instret (R280) -/
  instret : Word
  /-- cycle (R280): one cycle at least for each instruction retired, and the free stalls that reads have shown -/
  cycle : Word
  /-- the LR reservation: address and bytes -/
  reservation : Option (Nat × Nat)
  /-- code may be held in the instruction cache (R281) -/
  icache : Bool
  stall : Option Stall
  /-- its registered waits on its own counters, oldest first: unit, counter, which wait of the unit (R208) -/
  localWaits : List (Nat × Nat × Nat)
  /-- the queues of units 1–3 (R274) -/
  arrayQ : List UnitInstr
  vectorQ : List UnitInstr
  dmaQ : List UnitInstr
  /-- started and not completed, by unit -/
  arrayRun : List UnitInstr
  vectorRun : List UnitInstr
  dmaRun : List UnitInstr
  /-- unit instructions issued so far -/
  issued : Nat
  /-- rack stores without a response -/
  storesOut : Nat
  kernel : Option KernelCtx
  /-- the control core has stopped issuing: XEND, or a fault (R298, R301) -/
  ended : Bool
  /-- the kernel faulted or ended, and its units run out (R298, R301) -/
  faulted : Option (Cause × Status)
  /-- where a drain leads: true Offline, false Idle (R306, R307) -/
  drainOffline : Bool
  /-- the self-test running was started by CORE_ADMIN or ENGINE_ADMIN (R307, R406) -/
  adminTest : Bool
  /-- FAULT_RECORD (R304) -/
  fault : FaultRecord
  array : ArraySt
  deriving DecidableEq, Repr

/-- A core after reset (R305, R308). -/
def CoreSt.reset : CoreSt :=
  { state := .idle, fallow := false, unitFallow := 0, pc := 0, x := [], f := [], frm := 0, fflags := 0, csrs := [], instret := 0, cycle := 0,
    reservation := none, icache := false, stall := none, localWaits := [], arrayQ := [], vectorQ := [], dmaQ := [], arrayRun := [],
    vectorRun := [], dmaRun := [], issued := 0, storesOut := 0, kernel := none, ended := false, faulted := none, drainOffline := false,
    adminTest := false, fault := FaultRecord.zero, array := ArraySt.reset }

end Sys2Proof.Machine
end

