-- ==== Sys2Proof/Machine/Types/Cellar.lean ====
section
/-! DEFINITION. The state of the cellar dies and the parameter update (13_cellar_update). -/

namespace Sys2Proof.Machine

/-- An UPDATE at one cellar die (R387–R389). -/
structure UpdateJob where
  queue : Nat
  num : Word32
  ndesc : Nat
  lrScale : Word32
  step : Word
  user : Word32
  hint : BitVec 2
  noWorking : Bool
  hold : Bool
  /-- this die's layers still to run, ascending: index, descriptor, and for USER the program's header -/
  todo : List (Nat × BitVec 1024 × BitVec 512)
  /-- a layer of it has started -/
  begun : Bool
  deriving DecidableEq, Repr

/-- The layer a die runs. -/
structure LayerRun where
  index : Nat
  /-- its 128-byte descriptor (R392) -/
  desc : BitVec 1024
  /-- what the checks at its start ended it with (R390) -/
  early : Option Status
  /-- USER: the engines still running -/
  engines : List Nat
  /-- USER: engines that did not end OK, with their statuses -/
  failed : List (Nat × Status)
  deriving DecidableEq, Repr

/-- One entry of the ratio ring (R402). -/
structure RatioEntry where
  step : Word
  timestamp : Word
  layerId : Word32
  ratio : Word32
  rmsW : Word32
  status : Byte
  rule : Byte
  held : Bool
  high : Bool
  low : Bool
  deriving DecidableEq, Repr

def RatioEntry.zero : RatioEntry := ⟨0, 0, 0, 0, 0, 0, 0, false, false, false⟩

/-- One cellar die. -/
structure CellarDie where
  /-- UPDATEs in start order; the first is the one running -/
  jobs : List UpdateJob
  layer : Option LayerRun
  /-- LAYERS_DONE, CEL_CE, CEL_UE (R406) -/
  layersDone : Word
  ce : Word
  ue : Word
  /-- that it is OneLink has been reported (R385) -/
  oneLinkSeen : Bool
  deriving DecidableEq, Repr

def CellarDie.reset : CellarDie := ⟨[], none, 0, 0, 0, false⟩

/-- The cellar. -/
structure Cellar where
  dies : Tab CellarDie
  ratioRing : Tab RatioEntry
  ratioNext : Nat
  /-- working-copy bytes of UPDATEs under a digest (R491): queue, number, layer, bytes -/
  digestBytes : List (Nat × Word32 × Nat × List Byte)
  deriving DecidableEq, Repr

def Cellar.reset : Cellar := ⟨[], [], 0, []⟩

end Sys2Proof.Machine
end

