-- ==== Sys2Proof/Machine/Types/Coll.lean ====
section
/-! DEFINITION. The state of communicators and collectives (07_collectives). -/

namespace Sys2Proof.Machine

/-- STATE of a communicator slot (R213). -/
inductive CommState where
  | unbound | bound | draining | failed
  deriving DecidableEq, Repr

def CommState.code : CommState → Nat
  | .unbound => 0 | .bound => 1 | .draining => 2 | .failed => 3

/-- A communicator slot: its descriptor (R213) and the member list read at binding (R214). -/
structure CommSlot where
  enable : Bool
  commId : Half
  nmembers : BitVec 13
  myIndex : BitVec 12
  members : Word
  errBase : Word
  membersHash : Word32
  nextSeq : Word32
  startSeq : Word32
  state : CommState
  /-- the member chips in index order, while bound -/
  list : List Half
  deriving DecidableEq, Repr

def CommSlot.zero : CommSlot := ⟨false, 0, 0, 0, 0, 0, 0, 0, 0, .unbound, []⟩

/-- A START received for a sequence (R227–R229, R238). -/
structure StartRec where
  member : Nat
  sig : Word
  offered : Word32
  /-- timebase at receipt -/
  time : Word
  deriving DecidableEq, Repr

/-- A grant received or local (R231). -/
structure GrantRec where
  member : Nat
  kept : Nat
  rowOffset : Nat
  deriving DecidableEq, Repr

/-- The owner's progress on one piece of its block (R222, R224). -/
structure PieceAcc where
  piece : Nat
  /-- members whose contribution has been applied -/
  applied : List Nat
  acc : List Byte
  deriving DecidableEq, Repr

/-- The command's fields (R217). -/
structure CollCmd where
  src : Nat
  dst : Nat
  count : Nat
  commId : Half
  op : Nat
  dtype : Nat
  redop : Nat
  rootRow : Nat
  capacity : Nat
  arrivalOrder : Bool
  bulk : Bool
  /-- the command's HINT (R172) -/
  hint : BitVec 2
  deriving DecidableEq, Repr

/-- A started collective (R221–R223): one context. -/
structure Collective where
  slot : Nat
  seq : Word32
  queue : Nat
  num : Word32
  cmd : CollCmd
  sig : Word
  /-- timebase at its start -/
  tStart : Word
  starts : List StartRec
  /-- its own start came after every other START (R238) -/
  selfLast : Bool
  grants : List GrantRec
  /-- the grants this destination has made, in member order (R231) -/
  given : List GrantRec
  /-- P of R231 -/
  rowsKept : Nat
  /-- owner accumulators -/
  pieces : List PieceAcc
  /-- phase-1 pieces landed: member, piece -/
  landed : List (Nat × Nat)
  /-- ALLTOALL_PADDED: OFFERED of the source's header (R230) -/
  offers : List Nat
  /-- gathering STARTs after a difference (R229) -/
  gathering : Bool
  /-- a cell it sent will never be acknowledged (R106, R126, R223) -/
  lost : Bool
  deriving DecidableEq, Repr

/-- A started COLLECTIVE command that waits for TNREADY, a context, room on its communicator or its streams (R92, R221). -/
structure CollWait where
  queue : Nat
  num : Word32
  cmd : CollCmd
  /-- timebase at the command's start -/
  tStart : Word
  deriving DecidableEq, Repr

/-- A cell in the early-arrival store (R232). -/
structure EarlyCell where
  cell : Cell
  /-- its communicator, once known: a COLL_CTRL cell carries it, a COLL_DATA cell's context records it (R226) -/
  comm : Option Half
  /-- timebase at its arrival -/
  time : Nat
  deriving DecidableEq, Repr

/-- One entry of LATE_RING (R238). -/
structure LateEntry where
  commId : Half
  seq : Word32
  last : BitVec 12
  self : Bool
  spread : Word
  deriving DecidableEq, Repr

def LateEntry.zero : LateEntry := ⟨0, 0, 0, false, 0⟩

/-- Communicators, collectives in flight and the early-arrival store. -/
structure Coll where
  comms : Tab CommSlot
  /-- at most 2,048 contexts, oldest first (R221) -/
  active : List Collective
  /-- started commands without a context, oldest first (R221) -/
  waiting : List CollWait
  /-- COMM_ID of a receive context: source, stream, id (R226) -/
  contextComm : List (Half × BitVec 14 × Half)
  early : List EarlyCell
  /-- sequences completed on each slot are those below NEXT_SEQ and not active -/
  lateRing : Tab LateEntry
  /-- LATE_NEXT (R239) -/
  lateNext : Nat
  deriving DecidableEq, Repr

def Coll.reset : Coll := ⟨[], [], [], [], [], [], 0⟩

end Sys2Proof.Machine
end

