-- ==== Sys2Proof/Machine/Types/Hbm.lean ====
section
/-! DEFINITION. The state of HBM, its cache and the headland (08_memory_system). -/

namespace Sys2Proof.Machine

/-- The channel states of R261, in the order CH_STATE reports them. -/
inductive ChState where
  | healthy | pending | migrating | mappedOut | retained
  deriving DecidableEq, Repr

def ChState.code : ChState → Nat
  | .healthy => 0 | .pending => 1 | .migrating => 2 | .mappedOut => 3 | .retained => 4

/-- The causes of R260 with their codes. -/
inductive MapCause where
  | pinGroup | ueRows | ceRate | margin | unresponsive | request
  deriving DecidableEq, Repr

def MapCause.code : MapCause → Nat
  | .pinGroup => 1 | .ueRows => 2 | .ceRate => 3 | .margin => 4 | .unresponsive => 5 | .request => 6

/-- One HBM channel. -/
structure Channel where
  /-- CH_STATE (R261) -/
  state : ChState
  /-- why it was judged bad (R260) -/
  cause : Option MapCause
  /-- consecutive requests without a response (R260) -/
  silent : Nat
  /-- it answers nothing: poison mode (R260) -/
  unresponsive : Bool
  /-- its bad verdict waits under MAPOUT_AUTO FALSE (R260) -/
  waiting : Bool
  deriving DecidableEq, Repr

def Channel.reset : Channel := ⟨.healthy, none, 0, false, false⟩

/-- One corrected line, as R256 and R258 count them. -/
structure Correction where
  bank : Nat
  row : Nat
  /-- the pin groups its corrected symbols lie in -/
  groups : List Nat
  /-- AON time -/
  time : Nat
  /-- the line was uncorrectable -/
  ue : Bool
  deriving DecidableEq, Repr

/-- One pin's window of a margin sweep (R269, R272 MARGIN_VIEW). -/
structure PinWindow where
  left : Int
  right : Int
  vlow : Int
  vhigh : Int
  deriving DecidableEq, Repr

/-- One pseudo-channel. -/
structure PseudoChannel where
  /-- CH_PIN_GROUPS: marked groups, 9 bits (R256) -/
  groups : BitVec 9
  /-- corrections and uncorrectable lines of the last 24 h (R256, R258) -/
  history : List Correction
  /-- rows in which an uncorrectable line could not be repaired: bank, row, AON time (R260) -/
  badRows : List (Nat × Nat × Nat)
  /-- rows repaired: bank, row, AON time (R258) -/
  repairs : List (Nat × Nat × Nat)
  /-- MARGIN_VIEW: the last sweep's windows and its timebase (R272) -/
  windows : List PinWindow
  windowTime : Word
  /-- windows that failed the bring-up check, each with whether it is one of VREF (R268, R478) -/
  bootNarrow : List (Bool × Nat)
  /-- 0x4804 was raised in this MARGIN_PERIOD (R269) -/
  deferred : Bool
  /-- a sweep was asked for that has not started yet (R269) -/
  sweepDue : Bool
  /-- the bank group refreshed next (R271) -/
  bankGroup : Nat
  /-- it runs the newly activated controller table (R470) -/
  newTable : Bool
  deriving DecidableEq, Repr

def PseudoChannel.reset : PseudoChannel := ⟨0, [], [], [], [], 0, [], false, false, 0, false⟩

/-- A unit on its way to its donor (R263). Units are numbered 1,024 × pseudo-channel + unit. -/
structure UnitCopy where
  unit : Nat
  donor : Nat
  /-- lines of the unit written whole during the copy, by their place in the unit -/
  written : List Nat
  /-- the sanitising zeroed the unit in both places (R265) -/
  zeroed : Bool
  deriving DecidableEq, Repr

/-- The unit and its donor. -/
def UnitCopy.pair (c : UnitCopy) : Nat × Nat := (c.unit, c.donor)

/-- A unit gets another donor. -/
def redonorPair (u d : Nat) (t : Nat × Nat) : Nat × Nat := if t.1 = u then (u, d) else t
def UnitCopy.redonor (u d : Nat) (c : UnitCopy) : UnitCopy := if c.unit = u then { c with donor := d } else c

/-- A map-out in progress (R262–R264). -/
structure Migration where
  channel : Nat
  cause : MapCause
  /-- poison mode (R260) -/
  poison : Bool
  /-- AON time of the start -/
  start : Nat
  /-- its donor units have been chosen (R262) -/
  chosen : Bool
  /-- units still to move with their donors, in ascending order -/
  todo : List (Nat × Nat)
  /-- units being copied, at most eight -/
  copying : List UnitCopy
  deriving DecidableEq, Repr

/-- The units that have yet to switch, with the donors chosen for them. -/
def Migration.promised (m : Migration) : List (Nat × Nat) := m.todo ++ m.copying.map UnitCopy.pair

def Migration.redonor (u d : Nat) (m : Migration) : Migration :=
  { m with todo := m.todo.map (redonorPair u d), copying := m.copying.map (UnitCopy.redonor u d) }

/-- A map-out without a unit. -/
def Migration.without (u : Nat) (m : Migration) : Migration :=
  { m with todo := m.todo.filter (·.1 != u), copying := m.copying.filter (·.unit != u) }

/-- A capacity shrink that is announced and not yet done (R266). -/
structure Shrink where
  channel : Nat
  cause : MapCause
  deriving DecidableEq, Repr

/-- The phases of a margin sweep (R269). -/
inductive SweepPhase where
  | draining | sweeping | copyingBack
  deriving DecidableEq, Repr

/-- A margin sweep in progress (R269). -/
structure Sweep where
  pc : Nat
  phase : SweepPhase
  /-- units that have yet to move in this phase, with their donors, in ascending order -/
  todo : List (Nat × Nat)
  /-- units being copied, at most eight (R263) -/
  copying : List UnitCopy
  /-- units drained, with their donors -/
  moved : List (Nat × Nat)
  deriving DecidableEq, Repr

/-- The units that have yet to switch, with their donors. -/
def Sweep.promised (w : Sweep) : List (Nat × Nat) := w.todo ++ w.copying.map UnitCopy.pair

/-- The units that stand at their donors: in the copy back, those that have not returned. -/
def Sweep.away (w : Sweep) : List (Nat × Nat) :=
  match w.phase with
  | .copyingBack => w.promised
  | _ => w.moved

/-- The donors a sweep holds. -/
def Sweep.donors (w : Sweep) : List Nat := (w.promised ++ w.moved).map (·.2)

/-- A sweep with some of its units. -/
def Sweep.keep (f : Nat → Bool) (w : Sweep) : Sweep :=
  { w with todo := w.todo.filter (f ·.1), copying := w.copying.filter (f ·.unit), moved := w.moved.filter (f ·.1) }

/-- A sweep without a unit. -/
def Sweep.without (u : Nat) (w : Sweep) : Sweep := w.keep (· != u)

def Sweep.redonor (u d : Nat) (w : Sweep) : Sweep :=
  { w with todo := w.todo.map (redonorPair u d), copying := w.copying.map (UnitCopy.redonor u d)
           moved := w.moved.map (redonorPair u d) }

/-- One line of the memory-side cache (R249–R251). -/
structure CacheLine where
  dirty : Bool
  /-- HBM's own copy where it differs from the line: its bytes and its poison mark -/
  under : Option (List Byte × Bool)
  keep : Bool
  /-- use order, for least recently used -/
  stamp : Nat
  deriving DecidableEq, Repr

/-- A unit all of whose lines are poisoned but those written since, by their place in the unit (R263, poison mode). -/
structure UnitPoison where
  unit : Nat
  clean : List Nat
  deriving DecidableEq, Repr

/-- One stack (R271). -/
structure Stack where
  selfRefresh : Bool
  /-- tREFI is halved, above 85 °C until 80 °C -/
  fastRefresh : Bool
  /-- row activations are capped, above 95 °C -/
  actCap : Bool
  deriving DecidableEq, Repr

def Stack.reset : Stack := ⟨false, false, false⟩

/-- One record of MAPOUT_LOG (R272). -/
structure MapoutRecord where
  channel : Nat
  cause : Nat
  mode : Nat
  durationMs : Nat
  time : Word
  deriving DecidableEq, Repr

/-- HBM, its cache and the headland. -/
structure Hbm where
  /-- V, visible units per pseudo-channel (R259) -/
  v : Nat
  /-- V as it stood at cold boot -/
  vBoot : Nat
  /-- bytes 24–31 of the 64 interleave entries (R245) -/
  interleave : Tab Word
  channels : Tab Channel
  pcs : Tab PseudoChannel
  /-- unit to donor unit, for relocated units (R262, R263) -/
  remap : Tab (Option Nat)
  migration : Option Migration
  /-- channels judged bad that wait, in the order they were judged (R261) -/
  waitingChannels : List Nat
  shrink : Option Shrink
  sweeps : List Sweep
  /-- the cached lines by line number (R249) -/
  cache : Tab (Option CacheLine)
  /-- the clock of the use order -/
  cacheClock : Nat
  /-- lines of HBM, the cellar and the core memories stored poisoned (R255, R275, R386) -/
  poison : Tab Bool
  unitPoison : List UnitPoison
  /-- bytes and poisoned lines of HBM that no valid entry maps, by channel × 3 GiB + channel address (lines: / 64) -/
  hidden : Tab Byte
  hiddenPoison : Tab Bool
  hbmStacks : Tab Stack
  mapoutLog : List MapoutRecord
  deriving DecidableEq, Repr

/-- Entry 0's word for V visible units: valid, GLOBAL, SIZE_GIB 3 V (R245, R246). -/
def Hbm.entry0 (v : Nat) : Word :=
  (1#64 <<< 63) ||| (BitVec.ofNat 64 (3 * v) <<< 20)

def Hbm.reset : Hbm :=
  { v := 1008, vBoot := 1008, interleave := [(0, Hbm.entry0 1008)], channels := [], pcs := [], remap := [],
    migration := none, waitingChannels := [], shrink := none, sweeps := [], cache := [], cacheClock := 0,
    poison := [], unitPoison := [], hidden := [], hiddenPoison := [], hbmStacks := [], mapoutLog := [] }

end Sys2Proof.Machine
end

