-- ==== Sys2Proof/Machine/Types/Link.lean ====
section
/-! DEFINITION. The state of the 34 die-to-die links and of the panel (01_package_dies). -/

namespace Sys2Proof.Machine

/-- The link states of R40, in the order LINK_STATE reports them. -/
inductive LinkState where
  | down | training | exchange | active | sparing | degraded | quarantined | failed
  deriving DecidableEq, Repr

/-- LINK_STATE of a state (R45). -/
def LinkState.code : LinkState → Nat
  | .down => 0 | .training => 1 | .exchange => 2 | .active => 3 | .sparing => 4 | .degraded => 5
  | .quarantined => 6 | .failed => 7

/-- A live module swap (R43). -/
structure Swap where
  /-- the module being retired -/
  module : Nat
  /-- this side decided it, and sends SWITCH -/
  own : Bool
  /-- the spare is trained and its pattern passed -/
  trained : Bool
  /-- the flit sequence n + 64 at which both ends switch, once SWITCH is sent -/
  switchAt : Option Nat
  deriving DecidableEq, Repr

/-- One die-to-die link. -/
structure Link where
  /-- LINK_STATE (R40) -/
  state : LinkState
  /-- modules offered for data (R34 MODULES_ACTIVE) -/
  offered : Nat
  /-- modules offered at the bring-up after the dies' last reset (R40) -/
  firstOffer : Nat
  /-- LINK_MODULES: active modules, zero before Active (R45) -/
  modules : Nat
  /-- LINK_RATE code, zero before Active (R45) -/
  rate : Byte
  /-- modules and rate that UCIe training reached (R38) -/
  trainedModules : Nat
  trainedRate : Byte
  /-- PEER_DESC (R45): the 256 bytes received, none before Exchange -/
  peerDesc : List Byte
  /-- SETTLED: the settled set (R36, R37) -/
  settled : Option Settle
  /-- SPARES_LEFT, MODULES_SPARE (R34, R45) -/
  sparesLeft : Nat
  /-- LANE_REPAIRS (R45) -/
  laneRepairs : Nat
  /-- CRC_RETRIES, 64 bits (R45) -/
  crcRetries : Word
  /-- adapter CRC retries of the last second: module, lane, AON_TIME and number (R43) -/
  laneHits : List (Nat × Nat × Nat × Nat)
  /-- lanes over LANE_RETRY_LIMIT, (module, lane), to repair at the module's next retrain (R43) -/
  lanesDue : List (Nat × Nat)
  /-- the two SETTLE messages agreed (R37) -/
  agreed : Bool
  /-- differing SETTLE rounds (R37) -/
  rounds : Nat
  /-- invalid descriptors received in this exchange (R36) -/
  badDescs : Nat
  /-- failed bring-up attempts (R39) -/
  attempts : Nat
  /-- the peer's credit grants P0–P3 (R31, R34) -/
  credits : List Nat
  /-- messages of a class whose grant has no room for them, in order (R31) -/
  waiting : List GdpMsg
  /-- the unit number assigned to a peer that is no die of the D3's own (R26) -/
  unit : Option Byte
  /-- requests without a response (R33) -/
  outstanding : List GdpMsg
  /-- the swap in progress (R43) -/
  swap : Option Swap
  /-- modules that failed during a swap and wait for it, with the side that decided (R43) -/
  queued : List (Nat × Bool)
  deriving DecidableEq, Repr

/-- What R25 gives each link kind: data modules and spares. -/
def Link.modulesOf (l : Nat) : Nat × Nat :=
  if l < 10 then (24, 2) else if l < 14 then (8, 0) else (18, 2)

/-- A link after reset (R40, R45): Down, with the full complement of R25 (fuse values, DESIGN CHOICE log 4). -/
def Link.reset (l : Nat) : Link :=
  { state := .down, offered := (Link.modulesOf l).1, firstOffer := (Link.modulesOf l).1, modules := 0, rate := 0, trainedModules := 0, trainedRate := 0,
    peerDesc := [], settled := none, sparesLeft := (Link.modulesOf l).2, laneRepairs := 0, crcRetries := 0,
    laneHits := [], lanesDue := [], agreed := false, rounds := 0, badDescs := 0, attempts := 0, credits := [0, 0, 0, 0], waiting := [],
    unit := none, outstanding := [], swap := none, queued := [] }

/-- The minimum number of modules (R42). -/
def Link.minModules (l : Nat) : Nat :=
  if l < 10 then 12 else if l < 14 then 4 else 9

end Sys2Proof.Machine
end

