-- ==== Sys2Proof/Machine/Types/Mgmt.lean ====
section
/-! DEFINITION. The state of Eulen management, boot, security, the event log and service (15_management_security,
16_service_at_scale). -/

namespace Sys2Proof.Machine

/-- One entry of the event log (R477). -/
structure LogEntry where
  seq : Word
  code : Half
  count : Word32
  timebase : Word
  aonTime : Word
  args : List Byte
  deriving DecidableEq, Repr

def LogEntry.zero : LogEntry := ⟨0, 0, 0, 0, 0, []⟩

/-- An open window of an event limited to one per second (R476). -/
structure RateWindow where
  code : Half
  unit : Nat
  /-- AON time at which it opened -/
  opened : Nat
  /-- the log slot whose COUNT it folds into, and that entry's sequence -/
  slot : Nat
  seq : Word
  deriving DecidableEq, Repr

/-- The event log (R476, R496). -/
structure EventLog where
  /-- the ring of 65,536 entries -/
  ring : Tab LogEntry
  /-- LOG_NEXT -/
  next : Nat
  /-- EVENT_SEQ: the sequence of the last event -/
  seq : Word
  windows : List RateWindow
  deriving DecidableEq, Repr

def EventLog.reset : EventLog := ⟨[], 0, 0, []⟩

/-- The Eulen status codes (R446). -/
inductive EStatus where
  | ok | noObject | type | access | role | busy | badMessage | imageInvalid | rollback
  deriving DecidableEq, Repr

def EStatus.code : EStatus → Byte
  | .ok => 0 | .noObject => 1 | .type => 2 | .access => 3 | .role => 4 | .busy => 5 | .badMessage => 6
  | .imageInvalid => 7 | .rollback => 8

/-- An Eulen response (R444): the request's TYPE, its REQ_ID, the status and the body. -/
structure Response where
  type : Byte
  reqId : Word32
  status : EStatus
  body : List Byte
  deriving DecidableEq, Repr

/-- An event waiting for a session's acknowledgement (R450). -/
structure UnackedEvent where
  entry : LogEntry
  resends : Nat
  deriving DecidableEq, Repr

/-- A snapshot copy of a BLOB: index × 256 + sub, the AON time it was made, its bytes (R448). -/
structure Copy where
  key : Nat
  time : Nat
  bytes : List Byte
  deriving DecidableEq, Repr

/-- An open management session (R441). -/
structure Session where
  id : Nat
  role : Role
  /-- opened on an unclaimed device: it may read, and write OWNER_ROOT (R443) -/
  claim : Bool
  /-- SUBSCRIBE: lowest severity and subsystem bitmap, none before it (R445, R450) -/
  subscription : Option (Byte × Half)
  /-- the last 64 responses, newest first (R447) -/
  kept : List Response
  /-- snapshot copies (R448) -/
  snapshot : List Copy
  unacked : List UnackedEvent
  deriving DecidableEq, Repr

/-- COMP_STATE (R473). -/
inductive CompState where
  | active | staged | activating | activationFailed | invalid
  deriving DecidableEq, Repr

def CompState.code : CompState → Nat
  | .active => 0 | .staged => 1 | .activating => 2 | .activationFailed => 3 | .invalid => 4

/-- A component: its slot in MRAM and its state (R461, R473). -/
structure Component where
  /-- the slot's image, header and payload; none: as manufactured -/
  image : Option (List Byte)
  state : CompState
  /-- SVN fuses blown in service (R460) -/
  floor : Nat
  deriving DecidableEq, Repr

def Component.reset : Component := ⟨none, .active, 0⟩

/-- An image transfer (R468). -/
structure Transfer where
  /-- its session; none: the UART -/
  session : Option Nat
  component : Nat
  total : Nat
  /-- the staging buffer, by offset -/
  data : Tab (Option Byte)
  deriving DecidableEq, Repr

/-- An activation (R470). -/
structure Activation where
  component : Nat
  /-- units that still run the old image, in order -/
  units : List Nat
  /-- the slot had failed at boot: no unit ran an older image (R457) -/
  fresh : Bool
  deriving DecidableEq, Repr

/-- Management, boot and security. -/
structure Mgmt where
  sessions : List Session
  nextSession : Nat
  /-- CLAIM_STATE (R443) -/
  claimed : Bool
  ownerRoot : List Byte
  ownerDebugKey : List Byte
  mgmtAddr : List Byte
  /-- how far the boot is: 1 Rom, 2 Firmware, 3 the dies run, 6 Ready (R455) -/
  stage : Nat
  /-- this boot began with power, or with RE_ARM (R71, R259, R429) -/
  coldBoot : Bool
  /-- Configure is open, since when (AON time), and has ended in this boot -/
  configOpen : Bool
  configSince : Nat
  configEnded : Bool
  /-- cores still in the boot subset: stages 4 and 5 end with the last of them -/
  booting : Bool
  /-- a component is missing, or a reduction unit differed: job-ready is withheld (R379, R457) -/
  withheld : Bool
  /-- AON time of the boot's origin (R4) -/
  bootOrigin : Nat
  /-- BOOT_COUNT, in MRAM -/
  bootCount : Word
  /-- RECOVERY_REQUEST was written (R472) -/
  recoveryRequest : Bool
  /-- the ROM recovery loader is running, or ran in this boot -/
  loader : Bool
  loaderRan : Bool
  /-- the management port's link is up (R455) -/
  linkUp : Bool
  /-- DEBUG_CHALLENGE, its scope, and whether a response to it still counts (R466) -/
  challenge : List Byte
  challengeScope : Nat
  challengeLive : Bool
  /-- DEBUG_SCOPE -/
  debugScope : Nat
  components : Tab Component
  transfer : Option Transfer
  /-- AON time of the last IMAGE message (R468) -/
  transferAt : Nat
  activation : Option Activation
  /-- KEYS_REVOKED fuses (R460) -/
  keysRevoked : BitVec 4
  /-- NV_BOOT_RESULT: cores and reduction units that passed (R381) -/
  nvCores : BitVec 256
  nvSites : BitVec 8
  /-- NV_FIRST_FAIL, empty until a record differs, and NV_BOOT_TIME (R381) -/
  nvFirstFail : List Byte
  nvBootTime : Nat
  deriving DecidableEq, Repr

def Mgmt.reset : Mgmt :=
  { sessions := [], nextSession := 1, claimed := false, ownerRoot := [], ownerDebugKey := [], mgmtAddr := [],
    stage := 1, coldBoot := true, configOpen := false, configSince := 0, configEnded := false, booting := false,
    withheld := false, bootOrigin := 0, bootCount := 0, recoveryRequest := false, loader := false,
    loaderRan := false, linkUp := false, challenge := [], challengeScope := 0, challengeLive := false,
    debugScope := 0, components := [], transfer := none, transferAt := 0, activation := none, keysRevoked := 0,
    nvCores := 0, nvSites := 0, nvFirstFail := [], nvBootTime := 0 }

/-- SERVICE_STATE (R482). -/
inductive ServiceState where
  | serving | draining | drained | quarantined | shadowing | verified | source
  deriving DecidableEq, Repr

def ServiceState.code : ServiceState → Nat
  | .serving => 0 | .draining => 1 | .drained => 2 | .quarantined => 3 | .shadowing => 4 | .verified => 5
  | .source => 6

/-- The pair of a SHADOW or SOURCE command (R481, R488). -/
structure Pair where
  peer : BitVec 20
  startStep : Word32
  ring : Nat
  ringLog2 : Nat
  counter : Nat
  deriving DecidableEq, Repr

/-- A mirror record (R489). -/
structure MirrorRecord where
  queue : Half
  index : Half
  status : Byte
  opcode : Byte
  segMap : Word
  digestA : Word
  digestB : Word
  deriving DecidableEq, Repr

/-- An effect the source mirrors (R489). -/
inductive MirrorEffect where
  | write (addr : Nat) (bytes : List Byte)
  | atomic (addr : Nat) (aop : BitVec 4) (size : Bool) (a b : Word)
  /-- not an effect: every effect of the command before it has been sent, so its record may be written -/
  | record (r : MirrorRecord)
  deriving DecidableEq, Repr

/-- Health and service. -/
structure Service where
  state : ServiceState
  /-- QUARANTINED, in MRAM (R484) -/
  quarantined : Bool
  /-- a QUARANTINE waits for the chip drain to finish (R482) -/
  quarantining : Bool
  /-- SERVICE_RESULT: command, status, timebase -/
  result : Byte × Byte × Word
  /-- HEALTH_SCORE and HEALTH_COMPONENTS (R478, R479) -/
  score : Nat
  components : List Nat
  /-- SUSPECT (R480) -/
  suspect : BitVec 3
  /-- 0x4E01 may be raised again (R479) -/
  warnArmed : Bool
  pair : Option Pair
  /-- the start marker has been passed: mirroring or comparison is on (R489, R492) -/
  pairActive : Bool
  /-- mirrored effects without an acknowledgement: tag and bytes (R489) -/
  mirrorOut : List (Half × Nat)
  /-- records of completed commands whose mirrored effects have their acknowledgements, not written yet (R489) -/
  mirrorRecords : List MirrorRecord
  /-- effects not yet sent, oldest first -/
  mirrorQueue : List MirrorEffect
  /-- the backlog episode (0x4E03) is on -/
  lagEpisode : Bool
  /-- records written (R489) -/
  recordsWritten : Nat
  /-- COUNTER's value when SHADOW or SOURCE was written: it counts the records from there (R489, R490) -/
  counterBase : Word
  /-- digests of network-facing commands that have run: queue, number, a, b (R491) -/
  digests : List (Nat × Word32 × Word × Word)
  /-- SHADOW_EQUAL, SHADOW_MISMATCHES, SHADOW_LAST (R492, R496) -/
  shadowEqual : Nat
  shadowMismatches : Word
  shadowLast : List Byte
  /-- the step being compared and whether it is equal so far -/
  step : Word32
  stepEqual : Bool
  /-- numbers of the records the shadow has consumed, those still in its ring -/
  recordsTaken : List Nat
  deriving DecidableEq, Repr

def Service.reset : Service :=
  { state := .serving, quarantined := false, quarantining := false, result := (0, 0, 0), score := 1000,
    components := List.replicate 12 1000, suspect := 0, warnArmed := true, pair := none, pairActive := false,
    mirrorOut := [], mirrorRecords := [], mirrorQueue := [], lagEpisode := false, recordsWritten := 0, counterBase := 0, digests := [], shadowEqual := 0,
    shadowMismatches := 0, shadowLast := [], step := 0, stepEqual := true, recordsTaken := [] }

end Sys2Proof.Machine
end

