-- ==== Sys2Proof/Machine/Types/Optical.lean ====
section
/-! DEFINITION. The state of the optical engines and ports (02_optical_ports). -/

namespace Sys2Proof.Machine

/-- LASER_STATE (R52, R73, R87). -/
inductive LaserState where
  | cold | warming | locked | fading | failed | retired
  deriving DecidableEq, Repr

def LaserState.code : LaserState → Nat
  | .cold => 0 | .warming => 1 | .locked => 2 | .fading => 3 | .failed => 4 | .retired => 5

/-- One optical engine: its bank of 18 lasers and its monitors (R48, R52, R87) (DESIGN CHOICE log 131). -/
structure Engine where
  /-- powered, since its power-up and until a shutdown (R52, R427) -/
  powered : Bool
  /-- LASER_STATE, 18 lasers -/
  lasers : List LaserState
  /-- the last sample of M1–M3 with the bias currents -/
  sample : EngineSample
  /-- it runs the newly activated firmware (R470) -/
  newFirmware : Bool
  /-- its own temperature sensors that its last samples found at or above their shutdown levels (R427) -/
  hot : List Nat
  deriving DecidableEq, Repr

def Engine.reset : Engine :=
  { powered := false, lasers := List.replicate 18 .cold, sample := EngineSample.zero, newFirmware := false, hot := [] }

/-- The port states of R66, in the order PORT_STATE reports them. -/
inductive PortState where
  | disabled | probing | tuning | aligning | circuit | active | degraded | sparing | draining | failed
  deriving DecidableEq, Repr

def PortState.code : PortState → Nat
  | .disabled => 0 | .probing => 1 | .tuning => 2 | .aligning => 3 | .circuit => 4 | .active => 5
  | .degraded => 6 | .sparing => 7 | .draining => 8 | .failed => 9

/-- What a lane procedure does (R76, R79, R80). -/
inductive ProcKind where
  /-- a planned move, with duplication -/
  | move
  /-- a move of a dead lane, without duplication -/
  | moveDead
  /-- a change of width -/
  | width
  /-- a change of width that drops a dead lane -/
  | deadWidth
  deriving DecidableEq, Repr

/-- Why a lane needs a spare (R74, R75, R80): a fading laser keeps the lane where no spare is left. -/
inductive LaneNeed where
  | fading | planned | dead
  deriving DecidableEq, Repr

/-- Where a lane procedure stands (R76). -/
inductive ProcStep where
  | warming | offered | switchSent
  deriving DecidableEq, Repr

/-- The lane procedure or width change of a transmit direction (R76–R80). -/
structure LaneProc where
  kind : ProcKind
  step : ProcStep
  lane : Nat
  /-- the channel the lane leaves -/
  oldChannel : Nat
  /-- the spare channel it goes to -/
  channel : Nat
  epoch : Byte
  /-- the switch superframe -/
  switchSeq : Half
  /-- the map from the switch superframe on, and the one before it -/
  newMap : List Nat
  oldMap : List Nat
  /-- the width before it -/
  oldWidth : Nat
  /-- one LANE_READY timeout has passed (R77) -/
  retried : Bool
  deriving DecidableEq, Repr

/-- A superframe in a replay buffer: its number, its link-control slot if one was due, its cells, and the IDLE slot that fills
the slots that are left (R57, R60). -/
structure TxFrame where
  seq : Half
  ctrl : Option CtrlSlot
  cells : List (BitVec 512)
  fill : CtrlSlot
  deriving DecidableEq, Repr

/-- What a receiver keeps of one wavelength: the descrambler's last 58 bits (R53), the frame's worth of words before the one
that arrives, the bit offset at which it looks for lane frames, and how many in a row have matched there (R56). -/
structure RxChannel where
  reg : BitVec 58
  prev : List Word32
  phase : Nat
  run : Nat
  deriving DecidableEq, Repr

def RxChannel.reset : RxChannel := ⟨0, List.replicate 17 0, 0, 0⟩

/-- The frame boundary is found: 64 consecutive frames have matched (R56). -/
def RxChannel.found (x : RxChannel) : Bool := 64 ≤ x.run

/-- A map change the peer announced for our receive direction (R76, R79). -/
structure RxChange where
  epoch : Byte
  lane : Nat
  channel : Nat
  /-- the new map of a width change -/
  newMap : Option (List Nat)
  /-- the switch superframe, once announced -/
  switchSeq : Option Half
  /-- superframes in which the spare channel equalled the old lane -/
  equal : Nat
  deriving DecidableEq, Repr

/-- One port. -/
structure Port where
  /-- PORT_STATE (R66) -/
  state : PortState
  /-- PEER_IDENT (R87) -/
  peerIdent : Word32
  /-- TX_WIDTH and RX_WIDTH, zero before Active (R87) -/
  txWidth : Nat
  rxWidth : Nat
  /-- lane maps: entry i is the channel of lane i, 255 unused (R51, R87) -/
  txMap : List Nat
  rxMap : List Nat
  /-- the spare channels left on this transmit fibre, in the order they serve (R74) -/
  spares : List Nat
  /-- LINK_RETRIES, 64 bits (R87) -/
  linkRetries : Word
  /-- CHECK_FAILS, per channel (R56, R87) -/
  checkFails : Tab Word32
  /-- RX_POWER: M5 per channel, then the total, 0.01 dBm (R87) -/
  rxPower : List Int
  /-- TX_TAP: M4, 0.01 dBm (R87) -/
  txTap : Int
  /-- BER_RESULT: errors per channel and bits tested (R72, R87) -/
  berErrors : Tab Word
  berBits : Word
  /-- the transmit shutter (R66) -/
  shutterOpen : Bool
  /-- the epoch last confirmed on the transmit direction (R58, R78) -/
  txEpoch : Byte
  /-- the epoch of the receive direction -/
  rxEpoch : Byte
  /-- TX_SEQ of the next superframe (R58) -/
  txSeq : Half
  /-- slots queued for the next superframe -/
  txPending : List (BitVec 512)
  /-- slots of traffic queued so far -/
  slotsOut : Nat
  /-- superframes since the last one with a link-control slot (R57) -/
  sinceCtrl : Nat
  /-- the replay buffer, oldest first (R60) -/
  replay : List TxFrame
  /-- the scramblers of the transmit direction and the receivers, by channel (R53, R56) -/
  scramblers : Tab (BitVec 58)
  receivers : Tab RxChannel
  /-- the last superframe accepted in order (R61) -/
  rxLast : Half
  /-- the number of the superframe that arrives next -/
  rxNext : Half
  /-- a RETRY is out and everything is discarded until REPLAY (R61) -/
  awaitingReplay : Bool
  /-- the superframe last asked for again, and its consecutive failed replays (R62) -/
  retryOf : Option Half
  failedReplays : Nat
  /-- when superframes failed within the 1 ms before the last that did, newest first, at most 10,001 (R62) -/
  failTimes : List Nat
  /-- when a lane's check failed within the 1 s before it last did, newest first, at most 101 (R74) -/
  laneFails : Tab (List Nat)
  /-- the lane on which alone superframes fail, and how many in a row (R80) -/
  aloneFails : Option (Nat × Nat)
  /-- receive lanes reported dead (R80) -/
  rxDead : List Nat
  /-- failed verifications or retrains in a row (R62, R70) -/
  attempts : Nat
  /-- the port is retraining and keeps its replay buffer (R62) -/
  retraining : Bool
  /-- Circuit was entered for the boot test; that test has been passed since the reset (R71) -/
  bootTest : Bool
  bootTested : Bool
  /-- lane procedure of the transmit direction (R78) -/
  proc : Option LaneProc
  /-- channels whose lanes wait for it (R78) -/
  needs : List (Nat × LaneNeed)
  /-- announced change of the receive direction -/
  rxChange : Option RxChange
  /-- the peer's TNREADY (R58, R92) -/
  peerReady : Bool
  /-- when the last valid probe came, and whether one came with SEEN (R68) -/
  probeAt : Option Nat
  probeSeen : Bool
  /-- the peer's safety mode differs: OFC on this pair (R84) -/
  modeMismatch : Bool
  /-- when the last probe bursts went out, and until when the last one holds the shutter open (R67, R68) -/
  bursts : List Nat
  burstEnd : Nat
  /-- when light was lost, during an SPM hold-off (R84) -/
  lightLost : Option Nat
  /-- the peer's last MONITOR: M4, M5 total, M5 per channel (R59, R84) -/
  peerMonitor : Option (List Int)
  /-- that MONITOR shows the peer without light: no cell goes out (R82) -/
  peerDark : Bool
  /-- looping received words back (R72) -/
  looping : Bool
  /-- this end sends PRBS31, and where each channel is in it (R72) -/
  bertTx : Bool
  prbsTx : Tab Nat
  /-- receive lanes under a bit-error test, and where each is in the pattern (R72) -/
  bertRx : Half
  prbs : Tab Nat
  /-- the port is to end Disabled: it drains, or retrains while it drains (R85, R86) -/
  drains : Bool
  /-- the peer announced its drain: loss of light is expected (R85) -/
  peerDraining : Bool
  /-- the map before the port was narrowed for temperature (R424) -/
  wideMap : Option (List Nat)
  deriving DecidableEq, Repr

/-- The factory lane map (R51). -/
def Port.factoryMap : List Nat := (List.range 16).map (· + 1)

/-- A port after reset (R66, R87). -/
def Port.reset : Port :=
  { state := .disabled, peerIdent := 0xFFFFFFFF, txWidth := 0, rxWidth := 0, txMap := Port.factoryMap,
    rxMap := Port.factoryMap, spares := [0, 17], linkRetries := 0, checkFails := [], rxPower := List.replicate 19 0,
    txTap := 0, berErrors := [], berBits := 0, shutterOpen := false, txEpoch := 0, rxEpoch := 0, txSeq := 0,
    txPending := [], slotsOut := 0, sinceCtrl := 0, replay := [], scramblers := [], receivers := [], rxLast := 0xFFFF,
    rxNext := 0, awaitingReplay := false, retryOf := none, failedReplays := 0, failTimes := [], laneFails := [], aloneFails := none,
    rxDead := [], attempts := 0, retraining := false, bootTest := false, bootTested := false, proc := none, needs := [],
    rxChange := none, peerReady := false, probeAt := none, probeSeen := false, modeMismatch := false, bursts := [],
    burstEnd := 0, lightLost := none, peerMonitor := none, peerDark := false, looping := false, bertTx := false, prbsTx := [],
    bertRx := 0, prbs := [], drains := false, peerDraining := false, wideMap := none }

end Sys2Proof.Machine
end

