-- ==== Sys2Proof/Machine/Types/Output.lean ====
section
/-! DEFINITION. What the block sends out: on its links, fibres, management port and pins. -/

namespace Sys2Proof.Machine

/-- A LINK_CTRL message of a die-to-die link (R34, R37, R43). -/
inductive LinkCtrl where
  | descriptor (bytes : List Byte)
  | settle (s : Settle)
  | spareReq (module : Nat)
  | spareAck (module : Nat)
  | switch (flit : Nat)
  | switchConfirm (flit : Nat)
  deriving DecidableEq, Repr

/-- Something the block sends. -/
inductive Output where
  /-- a GDP message on a die-to-die link -/
  | gdp (link : Nat) (m : GdpMsg)
  | linkCtrl (link : Nat) (m : LinkCtrl)
  /-- a numbered superframe on a port: the scrambled lane frame of each channel that carries one (R53–R55, R60) -/
  | superframe (port : Nat) (seq : Half) (frames : List (Nat × LaneFrame))
  /-- a superframe without a number: the alignment pattern, LANE_MAP before the numbering begins, REPLAY, or PRBS31 (R61, R72) -/
  | pattern (port : Nat) (frames : List (Nat × LaneFrame))
  /-- a link-control slot on a port (R58) -/
  | ctrl (port : Nat) (slot : CtrlSlot)
  /-- received words sent back in a loopback (R72) -/
  | loop (port : Nat) (frames : List (Nat × LaneFrame))
  /-- a probe burst on one channel: a clock pattern of that many ns, then the probe word again and again until the burst has
  lasted its length (R67) -/
  | probe (port channel clock length : Nat) (word : BitVec 128)
  /-- a general-network packet on a port -/
  | packet (port : Nat) (p : GnPacket)
  /-- a response on a management session -/
  | response (session : Nat) (r : Response)
  /-- an EVENT message on a session (R445) -/
  | event (session : Nat) (e : LogEntry)
  /-- a frame on the UART (R440) -/
  | uart (bytes : List Byte)
  /-- the master's heartbeat on the always-on bus (R410) -/
  | heartbeat
  /-- the result of a memory access that reaches its home (R244): data and poison mark -/
  | data (bytes : List Byte) (poison : Bool)
  /-- a GDP request of this chip completes: its status, and the data and mark that a READ or an ATOMIC returns (R33) -/
  | gdpDone (link : Nat) (tag : BitVec 12) (status : Nat) (bytes : List Byte) (poison : Bool)
  deriving DecidableEq, Repr

end Sys2Proof.Machine
end

