-- ==== Sys2Proof/Machine/Types/Power.lean ====
section
/-! DEFINITION. The state of the pins, the Ditchrider, the weir and the clocks (14_power_thermal_clocks,
17_electrical_mechanical). Temperatures, powers and currents are exact rationals (DESIGN CHOICE log 8). -/

namespace Sys2Proof.Machine

/-- The package pins (R500–R506). -/
structure Pins where
  /-- VAON in its range, and since when (ns of `now`) -/
  vaon : Bool
  vaonSince : Nat
  /-- RESET_N low -/
  resetLow : Bool
  /-- TEST_EN was high as RESET_N rose (R500) -/
  testEn : Bool
  /-- SHUTDOWN_N high (R502) -/
  shutdownHigh : Bool
  /-- ALERT_N low, and when the last error or fatal event was raised (R506) -/
  alertLow : Bool
  alertSince : Nat
  deriving DecidableEq, Repr

/-- One sensor's recent past (R413, R423). -/
structure Sensor where
  /-- samples, newest first, at most 105 -/
  samples : List Rat
  /-- frames in a row without a sample -/
  missing : Nat
  /-- samples in a row with the same value -/
  same : Nat
  /-- since then, the lowest and the highest sample of every other sensor of its group -/
  others : List (Nat × Rat × Rat)
  failed : Bool
  /-- valid samples in a row since it failed -/
  valid : Nat
  /-- rates in a row above RATE_LIMIT, and below half of it -/
  above : Nat
  calm : Nat
  deriving DecidableEq, Repr

def Sensor.reset : Sensor := ⟨[], 0, 0, [], false, 0, 0, 0⟩

/-- One temperature group (R420–R424). -/
structure Group where
  inWarning : Bool
  /-- the throttle level has been reached and not left -/
  inThrottle : Bool
  /-- RATE holds: it has started and is not calm yet -/
  inRate : Bool
  /-- the base-die level of a stack -/
  inBase : Bool
  /-- held at its throttle action for want of sensors (R414); for want of a stack's base-die sensors (R24) -/
  held : Bool
  baseLost : Bool
  /-- its throttle action is on: for a cellar die this is its engines' clock at 1/2, for LPDDR6 half the access rate, which
  show nowhere else (R424, R434) -/
  acting : Bool
  deriving DecidableEq, Repr

def Group.reset : Group := ⟨false, false, false, false, false, false, false⟩

/-- A cause that slows a site, with the step it demands (R425, R426). -/
structure Demand where
  /-- THROTTLE_CAUSE bit -/
  cause : Nat
  step : Nat
  /-- the cause holds; otherwise its demand is being raised step by step -/
  active : Bool
  deriving DecidableEq, Repr

/-- One site's weir, clock, regulators and Ditchrider unit. -/
structure Site where
  /-- SITE_STEP (R415) -/
  step : Nat
  /-- the step VDD_CMP stands at (R416) -/
  vstep : Nat
  /-- a step up is in progress: the voltage has risen and the frequency follows (R416) -/
  rising : Bool
  /-- the clock is stretched to one over this, 1 for none -/
  stretch : Nat
  /-- the base die's clock, likewise: 2 while its sensors are at the base-die level (R23, R424, R434) -/
  baseStretch : Nat
  demands : List Demand
  /-- a throttle episode is running (R425) -/
  episode : Bool
  /-- failed phases of VDD_CMP, VDD_MEM, VDD_BASE, VDD_LINK (R20, R21) -/
  phases : List Nat
  /-- the command processor is in Fallow (R431) -/
  cpFallow : Bool
  /-- compensation trims: RC oscillator, charge pump, loop filter, bandgap (R430) -/
  trims : List Rat
  /-- its Ditchrider unit answers on the always-on bus (R411) -/
  unitPresent : Bool
  deriving DecidableEq, Repr

def Site.reset : Site :=
  { step := 0, vstep := 0, rising := false, stretch := 1, baseStretch := 1, demands := [], episode := false, phases := [0, 0, 0, 0],
    cpFallow := false, trims := [0, 0, 0, 0], unitPresent := true }

/-- The Ditchrider. -/
structure Power where
  /-- DR_MASTER: 0 or 7 (R410) -/
  master : Nat
  /-- DR_STANDBY_OK (R411) -/
  standbyOk : Bool
  sensors : Tab Sensor
  groups : Tab Group
  sites : Tab Site
  /-- readings that TELEMETRY brought since the last frame (R409) -/
  telemetry : List (Nat × Rat)
  /-- the coolant outlet is more than 15 K above the inlet (R438) -/
  outletHot : Bool
  /-- input-power samples of the last 1 s, newest first (R418) -/
  samples : List Rat
  /-- the power rules that act (R418, R419) -/
  peakActing : Bool
  excursionActing : Bool
  averageActing : Bool
  /-- a package shutdown is latched, with its cause (R427, R429) -/
  shutdown : Option Nat
  /-- the shutdown ring in MRAM, SHUTDOWN_NEXT and REC_SEQ (R428) -/
  ring : Tab (List Byte)
  ringNext : Nat
  recSeq : Nat
  /-- ENGINES_DOWN (R427) -/
  enginesDown : BitVec 20
  /-- engines narrowed for temperature, and when a port was widened last (R424) -/
  enginesNarrow : BitVec 20
  widenedAt : Tab Nat
  /-- cellar dies whose LPDDR6 is in self-refresh (R433) -/
  cellarSelfRefresh : BitVec 2
  /-- AON_SOURCE: the RC backup drives the always-on domain (R435) -/
  aonRc : Bool
  /-- throttle episodes since reset (R428) -/
  throttles : Nat
  deriving DecidableEq, Repr

def Power.reset : Power :=
  { master := 0, standbyOk := true, sensors := [], groups := [], sites := [], telemetry := [], outletHot := false,
    samples := [], peakActing := false, excursionActing := false, averageActing := false, shutdown := none, ring := [],
    ringNext := 0, recSeq := 0, enginesDown := 0, enginesNarrow := 0, widenedAt := [], cellarSelfRefresh := 0,
    aonRc := false, throttles := 0 }

end Sys2Proof.Machine
end

