-- ==== Sys2Proof/Machine/Types/Sync.lean ====
section
/-! DEFINITION. The state of the counters, barriers and waits (06_synchronisation). -/

namespace Sys2Proof.Machine

/-- A counter with the fields of its debug view (R208). All zero after reset. -/
structure CounterRec where
  /-- VALUE, 64 bits (R193, R197) -/
  value : Word
  /-- LAST_STAMP, 64 bits (R208) -/
  lastStamp : Word
  /-- LAST_ADD, 64 bits (R208) -/
  lastAdd : Word
  /-- LAST_KIND, 4 bits (R208) -/
  lastKind : BitVec 4
  /-- LAST_ORIGIN, 20 bits (R208) -/
  lastOrigin : BitVec 20
  /-- LAST_UNIT, 16 bits (R208) -/
  lastUnit : Half
  /-- ADDS, 32 bits, saturating (R208) -/
  adds : Word32
  deriving DecidableEq, Repr

def CounterRec.zero : CounterRec := ⟨0, 0, 0, 0, 0, 0, 0⟩

/-- A held barrier arrival (R205, R206). -/
structure HeldArrival where
  /-- the generation the arrival is for -/
  gen : Nat
  /-- its source, which is not acknowledged until it is applied -/
  src : AddSrc
  /-- the order of its registration among the waiters -/
  stamp : Nat
  deriving DecidableEq, Repr

/-- A barrier: its descriptor (R203) and the arrivals held for later generations (R205). All zero after reset. -/
structure Barrier where
  enable : Bool
  arriveCtr : BitVec 18
  doneCtr : BitVec 18
  participants : BitVec 20
  arrivedG : BitVec 20
  arrivedG1 : BitVec 20
  overrunStalls : Word32
  staleArrivals : Word32
  generation : Word
  /-- where the last arrival counted in ARRIVED_G, and in ARRIVED_G1, came from (R208) -/
  originG : BitVec 20
  originG1 : BitVec 20
  /-- oldest first -/
  held : List HeldArrival
  deriving DecidableEq, Repr

def Barrier.zero : Barrier := ⟨false, 0, 0, 0, 0, 0, 0, 0, 0, 0, 0, []⟩

/-- A wait that is not yet met (R199): in its counter's home waiter table, or polling (R200). -/
structure Waiter where
  counter : Nat
  threshold : Word
  owner : WaitOwner
  /-- true: a waiter-table entry; false: a poller -/
  registered : Bool
  /-- the order of its registration -/
  stamp : Nat
  deriving DecidableEq, Repr

/-- An arrival that its barrier refused for want of room and that its source sends again (R206). -/
structure Resend where
  counter : Nat
  amount : Word
  src : AddSrc
  deriving DecidableEq, Repr

/-- Counters, barriers and waits. -/
structure Sync where
  /-- the 262,144 chip counters (R193) -/
  counters : Tab CounterRec
  /-- the 256 × 64 core-local counters, counter j of core c at 64 c + j (R197) -/
  coreCounters : Tab CounterRec
  /-- the 4,096 barriers (R203) -/
  barriers : Tab Barrier
  /-- unmet waits, oldest first (R199, R200) -/
  waiters : List Waiter
  /-- refused arrivals (R206) -/
  resends : List Resend
  /-- the clock of registrations -/
  clock : Nat
  deriving DecidableEq, Repr

def Sync.reset : Sync := ⟨[], [], [], [], [], 0⟩

end Sys2Proof.Machine
end

