-- ==== Sys2Proof/Machine/State.lean ====
section
/-! DEFINITION. The state of the block, the reasons a step can stop, and the state right after reset. -/

namespace Sys2Proof.Machine

/-- Why a step stops with a fault. The block has no such reason: every refused access, failed command or fatal
condition of the spec is an effect on the state. -/
inductive Fault
  deriving DecidableEq, Repr

/-- Why a command has no meaning. -/
inductive Refusal where
  /-- Raised by `exec` for a command that has no meaning yet, named as the opcode table names it. Safe. -/
  | notModelled (mnemonic : String)
  deriving DecidableEq, Repr

/-- The part number (R1). -/
inductive Part where
  | a | b
  deriving DecidableEq, Repr

/-- The chip itself: every register, buffer, memory, mode and pin of the block. -/
structure Chip where
  /-- PART_NUMBER: which part this device is (R1, R2) -/
  part : Part
  /-- ns since the model began; AON_TIME counts from the last VAON rise (R476) -/
  now : Nat
  /-- TIMEBASE, ns (R121) -/
  timebase : Word
  pins : Pins
  /-- the written values of the dictionary objects, by key (R452) -/
  objs : Tab Nat
  /-- bytes by chip offset; the scratch memory of update engine e at 2^44 + 2^22 e (R10, R399) -/
  mem : List Host.Cell
  hbm : Hbm
  links : Tab (Option Link)
  ports : Tab Port
  engines : Tab Engine
  tn : Tn
  gn : Gn
  queues : Tab Queue
  job : Job
  /-- the queue each site's command processor started last (R181) -/
  cpLast : Tab Nat
  sync : Sync
  coll : Coll
  cores : Tab CoreSt
  cellar : Cellar
  power : Power
  mgmt : Mgmt
  log : EventLog
  service : Service
  /-- what the block has sent, newest first -/
  out : List Output
  /-- the model's own counter that free values are drawn with (DESIGN CHOICE log 5) -/
  freeCtr : Nat
  deriving DecidableEq, Repr

/-- The block: the chip and the commands that wait. -/
structure State extends Chip where
  /-- the commands that wait, first in first out -/
  pending : List Instr
  deriving DecidableEq, Repr

/-- Right after power-on: VAON and every rail in range, RESET_N still held low, nothing written (DESIGN CHOICE log 1) (DESIGN CHOICE log 2). -/
def Chip.reset : Chip :=
  { part := .a, now := 0, timebase := 0,
    pins := { vaon := true, vaonSince := 0, resetLow := true, testEn := false, shutdownHigh := true, alertLow := false,
              alertSince := 0 },
    objs := [], mem := [], hbm := Hbm.reset, links := [], ports := [], engines := [], tn := Tn.reset,
    gn := Gn.reset, queues := [], job := ⟨0, 0⟩, cpLast := [], sync := Sync.reset, coll := Coll.reset, cores := [],
    cellar := Cellar.reset, power := Power.reset, mgmt := Mgmt.reset, log := EventLog.reset,
    service := Service.reset, out := [], freeCtr := 0 }

/-- The block right after power-on: the chip as above and no command waiting (DESIGN CHOICE log 9). -/
def State.reset : State := { Chip.reset with pending := [] }

end Sys2Proof.Machine
end

