-- ==== Sys2Proof/Machine/Obj.lean ====
section
/-! DEFINITION. The Eulen object dictionary (R13, R14, R452): every object with its type, access right, default and
range, and the written values. An object is named by its key, index × 256 + subindex; an object of an array of units
by the key of unit 0 plus 256 × unit. -/

namespace Sys2Proof.Machine

/-- The types of dictionary objects, with the type codes of SET (R445). -/
inductive OType where
  | bool | u8 | u16 | u32 | u64 | i32 | i64 | f32 | time64 | str | blob
  deriving DecidableEq, Repr

def OType.code : OType → Nat
  | .bool => 0 | .u8 => 1 | .u16 => 2 | .u32 => 3 | .u64 => 4 | .i32 => 5 | .i64 => 6 | .f32 => 7 | .time64 => 8
  | .str => 9 | .blob => 10

/-- Bytes of a value of fixed width; none for strings and BLOBs. -/
def OType.bytes : OType → Option Nat
  | .bool => some 1 | .u8 => some 1 | .u16 => some 2 | .u32 => some 4 | .u64 => some 8 | .i32 => some 4
  | .i64 => some 8 | .f32 => some 4 | .time64 => some 8 | .str => none | .blob => none

/-- The access rights. -/
inductive OAccess where
  | ro | rw | wo | rwp | rwl
  deriving DecidableEq, Repr

/-- One row of the dictionary: `count` objects from `key` on; the range holds for integers as it stands and for F32
in tenths, and lo = hi = 0 means no range. -/
structure DictRow where
  key : Nat
  count : Nat
  ty : OType
  acc : OAccess
  dflt : Nat
  lo : Int
  hi : Int
  deriving DecidableEq, Repr

/-! ### The keys, by name -/

/-! Package and die-to-die (R45) -/

def O.pkgSitesPresent : Nat := 0x700001
def O.gdpVersion : Nat := 0x700002
def O.d2dTimeout : Nat := 0x700003
def O.laneRetryLimit : Nat := 0x700004
def O.linkState : Nat := 0x710001
def O.linkModules : Nat := 0x710002
def O.linkRate : Nat := 0x710003
def O.localDesc : Nat := 0x710004
def O.peerDesc : Nat := 0x710005
def O.settled : Nat := 0x710006
def O.linkSparesLeft : Nat := 0x710007
def O.laneRepairs : Nat := 0x710008
def O.crcRetries : Nat := 0x710009

/-! Optical (R87) -/

def O.optPorts : Nat := 0x400001
def O.rxLos : Nat := 0x400002
def O.losTime : Nat := 0x400003
def O.fadeBiasPct : Nat := 0x400004
def O.fadeTapDb : Nat := 0x400005
def O.portDrainDeadline : Nat := 0x400006
def O.minWidth : Nat := 0x400007
def O.safetyMode : Nat := 0x400201
def O.enclosedDecl : Nat := 0x400202
def O.circuitAtBoot : Nat := 0x400301
def O.circuitBerTime : Nat := 0x400302
def O.portRole : Nat := 0x410001
def O.portState : Nat := 0x410002
def O.portAdmin : Nat := 0x410003
def O.expectedPeer : Nat := 0x410004
def O.peerIdent : Nat := 0x410005
def O.txWidth : Nat := 0x410006
def O.rxWidth : Nat := 0x410007
def O.txLaneMap : Nat := 0x410008
def O.rxLaneMap : Nat := 0x410009
def O.portSparesLeft : Nat := 0x41000A
def O.linkRetries : Nat := 0x41000B
def O.checkFails : Nat := 0x41000C
def O.rxPower : Nat := 0x41000D
def O.txTap : Nat := 0x41000E
def O.berResult : Nat := 0x41000F
def O.laserState : Nat := 0x420001
def O.laserBias : Nat := 0x420002
def O.laserTap : Nat := 0x420003
def O.splitTap : Nat := 0x420004
def O.modDrop : Nat := 0x420005

/-! Tensor network (R127) -/

def O.chipNumber : Nat := 0x480001
def O.domainX : Nat := 0x480002
def O.domainY : Nat := 0x480003
def O.bundle : Nat := 0x480004
def O.tbMaster : Nat := 0x480005
def O.chipAssigned : Nat := 0x480006
def O.ackCells : Nat := 0x480101
def O.ackTime : Nat := 0x480102
def O.retxTime : Nat := 0x480103
def O.retxLimit : Nat := 0x480104
def O.backoffBase : Nat := 0x480105
def O.backoffMax : Nat := 0x480106
def O.streamIdle : Nat := 0x480107
def O.unreachLimit : Nat := 0x480108
def O.unreachDefl : Nat := 0x480109
def O.recvStoreUsed : Nat := 0x480201
def O.retxStoreUsed : Nat := 0x480202
def O.pendingUsed : Nat := 0x480203
def O.nacksSent : Nat := 0x480204
def O.sluiceNacks : Nat := 0x480205
def O.transitDrops : Nat := 0x480206
def O.badCells : Nat := 0x480207
def O.lifetimeDiscards : Nat := 0x480208
def O.deflections : Nat := 0x480209
def O.goldenSeen : Nat := 0x48020A
def O.timebase : Nat := 0x480301
def O.tbOffset : Nat := 0x480302
def O.tbState : Nat := 0x480303
def O.tbParent : Nat := 0x480304
def O.destRelease : Nat := 0x481001
def O.heldDests : Nat := 0x481002
def O.probeTarget : Nat := 0x481201
def O.probeResult : Nat := 0x481202

/-! General network (R161) -/

def O.gnNode : Nat := 0x500001
def O.rackMembers : Nat := 0x500002
def O.deadTime : Nat := 0x500101
def O.tagPerTarget : Nat := 0x500102
def O.tagsUsed : Nat := 0x500201
def O.readsResent : Nat := 0x500202
def O.poisonReturns : Nat := 0x500203
def O.windowMisses : Nat := 0x500204
def O.flagHolds : Nat := 0x500205
def O.badPackets : Nat := 0x500206
def O.targetRelease : Nat := 0x500301
def O.deadTargets : Nat := 0x500302
def O.portMap : Nat := 0x500401

/-! Queues (R191) -/

def O.queues : Nat := 0x680001
def O.queueDrainDeadline : Nat := 0x680002
def O.inflightLimits : Nat := 0x680003
def O.jobState : Nat := 0x680101
def O.jobEnd : Nat := 0x680102
def O.sanitiseCount : Nat := 0x680103
def O.sanitiseTime : Nat := 0x680104
def O.cpActiveQueues : Nat := 0x680201
def O.cpCancelled : Nat := 0x680202
def O.queueSelect : Nat := 0x682001
def O.queueView : Nat := 0x682002

/-! Synchronisation (R210) -/

def O.chipCounters : Nat := 0x580001
def O.barriers : Nat := 0x580002
def O.pollInterval : Nat := 0x580003
def O.waiterTable : Nat := 0x580004
def O.counterSelect : Nat := 0x580101
def O.counterView : Nat := 0x580102
def O.waitersUsed : Nat := 0x580801
def O.pollersNow : Nat := 0x580802
def O.overrunStallsTotal : Nat := 0x580301
def O.staleArrivalsTotal : Nat := 0x580302
def O.counterRefusals : Nat := 0x580303
def O.coreCounterSelect : Nat := 0x580401
def O.coreCounterView : Nat := 0x580402

/-! Collectives (R239) -/

def O.collContexts : Nat := 0x581001
def O.collWatchdog : Nat := 0x581002
def O.collDrainDeadline : Nat := 0x581003
def O.mismatchGather : Nat := 0x581004
def O.earlyStore : Nat := 0x581101
def O.earlyUsed : Nat := 0x581102
def O.earlyNacks : Nat := 0x581103
def O.earlyDiscards : Nat := 0x581104
def O.commSlots : Nat := 0x581201
def O.commsBound : Nat := 0x581202
def O.commSelect : Nat := 0x581203
def O.commView : Nat := 0x581204
def O.collStarted : Nat := 0x581301
def O.collSelfLast : Nat := 0x581302
def O.lateRing : Nat := 0x581303
def O.abortsLate : Nat := 0x581304
def O.lateNext : Nat := 0x581305

/-! HBM (R272) -/

def O.hbmRaw : Nat := 0x300001
def O.headlandDiv : Nat := 0x300002
def O.hbmVisible : Nat := 0x300003
def O.visibleUnits : Nat := 0x300004
def O.headlandFree : Nat := 0x300005
def O.mappedOutCount : Nat := 0x300006
def O.regionView : Nat := 0x300101
def O.keepWays : Nat := 0x300201
def O.keepRelease : Nat := 0x300202
def O.rsCorrectLimit : Nat := 0x300301
def O.scrubPeriod : Nat := 0x300302
def O.ceLimit : Nat := 0x300303
def O.pinGroupLines : Nat := 0x300304
def O.mapoutAuto : Nat := 0x300401
def O.migrateRate : Nat := 0x300402
def O.shrinkGrace : Nat := 0x300403
def O.shrinkAck : Nat := 0x300404
def O.mapoutRequest : Nat := 0x300405
def O.mapoutLog : Nat := 0x300406
def O.chState : Nat := 0x310001
def O.chCe : Nat := 0x310002
def O.chUe : Nat := 0x310003
def O.chOdecc : Nat := 0x310004
def O.chPinGroups : Nat := 0x310005
def O.chRowRepairs : Nat := 0x310006
def O.marginPeriod : Nat := 0x900001
def O.marginAtBoot : Nat := 0x900002
def O.marginTimeMin : Nat := 0x900003
def O.marginVrefMin : Nat := 0x900004
def O.marginSelect : Nat := 0x900005
def O.marginView : Nat := 0x900006
def O.marginNow : Nat := 0x900007

/-! Cores (R308) -/

def O.cores : Nat := 0x600001
def O.coresOnline : Nat := 0x600002
def O.kernelTimeLimit : Nat := 0x600003
def O.ctrlClock : Nat := 0x600004
def O.coreState : Nat := 0x610001
def O.coreAdmin : Nat := 0x610002
def O.faultRecord : Nat := 0x610003
def O.kernels : Nat := 0x610004
def O.faults : Nat := 0x610005
def O.cmCorrected : Nat := 0x610006
def O.hwFaults : Nat := 0x610007

/-! Matrix array (R331) -/

def O.arrayGeometry : Nat := 0x602001
def O.accRows : Nat := 0x602002
def O.weightBanks : Nat := 0x602003
def O.arrayRepair : Nat := 0x620001
def O.arrayInstrs : Nat := 0x620002
def O.arrayBusy : Nat := 0x620003
def O.accSaturations : Nat := 0x620004
/-- DESIGN CHOICE log 97. -/
def O.accCorrected : Nat := 0x620005
def O.accUncorrected : Nat := 0x620006
def O.bankTags : Nat := 0x620007
def O.accRowView : Nat := 0x620008

/-! Vector engine (R352) -/

def O.vecTrapEn : Nat := 0x603001
def O.vecLanes : Nat := 0x603002
def O.vecTransLanes : Nat := 0x603003
def O.vecInstrs : Nat := 0x630001
def O.vecBusy : Nat := 0x630002
def O.vecTraps : Nat := 0x630003
def O.vecBankStalls : Nat := 0x630004

/-! Numerics (R382) -/

def O.detMode : Nat := 0x601001
def O.srSeed : Nat := 0x601002
def O.detRefusals : Nat := 0x601003
def O.numericsVersion : Nat := 0x601004
def O.nvBootRecords : Nat := 0x601101
def O.nvBootResult : Nat := 0x601102
def O.nvFirstFail : Nat := 0x601103
def O.nvRun : Nat := 0x601104
def O.nvBootTime : Nat := 0x601105

/-! Cellar (R406) -/

def O.cellarSize : Nat := 0x380001
def O.updateEngines : Nat := 0x380002
def O.updateDrainDeadline : Nat := 0x380003
def O.celState : Nat := 0x380101
def O.celCe : Nat := 0x380102
def O.celUe : Nat := 0x380103
def O.enginesOnline : Nat := 0x380104
def O.layersDone : Nat := 0x380105
def O.ratioRing : Nat := 0x381001
def O.ratioNext : Nat := 0x381002
def O.ratioOut : Nat := 0x381003
def O.engineFault : Nat := 0x382001
def O.engineAdmin : Nat := 0x382002

/-! Power, temperature and clocks (R437) -/

def O.powerLimit : Nat := 0x200001
def O.powerPeak : Nat := 0x200002
def O.powerPeakTime : Nat := 0x200003
def O.inputPower : Nat := 0x200004
def O.power1s : Nat := 0x200005
def O.shutdownNext : Nat := 0x200101
def O.shutdownSelect : Nat := 0x200102
def O.shutdownView : Nat := 0x200103
def O.reArm : Nat := 0x200104
def O.enginesDown : Nat := 0x200105
def O.shutdownNow : Nat := 0x200106
def O.drMaster : Nat := 0x200201
def O.drStandbyOk : Nat := 0x200202
def O.sensorCount : Nat := 0x200203
def O.sensorSelect : Nat := 0x200204
def O.sensorView : Nat := 0x200205
def O.sensorsFailed : Nat := 0x200206
def O.stretchRatio : Nat := 0x200301
def O.stepUpInterval : Nat := 0x200302
def O.stepDownInterval : Nat := 0x200303
def O.siteStep : Nat := 0x201001
def O.siteTopStep : Nat := 0x201002
def O.throttleCause : Nat := 0x201003
def O.sitePower : Nat := 0x201004
def O.thermMode : Nat := 0x210001
def O.thermHyst : Nat := 0x210002
def O.thermWarn : Nat := 0x210003
def O.thermThrottle : Nat := 0x210004
def O.thermShutdown : Nat := 0x210005
def O.rateLimit : Nat := 0x210006
def O.rateWindow : Nat := 0x210007
def O.thermReading : Nat := 0x210008
def O.thermRate : Nat := 0x210009
def O.baseThrottle : Nat := 0x21000A
def O.fallowIdle : Nat := 0x280001
def O.fallowEnable : Nat := 0x280002
def O.hbmSrDelay : Nat := 0x280003
def O.clockState : Nat := 0x280101
def O.aonSource : Nat := 0x280102
def O.siteFallow : Nat := 0x280201
def O.fallowEntries : Nat := 0x280202

/-! Management and security (R473) -/

def O.deviceSerial : Nat := 0x100001
def O.partNumber : Nat := 0x100002
def O.deviceUid : Nat := 0x100003
def O.dieGen : Nat := 0x100004
def O.mgmtAddr : Nat := 0x100101
def O.mgmtUdpPort : Nat := 0x100102
def O.mgmtSessions : Nat := 0x100103
def O.mgmtMac : Nat := 0x100104
def O.claimState : Nat := 0x780001
def O.ownerRoot : Nat := 0x780002
def O.ownerRelease : Nat := 0x780003
def O.deviceCert : Nat := 0x780004
def O.aliasCert : Nat := 0x780005
def O.ryuverCa : Nat := 0x780006
def O.bootStage : Nat := 0x780101
def O.configWindow : Nat := 0x780102
def O.configDone : Nat := 0x780103
def O.bootCount : Nat := 0x780104
def O.bootTime : Nat := 0x780105
def O.recoveryRequest : Nat := 0x780106
def O.debugRequest : Nat := 0x780201
def O.debugChallenge : Nat := 0x780202
def O.debugResponse : Nat := 0x780203
def O.debugScope : Nat := 0x780204
def O.ownerDebugKey : Nat := 0x780205
def O.ryuverDebugPermit : Nat := 0x780206
def O.compVersion : Nat := 0x781001
def O.compSvn : Nat := 0x781002
def O.compState : Nat := 0x781003
def O.compDigest : Nat := 0x781004
def O.svnFloor : Nat := 0x781005
def O.imageState : Nat := 0x782001
def O.imageReceived : Nat := 0x782002
def O.keysRevoked : Nat := 0x782003

/-! Service (R496) -/

def O.eventSeq : Nat := 0x800001
def O.logSelect : Nat := 0x800002
def O.logView : Nat := 0x800003
def O.logEntries : Nat := 0x800004
def O.logNext : Nat := 0x800005
def O.healthScore : Nat := 0x800101
def O.healthComponents : Nat := 0x800102
def O.suspect : Nat := 0x800103
def O.suspectScore : Nat := 0x800104
def O.suspectLatePct : Nat := 0x800105
def O.suspectSet : Nat := 0x800106
def O.healthWarn : Nat := 0x800107
def O.serviceState : Nat := 0x800201
def O.serviceCmd : Nat := 0x800202
def O.serviceResult : Nat := 0x800203
def O.quarantined : Nat := 0x800204
def O.shadowSteps : Nat := 0x800301
def O.shadowEqual : Nat := 0x800302
def O.shadowMismatches : Nat := 0x800303
def O.shadowLast : Nat := 0x800304
def O.mirrorLag : Nat := 0x800305

/-! ### The dictionary -/

/-- Package and die-to-die (R45). -/
def dict01 : List DictRow :=
  [
    ⟨O.pkgSitesPresent, 1, .u8, .ro, 0xFF, 0, 255⟩,
    ⟨O.gdpVersion, 1, .u16, .ro, 0x0100, 0, 65535⟩,
    ⟨O.d2dTimeout, 1, .u32, .rwp, 100, 10, 10000⟩,
    ⟨O.laneRetryLimit, 1, .u16, .rwp, 16, 1, 65535⟩,
    ⟨O.linkState, 34, .u8, .ro, 0, 0, 255⟩,
    ⟨O.linkModules, 34, .u8, .ro, 0, 0, 255⟩,
    ⟨O.linkRate, 34, .u8, .ro, 0, 0, 255⟩,
    ⟨O.localDesc, 34, .blob, .ro, 0, 0, 0⟩,
    ⟨O.peerDesc, 34, .blob, .ro, 0, 0, 0⟩,
    ⟨O.settled, 34, .blob, .ro, 0, 0, 0⟩,
    ⟨O.linkSparesLeft, 34, .u8, .ro, 0, 0, 255⟩,
    ⟨O.laneRepairs, 34, .u16, .ro, 0, 0, 65535⟩,
    ⟨O.crcRetries, 34, .u64, .ro, 0, 0, 18446744073709551615⟩]

/-- Optical (R87). -/
def dict02 : List DictRow :=
  [
    ⟨O.optPorts, 1, .u8, .ro, 160, 0, 255⟩,
    ⟨O.rxLos, 1, .f32, .rwp, 0xC1400000, -200, -60⟩,
    ⟨O.losTime, 1, .u32, .rwp, 20, 5, 500⟩,
    ⟨O.fadeBiasPct, 1, .u8, .rwp, 80, 50, 95⟩,
    ⟨O.fadeTapDb, 1, .f32, .rwp, 0x40000000, 5, 60⟩,
    ⟨O.portDrainDeadline, 1, .u32, .rwp, 10000, 100, 1000000⟩,
    ⟨O.minWidth, 1, .u8, .rwp, 8, 8, 16⟩,
    ⟨O.safetyMode, 1, .u8, .rwp, 0, 0, 1⟩,
    ⟨O.enclosedDecl, 1, .bool, .rwl, 0, 0, 1⟩,
    ⟨O.circuitAtBoot, 1, .bool, .rwp, 1, 0, 1⟩,
    ⟨O.circuitBerTime, 1, .u32, .rwp, 100, 1, 60000⟩,
    ⟨O.portRole, 160, .u8, .rwp, 0, 0, 2⟩,
    ⟨O.portState, 160, .u8, .ro, 0, 0, 255⟩,
    ⟨O.portAdmin, 160, .u8, .rw, 1, 0, 2⟩,
    ⟨O.expectedPeer, 160, .u32, .rwp, 0xFFFFFFFF, 0, 4294967295⟩,
    ⟨O.peerIdent, 160, .u32, .ro, 0xFFFFFFFF, 0, 4294967295⟩,
    ⟨O.txWidth, 160, .u8, .ro, 0, 0, 255⟩,
    ⟨O.rxWidth, 160, .u8, .ro, 0, 0, 255⟩,
    ⟨O.txLaneMap, 160, .blob, .ro, 0, 0, 0⟩,
    ⟨O.rxLaneMap, 160, .blob, .ro, 0, 0, 0⟩] ++
  [
    ⟨O.portSparesLeft, 160, .u8, .ro, 2, 0, 255⟩,
    ⟨O.linkRetries, 160, .u64, .ro, 0, 0, 18446744073709551615⟩,
    ⟨O.checkFails, 160, .blob, .ro, 0, 0, 0⟩,
    ⟨O.rxPower, 160, .blob, .ro, 0, 0, 0⟩,
    ⟨O.txTap, 160, .f32, .ro, 0, 0, 0⟩,
    ⟨O.berResult, 160, .blob, .ro, 0, 0, 0⟩,
    ⟨O.laserState, 20, .blob, .ro, 0, 0, 0⟩,
    ⟨O.laserBias, 20, .blob, .ro, 0, 0, 0⟩,
    ⟨O.laserTap, 20, .blob, .ro, 0, 0, 0⟩,
    ⟨O.splitTap, 20, .blob, .ro, 0, 0, 0⟩,
    ⟨O.modDrop, 20, .blob, .ro, 0, 0, 0⟩]

/-- Tensor network (R127). -/
def dict03 : List DictRow :=
  [
    ⟨O.chipNumber, 1, .u16, .rwp, 0x0000, 0, 65535⟩,
    ⟨O.domainX, 1, .u8, .rwp, 64, 1, 64⟩,
    ⟨O.domainY, 1, .u8, .rwp, 64, 1, 64⟩,
    ⟨O.bundle, 1, .u8, .rwp, 1, 1, 63⟩,
    ⟨O.tbMaster, 1, .u32, .rwp, 0xFFFFFFFF, 0, 4294967295⟩,
    ⟨O.chipAssigned, 1, .bool, .rwp, 0, 0, 1⟩,
    ⟨O.ackCells, 1, .u16, .rwp, 64, 1, 1024⟩,
    ⟨O.ackTime, 1, .u32, .rwp, 2000, 200, 50000⟩,
    ⟨O.retxTime, 1, .u32, .rwp, 50, 50, 10000⟩,
    ⟨O.retxLimit, 1, .u8, .rwp, 16, 1, 255⟩,
    ⟨O.backoffBase, 1, .u32, .rwp, 1000, 100, 100000⟩,
    ⟨O.backoffMax, 1, .u32, .rwp, 16000, 100, 1000000⟩,
    ⟨O.streamIdle, 1, .u32, .rwp, 200, 100, 100000⟩,
    ⟨O.unreachLimit, 1, .u8, .rwp, 4, 1, 64⟩,
    ⟨O.unreachDefl, 1, .u8, .rwp, 2, 0, 15⟩,
    ⟨O.recvStoreUsed, 1, .u32, .ro, 0, 0, 4294967295⟩,
    ⟨O.retxStoreUsed, 1, .u32, .ro, 0, 0, 4294967295⟩,
    ⟨O.pendingUsed, 1, .u16, .ro, 0, 0, 65535⟩,
    ⟨O.nacksSent, 1, .blob, .ro, 0, 0, 0⟩,
    ⟨O.sluiceNacks, 1, .u64, .ro, 0, 0, 18446744073709551615⟩] ++
  [
    ⟨O.transitDrops, 1, .u64, .ro, 0, 0, 18446744073709551615⟩,
    ⟨O.badCells, 1, .u64, .ro, 0, 0, 18446744073709551615⟩,
    ⟨O.lifetimeDiscards, 1, .u64, .ro, 0, 0, 18446744073709551615⟩,
    ⟨O.deflections, 1, .u64, .ro, 0, 0, 18446744073709551615⟩,
    ⟨O.goldenSeen, 1, .u64, .ro, 0, 0, 18446744073709551615⟩,
    ⟨O.timebase, 1, .time64, .ro, 0, 0, 18446744073709551615⟩,
    ⟨O.tbOffset, 1, .i32, .ro, 0, 0, 0⟩,
    ⟨O.tbState, 1, .u8, .ro, 0, 0, 255⟩,
    ⟨O.tbParent, 1, .u32, .ro, 0xFFFFFFFF, 0, 4294967295⟩,
    ⟨O.destRelease, 1, .u16, .wo, 0, 0, 65535⟩,
    ⟨O.heldDests, 1, .blob, .ro, 0, 0, 0⟩,
    ⟨O.probeTarget, 1, .u16, .wo, 0, 0, 65535⟩,
    ⟨O.probeResult, 1, .u64, .ro, 0, 0, 18446744073709551615⟩]

/-- General network (R161). -/
def dict04 : List DictRow :=
  [
    ⟨O.gnNode, 1, .u32, .rwp, 0x000FFFFF, 0, 65535⟩,
    ⟨O.rackMembers, 1, .blob, .rwp, 0, 0, 0⟩,
    ⟨O.deadTime, 1, .u32, .rwp, 20, 1, 1000000⟩,
    ⟨O.tagPerTarget, 1, .u32, .rwp, 16384, 1, 65536⟩,
    ⟨O.tagsUsed, 1, .u32, .ro, 0, 0, 4294967295⟩,
    ⟨O.readsResent, 1, .u64, .ro, 0, 0, 18446744073709551615⟩,
    ⟨O.poisonReturns, 1, .u64, .ro, 0, 0, 18446744073709551615⟩,
    ⟨O.windowMisses, 1, .u64, .ro, 0, 0, 18446744073709551615⟩,
    ⟨O.flagHolds, 1, .u64, .ro, 0, 0, 18446744073709551615⟩,
    ⟨O.badPackets, 1, .u64, .ro, 0, 0, 18446744073709551615⟩,
    ⟨O.targetRelease, 1, .u32, .wo, 0, 0, 4294967295⟩,
    ⟨O.deadTargets, 1, .blob, .ro, 0, 0, 0⟩,
    ⟨O.portMap, 1, .blob, .ro, 0, 0, 0⟩]

/-- Queues (R191). -/
def dict05 : List DictRow :=
  [
    ⟨O.queues, 1, .u16, .ro, 16384, 0, 65535⟩,
    ⟨O.queueDrainDeadline, 1, .u32, .rwp, 1000, 10, 1000000⟩,
    ⟨O.inflightLimits, 1, .u32, .ro, 0x00100400, 0, 4294967295⟩,
    ⟨O.jobState, 1, .u8, .ro, 0, 0, 255⟩,
    ⟨O.jobEnd, 1, .bool, .wo, 0, 0, 1⟩,
    ⟨O.sanitiseCount, 1, .u64, .ro, 0, 0, 18446744073709551615⟩,
    ⟨O.sanitiseTime, 1, .u32, .ro, 0, 0, 4294967295⟩,
    ⟨O.cpActiveQueues, 8, .u16, .ro, 0, 0, 65535⟩,
    ⟨O.cpCancelled, 8, .u64, .ro, 0, 0, 18446744073709551615⟩,
    ⟨O.queueSelect, 1, .u16, .rw, 0, 0, 16383⟩,
    ⟨O.queueView, 1, .blob, .ro, 0, 0, 0⟩]

/-- Synchronisation (R210). -/
def dict06 : List DictRow :=
  [
    ⟨O.chipCounters, 1, .u32, .ro, 262144, 0, 4294967295⟩,
    ⟨O.barriers, 1, .u16, .ro, 4096, 0, 65535⟩,
    ⟨O.pollInterval, 1, .u32, .rwp, 1000, 100, 100000⟩,
    ⟨O.waiterTable, 1, .u16, .ro, 16384, 0, 65535⟩,
    ⟨O.counterSelect, 1, .u32, .rw, 0, 0, 262143⟩,
    ⟨O.counterView, 1, .blob, .ro, 0, 0, 0⟩,
    ⟨O.waitersUsed, 8, .u16, .ro, 0, 0, 65535⟩,
    ⟨O.pollersNow, 8, .u32, .ro, 0, 0, 4294967295⟩,
    ⟨O.overrunStallsTotal, 1, .u64, .ro, 0, 0, 18446744073709551615⟩,
    ⟨O.staleArrivalsTotal, 1, .u64, .ro, 0, 0, 18446744073709551615⟩,
    ⟨O.counterRefusals, 1, .u64, .ro, 0, 0, 18446744073709551615⟩,
    ⟨O.coreCounterSelect, 1, .u16, .rw, 0, 0, 16383⟩,
    ⟨O.coreCounterView, 1, .blob, .ro, 0, 0, 0⟩]

/-- Collectives (R239). -/
def dict07 : List DictRow :=
  [
    ⟨O.collContexts, 1, .u16, .ro, 2048, 0, 65535⟩,
    ⟨O.collWatchdog, 1, .u32, .rwp, 2000, 1, 600000⟩,
    ⟨O.collDrainDeadline, 1, .u32, .rwp, 1000, 10, 1000000⟩,
    ⟨O.mismatchGather, 1, .u32, .rwp, 100, 0, 10000⟩,
    ⟨O.earlyStore, 1, .u32, .ro, 256, 0, 4294967295⟩,
    ⟨O.earlyUsed, 1, .u32, .ro, 0, 0, 4294967295⟩,
    ⟨O.earlyNacks, 1, .u64, .ro, 0, 0, 18446744073709551615⟩,
    ⟨O.earlyDiscards, 1, .u64, .ro, 0, 0, 18446744073709551615⟩,
    ⟨O.commSlots, 1, .u16, .ro, 4096, 0, 65535⟩,
    ⟨O.commsBound, 1, .u16, .ro, 0, 0, 65535⟩,
    ⟨O.commSelect, 1, .u16, .rw, 0, 0, 4095⟩,
    ⟨O.commView, 1, .blob, .ro, 0, 0, 0⟩,
    ⟨O.collStarted, 1, .u64, .ro, 0, 0, 18446744073709551615⟩,
    ⟨O.collSelfLast, 1, .u64, .ro, 0, 0, 18446744073709551615⟩,
    ⟨O.lateRing, 1, .blob, .ro, 0, 0, 0⟩,
    ⟨O.abortsLate, 1, .u64, .ro, 0, 0, 18446744073709551615⟩,
    ⟨O.lateNext, 1, .u16, .ro, 0, 0, 65535⟩]

/-- HBM (R272). -/
def dict08 : List DictRow :=
  [
    ⟨O.hbmRaw, 1, .u64, .ro, 0x30000000000, 0, 18446744073709551615⟩,
    ⟨O.headlandDiv, 1, .u8, .rwp, 64, 0, 255⟩,
    ⟨O.hbmVisible, 1, .u64, .ro, 0x2F400000000, 0, 18446744073709551615⟩,
    ⟨O.visibleUnits, 1, .u16, .ro, 1008, 0, 65535⟩,
    ⟨O.headlandFree, 1, .u32, .ro, 32768, 0, 4294967295⟩,
    ⟨O.mappedOutCount, 1, .u8, .ro, 0, 0, 255⟩,
    ⟨O.regionView, 1, .blob, .ro, 0, 0, 0⟩,
    ⟨O.keepWays, 1, .u8, .rwp, 12, 0, 15⟩,
    ⟨O.keepRelease, 1, .bool, .wo, 0, 0, 1⟩,
    ⟨O.rsCorrectLimit, 1, .u8, .rwp, 4, 0, 4⟩,
    ⟨O.scrubPeriod, 1, .u32, .rwp, 24, 1, 168⟩,
    ⟨O.ceLimit, 1, .u32, .rwp, 10000, 100, 1000000⟩,
    ⟨O.pinGroupLines, 1, .u16, .rwp, 16, 4, 1024⟩,
    ⟨O.mapoutAuto, 1, .bool, .rwp, 1, 0, 1⟩,
    ⟨O.migrateRate, 1, .u8, .rwp, 32, 4, 64⟩,
    ⟨O.shrinkGrace, 1, .u32, .rwp, 100, 0, 10000⟩,
    ⟨O.shrinkAck, 1, .bool, .wo, 0, 0, 1⟩,
    ⟨O.mapoutRequest, 1, .u16, .wo, 0, 0, 1023⟩,
    ⟨O.mapoutLog, 1, .blob, .ro, 0, 0, 0⟩,
    ⟨O.chState, 1024, .u8, .ro, 0, 0, 255⟩] ++
  [
    ⟨O.chCe, 1024, .u64, .ro, 0, 0, 18446744073709551615⟩,
    ⟨O.chUe, 1024, .u64, .ro, 0, 0, 18446744073709551615⟩,
    ⟨O.chOdecc, 1024, .u64, .ro, 0, 0, 18446744073709551615⟩,
    ⟨O.chPinGroups, 1024, .u32, .ro, 0, 0, 4294967295⟩,
    ⟨O.chRowRepairs, 1024, .u16, .ro, 0, 0, 65535⟩,
    ⟨O.marginPeriod, 1, .u32, .rwp, 24, 0, 720⟩,
    ⟨O.marginAtBoot, 1, .bool, .rwp, 0, 0, 1⟩,
    ⟨O.marginTimeMin, 1, .u8, .rwp, 24, 8, 64⟩,
    ⟨O.marginVrefMin, 1, .u8, .rwp, 12, 4, 64⟩,
    ⟨O.marginSelect, 1, .u16, .rw, 0, 0, 2047⟩,
    ⟨O.marginView, 1, .blob, .ro, 0, 0, 0⟩,
    ⟨O.marginNow, 1, .u16, .wo, 0, 0, 2047⟩]

/-- Cores (R308). -/
def dict09 : List DictRow :=
  [
    ⟨O.cores, 1, .u16, .ro, 256, 0, 65535⟩,
    ⟨O.coresOnline, 1, .blob, .ro, 0, 0, 0⟩,
    ⟨O.kernelTimeLimit, 1, .u32, .rwp, 60000, 1, 3600000⟩,
    ⟨O.ctrlClock, 1, .u16, .ro, 0, 0, 65535⟩,
    ⟨O.coreState, 256, .u8, .ro, 1, 0, 255⟩,
    ⟨O.coreAdmin, 256, .u8, .rwp, 1, 0, 1⟩,
    ⟨O.faultRecord, 256, .blob, .ro, 0, 0, 0⟩,
    ⟨O.kernels, 256, .u64, .ro, 0, 0, 18446744073709551615⟩,
    ⟨O.faults, 256, .u64, .ro, 0, 0, 18446744073709551615⟩,
    ⟨O.cmCorrected, 256, .u64, .ro, 0, 0, 18446744073709551615⟩,
    ⟨O.hwFaults, 256, .u32, .ro, 0, 0, 4294967295⟩]

/-- Matrix array (R331). -/
def dict10 : List DictRow :=
  [
    ⟨O.arrayGeometry, 1, .u32, .ro, 0x00800100, 0, 4294967295⟩,
    ⟨O.accRows, 1, .u16, .ro, 1024, 0, 65535⟩,
    ⟨O.weightBanks, 1, .u8, .ro, 4, 0, 255⟩,
    ⟨O.arrayRepair, 256, .u64, .ro, 0, 0, 18446744073709551615⟩,
    ⟨O.arrayInstrs, 256, .u64, .ro, 0, 0, 18446744073709551615⟩,
    ⟨O.arrayBusy, 256, .u64, .ro, 0, 0, 18446744073709551615⟩,
    ⟨O.accSaturations, 256, .u64, .ro, 0, 0, 18446744073709551615⟩,
    ⟨O.accCorrected, 256, .u64, .ro, 0, 0, 18446744073709551615⟩,
    ⟨O.accUncorrected, 256, .u64, .ro, 0, 0, 18446744073709551615⟩,
    ⟨O.bankTags, 256, .blob, .ro, 0, 0, 0⟩,
    ⟨O.accRowView, 256, .blob, .ro, 0, 0, 0⟩]

/-- Vector engine (R352). -/
def dict11 : List DictRow :=
  [
    ⟨O.vecTrapEn, 1, .u8, .rw, 0x00, 0, 63⟩,
    ⟨O.vecLanes, 1, .u32, .ro, 0x01000200, 0, 4294967295⟩,
    ⟨O.vecTransLanes, 1, .u16, .ro, 64, 0, 65535⟩,
    ⟨O.vecInstrs, 256, .u64, .ro, 0, 0, 18446744073709551615⟩,
    ⟨O.vecBusy, 256, .u64, .ro, 0, 0, 18446744073709551615⟩,
    ⟨O.vecTraps, 256, .u64, .ro, 0, 0, 18446744073709551615⟩,
    ⟨O.vecBankStalls, 256, .u64, .ro, 0, 0, 18446744073709551615⟩]

/-- Numerics (R382). -/
def dict12 : List DictRow :=
  [
    ⟨O.detMode, 1, .bool, .rwp, 0, 0, 1⟩,
    ⟨O.srSeed, 1, .u64, .rwp, 0, 0, 18446744073709551615⟩,
    ⟨O.detRefusals, 1, .u64, .ro, 0, 0, 18446744073709551615⟩,
    ⟨O.numericsVersion, 1, .u16, .ro, 0x0100, 0, 65535⟩,
    ⟨O.nvBootRecords, 1, .u32, .ro, 4096, 0, 4294967295⟩,
    ⟨O.nvBootResult, 1, .blob, .ro, 0, 0, 0⟩,
    ⟨O.nvFirstFail, 1, .blob, .ro, 0, 0, 0⟩,
    ⟨O.nvRun, 1, .u16, .wo, 0, 0, 255⟩,
    ⟨O.nvBootTime, 1, .u32, .ro, 0, 0, 4294967295⟩]

/-- Cellar (R406). -/
def dict13 : List DictRow :=
  [
    ⟨O.cellarSize, 1, .u64, .ro, 0x10000000000, 0, 18446744073709551615⟩,
    ⟨O.updateEngines, 1, .u8, .ro, 8, 0, 255⟩,
    ⟨O.updateDrainDeadline, 1, .u32, .rwp, 1000, 10, 10000000⟩,
    ⟨O.celState, 2, .u8, .ro, 0, 0, 255⟩,
    ⟨O.celCe, 2, .u64, .ro, 0, 0, 18446744073709551615⟩,
    ⟨O.celUe, 2, .u64, .ro, 0, 0, 18446744073709551615⟩,
    ⟨O.enginesOnline, 2, .u8, .ro, 0x0F, 0, 255⟩,
    ⟨O.layersDone, 2, .u64, .ro, 0, 0, 18446744073709551615⟩,
    ⟨O.ratioRing, 1, .blob, .ro, 0, 0, 0⟩,
    ⟨O.ratioNext, 1, .u16, .ro, 0, 0, 65535⟩,
    ⟨O.ratioOut, 1, .u64, .ro, 0, 0, 18446744073709551615⟩,
    ⟨O.engineFault, 8, .blob, .ro, 0, 0, 0⟩,
    ⟨O.engineAdmin, 8, .u8, .rwp, 1, 0, 1⟩]

/-- Power, temperature and clocks (R437). -/
def dict14 : List DictRow :=
  [
    ⟨O.powerLimit, 1, .u32, .rwp, 5800, 2000, 5800⟩,
    ⟨O.powerPeak, 1, .u32, .rwp, 6300, 0, 4294967295⟩,
    ⟨O.powerPeakTime, 1, .u32, .rwp, 10000, 0, 10000⟩,
    ⟨O.inputPower, 1, .f32, .ro, 0, 0, 0⟩,
    ⟨O.power1s, 1, .f32, .ro, 0, 0, 0⟩,
    ⟨O.shutdownNext, 1, .u8, .ro, 0, 0, 255⟩,
    ⟨O.shutdownSelect, 1, .u8, .rw, 0, 0, 255⟩,
    ⟨O.shutdownView, 1, .blob, .ro, 0, 0, 0⟩,
    ⟨O.reArm, 1, .bool, .wo, 0, 0, 1⟩,
    ⟨O.enginesDown, 1, .u32, .ro, 0, 0, 4294967295⟩,
    ⟨O.shutdownNow, 1, .bool, .wo, 0, 0, 1⟩,
    ⟨O.drMaster, 1, .u8, .ro, 0, 0, 255⟩,
    ⟨O.drStandbyOk, 1, .bool, .ro, 1, 0, 1⟩,
    ⟨O.sensorCount, 1, .u16, .ro, 2802, 0, 65535⟩,
    ⟨O.sensorSelect, 1, .u16, .rw, 0, 0, 2801⟩,
    ⟨O.sensorView, 1, .blob, .ro, 0, 0, 0⟩,
    ⟨O.sensorsFailed, 1, .u16, .ro, 0, 0, 65535⟩,
    ⟨O.stretchRatio, 1, .u8, .rwp, 2, 0, 255⟩,
    ⟨O.stepUpInterval, 1, .u32, .rwp, 100, 10, 100000⟩,
    ⟨O.stepDownInterval, 1, .u32, .rwp, 100, 10, 10000⟩] ++
  [
    ⟨O.siteStep, 8, .u8, .ro, 0, 0, 255⟩,
    ⟨O.siteTopStep, 8, .u8, .rw, 0, 0, 7⟩,
    ⟨O.throttleCause, 8, .u8, .ro, 0, 0, 255⟩,
    ⟨O.sitePower, 8, .f32, .ro, 0, 0, 0⟩,
    ⟨O.thermMode, 61, .u8, .rwp, 0, 0, 2⟩,
    ⟨O.thermHyst, 61, .f32, .rwp, 0x40A00000, 10, 200⟩,
    ⟨O.thermWarn, 61, .f32, .rwp, 0, 0, 0⟩,
    ⟨O.thermThrottle, 61, .f32, .rwp, 0, 0, 0⟩,
    ⟨O.thermShutdown, 61, .f32, .rwp, 0, 0, 0⟩,
    ⟨O.rateLimit, 61, .f32, .rwp, 0x41200000, 10, 1000⟩,
    ⟨O.rateWindow, 61, .u16, .rwp, 100, 40, 1000⟩,
    ⟨O.thermReading, 61, .f32, .ro, 0, 0, 0⟩,
    ⟨O.thermRate, 61, .f32, .ro, 0, 0, 0⟩,
    ⟨O.baseThrottle, 8, .f32, .rwp, 0x42C80000, 0, 0⟩,
    ⟨O.fallowIdle, 1, .u32, .rwp, 10, 1, 1000000⟩,
    ⟨O.fallowEnable, 1, .bool, .rwp, 1, 0, 1⟩,
    ⟨O.hbmSrDelay, 1, .u32, .rwp, 1000, 100, 1000000⟩,
    ⟨O.clockState, 1, .blob, .ro, 0, 0, 0⟩,
    ⟨O.aonSource, 1, .u8, .ro, 0, 0, 255⟩,
    ⟨O.siteFallow, 8, .u8, .ro, 0, 0, 255⟩] ++
  [
    ⟨O.fallowEntries, 8, .u64, .ro, 0, 0, 18446744073709551615⟩]

/-- Management and security (R473). -/
def dict15 : List DictRow :=
  [
    ⟨O.deviceSerial, 1, .str, .ro, 0, 0, 0⟩,
    ⟨O.partNumber, 1, .str, .ro, 0, 0, 0⟩,
    ⟨O.deviceUid, 1, .u64, .ro, 0, 0, 18446744073709551615⟩,
    ⟨O.dieGen, 1, .u8, .ro, 0x03, 0, 255⟩,
    ⟨O.mgmtAddr, 1, .blob, .rwp, 0, 0, 0⟩,
    ⟨O.mgmtUdpPort, 1, .u16, .rwp, 7481, 1024, 65535⟩,
    ⟨O.mgmtSessions, 1, .u8, .ro, 0, 0, 255⟩,
    ⟨O.mgmtMac, 1, .blob, .ro, 0, 0, 0⟩,
    ⟨O.claimState, 1, .u8, .ro, 0, 0, 255⟩,
    ⟨O.ownerRoot, 1, .blob, .rwp, 0, 0, 0⟩,
    ⟨O.ownerRelease, 1, .bool, .wo, 0, 0, 1⟩,
    ⟨O.deviceCert, 1, .blob, .ro, 0, 0, 0⟩,
    ⟨O.aliasCert, 1, .blob, .ro, 0, 0, 0⟩,
    ⟨O.ryuverCa, 1, .blob, .ro, 0, 0, 0⟩,
    ⟨O.bootStage, 1, .u8, .ro, 1, 0, 255⟩,
    ⟨O.configWindow, 1, .u32, .rwp, 30000, 0, 60000⟩,
    ⟨O.configDone, 1, .bool, .wo, 0, 0, 1⟩,
    ⟨O.bootCount, 1, .u64, .ro, 0, 0, 18446744073709551615⟩,
    ⟨O.bootTime, 1, .u32, .ro, 0, 0, 4294967295⟩,
    ⟨O.recoveryRequest, 1, .bool, .wo, 0, 0, 1⟩] ++
  [
    ⟨O.debugRequest, 1, .u8, .wo, 0, 1, 3⟩,
    ⟨O.debugChallenge, 1, .blob, .ro, 0, 0, 0⟩,
    ⟨O.debugResponse, 1, .blob, .wo, 0, 0, 0⟩,
    ⟨O.debugScope, 1, .u8, .ro, 0, 0, 255⟩,
    ⟨O.ownerDebugKey, 1, .blob, .rwp, 0, 0, 0⟩,
    ⟨O.ryuverDebugPermit, 1, .bool, .rwp, 0, 0, 1⟩,
    ⟨O.compVersion, 8, .u32, .ro, 0, 0, 4294967295⟩,
    ⟨O.compSvn, 8, .u32, .ro, 0, 0, 4294967295⟩,
    ⟨O.compState, 8, .u8, .ro, 0, 0, 255⟩,
    ⟨O.compDigest, 8, .blob, .ro, 0, 0, 0⟩,
    ⟨O.svnFloor, 8, .u8, .ro, 0, 0, 255⟩,
    ⟨O.imageState, 1, .u8, .ro, 0, 0, 255⟩,
    ⟨O.imageReceived, 1, .u32, .ro, 0, 0, 4294967295⟩,
    ⟨O.keysRevoked, 1, .u8, .ro, 0, 0, 255⟩]

/-- Service (R496). -/
def dict16 : List DictRow :=
  [
    ⟨O.eventSeq, 1, .u64, .ro, 0, 0, 18446744073709551615⟩,
    ⟨O.logSelect, 1, .u16, .rw, 0, 0, 65535⟩,
    ⟨O.logView, 1, .blob, .ro, 0, 0, 0⟩,
    ⟨O.logEntries, 1, .u32, .ro, 65536, 0, 4294967295⟩,
    ⟨O.logNext, 1, .u16, .ro, 0, 0, 65535⟩,
    ⟨O.healthScore, 1, .u16, .ro, 1000, 0, 65535⟩,
    ⟨O.healthComponents, 1, .blob, .ro, 0, 0, 0⟩,
    ⟨O.suspect, 1, .u8, .ro, 0, 0, 255⟩,
    ⟨O.suspectScore, 1, .u16, .rwp, 400, 0, 1000⟩,
    ⟨O.suspectLatePct, 1, .u8, .rwp, 25, 5, 100⟩,
    ⟨O.suspectSet, 1, .u8, .wo, 0, 0, 1⟩,
    ⟨O.healthWarn, 1, .u16, .rwp, 700, 0, 1000⟩,
    ⟨O.serviceState, 1, .u8, .ro, 0, 0, 255⟩,
    ⟨O.serviceCmd, 1, .blob, .wo, 0, 0, 0⟩,
    ⟨O.serviceResult, 1, .blob, .ro, 0, 0, 0⟩,
    ⟨O.quarantined, 1, .bool, .ro, 0, 0, 1⟩,
    ⟨O.shadowSteps, 1, .u16, .rwp, 64, 1, 65535⟩,
    ⟨O.shadowEqual, 1, .u32, .ro, 0, 0, 4294967295⟩,
    ⟨O.shadowMismatches, 1, .u64, .ro, 0, 0, 18446744073709551615⟩,
    ⟨O.shadowLast, 1, .blob, .ro, 0, 0, 0⟩] ++
  [
    ⟨O.mirrorLag, 1, .u32, .ro, 0, 0, 4294967295⟩]

/-- Every object but the subindices 0x00 (R452). -/
def dictionary : List DictRow :=
  dict01 ++ dict02 ++ dict03 ++ dict04 ++ dict05 ++ dict06 ++ dict07 ++ dict08 ++ dict09 ++ dict10 ++ dict11 ++ dict12 ++ dict13 ++ dict14 ++ dict15 ++ dict16

/-- The row of an object, if it is defined. -/
def dictRow (key : Nat) : Option DictRow :=
  dictionary.find? (fun r => decide (r.key % 256 = key % 256 ∧ r.key ≤ key ∧ key < r.key + 256 * r.count))

/-- The highest subindex defined at an index; zero if the index is not defined (R452). -/
def dictMaxSub (idx : Nat) : Nat :=
  dictionary.foldl (fun m r =>
    if r.key / 256 ≤ idx ∧ idx < r.key / 256 + r.count then max m (r.key % 256) else m) 0

/-- PORT_ROLE's default (R64): 0 spare, 1 TN, 2 GN. -/
def roleDefault (p : Nat) : Nat :=
  if p % 5 = 4 then 2 else if p = 77 ∨ p = 157 then 0 else 1

/-- The default levels of a temperature group in °C: warning, throttle, shutdown (R420). -/
def thermDefaults (g : Nat) : Nat × Nat × Nat :=
  if g < 8 then (95, 105, 120)
  else if g < 16 then (85, 95, 105)
  else if g < 36 then (90, 100, 110)
  else if g < 56 then (70, 75, 85)
  else if g < 58 then (95, 105, 120)
  else if g < 60 then (85, 95, 105)
  else (40, 45, 55)

/-- The stated default of an object (R14); for part B SITE_TOP_STEP is 1 (R437). -/
def objDefault (part : Part) (key : Nat) : Nat :=
  if key % 256 = 0x01 ∧ O.portRole ≤ key ∧ key < O.portRole + 256 * 160 then roleDefault ((key - O.portRole) / 256)
  else if key % 256 = 0x03 ∧ O.portAdmin ≤ key ∧ key < O.portAdmin + 256 * 160 then
    if roleDefault ((key - O.portAdmin) / 256) = 0 then 0 else 1
  else if key % 256 = 0x02 ∧ O.siteTopStep ≤ key ∧ key < O.siteTopStep + 256 * 8 then
    match part with
    | .a => 0
    | .b => 1
  else if key % 256 = 0x01 ∧ O.thermMode ≤ key ∧ key < O.thermMode + 256 * 8 then 2
  else if key % 256 = 0x03 ∧ O.thermWarn ≤ key ∧ key < O.thermWarn + 256 * 61 then
    ratToF32 (thermDefaults ((key - O.thermWarn) / 256)).1
  else if key % 256 = 0x04 ∧ O.thermThrottle ≤ key ∧ key < O.thermThrottle + 256 * 61 then
    ratToF32 (thermDefaults ((key - O.thermThrottle) / 256)).2.1
  else if key % 256 = 0x05 ∧ O.thermShutdown ≤ key ∧ key < O.thermShutdown + 256 * 61 then
    ratToF32 (thermDefaults ((key - O.thermShutdown) / 256)).2.2
  else
    match dictRow key with
    | some r => r.dflt
    | none => 0

/-- The value a stored object holds: the written one, else its default. -/
def Chip.obj (s : Chip) (key : Nat) : Nat := Tab.get (objDefault s.part key) s.objs key

/-- The object of unit u in an array of objects. -/
def Chip.obju (s : Chip) (key u : Nat) : Nat := s.obj (key + 256 * u)

/-- A BOOL object. -/
def Chip.objb (s : Chip) (key : Nat) : Bool := s.obj key != 0

/-- The value of an object becomes v; its default is not listed. -/
def Chip.setObj (s : Chip) (key v : Nat) : Chip :=
  { s with objs := Tab.set (objDefault s.part key) s.objs key v }

/-- A counting object goes up by n, in the width of its type. -/
def Chip.bump (s : Chip) (key n : Nat) : Chip :=
  let w := match dictRow key with
    | some r => 2 ^ (8 * (r.ty.bytes.getD 8))
    | none => 2 ^ 64
  s.setObj key ((s.obj key + n) % w)

/-- Element i of an object that holds several counts: kept under a key of its own, above every object's. -/
def elemKey (key i : Nat) : Nat := (i + 1) * 2 ^ 24 + key

def Chip.bumpElem (s : Chip) (key i n : Nat) : Chip :=
  s.setObj (elemKey key i) ((s.obj (elemKey key i) + n) % 2 ^ 64)

/-- An F32 object as a rational; zero if it holds no finite number. -/
def Chip.objRat (s : Chip) (key : Nat) : Rat := (f32ToRat (s.obj key)).getD 0

end Sys2Proof.Machine
end

