-- ==== Sys2Proof/Machine/Event.lean ====
section
/-! DEFINITION. Time, outputs, free values and the event log (R475–R477, R515, R450, R506). -/

namespace Sys2Proof.Machine

/-- AON time: ns since VAON came up (R477). -/
def Chip.aon (s : Chip) : Nat := s.now - s.pins.vaonSince

/-- The timebase as logs and reports show it: zero while TB_STATE is unlocked (R477). -/
def Chip.shownTime (s : Chip) : Word :=
  if s.tn.tbState = .unlocked then 0 else s.timebase

/-- The block sends something. -/
def Chip.emit (s : Chip) (o : Output) : Chip := { s with out := o :: s.out }

/-- Every session closes, and with it the image it was sending (R443, R463, R468). -/
def Chip.closeSessions (s : Chip) : Chip :=
  let transfer := s.mgmt.transfer.filter fun t => t.session.isNone
  { s with mgmt := { s.mgmt with sessions := [], transfer := transfer } }

/-- Advance the counter that free values are drawn with (DESIGN CHOICE log 5). -/
def Chip.drew (s : Chip) : Chip := { s with freeCtr := s.freeCtr + 1 }

/-! ### Event arguments (R515) -/

/-- An event argument, by its natural width. -/
inductive Arg where
  | u8 (v : Nat) | u16 (v : Nat) | u32 (v : Nat) | u64 (v : Nat) | f32 (bits : Nat) | bytes (l : List Byte)
  deriving DecidableEq, Repr

/-- The argument's alignment and its bytes (DEDUCED log 22). -/
def Arg.layout : Arg → Nat × List Byte
  | .u8 v => (1, leBytes 1 v)
  | .u16 v => (2, leBytes 2 v)
  | .u32 v => (4, leBytes 4 v)
  | .u64 v => (8, leBytes 8 v)
  | .f32 v => (4, leBytes 4 v)
  | .bytes l => (1, l)

/-- The arguments in order, each at the next multiple of its width; those that fit whole in 64 bytes (R515). -/
def argBytes : List Arg → List Byte → List Byte
  | [], acc => acc
  | a :: r, acc =>
    let (w, b) := a.layout
    let skip := (w - acc.length % w) % w
    let next := acc ++ List.replicate skip 0 ++ b
    if next.length > 64 then acc else argBytes r next

/-! ### Raising events -/

/-- SEVERITY and SUBSYSTEM of a code (R475). -/
def eventSeverity (code : Nat) : Nat := code / 2 ^ 14 % 4
def eventSubsystem (code : Nat) : Nat := code / 2 ^ 8 % 16

/-- Whether a session has subscribed to an event (R450). -/
def Session.wants (v : Session) (code : Nat) : Bool :=
  match v.subscription with
  | some (lowest, map) => lowest.toNat ≤ eventSeverity code && map.getLsbD (eventSubsystem code)
  | none => false

/-- An event, with its COUNT, enters the log and goes to the sessions; an error or a fatal event pulls ALERT_N low (R476, R450, R506). -/
def Chip.raiseCount (s : Chip) (code count : Nat) (args : List Arg) : Chip :=
  let e : LogEntry :=
    { seq := s.log.seq + 1, code := BitVec.ofNat 16 code, count := BitVec.ofNat 32 count, timebase := s.shownTime,
      aonTime := BitVec.ofNat 64 s.aon, args := argBytes args [] }
  let log := { s.log with ring := Tab.set LogEntry.zero s.log.ring s.log.next e,
                          next := (s.log.next + 1) % 65536, seq := e.seq }
  let sessions := s.mgmt.sessions.map fun v =>
    if v.wants code then { v with unacked := v.unacked ++ [⟨e, 0⟩] } else v
  let sent := (s.mgmt.sessions.filter (·.wants code)).map fun v => Output.event v.id e
  let alert := eventSeverity code ≥ 2
  { s with
    log := log
    mgmt := { s.mgmt with sessions := sessions }
    out := sent.reverse ++ s.out
    pins := if alert then { s.pins with alertLow := true, alertSince := s.now } else s.pins }

/-- One occurrence of an event. -/
def Chip.raise (s : Chip) (code : Nat) (args : List Arg) : Chip := s.raiseCount code 1 args

/-- An event limited to one per second of VAON time and unit: further occurrences fold into the entry's COUNT (R476). -/
def Chip.raiseLimited (s : Chip) (code unit : Nat) (args : List Arg) : Chip :=
  match s.log.windows.find? (fun w => w.code.toNat == code && w.unit == unit && s.aon < w.opened + 1000000000) with
  | some w =>
    let e := Tab.get LogEntry.zero s.log.ring w.slot
    if e.seq = w.seq then
      { s with log := { s.log with ring := Tab.set LogEntry.zero s.log.ring w.slot { e with count := e.count + 1 } } }
    else s
  | none =>
    let slot := s.log.next
    let t := s.raise code args
    let open' := s.log.windows.filter (fun w => !(w.code.toNat == code && w.unit == unit))
    { t with log := { t.log with windows := ⟨BitVec.ofNat 16 code, unit, s.aon, slot, t.log.seq⟩ :: open' } }

end Sys2Proof.Machine
end

