-- ==== Sys2Proof/Machine/Panel.lean ====
section
/-! DEFINITION. Where the dies of the panel stand, what each port of a base die joins (R16–R19), and the paths between
the base dies (R41). -/

namespace Sys2Proof.Machine

/-- The package direction of a local port, 0 N, 1 E, 2 S, 3 W in both frames: the dies of sites 4–7 are turned (R17). -/
def packageDir (site port : Nat) : Nat := if site < 4 then port else (port + 2) % 4

/-- The site of an engine's base die. -/
def engineSite (e : Nat) : Nat :=
  match e with
  | 0 | 1 | 2 => 0 | 3 | 4 => 1 | 5 | 6 => 2 | 7 | 8 | 9 => 3 | 10 | 11 | 12 => 4 | 13 | 14 => 5 | 15 | 16 => 6 | _ => 7

/-- The site of the engine a port stands on. -/
def portSite (port : Nat) : Nat := engineSite (port / 8)

/-- What stands at a port of a base die (R18). -/
inductive PortSide where
  /-- HBM stacks, and engines -/
  | stacks (hbm engines : List Nat)
  /-- a culvert and the site it leads to -/
  | culvert (link site : Nat)
  /-- a cellar die, its link, and an engine -/
  | cellar (die link engine : Nat)
  deriving DecidableEq, Repr

/-- The port table of R18, from the place of a site in its row and the package direction of the port. -/
def portSide (site port : Nat) : PortSide :=
  let row := site / 4
  let col := site % 4
  let own := PortSide.stacks ((List.range 4).map (4 * site + ·))
    ((List.range 20).filter fun e => engineSite e == site && !([2, 9, 12, 19].contains e))
  match packageDir site port with
  | 0 => if row = 0 then own else .culvert (6 + col) (site - 4)
  | 1 => if col = 3 then .cellar 1 (12 + row) (9 + 10 * row) else .culvert (3 * row + col) (site + 1)
  | 2 => if row = 1 then own else .culvert (6 + col) (site + 4)
  | _ => if col = 0 then .cellar 0 (10 + row) (2 + 10 * row) else .culvert (3 * row + col - 1) (site - 1)

/-- The links at a port (R19). -/
def PortSide.links : PortSide → List Nat
  | .stacks _ engines => engines.map (14 + ·)
  | .culvert l _ => [l]
  | .cellar _ l e => [l, 14 + e]

/-- The local port of a site at which a link stands. -/
def localPort (site l : Nat) : Nat := ((List.range 4).find? fun p => (portSide site p).links.contains l).getD 0

/-- The local end of a link: site and port. Of a culvert's two ends the lower-numbered site is the local one
(DESIGN CHOICE log 48). -/
def linkEnd (l : Nat) : Nat × Nat :=
  let site := if l < 3 then l else if l < 6 then l + 1 else if l < 10 then l - 6
    else match l with | 10 => 0 | 11 => 4 | 12 => 3 | 13 => 7 | _ => engineSite (l - 14)
  (site, localPort site l)

/-- The far end of a culvert: the site across the local end's port, and its port. -/
def farEnd (l : Nat) : Nat × Nat :=
  let (site, port) := linkEnd l
  match portSide site port with
  | .culvert _ peer => (peer, localPort peer l)
  | _ => (site, port)

/-- ROLE of a port (R34): 0 compute-stack base, 1 cellar, 2 optical engine. -/
def linkRole (l : Nat) : Nat := if l < 10 then 0 else if l < 14 then 1 else 2

/-- A link carries messages: it is Active, Sparing or Degraded (R40). -/
def LinkState.carries : LinkState → Bool
  | .active => true | .sparing => true | .degraded => true | _ => false

def Chip.link (s : Chip) (l : Nat) : Link := (Tab.get none s.links l).getD (Link.reset l)

/-- Training of every link that is Down begins where the dies run (DESIGN CHOICE log 139). -/
def Chip.trainDown (s : Chip) : Chip :=
  { s with links := (List.range 34).foldl (fun t l =>
      let x := (Tab.get none t l).getD (Link.reset l)
      if x.state = .down then Tab.set none t l (some { x with state := .training }) else t) s.links }

/-! ### Paths (R41) -/

/-- The culverts of a site that carry messages, with the sites they lead to. -/
def Chip.ways (s : Chip) (site : Nat) : List (Nat × Nat) :=
  (List.range 4).filterMap fun p => match portSide site p with
    | .culvert l peer => if (s.link l).state.carries then some (l, peer) else none
    | _ => none

/-- One more crossing for every path known: the sites reached first now, each with its culverts in order. -/
def Chip.spread (s : Chip) (known : List (Nat × List Nat)) : List (Nat × List Nat) :=
  known.foldl (fun acc k => (s.ways k.1).foldl (fun acc w =>
    if acc.any (·.1 == w.2) then acc else acc ++ [(w.2, k.2 ++ [w.1])]) acc) known

def Chip.spreadFuel (s : Chip) : Nat → List (Nat × List Nat) → List (Nat × List Nat)
  | 0, known => known
  | fuel + 1, known => Chip.spreadFuel s fuel (s.spread known)

/-- The culverts that a message from one site to another crosses, in order: the fewest that carry messages, so that a path
leaves out a culvert that is down and goes through the other row. None where no path is left (R41, DESIGN CHOICE log 137). -/
def Chip.path (s : Chip) (a b : Nat) : Option (List Nat) :=
  if a = b then some [] else ((Chip.spreadFuel s 7 [(a, [])]).find? (·.1 == b)).map (·.2)

/-- Whether messages of a site reach another one. -/
def Chip.reaches (s : Chip) (a b : Nat) : Bool := (s.path a b).isSome

end Sys2Proof.Machine
end

