-- ==== Sys2Proof/Machine/Ops.lean ====
section
/-! DEFINITION. How a command acts: on the chip alone, and on the part of the package that runs. -/

namespace Sys2Proof.Machine

/-- The Ditchrider's firmware runs (R455). -/
def Chip.awake (s : Chip) : Bool := 2 ≤ s.mgmt.stage

/-- The dies run: out of reset, and no package shutdown is latched (R427, R455) (DEDUCED log 129). -/
def Chip.live (s : Chip) : Bool := s.awake && s.power.shutdown.isNone

/-- Do f where a condition holds; otherwise nothing changes (DEDUCED log 6). -/
def Chip.when (s : Chip) (b : Bool) (f : Chip → Chip) : Chip := if b then f s else s

/-- A command's effect whatever the package does: the chip changes by f, and the queue of waiting commands is as it was. -/
def State.always (s : State) (f : Chip → Chip) : Host.Outcome State Fault Refusal :=
  .next { s with toChip := f s.toChip }

/-- A command that the always-on domain serves. -/
def State.actAwake (s : State) (f : Chip → Chip) : Host.Outcome State Fault Refusal :=
  s.always fun c => c.when c.awake f

/-- A command that the dies serve: dies held in reset, or without power, do nothing. -/
def State.act (s : State) (f : Chip → Chip) : Host.Outcome State Fault Refusal :=
  s.always fun c => c.when c.live f

/-- f for each element of a list, in order. -/
def Chip.each {α : Type} (s : Chip) (l : List α) (f : Chip → α → Chip) : Chip := l.foldl f s

/-- The timebase a nanosecond later: a correction adds one more or withholds it, and the counter never steps back (R122). -/
def Chip.tickTimebase (s : Chip) : Chip :=
  let d := s.tn.tbSlew
  { s with
    timebase := s.timebase + (if d < 0 then 0 else if d = 0 then 1 else 2)
    tn := { s.tn with tbSlew := if d < 0 then d + 1 else if d = 0 then 0 else d - 1 } }

/-- A nanosecond passes: AON_TIME goes on and, where the dies run, the timebase does and links that are Down train (R40,
R121, R477, DESIGN CHOICE log 7). -/
def Chip.nanosecond (s : Chip) : Chip :=
  let s := s.when s.live fun s => s.trainDown.tickTimebase
  { s with now := s.now + 1 }

end Sys2Proof.Machine
end

