-- ==== Sys2Proof/Machine/Rs.lean ====
section
/-! DEFINITION. The Reed-Solomon code of a 64-byte line and its decoder (R253–R256). -/

namespace Sys2Proof.Machine

/-! ### GF(2⁸), field polynomial x⁸ + x⁴ + x³ + x² + 1 -/

/-- Multiplication by α = 0x02. -/
def gfDouble (a : Nat) : Nat := if a < 128 then 2 * a else (2 * a) % 256 ^^^ 0x1D

/-- Multiplication, over the bits of b from the top. -/
def gfMul (a b : Nat) : Nat :=
  (List.range 8).foldl (fun r i => gfDouble r ^^^ (if bitOf b (7 - i) then a else 0)) 0

/-- α^n. -/
def gfAlpha (n : Nat) : Nat := (List.range (n % 255)).foldl (fun r _ => gfDouble r) 1

/-- a^254 = a⁻¹ for a ≠ 0. -/
def gfInv (a : Nat) : Nat :=
  (List.range 7).foldl (fun (p : Nat × Nat) _ =>
    let sq := gfMul p.1 p.1
    (sq, gfMul p.2 sq)) (a, 1) |>.2

/-! ### Encoding -/

/-- The generator (x − α⁰)…(x − α⁷), coefficients from x⁷ down to x⁰ (its leading coefficient is 1). -/
def rsGenerator : List Nat :=
  let full := (List.range 8).foldl (fun (p : List Nat) j =>
    List.zipWith (· ^^^ ·) (p ++ [0]) (0 :: p.map (gfMul (gfAlpha j)))) [1]
  full.drop 1

/-- The remainder of (the polynomial of the symbols, highest first) × x⁸ divided by the generator. -/
def rsRemainder (symbols : List Nat) : List Nat :=
  symbols.foldl (fun r d =>
    let f := d ^^^ r.headD 0
    List.zipWith (· ^^^ ·) (r.drop 1 ++ [0]) (rsGenerator.map (gfMul f))) (List.replicate 8 0)

/-- The 72 stored symbols of a line: its bytes and its check symbols; a poisoned line's check has the virtual symbol
0x01 ahead of byte 0 (R255). -/
def rsEncode (data : List Byte) (poison : Bool) : List Nat :=
  let d := data.map (·.toNat)
  d ++ rsRemainder ((if poison then [1] else []) ++ d)

/-! ### Decoding -/

/-- The value of the word's polynomial at α^j; symbol i is the coefficient of x^(71 − i). -/
def rsSyndrome (word : List Nat) (j : Nat) : Nat :=
  word.foldl (fun r c => gfMul r (gfAlpha j) ^^^ c) 0

def rsSyndromes (word : List Nat) : List Nat := (List.range 8).map (rsSyndrome word)

/-- One elimination step of a linear system over GF(2⁸): reduce every row by the first row with a pivot in column c. -/
def gfEliminate (rows : List (List Nat)) (c : Nat) : List (List Nat) :=
  match rows.find? (fun r => nth 0 r c != 0 && (r.take c).all (· == 0)) with
  | none => rows
  | some p =>
    let k := gfInv (nth 0 p c)
    let p' := p.map (gfMul k)
    p' :: (rows.erase p).map fun r => List.zipWith (fun a b => a ^^^ gfMul (nth 0 r c) b) r p'

/-- The solution of a system of n unknowns, each row its coefficients and its right side; none if it has no unique
solution. -/
def gfSolve (n : Nat) (rows : List (List Nat)) : Option (List Nat) :=
  let red := (List.range n).foldl gfEliminate rows
  let xs := (List.range n).map fun c =>
    (red.find? (fun r => nth 0 r c == 1 && (r.take n).zipIdx.all (fun q => q.2 == c || q.1 == 0))).map (nth 0 · n)
  if xs.all (·.isSome) then some (xs.map (·.getD 0)) else none

/-- The locator of a position: α^(71 − i). -/
def rsLocator (i : Nat) : Nat := gfAlpha (71 - i)

/-- The word with the values XORed in at the positions. -/
def rsApply (word : List Nat) (err : List (Nat × Nat)) : List Nat :=
  err.foldl (fun w p => setAt w p.1 (nth 0 w p.1 ^^^ p.2)) word

/-- The error values at the given positions that explain the syndromes. -/
def rsValues (syn : List Nat) (pos : List Nat) : Option (List (Nat × Nat)) :=
  let rows := (List.range pos.length).map fun j =>
    (pos.map fun i => gfAlpha (j * (71 - i))) ++ [nth 0 syn j]
  (gfSolve pos.length rows).map (pos.zip ·)

/-- A correction of exactly n symbols that leaves no syndrome, if there is one. -/
def rsCorrect (word : List Nat) (syn : List Nat) (n : Nat) : Option (List (Nat × Nat)) :=
  -- error-locator coefficients: sum over k of σ_k S_(j+n−k) = S_(j+n)
  let rows := (List.range n).map fun j => ((List.range n).map fun k => nth 0 syn (j + n - 1 - k)) ++ [nth 0 syn (j + n)]
  match gfSolve n rows with
  | none => none
  | some sigma =>
    -- positions whose locator X satisfies X^n = Σ σ_k X^(n−1−k)
    let poly := 1 :: sigma
    let pos := (List.range 72).filter fun i => poly.foldl (fun r c => gfMul r (rsLocator i) ^^^ c) 0 == 0
    if pos.length ≠ n then none
    else
      match rsValues syn pos with
      | none => none
      | some err =>
        let w := rsApply word err
        -- every syndrome must be explained
        if (List.zipWith (· ^^^ ·) syn
              (rsSyndromes (rsApply (List.replicate word.length 0) err))).all (· == 0)
            && err.all (fun p => p.2 != 0) && w.length == word.length then some err else none

/-- Bounded-distance decoding with up to t corrections: the corrections, or none. -/
def rsBounded (word : List Nat) (syn : List Nat) (t : Nat) : Option (List (Nat × Nat)) :=
  if syn.all (· == 0) then some []
  else (List.range t).findSome? fun n => rsCorrect word syn (n + 1)

/-- What the decoder makes of a stored word. -/
inductive RsResult where
  /-- clean data and the corrected symbols -/
  | clean (data : List Byte) (corrected : List Nat)
  /-- a line stored poisoned, and the corrected symbols -/
  | poisoned (data : List Byte) (corrected : List Nat)
  /-- uncorrectable: the data as read -/
  | bad (data : List Byte)
  deriving DecidableEq, Repr

def rsData (word : List Nat) : List Byte := (word.take 64).map (BitVec.ofNat 8)

/-- The symbol positions of a pin group: pins 4k to 4k + 3, two symbols a pin (R253). -/
def pinGroupSymbols (k : Nat) : List Nat := (List.range 8).map (8 * k + ·)

/-- The pin group of a symbol. -/
def pinGroupOf (i : Nat) : Nat := i / 8

/-- The decoder of R255 and R256: the plain check with up to t corrections, then the poisoned check with up to
min(t, 3), then a marked pin group as erasures under the plain check. -/
def rsDecode (word : List Nat) (t : Nat) (marked : Option Nat) : RsResult :=
  let syn := rsSyndromes word
  match rsBounded word syn t with
  | some err => .clean (rsData (rsApply word err)) (err.map (·.1))
  | none =>
    -- the virtual symbol 0x01 is the coefficient of x^72
    let synP := (List.range 8).map fun j => nth 0 syn j ^^^ gfAlpha (72 * j)
    match rsBounded word synP (min t 3) with
    | some err => .poisoned (rsData (rsApply word err)) (err.map (·.1))
    | none =>
      match marked with
      | none => .bad (rsData word)
      | some k =>
        match rsValues syn (pinGroupSymbols k) with
        | none => .bad (rsData word)
        | some err =>
          .clean (rsData (rsApply word err)) ((err.filter (fun p => p.2 != 0)).map (·.1))

end Sys2Proof.Machine
end

