-- ==== Sys2Proof/Machine/Hbm.lean ====
section
/-! DEFINITION. The address map and HBM: regions and places (R10, R241–R248), poison marks, the memory-side cache
(R249–R251), the line decoder at work (R252–R258), channels and map-out (R259–R267). -/

namespace Sys2Proof.Machine

/-! ### Bytes of memory -/

/-- The byte at an address; a byte nothing has written reads as zero (DESIGN CHOICE log 3). -/
def Chip.byte (s : Chip) (a : Nat) : Byte := Tab.get 0 s.mem a

/-- The memory's canonical form. -/
abbrev Memory.wf (m : List Host.Cell) : Bool := Tab.wf 0 m

/-- n bytes from an address on. -/
def Chip.bytes (s : Chip) (a n : Nat) : List Byte := (List.range n).map fun i => s.byte (a + i)

/-- Bytes stored from an address on. -/
def memPut (m : List Host.Cell) (a : Nat) : List Byte → List Host.Cell
  | [] => m
  | b :: r => memPut (Tab.set 0 m a b) (a + 1) r

/-- A store to bytes that a core has reserved ends its reservation (R277, DEDUCED log 61). -/
def CoreSt.unreserve (x : CoreSt) (a n : Nat) : CoreSt :=
  match x.reservation with
  | some (r, k) => if a < r + k ∧ r < a + n then { x with reservation := none } else x
  | none => x

/-- The cores' reservations after a store; only their own memories can be reserved. -/
def unreserveAll (cores : Tab CoreSt) (a n : Nat) : Tab CoreSt :=
  if a < 0x80000000000 then cores else cores.map fun e => (e.1, e.2.unreserve a n)

/-- Bytes stored from an address on. -/
def Chip.putBytes (s : Chip) (a : Nat) (bs : List Byte) : Chip :=
  { s with mem := memPut s.mem a bs, cores := unreserveAll s.cores a bs.length }

/-- The little-endian word of n bytes at an address. -/
def Chip.word (s : Chip) (a n : Nat) : Nat := leNat (s.bytes a n)

/-! ### Interleave entries (R245) -/

/-- Fields of bytes 24–31 of an interleave entry. -/
def ilValid (w : Word) : Bool := w.getLsbD 63
def ilPolicy (w : Word) : Nat := bitsOf w.toNat 62 61
def ilSite (w : Word) : Nat := bitsOf w.toNat 60 58
def ilNoCache (w : Word) : Bool := w.getLsbD 57
def ilBase (w : Word) : Nat := bitsOf w.toNat 43 32
def ilSize (w : Word) : Nat := bitsOf w.toNat 31 20
def ilChBase (w : Word) : Nat := bitsOf w.toNat 19 8

/-- The share of each channel a region uses, in MiB (R245). -/
def ilShare (w : Word) : Nat := if ilPolicy w = 2 then 8 * ilSize w else ilSize w

def Chip.ilWord (s : Chip) (r : Nat) : Word := Tab.get 0 s.hbm.interleave r

/-- The valid entries. -/
def Chip.regions (s : Chip) : List (Nat × Word) := s.hbm.interleave.filter (fun e => ilValid e.2)

/-- HBM_VISIBLE (R259). -/
def Chip.hbmVisible (s : Chip) : Nat := s.hbm.v * (3 * 2 ^ 30)

/-- The bytes of a unit: 1.5 MiB. -/
def unitBytes : Nat := 3 * 2 ^ 19

/-- A channel's visible end with v visible units per pseudo-channel (R259). -/
def visibleEnd (v : Nat) : Nat := 2 * v * unitBytes

/-! ### The place of an offset (R247) -/

/-- Where a byte of HBM lies. -/
structure Place where
  entry : Nat
  word : Word
  channel : Nat
  chaddr : Nat
  pc : Nat
  pcaddr : Nat
  deriving DecidableEq, Repr

/-- The fold f of R247: XOR of the groups of w bits of q above the first, each reduced to n channels. -/
def foldQ (w n : Nat) : Nat → Nat → Nat
  | 0, _ => 0
  | k + 1, t => if t = 0 then 0 else (t % n) ^^^ foldQ w n k (t / 2 ^ w)

/-- The place of offset o under an entry's word. -/
def placeIn (r : Nat) (e : Word) (o : Nat) : Place :=
  let x := o - ilBase e * 2 ^ 30
  let sl := ilSize e * 2 ^ 27
  let (first, n, w, y) :=
    if ilPolicy e = 0 then (0, 1024, 10, x / 256)
    else if ilPolicy e = 1 then (128 * (x / sl), 128, 7, x % sl / 256)
    else (128 * ilSite e, 128, 7, x / 256)
  let q := y / 2 ^ w
  let f := foldQ w n 64 q
  let channel := first + ((y ^^^ f) % n)
  let chaddr := ilChBase e * 2 ^ 20 + q * 256 + x % 256
  { entry := r, word := e, channel := channel, chaddr := chaddr, pc := 2 * channel + chaddr / 256 % 2,
    pcaddr := chaddr / 512 * 256 + x % 256 }

/-- The place of a chip offset, if a valid entry holds it. -/
def Chip.place (s : Chip) (o : Nat) : Option Place :=
  (s.regions.find? fun e => decide (ilBase e.2 ≤ o / 2 ^ 30 ∧ o / 2 ^ 30 < ilBase e.2 + ilSize e.2)).map
    fun e => placeIn e.1 e.2 o

/-! ### The address map (R10, R11, R248, R267) -/

/-- What a chip offset names. -/
inductive Region where
  | hbm (p : Place)
  /-- HBM withdrawn by a shrink (R267) -/
  | withdrawn
  | cellar
  | coreMem
  /-- queue control blocks: queue and byte -/
  | qcb (q off : Nat)
  /-- doorbell pages: queue and byte -/
  | doorbell (q off : Nat)
  | interleave (r off : Nat)
  | window (e off : Nat)
  | comm (slot off : Nat)
  /-- core-local counter pages: core and byte -/
  | counterPage (c off : Nat)
  /-- counters, barrier descriptors and debug views: the offset from 0xF00_0000_0000 -/
  | sync (off : Nat)
  | unused
  deriving DecidableEq, Repr

/-- The region of a chip offset. -/
def Chip.region (s : Chip) (o : Nat) : Region :=
  if o < 0x30000000000 then
    match s.place o with
    | none => .unused
    | some p =>
      if p.chaddr ≥ visibleEnd s.hbm.v then
        if p.chaddr < visibleEnd s.hbm.vBoot then .withdrawn else .unused
      else if o ≥ s.hbmVisible then .unused
      else .hbm p
  else if o < 0x40000000000 then .unused
  else if o < 0x50000000000 then .cellar
  else if o < 0x80000000000 then .unused
  else if o < 0x80100000000 then .coreMem
  else if o < 0xC0000000000 then .unused
  else if o < 0xC0000100000 then .qcb ((o - 0xC0000000000) / 64) (o % 64)
  else if o < 0xC0100000000 then .unused
  else if o < 0xC0104000000 then .doorbell ((o - 0xC0100000000) / 4096) (o % 4096)
  else if o < 0xC0200000000 then .unused
  else if o < 0xC0200000800 then .interleave ((o - 0xC0200000000) / 32) (o % 32)
  else if o < 0xC0400000000 then .unused
  else if o < 0xC0400008000 then .window ((o - 0xC0400000000) / 32) (o % 32)
  else if o < 0xC0500000000 then .unused
  else if o < 0xC0500040000 then .comm ((o - 0xC0500000000) / 64) (o % 64)
  else if o < 0xC0800000000 then .unused
  else if o < 0xC0800200000 then .counterPage ((o - 0xC0800000000) / 8192) (o % 8192)
  else if o < 0xF0000000000 then .unused
  else if o < 0xF0002000000 then .sync (o - 0xF0000000000)
  else .unused

/-- Whether a region holds data bytes: HBM, the cellar and the core memories. -/
def Region.isData : Region → Bool
  | .hbm _ => true | .cellar => true | .coreMem => true | _ => false

/-- Whether every byte of a range is data memory; the regions change only at 256-byte granules. -/
def Chip.rangeAll (s : Chip) (p : Region → Bool) (a len : Nat) : Bool :=
  len == 0 || (List.range ((a % 256 + len + 255) / 256)).all fun i =>
    p (s.region (if i = 0 then a else a - a % 256 + 256 * i))

/-- Every byte of a range is data memory; an empty range at least starts there (R11). -/
def Chip.rangeData (s : Chip) (a len : Nat) : Bool := s.rangeAll Region.isData a (max len 1)

/-- Whether some byte of a range is withdrawn HBM (R267). -/
def Chip.rangeWithdrawn (s : Chip) (a len : Nat) : Bool := !s.rangeAll (fun r => r != .withdrawn) a len

/-! ### Units and donors (R262, R263) -/

/-- The unit of a place, numbered 1,024 × pseudo-channel + unit. -/
def Place.unit (p : Place) : Nat := 1024 * p.pc + p.pcaddr / unitBytes

/-- The line of a place within its unit. -/
def Place.unitLine (p : Place) : Nat := p.pcaddr % unitBytes / 64

/-- The donor of a unit: the place the latest sweep has drained it to, else that of the remap table. -/
def Chip.donorOf (s : Chip) (u : Nat) : Option Nat :=
  match s.hbm.sweeps.reverse.findSome? fun w => w.away.find? (fun m => m.1 = u) with
  | some m => some m.2
  | none => Tab.get none s.hbm.remap u

/-- The unit that serves a unit now. -/
def Chip.servingUnit (s : Chip) (u : Nat) : Nat := (s.donorOf u).getD u

def unitPc (u : Nat) : Nat := u / 1024
def unitChannel (u : Nat) : Nat := u / 2048
def unitSite (u : Nat) : Nat := u / 2048 / 128

def Chip.channel (s : Chip) (n : Nat) : Channel := Tab.get Channel.reset s.hbm.channels n
def Chip.setChannel (s : Chip) (n : Nat) (f : Channel → Channel) : Chip :=
  { s with hbm := { s.hbm with channels := Tab.modify Channel.reset s.hbm.channels n f } }
def Chip.pcOf (s : Chip) (p : Nat) : PseudoChannel := Tab.get PseudoChannel.reset s.hbm.pcs p
def Chip.setPc (s : Chip) (p : Nat) (f : PseudoChannel → PseudoChannel) : Chip :=
  { s with hbm := { s.hbm with pcs := Tab.modify PseudoChannel.reset s.hbm.pcs p f } }

/-! ### Poison marks (R255, R275, R386) -/

/-- Whether the 64-byte line of an address is stored poisoned. -/
def Chip.poisoned (s : Chip) (a : Nat) : Bool :=
  Tab.get false s.hbm.poison (a / 64) ||
    (match s.hbm.unitPoison, s.place a with
     | [], _ => false
     | us, some p => us.any fun u => u.unit == p.unit && !u.clean.contains p.unitLine
     | _, none => false)

/-- Mark the line of an address poisoned or clean. -/
def Chip.mark (s : Chip) (a : Nat) (b : Bool) : Chip :=
  let h := { s.hbm with poison := Tab.set false s.hbm.poison (a / 64) b }
  let h := match b, s.place a with
    | false, some p => { h with unitPoison := h.unitPoison.map fun u =>
        if u.unit == p.unit && !u.clean.contains p.unitLine then { u with clean := p.unitLine :: u.clean } else u }
    | _, _ => h
  { s with hbm := h }

/-- Bytes stored within one line: a whole line takes its data's mark, a part of a line keeps a poisoned line poisoned
and poisons it when its own data is poisoned. -/
def Chip.putLine (s : Chip) (a : Nat) (bs : List Byte) (poison : Bool) : Chip :=
  let t := s.putBytes a bs
  if bs.length = 64 then (if s.poisoned a != poison then t.mark a poison else t)
  else if poison && !s.poisoned a then t.mark a true else t

/-! ### Headland (R259) -/

/-- Channels whose units are no longer counted: those mapped out or migrating. -/
def Chip.goneChannels (s : Chip) : Nat :=
  (s.hbm.channels.filter fun e => e.2.state = .mappedOut || e.2.state = .migrating).length

/-- Units held by running sweeps. -/
def Chip.sweepUnits (s : Chip) : Nat := s.hbm.sweeps.foldl (fun n w => n + w.donors.length) 0

/-- HEADLAND_FREE. -/
def Chip.headlandFree (s : Chip) : Nat :=
  (2048 - 2 * s.goneChannels) * 1024 - 2048 * s.hbm.v - s.sweepUnits

/-- MAPPED_OUT_COUNT. -/
def Chip.mappedOutCount (s : Chip) : Nat := (s.hbm.channels.filter fun e => e.2.state = .mappedOut).length

/-- A unit put among others in ascending order of the places that serve them. -/
def Chip.insertServed (s : Chip) (u : Nat) : List Nat → List Nat
  | [] => [u]
  | x :: r => if s.servingUnit u ≤ s.servingUnit x then u :: x :: r else x :: s.insertServed u r

/-- The units of others that a pseudo-channel hosts, through the remap table or for a sweep, in ascending order of place. -/
def Chip.hostedOn (s : Chip) (p : Nat) : List Nat :=
  let swept := ((s.hbm.sweeps.flatMap fun w => w.away.map (·.1)).filter fun u => (Tab.get none s.hbm.remap u).isNone).eraseDups
  ((s.hbm.remap.map (·.1) ++ swept).filter fun u => unitPc (s.servingUnit u) == p).foldr s.insertServed []

/-- The units a pseudo-channel serves, in ascending order of place: its own that still lie there, and those it hosts. -/
def Chip.unitsOfPc (s : Chip) (p : Nat) : List Nat :=
  (((List.range s.hbm.v).map (1024 * p + ·)).filter fun u => (s.donorOf u).isNone) ++ s.hostedOn p

/-- The units that leave a channel (R262). -/
def Chip.unitsOfChannel (s : Chip) (n : Nat) : List Nat := s.unitsOfPc (2 * n) ++ s.unitsOfPc (2 * n + 1)

/-- Every donor in use: remapped, promised to a migration, or held by a sweep. -/
def Chip.donorsUsed (s : Chip) : List Nat :=
  s.hbm.remap.filterMap (·.2) ++
  (match s.hbm.migration with
   | some m => m.promised.map (·.2)
   | none => []) ++
  s.hbm.sweeps.flatMap Sweep.donors

/-- Culverts between two sites (R18). -/
def siteDistance (a b : Nat) : Nat :=
  (if a % 4 ≥ b % 4 then a % 4 - b % 4 else b % 4 - a % 4) + (if a / 4 = b / 4 then 0 else 1)

/-- The pseudo-channels to take donors from, site by site (R262): the own site first, starting after `p`. -/
def donorOrder (p : Nat) : List (List Nat) :=
  let site := p / 256
  let own := (List.range 256).map fun i => 256 * site + (p % 256 + 1 + i) % 256
  own :: (List.range 4).flatMap fun d =>
    ((List.range 8).filter fun t => siteDistance site t == d + 1).map fun t => (List.range 256).map (256 * t + ·)

/-- Whether a pseudo-channel can give donors to a move out of `avoid`: its channel is not that one, not mapped out or
migrating or retained, and no sweep has drained it. -/
def Chip.canDonate (s : Chip) (avoid p : Nat) : Bool :=
  p / 2 != avoid &&
  (match (s.channel (p / 2)).state with
   | .mappedOut => false | .migrating => false | .retained => false | _ => true) &&
  !s.hbm.sweeps.any (fun w => w.pc == p)

/-- The free units of a pseudo-channel, highest first. -/
def freeUnits (v : Nat) (used : List Nat) (p : Nat) : List Nat :=
  ((List.range (1024 - v)).map fun i => 1024 * p + (1023 - i)).filter fun u => !used.contains u

/-- Deal one unit from each pseudo-channel in turn until n are taken or none is left. -/
def dealRound : Nat → List (List Nat) → List Nat → Nat → List Nat
  | 0, _, acc, _ => acc
  | fuel + 1, lists, acc, n =>
    let heads := lists.filterMap (·.head?)
    if heads.isEmpty || n ≤ acc.length then acc
    else dealRound fuel (lists.map (·.drop 1)) (acc ++ heads.take (n - acc.length)) n

/-- n donor units for a move out of pseudo-channel p of channel `avoid` (R262). -/
def Chip.chooseDonors (s : Chip) (p avoid n : Nat) : List Nat :=
  let used := s.donorsUsed
  (donorOrder p).foldl (fun acc site =>
    if acc.length ≥ n then acc
    else acc ++ dealRound 1024 ((site.filter (s.canDonate avoid)).map (freeUnits s.hbm.v used)) [] (n - acc.length)) []

/-! ### Where units stand (R262, R263, R269) -/

/-- The unit of a place given as channel × 3 GiB + channel address (R247). -/
def physUnit (k : Nat) : Nat :=
  let a := k % (3 * 2 ^ 30)
  1024 * (2 * (k / (3 * 2 ^ 30)) + a / 256 % 2) + a / 512 * 256 / unitBytes

/-- A unit takes a donor over: what a scrub marked there while it was free is gone. -/
def Chip.clearDonor (s : Chip) (d : Nat) : Chip :=
  { s with hbm := { s.hbm with hiddenPoison := Tab.keep (fun l => physUnit (64 * l) != d) s.hbm.hiddenPoison
                               hidden := Tab.keep (fun k => physUnit k != d) s.hbm.hidden } }

/-- A unit stands at a donor from now on: the sweep that holds it away brings it back from there, or it is remapped. -/
def Chip.relocate (s : Chip) (u d : Nat) : Chip :=
  let r := s.hbm.sweeps.foldr (fun w (r : List Sweep × Bool) =>
    if !r.2 && w.away.any (·.1 == u) then (w.redonor u d :: r.1, true) else (w :: r.1, r.2)) ([], false)
  let s := s.clearDonor d
  if r.2 then { s with hbm := { s.hbm with sweeps := r.1 } }
  else { s with hbm := { s.hbm with remap := Tab.set none s.hbm.remap u (some d) } }

/-- A unit that a sweep of pseudo-channel p has brought back: no later move of it goes on. -/
def Chip.returnUnit (s : Chip) (p u : Nat) : Chip :=
  let r := s.hbm.sweeps.foldl (fun (r : List Sweep × Bool) w =>
    if r.2 || w.pc == p then (r.1 ++ [w.without u], true) else (r.1 ++ [w], false)) ([], false)
  { s with hbm := { s.hbm with
      sweeps := r.1
      migration := s.hbm.migration.map (Migration.without u) } }

/-- A free unit for one that leaves pseudo-channel p of channel `avoid`, in the order of R262. -/
def Chip.newDonor (s : Chip) (p avoid : Nat) : Option Nat := (s.chooseDonors p avoid 1).head?

/-- Donors that a migration or a draining sweep has chosen, and that cannot be used any more, are chosen again: those of the
pseudo-channels that meet `bad`. -/
def Chip.redeal (s : Chip) (bad : Nat → Bool) : Chip :=
  let lost (l : List (Nat × Nat)) := (l.filter fun t => bad (unitPc t.2)).map (·.1)
  let s := match s.hbm.migration with
    | none => s
    | some m => s.each (lost m.promised) fun s u =>
      match s.newDonor (2 * m.channel + 1) m.channel with
      | none => s
      | some d => { s with hbm := { s.hbm with migration := s.hbm.migration.map (Migration.redonor u d) } }
  s.each (s.hbm.sweeps.filter fun w => w.phase == .draining) fun s w =>
    s.each (lost w.promised) fun s u =>
      match s.newDonor w.pc (w.pc / 2) with
      | none => s
      | some d =>
        let sweeps := s.hbm.sweeps.map fun x => if x.pc = w.pc then x.redonor u d else x
        { s with hbm := { s.hbm with sweeps := sweeps } }

/-! ### Judging a channel bad (R260, R261, R266) -/

/-- The offset ranges of a valid entry whose channel addresses lie in [lo, hi), first and last offset (R266). -/
def bandOf (e : Word) (lo hi : Nat) : List (Nat × Nat) :=
  let a := max lo (ilChBase e * 2 ^ 20)
  let b := min hi ((ilChBase e + ilShare e) * 2 ^ 20)
  if b ≤ a then [] else
  let n := if ilPolicy e = 0 then 1024 else 128
  let off := (a - ilChBase e * 2 ^ 20) * n
  let len := (b - a) * n
  let base := ilBase e * 2 ^ 30
  if ilPolicy e = 1 then (List.range 8).map fun i =>
    (base + i * (ilSize e * 2 ^ 27) + off, base + i * (ilSize e * 2 ^ 27) + off + len - 1)
  else [(base + off, base + off + len - 1)]

/-- The ranges each region loses when V falls by one. -/
def Chip.withdrawnRanges (s : Chip) : List (Nat × Nat) :=
  s.regions.flatMap fun e => bandOf e.2 (visibleEnd (s.hbm.v - 1)) (visibleEnd s.hbm.v)

def rangeArgs (l : List (Nat × Nat)) : List Arg := l.flatMap fun r => [.u64 r.1, .u64 r.2]

/-- The map-out of a channel begins: the channel is Migrating; its sweep, if any, ends and the drained units count as
moved (R261, R264, R269). -/
def Chip.beginMapout (s : Chip) (n : Nat) (cause : MapCause) : Chip :=
  let poison := (s.channel n).unresponsive
  let ended := s.hbm.sweeps.filter fun w => w.pc / 2 == n
  let s := s.setChannel n fun c => { c with state := .migrating, waiting := false }
  let s := { s with hbm := { s.hbm with
    sweeps := s.hbm.sweeps.filter fun w => w.pc / 2 != n
    migration := some ⟨n, cause, poison, s.aon, false, [], []⟩ } }
  let s := s.each (ended.flatMap Sweep.away) fun s m => s.relocate m.1 m.2
  let s := s.redeal fun p => p / 2 == n
  let s := s.raise 0x4802 [.u16 n, .u8 cause.code, .u8 (if poison then 1 else 0)]
  if poison then s.raise 0x8803 [] else s

/-- A channel's map-out starts, or V must fall first and the shrink is announced (R266). -/
def Chip.tryMapout (s : Chip) (n : Nat) (cause : MapCause) : Chip :=
  if (s.unitsOfChannel n).length > s.headlandFree then
    let s := s.setChannel n fun c => { c with state := .pending, waiting := false }
    let s := { s with hbm := { s.hbm with shrink := some ⟨n, cause⟩ } }
    s.raise 0x4805 (.u64 (s.hbmVisible - 3 * 2 ^ 30) :: rangeArgs s.withdrawnRanges)
  else s.beginMapout n cause

/-- A Healthy channel is judged bad (R260, R261). -/
def Chip.judge (s : Chip) (n : Nat) (cause : MapCause) : Chip :=
  let c := s.channel n
  match c.state with
  | .healthy =>
    let auto := s.objb O.mapoutAuto || cause = .unresponsive || cause = .request
    if !auto then
      if c.waiting then s
      else (s.setChannel n fun c => { c with waiting := true, cause := some cause }).raise 0x4802
        [.u16 n, .u8 cause.code, .u8 2]
    else
      let s := s.setChannel n fun c =>
        { c with cause := some cause, unresponsive := c.unresponsive || decide (cause = .unresponsive) }
      if s.mappedOutCount ≥ 64 then
        (s.setChannel n fun c => { c with state := .retained, waiting := false }).raise 0xC801 []
      else if s.hbm.migration.isSome || s.hbm.shrink.isSome || !s.hbm.waitingChannels.isEmpty then
        let s := s.setChannel n fun c => { c with state := .pending, waiting := false }
        { s with hbm := { s.hbm with waitingChannels := s.hbm.waitingChannels ++ [n] } }
      else s.tryMapout n cause
  | .pending =>
    if cause = .unresponsive then s.setChannel n fun c => { c with unresponsive := true } else s
  | .migrating =>
    if cause = .unresponsive then
      let s := s.setChannel n fun c => { c with unresponsive := true }
      match s.hbm.migration with
      | some m => if m.channel = n && !m.poison then
          ({ s with hbm := { s.hbm with migration := some { m with poison := true } } }).raise 0x8803 []
        else s
      | none => s
    else s
  | _ => s

/-! ### What a read of the stored word finds (R254–R258) -/

/-- Whether corrections confined to one pin group mark it (R256). -/
def Chip.groupDue (s : Chip) (p k : Nat) : Bool :=
  let h := (s.pcOf p).history.filter fun c => c.groups == [k] && !c.ue && s.aon < c.time + 1000000000
  h.length ≥ s.obj O.pinGroupLines && ((h.map fun c => (c.bank, c.row)).eraseDups).length ≥ 4

/-- Mark a pin group: erasure decoding from now on, and a map-out of the channel (R256, R260). -/
def Chip.markGroup (s : Chip) (p k : Nat) : Chip :=
  if (s.pcOf p).groups.getLsbD k then s
  else
    let s := s.setPc p fun c => { c with groups := c.groups ||| (1 <<< k) }
    (s.raise 0x4801 [.u16 p, .u16 k]).judge (p / 2) .pinGroup

/-- The corrections of a row within 24 h, and since it was last repaired. -/
def Chip.rowHits (s : Chip) (p b r : Nat) : List Correction :=
  let pc := s.pcOf p
  let last := (pc.repairs.filter fun x => x.1 == b && x.2.1 == r).foldl (fun m x => max m (x.2.2 + 1)) 0
  pc.history.filter fun c => c.bank == b && c.row == r && last ≤ c.time && s.aon < c.time + 86400000000000

/-- A row with two corrected lines or one uncorrectable line within 24 h is repaired if its bank has a spare row; an
uncorrectable line that cannot be repaired so counts its row toward UE_ROWS (R258, R260). -/
def Chip.rowRepair (s : Chip) (p b r : Nat) : Chip :=
  let hits := s.rowHits p b r
  let ue := hits.any (·.ue)
  if hits.length ≥ 2 || ue then
    let pc := s.pcOf p
    if (pc.repairs.filter (·.1 == b)).length < Config.spareRows p b then
      let s := s.setPc p fun c => { c with repairs := (b, r, s.aon) :: c.repairs }
      (s.bump (O.chRowRepairs + 256 * (p / 2)) 1).raise 0x0802 [.u16 p, .u16 b, .u32 r]
    else if ue then
      let s := s.setPc p fun c => { c with badRows := (b, r, s.aon) ::
        (c.badRows.filter fun x => !(x.1 == b && x.2.1 == r) && s.aon < x.2.2 + 86400000000000) }
      if (s.pcOf (p / 2 * 2)).badRows.length + (s.pcOf (p / 2 * 2 + 1)).badRows.length ≥ 3 then s.judge (p / 2) .ueRows
      else s
    else s
  else s

/-- Book a corrected or an uncorrectable line of a pseudo-channel (R255–R258). -/
def Chip.book (s : Chip) (p pcaddr : Nat) (groups : List Nat) (ue : Bool) : Chip :=
  let t := (s.pcOf p).newTable
  let b := Config.hbmBank t pcaddr
  let r := Config.hbmRow t pcaddr
  let s := s.setPc p fun c => { c with history := ⟨b, r, groups, s.aon, ue⟩ ::
    (c.history.filter fun x => s.aon < x.time + 86400000000000) }
  let s := if ue then (s.bump (O.chUe + 256 * (p / 2)) 1).raiseLimited 0x8801 0 [.u16 p]
           else s.bump (O.chCe + 256 * (p / 2)) 1
  let s := s.rowRepair p b r
  match groups with
  | [k] => if !ue && s.groupDue p k then s.markGroup p k else s
  | _ => s

/-- n free bytes (DESIGN CHOICE log 5). -/
def Chip.freeBytes (s : Chip) (n : Nat) : List Byte := leBytes n (Config.freeWord s.freeCtr).toNat

/-- The marked pin group the decoder treats as erasures: the lowest one (DESIGN CHOICE log 24). -/
def Chip.erasure (s : Chip) (p : Nat) : Option Nat :=
  (List.range 9).find? fun k => (s.pcOf p).groups.getLsbD k

/-- HBM's own copy of a line: its bytes and its poison mark (the cached line may be newer). -/
def Chip.hbmCopy (s : Chip) (line : Nat) : List Byte × Bool :=
  match Tab.get none s.hbm.cache line with
  | some c => c.under.getD (s.bytes (64 * line) 64, s.poisoned (64 * line))
  | none => (s.bytes (64 * line) 64, s.poisoned (64 * line))

/-- HBM's own copy of a line becomes new; the cached line, if any, keeps its data. -/
def Chip.setHbmCopy (s : Chip) (line : Nat) (d : List Byte) (p : Bool) : Chip :=
  match Tab.get none s.hbm.cache line with
  | some c => { s with hbm := { s.hbm with cache := Tab.set none s.hbm.cache line (some { c with under := some (d, p) }) } }
  | none => (s.putBytes (64 * line) d).mark (64 * line) p

/-- A stored word of pseudo-channel p with the symbol errors its pins showed: what the decoder returns; corrected and
uncorrectable lines are booked (R254, R255). -/
def Chip.decodeLine (s : Chip) (p pcaddr : Nat) (d0 : List Byte) (m0 : Bool) (errors : List (Nat × Nat)) :
    Chip × List Byte × Bool :=
  let corrected (c : List Nat) := if c.isEmpty then s else s.book p pcaddr (c.map pinGroupOf).eraseDups false
  match rsDecode (rsApply (rsEncode d0 m0) errors) (s.obj O.rsCorrectLimit) (s.erasure p) with
  | .clean d c => (corrected c, d, false)
  | .poisoned d c => (corrected c, d, true)
  | .bad d => (s.book p pcaddr [] true, d, true)

/-- An access to an unresponsive channel: an uncorrectable read of free data, marked poisoned (R260). -/
def Chip.unanswered (s : Chip) (p : Nat) : Chip × List Byte × Bool :=
  let d := (List.range 8).flatMap fun i => leBytes 8 (Config.freeWord (s.freeCtr + i)).toNat
  let s := { s with freeCtr := s.freeCtr + 8 }
  ((s.bump (O.chUe + 256 * (p / 2)) 1).raiseLimited 0x8801 0 [.u16 p], d, true)

/-- Whether the channel that serves a place answers nothing (R260). -/
def Chip.deadPlace (s : Chip) (pl : Place) : Bool := (s.channel (unitChannel (s.servingUnit pl.unit))).unresponsive

/-- Read a line's stored word from HBM with the symbol errors the pins showed: the data and mark as the decoder returns
them; corrections are written back, an uncorrectable line is written back poisoned (R254, R255). -/
def Chip.readStored (s : Chip) (line : Nat) (errors : List (Nat × Nat)) : Chip × List Byte × Bool :=
  match s.place (64 * line) with
  | none => (s, s.bytes (64 * line) 64, s.poisoned (64 * line))
  | some pl =>
    let u := s.servingUnit pl.unit
    if s.deadPlace pl then s.unanswered (unitPc u)
    else
      let s := s.setChannel (unitChannel u) fun c => { c with silent := 0 }
      let (d0, m0) := s.hbmCopy line
      if errors.isEmpty then (s, d0, m0)
      else
        let (t, d, m) := s.decodeLine (unitPc u) (u % 1024 * unitBytes + pl.pcaddr % unitBytes) d0 m0 errors
        (if (d, m) = (d0, m0) then t else t.setHbmCopy line d m, d, m)

/-- Read a line of the cellar with the symbol errors its stacks showed: the die corrects, counts and poisons it as HBM
lines are (R386). -/
def Chip.readCellar (s : Chip) (line : Nat) (errors : List (Nat × Nat)) : Chip × List Byte × Bool :=
  let d0 := s.bytes (64 * line) 64
  let m0 := s.poisoned (64 * line)
  if errors.isEmpty then (s, d0, m0)
  else
    let die := line / 2 ^ 33 % 2
    let fix (s : Chip) (d : List Byte) (m ue : Bool) : Chip :=
      let s := (s.putBytes (64 * line) d).mark (64 * line) m
      { s with cellar := { s.cellar with dies := Tab.modify CellarDie.reset s.cellar.dies die fun x =>
          if ue then { x with ue := x.ue + 1 } else { x with ce := x.ce + 1 } } }
    match rsDecode (rsApply (rsEncode d0 m0) errors) (s.obj O.rsCorrectLimit) none with
    | .clean d c => (if c.isEmpty then s else fix s d false false, d, false)
    | .poisoned d c => (if c.isEmpty then s else fix s d true false, d, true)
    | .bad d => ((fix s d true true).raiseLimited 0x8B01 die [.u64 (64 * line)], d, true)

/-! ### The memory-side cache (R249–R251) -/

/-- Hints: 0 NORMAL, 1 STREAM, 2 KEEP, 3 LAST. -/
abbrev Hint := BitVec 2

/-- The channel slice and the set of a line. -/
def Chip.lineSet (s : Chip) (line : Nat) : Nat × Nat :=
  match s.place (64 * line) with
  | some pl => (unitChannel (s.servingUnit pl.unit), Config.cacheSet line % 1536)
  | none => (0, Config.cacheSet line % 1536)

def Chip.setCache (s : Chip) (line : Nat) (c : Option CacheLine) : Chip :=
  { s with hbm := { s.hbm with cache := Tab.set none s.hbm.cache line c } }

/-- A line leaves the cache: a dirty one is written back, a clean one leaves HBM's own copy. -/
def Chip.evict (s : Chip) (line : Nat) : Chip :=
  match Tab.get none s.hbm.cache line with
  | none => s
  | some c =>
    let t := s.setCache line none
    match c.dirty, c.under with
    | false, some (d, p) => (t.putBytes (64 * line) d).mark (64 * line) p
    | _, _ => t

/-- A line is dropped, even if dirty, with no write-back (R250 LAST). -/
def Chip.dropLine (s : Chip) (line : Nat) : Chip :=
  match Tab.get none s.hbm.cache line with
  | none => s
  | some c =>
    let t := s.setCache line none
    match c.under with
    | some (d, p) => (t.putBytes (64 * line) d).mark (64 * line) p
    | none => t

/-- The least recently used of some cached lines. -/
def lruOf (l : List (Nat × CacheLine)) : Option (Nat × CacheLine) := maxBy (fun e => -(e.2.stamp : Int)) l

def Chip.cachedLines (s : Chip) : List (Nat × CacheLine) :=
  s.hbm.cache.filterMap fun e => e.2.map fun c => (e.1, c)

/-- Make room for one more KEEP line in a line's set (R251). -/
def Chip.keepRoom (s : Chip) (line : Nat) : Chip :=
  let keeps := s.cachedLines.filter fun e => e.2.keep && e.1 != line
  if keeps.length < s.obj O.keepWays then s
  else
    let here := keeps.filter fun e => s.lineSet e.1 == s.lineSet line
    if here.length < s.obj O.keepWays then s
    else match lruOf here with
      | some e => s.evict e.1
      | none => s

/-- Make room for a new line in its set: the least recently used non-KEEP line, if any is present (R251). -/
def Chip.lineRoom (s : Chip) (line : Nat) : Chip :=
  let all := s.cachedLines
  if all.length < 16 then s
  else
    let here := all.filter fun e => s.lineSet e.1 == s.lineSet line
    if here.length < 16 then s
    else match lruOf (here.filter fun e => !e.2.keep) with
      | some e => s.evict e.1
      | none => match lruOf here with
        | some e => s.evict e.1
        | none => s

/-- A line enters the cache; KEEP needs a KEEP way. -/
def Chip.allocate (s : Chip) (line : Nat) (keep dirty : Bool) (under : Option (List Byte × Bool)) : Chip :=
  let keep := keep && s.obj O.keepWays != 0
  let s := (if keep then s.keepRoom line else s).lineRoom line
  let s := s.setCache line (some ⟨dirty, under, keep, s.hbm.cacheClock⟩)
  { s with hbm := { s.hbm with cacheClock := s.hbm.cacheClock + 1 } }

/-- A cached line is used: it is the most recently used one, and a KEEP access makes it KEEP. -/
def Chip.touch (s : Chip) (line : Nat) (c : CacheLine) (keep : Bool) : Chip :=
  let keep := keep && s.obj O.keepWays != 0
  let s := if keep && !c.keep then s.keepRoom line else s
  let s := s.setCache line (some { c with stamp := s.hbm.cacheClock, keep := c.keep || keep })
  { s with hbm := { s.hbm with cacheClock := s.hbm.cacheClock + 1 } }

/-- Whether a unit is being copied: its accesses bypass the caches (R263). -/
def Chip.copying (s : Chip) (u : Nat) : Bool :=
  (match s.hbm.migration with
   | some m => m.copying.any (·.unit == u)
   | none => false) || s.hbm.sweeps.any fun w => w.copying.any (·.unit == u)

/-- Note a line written whole while its unit is copied: it holds the written data at the donor (R263). -/
def Chip.noteWritten (s : Chip) (u line : Nat) : Chip :=
  match s.hbm.migration with
  | some m => { s with hbm := { s.hbm with migration := some { m with copying := m.copying.map fun c =>
      if c.unit == u && !(c.written.contains line) then { c with written := line :: c.written } else c } } }
  | none => s

/-- The hint an access acts with: a region with NOCACHE makes every access STREAM, and LAST still drops (R250). -/
def effHint (noCache : Bool) (h : Hint) : Hint := if noCache && h != 3 then 1 else h

/-- Leaving self-refresh: the stack's next access (R271, R433). -/
def Chip.wakeStack (s : Chip) (t : Nat) : Chip :=
  if (Tab.get Stack.reset s.hbm.hbmStacks t).selfRefresh then
    { s with hbm := { s.hbm with hbmStacks := Tab.modify Stack.reset s.hbm.hbmStacks t fun x => { x with selfRefresh := false } } }
  else s

/-- A cellar die leaves self-refresh at the next access to it (R433). -/
def Chip.wakeCellar (s : Chip) (a : Nat) : Chip :=
  if 0x40000000000 ≤ a ∧ a < 0x50000000000 then
    { s with power := { s.power with
        cellarSelfRefresh := s.power.cellarSelfRefresh &&& ~~~(1#2 <<< (a / 2 ^ 39 % 2)) } }
  else s

/-- A read of a line of HBM at its home: the line and its mark. -/
def Chip.readHbmLine (s : Chip) (line : Nat) (hint : Hint) (errors : List (Nat × Nat)) : Chip × List Byte × Bool :=
  match s.place (64 * line) with
  | none => (s, s.bytes (64 * line) 64, s.poisoned (64 * line))
  | some pl =>
    let s := s.wakeStack (unitChannel (s.servingUnit pl.unit) / 32)
    if s.copying pl.unit then s.readStored line errors
    else
      let h := effHint (ilNoCache pl.word) hint
      match Tab.get none s.hbm.cache line with
      | some c =>
        let d := s.bytes (64 * line) 64
        let m := s.poisoned (64 * line)
        if h = 1 then (s, d, m)
        else if h = 3 then (s.dropLine line, d, m)
        else (s.touch line c (h == 2), d, m)
      | none =>
        let (t, d, m) := s.readStored line errors
        if h = 1 || h = 3 || s.deadPlace pl then (t, d, m) else (t.allocate line (h == 2) false none, d, m)

/-- The line a partial write merges with: what HBM holds, or what an unresponsive channel returns (R250, R260). -/
def Chip.mergeLine (s : Chip) (pl : Place) (line : Nat) (errors : List (Nat × Nat)) : Chip :=
  let (t, d, m) := s.readStored line errors
  if s.deadPlace pl then (t.putBytes (64 * line) d).mark (64 * line) m else t

/-- A write within a line of HBM at its home. A line written in part during a poison-mode copy stays poisoned at the donor
(DEDUCED log 165). -/
def Chip.writeHbmLine (s : Chip) (a : Nat) (bs : List Byte) (poison : Bool) (hint : Hint)
    (errors : List (Nat × Nat)) : Chip :=
  let line := a / 64
  match s.place a with
  | none => s
  | some pl =>
    let s := s.wakeStack (unitChannel (s.servingUnit pl.unit) / 32)
    if s.copying pl.unit then (if bs.length = 64 then s.noteWritten pl.unit pl.unitLine else s).putLine a bs poison
    else
      let h := effHint (ilNoCache pl.word) hint
      match Tab.get none s.hbm.cache line with
      | some c =>
        let old := s.hbmCopy line
        let s := s.putLine a bs poison
        let c' := { c with dirty := true, under := some old }
        if h = 0 || h = 2 then s.touch line c' (h == 2) else s.setCache line (some c')
      | none =>
        let s := if bs.length = 64 then s else s.mergeLine pl line errors
        if h = 0 || h = 2 then
          let old := s.hbmCopy line
          let s := s.allocate line (h == 2) true (some old)
          s.putLine a bs poison
        else s.putLine a bs poison

/-! ### Data accesses of any length -/

/-- The pieces of a range that lie within one 64-byte line each. -/
def linePieces : Nat → Nat → Nat → List (Nat × Nat)
  | 0, _, _ => []
  | fuel + 1, a, len =>
    if len = 0 then []
    else
      let n := min len (64 - a % 64)
      (a, n) :: linePieces fuel (a + n) (len - n)

def pieces (a len : Nat) : List (Nat × Nat) := linePieces (len / 64 + 2) a len

/-- No link of a cellar die carries messages: a request gets no response (R33, R386). -/
def Chip.cellarDown (s : Chip) (d : Nat) : Bool :=
  !((s.link (10 + 2 * d)).state.carries || (s.link (11 + 2 * d)).state.carries)

/-- Whether an offset lies in the half of a cellar die that cannot be reached (R384, R386). -/
def Chip.unreachable (s : Chip) (a : Nat) : Bool :=
  0x40000000000 ≤ a && a < 0x50000000000 && s.cellarDown (a / 2 ^ 39 % 2)

/-- The site at which an offset of data memory has its home: that of its HBM channel, or of the core whose memory it is. -/
def Chip.homeSite (s : Chip) (a : Nat) : Option Nat :=
  match s.region a with
  | .hbm p => some (p.channel / 128)
  | .coreMem => some ((a - 0x80000000000) / 2 ^ 29)
  | _ => none

/-- The link a request of a site to a cellar die uses: that of its row, or the other one while that carries nothing (R385). -/
def Chip.cellarLink (s : Chip) (site die : Nat) : Nat :=
  let own := 10 + 2 * die + site / 4
  let other := 10 + 2 * die + (1 - site / 4)
  if (s.link own).state.carries then own else other

/-- Where the messages of a requester come onto the base dies. Requesters are the sites 0–7 and the cellar dies as 8 and 9,
whose messages take either of their links that carries messages (R18, R385, DESIGN CHOICE log 172). -/
def Chip.doors (s : Chip) (o : Nat) : List Nat :=
  if o < 8 then [o]
  else ([10 + 2 * (o - 8), 11 + 2 * (o - 8)].filter fun l => (s.link l).state.carries).map fun l => (linkEnd l).1

/-- No message of a requester reaches the home of an offset: a request times out (R33, R41, R386). -/
def Chip.cutOff (s : Chip) (o a : Nat) : Bool :=
  s.unreachable a ||
  (if 0x40000000000 ≤ a && a < 0x50000000000 then
     let d := a / 2 ^ 39 % 2
     o != 8 + d && (s.doors o).all fun t => !(s.reaches t (linkEnd (s.cellarLink t d)).1)
   else match s.homeSite a with
    | some h => (s.doors o).all fun t => !(s.reaches t h)
    | none => false)

/-- Read one piece of data memory: its bytes and the line's mark; all ones marked poisoned from a cellar die that cannot
be reached (R33, R386). -/
def Chip.readPiece (s : Chip) (a n : Nat) (hint : Hint) : Chip × List Byte × Bool :=
  if s.unreachable a then (s, List.replicate n 0xFF, true)
  else if a < 0x30000000000 then
    let (t, d, m) := s.readHbmLine (a / 64) hint []
    (t, (d.drop (a % 64)).take n, m)
  else (s.wakeCellar a, s.bytes a n, s.poisoned a)

/-- Write one piece of data memory. A write that a cellar die does not acknowledge is reported with its link and a free
tag (R33, R386); withdrawn HBM takes nothing (R267). -/
def Chip.writePiece (s : Chip) (a : Nat) (bs : List Byte) (poison : Bool) (hint : Hint) : Chip :=
  if s.unreachable a then
    (s.raise 0x8109 [.u8 (10 + 2 * (a / 2 ^ 39 % 2)), .u16 ((Config.freeWord s.freeCtr).toNat % 4096)]).drew
  else if a < 0x30000000000 then
    match s.region a with
    | .withdrawn => s
    | _ => s.writeHbmLine a bs poison hint []
  else (s.wakeCellar a).putLine a bs poison

/-- Read a range of data memory: the bytes in order and the mark of each piece. -/
def Chip.read (s : Chip) (a len : Nat) (hint : Hint) : Chip × List (List Byte × Bool) :=
  (pieces a len).foldl (fun (r : Chip × List (List Byte × Bool)) p =>
    let (t, d, m) := r.1.readPiece p.1 p.2 hint
    (t, r.2 ++ [(d, m)])) (s, [])

def readData (r : List (List Byte × Bool)) : List Byte := r.flatMap (·.1)
def readPoison (r : List (List Byte × Bool)) : Bool := r.any (·.2)

/-- Write a range of data memory, all of it poisoned or all clean. -/
def Chip.write (s : Chip) (a : Nat) (bs : List Byte) (poison : Bool) (hint : Hint) : Chip :=
  (pieces a bs.length).foldl (fun t p => t.writePiece p.1 ((bs.drop (p.1 - a)).take p.2) poison hint) s

/-! ### Accesses of a site or of a cellar die (R33, R41) -/

/-- The link a write that found no path is reported with: the first culvert of its site that carries nothing
(DESIGN CHOICE log 137); for a cellar die the first of its links, one that carries nothing before the other
(DESIGN CHOICE log 172). -/
def Chip.lostLink (s : Chip) (site : Nat) : Nat :=
  if 8 ≤ site then (([10 + 2 * (site - 8), 11 + 2 * (site - 8)].find? fun l => !(s.link l).state.carries)).getD (10 + 2 * (site - 8))
  else ((List.range 4).findSome? fun p => match portSide site p with
    | .culvert l _ => if (s.link l).state.carries then none else some l
    | _ => none).getD 0

/-- Read one piece for a site: all ones marked poisoned where no message reaches its home. -/
def Chip.readPieceFrom (s : Chip) (site a n : Nat) (hint : Hint) : Chip × List Byte × Bool :=
  if s.cutOff site a then (s, List.replicate n 0xFF, true) else s.readPiece a n hint

/-- Write one piece for a site: a write that no message carries to its home is never acknowledged, and reported. -/
def Chip.writePieceFrom (s : Chip) (site a : Nat) (bs : List Byte) (poison : Bool) (hint : Hint) : Chip :=
  if s.cutOff site a && !s.unreachable a then
    (s.raise 0x8109 [.u8 (s.lostLink site), .u16 ((Config.freeWord s.freeCtr).toNat % 4096)]).drew
  else s.writePiece a bs poison hint

def Chip.readFrom (s : Chip) (site a len : Nat) (hint : Hint) : Chip × List (List Byte × Bool) :=
  (pieces a len).foldl (fun (r : Chip × List (List Byte × Bool)) p =>
    let (t, d, m) := r.1.readPieceFrom site p.1 p.2 hint
    (t, r.2 ++ [(d, m)])) (s, [])

def Chip.writeFrom (s : Chip) (site a : Nat) (bs : List Byte) (poison : Bool) (hint : Hint) : Chip :=
  (pieces a bs.length).foldl (fun t p => t.writePieceFrom site p.1 ((bs.drop (p.1 - a)).take p.2) poison hint) s

/-- The requester whose accesses a core's are: its site, or the cellar die of an update engine's core. -/
def coreSite (c : Nat) : Nat := if c < 256 then c / 32 else 8 + (c - 256) / 4

/-- Whether any line of a range is stored poisoned. -/
def Chip.rangePoisoned (s : Chip) (a len : Nat) : Bool := (pieces a len).any fun p => s.poisoned p.1

end Sys2Proof.Machine
end

