-- ==== Sys2Proof/Machine/Lanes.lean ====
section
/-! DEFINITION. What a lane carries: frames of 16 data words and a check word, where a slot's words go, the scrambler, the
search for the frame boundary, and PRBS31 (R53–R56, R69, R72). -/

namespace Sys2Proof.Machine

/-! ### Check words (R55) -/

/-- CRC-32C of a lane's data words, each most significant byte first (DEDUCED log 109). -/
def wordsCrc (l : List Word32) : Nat := crc32c (l.flatMap fun w => beBytes 4 w.toNat)

/-- A lane's frame; the polarity of its check word marks the kind of slot, a cell or a link-control slot. -/
def frameOf (words : List Word32) (cell : Bool) : LaneFrame :=
  ⟨words, BitVec.ofNat 32 (if cell then wordsCrc words else wordsCrc words ^^^ 0xFFFFFFFF)⟩

/-- The kind of slot a lane's check word marks, true for a cell; none when the word does not match. -/
def laneKind (l : LaneFrame) : Option Bool :=
  if l = frameOf l.words true then some true else if l = frameOf l.words false then some false else none

/-! ### Slots and lanes (R51, R54) -/

/-- The channels of a lane map, lane by lane. -/
def mapChannels (m : List Nat) : List Nat := m.filter (· != 255)

/-- Logical lanes of a lane map. -/
def mapWidth (m : List Nat) : Nat := (mapChannels m).length

/-- The 16 data words of lane i of w: the word at position q is word k = q w + i of the stream, word k mod 16 of slot k / 16. -/
def laneWords (slots : List (BitVec 512)) (w i : Nat) : List Word32 :=
  (List.range 16).map fun q =>
    let k := q * w + i
    BitVec.ofNat 32 (bitsOf (slots.getD (k / 16) 0).toNat (511 - 32 * (k % 16)) (480 - 32 * (k % 16)))

/-- Slot i of a superframe of w lanes: word k = 16 i + j of the stream is on lane k mod w at position (k / w) mod 16. -/
def slotOfLanes (lanes : List LaneFrame) (w i : Nat) : BitVec 512 :=
  let word (k : Nat) : Nat := match lanes[k % w]? with
    | some l => (l.words.getD (k / w % 16) 0).toNat
    | none => 0
  BitVec.ofNat 512 ((List.range 16).foldl (fun n j => n * 2 ^ 32 + word (16 * i + j)) 0)

/-- The lane frames of a superframe's slots, each with its kind. -/
def framesOfSlots (slots : List (Bool × BitVec 512)) : List LaneFrame :=
  (List.range slots.length).map fun i => frameOf (laneWords (slots.map (·.2)) slots.length i) ((slots.map (·.1)).getD i false)

/-- The slots that the matching frames of all lanes carry; none where a check word does not match (R56). -/
def slotsOfFrames (lanes : List LaneFrame) : Option (List (Bool × BitVec 512)) :=
  if lanes.all fun l => (laneKind l).isSome then
    some ((List.range lanes.length).map fun i => (((lanes[i]?).bind laneKind).getD false, slotOfLanes lanes lanes.length i))
  else none

/-! ### The scrambler, x⁵⁸ + x³⁹ + 1 (R53) -/

/-- What the last 58 bits of a lane, the newest lowest, add to its next 32. -/
def scrambleKey (reg : BitVec 58) : Word32 := (reg >>> 7).setWidth 32 ^^^ (reg >>> 26).setWidth 32

/-- The last 58 bits once 32 more have passed. -/
def scrambleNext (reg : BitVec 58) (w : Word32) : BitVec 58 := reg <<< 32 ||| w.setWidth 58

/-- The words as they are sent, and the scrambler after them. -/
def scramble : BitVec 58 → List Word32 → BitVec 58 × List Word32
  | reg, [] => (reg, [])
  | reg, w :: r =>
    let x := w ^^^ scrambleKey reg
    let t := scramble (scrambleNext reg x) r
    (t.1, x :: t.2)

/-- The words as they were before the scrambler, and the descrambler after them. -/
def descramble : BitVec 58 → List Word32 → BitVec 58 × List Word32
  | reg, [] => (reg, [])
  | reg, x :: r =>
    let t := descramble (scrambleNext reg x) r
    (t.1, (x ^^^ scrambleKey reg) :: t.2)

/-- The 17 words of a frame, and back. -/
def frameWords (f : LaneFrame) : List Word32 := f.words ++ [f.check]
def frameOfWords (l : List Word32) : LaneFrame := ⟨l.take 16, l.getD 16 0⟩

/-- The frames of some channels go through their scramblers. -/
def scrambleAll : Tab (BitVec 58) → List (Nat × LaneFrame) → Tab (BitVec 58) × List (Nat × LaneFrame)
  | t, [] => (t, [])
  | t, (c, f) :: r =>
    let x := scramble (Tab.get 0 t c) (frameWords f)
    let y := scrambleAll (Tab.set 0 t c x.1) r
    (y.1, (c, frameOfWords x.2) :: y.2)

/-! ### The frame boundary (R56) -/

/-- The 544 bits that end `phase` bits before the newest of two frames' worth of words. -/
def phaseWords (prev cur : List Word32) (phase : Nat) : List Word32 :=
  if phase = 0 then cur
  else
    let n := (prev ++ cur).foldl (fun n w => n * 2 ^ 32 + w.toNat) 0
    (List.range 17).map fun i => BitVec.ofNat 32 (n / 2 ^ (phase + 32 * (16 - i)))

/-- A frame's worth of bits arrives on a channel. With the boundary found it gives the frame there. Until then the check word
must match 64 times in a row at one bit offset; where it does not, the next offset is tried. -/
def RxChannel.receive (x : RxChannel) (f : LaneFrame) : RxChannel × Option LaneFrame :=
  let (reg, cur) := descramble x.reg (frameWords f)
  let g := frameOfWords (phaseWords x.prev cur x.phase)
  let y := { x with reg := reg, prev := cur }
  if x.found then (y, some g)
  else if (laneKind g).isSome then ({ y with run := x.run + 1 }, none)
  else ({ y with run := 0, phase := (x.phase + 1) % 544 }, none)

/-- The frames of a superframe's channels arrive: the receivers after them, and the frames whose boundary was found. -/
def receiveAll : Tab RxChannel → List (Nat × LaneFrame) → Tab RxChannel × List (Nat × LaneFrame)
  | t, [] => (t, [])
  | t, (c, f) :: r =>
    let x := (Tab.get RxChannel.reset t c).receive f
    let y := receiveAll (Tab.set RxChannel.reset t c x.1) r
    (y.1, (x.2.toList.map fun g => (c, g)) ++ y.2)

/-! ### Patterns (R69, R72) -/

/-- A data word of the alignment pattern. -/
def alignWord (lane count : Nat) : Word32 := BitVec.ofNat 32 (0xA5 * 2 ^ 24 + lane * 2 ^ 16 + count % 2 ^ 16)

/-- A lane's frame of the alignment pattern, whatever its count. -/
def isAligning (lane : Nat) (f : LaneFrame) : Bool := f.words.all fun w => w.toNat / 2 ^ 16 == 0xA500 + lane

/-- One bit of PRBS31, x³¹ + x²⁸ + 1 (PRESUMED log 53): what it is to be, by the last 31 bits under a leading one. -/
def prbsWant (reg : Nat) : Nat := (bitsOf reg 30 30 + bitsOf reg 27 27) % 2

/-- The register once a bit has passed. -/
def prbsNext (reg bit : Nat) : Nat := 2 ^ 31 + (2 * reg + bit) % 2 ^ 31

/-- One received bit: the register and the errors so far. While the register is shorter it takes the bits as they come. -/
def prbsBit (r : Nat × Nat) (bit : Nat) : Nat × Nat :=
  if r.1 < 2 ^ 31 then (2 * r.1 + bit, r.2)
  else (prbsNext r.1 (prbsWant r.1), if bit = prbsWant r.1 then r.2 else r.2 + 1)

/-- The register after a lane's words, and the errors among them. -/
def prbsLane (reg : Nat) (words : List Word32) : Nat × Nat :=
  words.foldl (fun r w => (List.range 32).foldl (fun r k => prbsBit r (bitsOf w.toNat (31 - k) (31 - k))) r) (max 1 reg, 0)

/-- The next word that is sent, and the register after it. -/
def prbsWord (reg : Nat) : Nat × Nat :=
  (List.range 32).foldl (fun r _ => (prbsNext r.1 (prbsWant r.1), 2 * r.2 + prbsWant r.1)) (reg, 0)

/-- The next 16 words that are sent, and the register after them. -/
def prbsWords (reg : Nat) : Nat × List Word32 :=
  (List.range 16).foldl (fun r _ => let x := prbsWord r.1; (x.1, r.2 ++ [BitVec.ofNat 32 x.2])) (reg, [])

/-- Where a sender begins in the pattern (DESIGN CHOICE log 145). -/
def prbsStart : Nat := 2 ^ 32 - 1

end Sys2Proof.Machine
end

