-- ==== Sys2Proof/Machine/PortTx.lean ====
section
/-! DEFINITION. What a port transmits: slots, superframes and link-control slots (R53–R60). -/

namespace Sys2Proof.Machine

def Chip.port (s : Chip) (p : Nat) : Port := Tab.get Port.reset s.ports p
def Chip.setPort (s : Chip) (p : Nat) (f : Port → Port) : Chip :=
  { s with ports := Tab.modify Port.reset s.ports p f }

/-- The roles of ports (R64). -/
def Chip.isGnPort (s : Chip) (p : Nat) : Bool := s.obju O.portRole p == 2
def Chip.isTnPort (s : Chip) (p : Nat) : Bool := s.obju O.portRole p == 1

/-- Active, Degraded or Sparing. -/
def PortState.carries : PortState → Bool
  | .active => true | .degraded => true | .sparing => true | _ => false

/-- Light passes on both fibres of the pair, as far as this end knows (R82). -/
def Port.bright (x : Port) : Bool := x.lightLost.isNone && !x.peerDark

/-- A port that carries traffic and has not lost its light (R82). -/
def Port.up (x : Port) : Bool := x.state.carries && x.bright

/-- The states in which both ends are lit (R66). -/
def PortState.lit : PortState → Bool
  | .tuning => true | .aligning => true | .circuit => true | .draining => true | x => x.carries

/-- The states in which link-control slots pass (R66). -/
def PortState.linked : PortState → Bool
  | .aligning => true | .circuit => true | .draining => true | x => x.carries

/-- Cells leave: new ones, or those a draining port still has (R66, R72, R82, R85). -/
def Port.flows (x : Port) : Bool := (x.state.carries || x.state == .draining) && x.bright

/-- CHIP_ASSIGNED and the timebase say whether this chip carries tensor-network cells (R92). -/
def Chip.tnReady (s : Chip) : Bool := s.objb O.chipAssigned && s.tn.tbState != .unlocked

/-! ### Slots -/

/-- The slot of a link-control slot (R58). -/
def ctrlBits (c : CtrlSlot) : BitVec 512 :=
  BitVec.ofNat 512 (c.ctrl.toNat * 2 ^ 504 + c.epoch.toNat * 2 ^ 496 + c.txSeq.toNat * 2 ^ 480 + c.ackSeq.toNat * 2 ^ 464 +
    c.tnready.toNat * 2 ^ 463 + c.arg.toNat)

/-- A link-control slot with a code and an ARG, as this end's state fills it (R58). -/
def Chip.ctrlSlot (s : Chip) (p : Nat) (code : Byte) (arg : Nat) : CtrlSlot :=
  let x := s.port p
  { ctrl := code, epoch := x.txEpoch, txSeq := x.txSeq, ackSeq := x.rxLast,
    tnready := s.tnReady && s.obju O.portRole p == 1, arg := BitVec.ofNat 448 arg }

/-- The w slots of a superframe: its link-control slot, its cells, and IDLE in what is left (R54, R57) (DESIGN CHOICE log 146). -/
def TxFrame.slots (e : TxFrame) (w : Nat) : List (Bool × BitVec 512) :=
  ((e.ctrl.toList.map fun c => (false, ctrlBits c)) ++ (e.cells.map fun b => (true, b)) ++
    List.replicate w (false, ctrlBits e.fill)).take w

/-! ### Lanes -/

/-- The channel that carries a moving lane's words a second time: the spare one before the switch superframe, the old one
from it on until the move is confirmed (R76). -/
def Port.duplicate (x : Port) : Option (Nat × Nat) :=
  match x.proc with
  | some w =>
    if w.kind = .move ∧ w.step ≠ .warming then
      some (if x.txMap.contains w.channel then (w.channel, w.oldChannel) else (w.oldChannel, w.channel))
    else none
  | none => none

/-- The frames of a superframe's slots, by channel, under the transmit map (R51, R54, R76). -/
def Port.framesOf (x : Port) (slots : List (Bool × BitVec 512)) : List (Nat × LaneFrame) :=
  let lanes := (mapChannels x.txMap).zip (framesOfSlots slots)
  lanes ++ (match x.duplicate with
    | some (a, b) => (lanes.filter (·.1 == a)).map fun f => (b, f.2)
    | none => [])

/-- Frames leave through the scramblers of their channels (R53). -/
def Chip.transmit (s : Chip) (p : Nat) (out : List (Nat × LaneFrame) → Output) (frames : List (Nat × LaneFrame)) : Chip :=
  let r := scrambleAll (s.port p).scramblers frames
  (s.setPort p fun x => { x with scramblers := r.1 }).emit (out r.2)

/-- A numbered superframe leaves. -/
def Chip.sendFrame (s : Chip) (p : Nat) (e : TxFrame) : Chip :=
  let x := s.port p
  s.transmit p (.superframe p e.seq) (x.framesOf (e.slots (mapWidth x.txMap)))

/-- A superframe without a number: a link-control slot, and IDLE in the others. -/
def Chip.sendUnnumbered (s : Chip) (p : Nat) (c : CtrlSlot) : Chip :=
  let x := s.port p
  (s.emit (.ctrl p c)).transmit p (.pattern p) (x.framesOf ((TxFrame.mk 0 (some c) [] (s.ctrlSlot p 0 0)).slots (mapWidth x.txMap)))

/-- A superframe of the alignment pattern (R69) (DESIGN CHOICE log 146). -/
def Chip.sendAlignment (s : Chip) (p : Nat) : Chip :=
  s.transmit p (.pattern p) ((mapChannels (s.port p).txMap).zipIdx.map fun e =>
    (e.1, frameOf (List.replicate 16 (alignWord e.2 0)) false))

/-- A superframe of PRBS31 on every mapped lane, in the boot test on both spare channels too (R71, R72). -/
def Chip.sendPrbs (s : Chip) (p : Nat) : Chip :=
  let x := s.port p
  let chans := mapChannels x.txMap ++ if x.bootTest then [0, 17].filter (fun c => !(x.txMap.contains c)) else []
  let s := s.transmit p (.pattern p) (chans.map fun c => (c, frameOf (prbsWords (Tab.get prbsStart x.prbsTx c)).2 false))
  s.setPort p fun x => { x with
    prbsTx := chans.foldl (fun t c => Tab.set prbsStart t c (prbsWords (Tab.get prbsStart x.prbsTx c)).1) x.prbsTx }

/-! ### Superframes (R57, R60) -/

/-- The replay buffer holds 512 superframes (R60) (DEDUCED log 147). -/
def Port.replayFull (x : Port) : Bool := x.replay.length ≥ 512

/-- Whether superframe a is at or before b, modulo 2^16. -/
def seqCovers (b a : Half) : Bool := (b - a).toNat < 32768

/-- The map of a change whose switch superframe has come (R76, R79). -/
def Port.switchTx (x : Port) : Port :=
  match x.proc with
  | some w => if w.step = .switchSent ∧ seqCovers x.txSeq w.switchSeq then { x with txMap := w.newMap } else x
  | none => x

/-- The next superframe: a link-control slot if one is given or 63 superframes have had none, the cells that may leave, as
many as the width allows, and IDLE. With the replay buffer full no cell leaves (R54, R57, R60). -/
def Chip.nextFrame (s : Chip) (p : Nat) (ctrl : Option CtrlSlot) : TxFrame :=
  let x := s.port p
  let idle := s.ctrlSlot p 0 0
  let ctrl := if ctrl.isNone && 63 ≤ x.sinceCtrl then some idle else ctrl
  let room := if x.flows && !x.replayFull then mapWidth x.txMap - ctrl.toList.length else 0
  ⟨x.txSeq, ctrl, x.txPending.take room, idle⟩

/-- A superframe leaves, and stays in the replay buffer until it is acknowledged (R60). -/
def Chip.sendSuperframe (s : Chip) (p : Nat) (ctrl : Option CtrlSlot) : Chip :=
  let s := s.setPort p Port.switchTx
  let e := s.nextFrame p ctrl
  (s.setPort p fun x => { x with
    txPending := x.txPending.drop e.cells.length, replay := x.replay ++ [e], txSeq := x.txSeq + 1
    sinceCtrl := if e.ctrl.isSome || e.cells.length < mapWidth x.txMap then 0 else x.sinceCtrl + 1 }).sendFrame p e

/-- Cells join a port's next superframes. -/
def Chip.enqueue (s : Chip) (p : Nat) (slots : List (BitVec 512)) : Chip :=
  s.setPort p fun x => { x with txPending := x.txPending ++ slots, slotsOut := x.slotsOut + slots.length }

/-- Cells that the peer has acknowledged. -/
def Port.slotsAcked (x : Port) : Nat :=
  x.slotsOut - x.txPending.length - x.replay.foldl (fun n r => n + r.cells.length) 0

/-- Full superframes leave while the replay buffer has room. -/
def Chip.flushFuel (p : Nat) : Nat → Chip → Chip
  | 0, s => s
  | fuel + 1, s =>
    let x := s.port p
    if x.txPending.length ≥ mapWidth x.txMap && mapWidth x.txMap > 0 && !x.replayFull && x.flows then
      Chip.flushFuel p fuel (s.sendSuperframe p none)
    else s

def Chip.flushPort (s : Chip) (p : Nat) : Chip := Chip.flushFuel p ((s.port p).txPending.length) s

/-- A link-control slot leaves in the next superframe of a linked port; one that loops sends nothing of its own, and one that
sends PRBS31 sends no slot until the test is over (R72). -/
def Chip.sendCtrl (s : Chip) (p : Nat) (code : Byte) (arg : Nat) : Chip :=
  let x := s.port p
  if x.state.linked && x.shutterOpen && !x.looping then
    if x.bertTx then s.sendPrbs p
    else
      let c := s.ctrlSlot p code arg
      ((s.emit (.ctrl p c)).sendSuperframe p (some c)).flushPort p
  else s

end Sys2Proof.Machine
end

