-- ==== Sys2Proof/Machine/GnBase.lean ====
section
/-! DEFINITION. General-network packets (R131–R136), the port map (R149, R150) and how a response leaves. -/

namespace Sys2Proof.Machine

/-! ### This chip's names -/

/-- CHIP_NUMBER (R89). -/
def Chip.chipNumber (s : Chip) : Nat := s.obj O.chipNumber
/-- GN_NODE (R129). -/
def Chip.gnNode (s : Chip) : Nat := s.obj O.gnNode

/-! ### Packets on the wire -/

/-- The header slot's bits [511:32], as a number (R132). -/
def gnHeaderHigh (p : GnPacket) : Nat :=
  p.ptype.toNat * 2 ^ 476 + p.vc.toNat * 2 ^ 473 + p.poison.toNat * 2 ^ 472 + p.hint.toNat * 2 ^ 470 +
  p.dest.toNat * 2 ^ 448 + p.src.toNat * 2 ^ 428 + p.tag.toNat * 2 ^ 412 + p.len.toNat * 2 ^ 399 +
  p.status.toNat * 2 ^ 395 + p.aop.toNat * 2 ^ 391 + p.size.toNat * 2 ^ 390 + p.crVc.toNat * 2 ^ 387 +
  p.crCount.toNat * 2 ^ 374 + p.addr.toNat * 2 ^ 330 + p.opA.toNat * 2 ^ 266 + p.opB.toNat * 2 ^ 202

/-- The HCRC a header must carry. -/
def gnHcrc (p : GnPacket) : Word32 := BitVec.ofNat 32 (crc32c (beBytes 60 (gnHeaderHigh p)))

/-- A packet carries payload slots and a trailer when its type carries data and LEN is above 0 (R131, R133). -/
def gnCarriesData (p : GnPacket) : Bool :=
  (p.ptype == 1 && (p.status == 0 || p.status == 1) || p.ptype == 2 || p.ptype == 3) && p.len != 0

/-- Payload slots. -/
def gnPayloadSlots (p : GnPacket) : Nat := if (gnCarriesData p) then (p.len.toNat + 63) / 64 else 0

/-- Slots of a packet: header, payload and trailer (R131). -/
def gnSlots (p : GnPacket) : Nat := if (gnCarriesData p) then (gnPayloadSlots p) + 2 else 1

/-- The DCRC a trailer must carry: over the header slot and every payload slot (R134). -/
def gnDcrc (p : GnPacket) : Word32 :=
  BitVec.ofNat 32 (crc32c (beBytes 60 (gnHeaderHigh p) ++ beBytes 4 p.hcrc.toNat ++ fit (64 * (gnPayloadSlots p)) p.payload))

/-- The packet with its two CRCs. -/
def gnSeal (p : GnPacket) : GnPacket :=
  let p := { p with hcrc := gnHcrc p }
  if (gnCarriesData p) then { p with dcrc := gnDcrc p } else p

def gnBlank : GnPacket :=
  { ptype := 0, vc := 0, poison := false, hint := 0, dest := 0, src := 0, tag := 0, len := 0, status := 0, aop := 0,
    size := false, crVc := 0, crCount := 0, addr := 0, opA := 0, opB := 0, hcrc := 0, payload := [], poisonMap := 0,
    dcrc := 0 }

/-- Whether line i of the payload is marked poisoned: POISON_MAP bit 511 − i of the trailer (R134). -/
def gnLinePoison (p : GnPacket) (i : Nat) : Bool := p.poisonMap.getLsbD (63 - i)

/-- A POISON_MAP of the marks of the payload's lines in order. -/
def poisonMapOf (marks : List Bool) : Word :=
  BitVec.ofNat 64 (marks.zipIdx.foldl (fun n m => if m.1 then n + 2 ^ (63 - m.2) else n) 0)

/-- The VC paired with a request's VC (R137). -/
def responseVc (vc : BitVec 3) : BitVec 3 :=
  if vc = 1 ∨ vc = 2 then 3 else if vc = 4 then 5 else 7

/-- Request types: READ, WRITE, WRITE_FLAGGED, ATOMIC. -/
def gnIsRequest (p : GnPacket) : Bool := p.ptype == 0 || p.ptype == 2 || p.ptype == 3 || p.ptype == 5

/-! ### The port map (R149) -/

/-- Ports whose PORT_ROLE is GN, in ascending order: G. -/
def Chip.gnPorts (s : Chip) : List Nat := (List.range 160).filter fun p => s.obju O.portRole p == 2

/-- The usable GN ports, those that are Active, Degraded or Sparing, in ascending order. -/
def Chip.usableGn (s : Chip) : List Nat := s.gnPorts.filter fun p => (s.port p).state.carries

/-- PORT_MAP[i]; none while no GN port is usable (R150). -/
def Chip.portMap (s : Chip) (i : Nat) : Option Nat :=
  let g := s.gnPorts
  let u := s.gn.usable
  match u.length with
  | 0 => none
  | n => match g[i]? with
    | some p => if u.contains p then some p else u[i % n]?
    | none => u[i % n]?

/-- The map index of an address's granule (DEDUCED log 17). -/
def granuleHash (a : Nat) : Nat :=
  (List.range 8).foldl (fun h k => h ^^^ (a / 4096 / 2 ^ (5 * k) % 32)) 0

/-- The port map is rebuilt; a change of the set of usable ports is an event naming the port and n (R149). -/
def Chip.rebuildPortMap (s : Chip) (port : Nat) : Chip :=
  let u := s.usableGn
  if u = s.gn.usable then s
  else ({ s with gn := { s.gn with usable := u } }).raise 0x4402 [.u8 port, .u32 u.length]

/-! ### Requests and their tags (R149–R154, R157) -/

/-- The port of a request: its window's, by the hash of its rack address or its pin (R149). -/
def Chip.reqPort (s : Chip) (r : GnReq) : Option Nat := s.portMap (r.pin.getD (granuleHash r.rack))

/-- Two requests belong to one granule of one target. -/
def sameGranule (a b : GnReq) : Bool := a.rack / 4096 == b.rack / 4096 && a.pkt.dest == b.pkt.dest && a.pin == b.pin

/-- Requests that hold a tag (R157). -/
def Chip.tagged (s : Chip) : List GnReq := s.gn.reqs ++ s.gn.granuleHeld ++ s.gn.flaggedHeld.map (·.req)

/-- The first tag from t on that no request holds. -/
def freeTag (used : List Half) : Nat → Half → Half
  | 0, t => t
  | fuel + 1, t => if used.contains t then freeTag used fuel (t + 1) else t

/-- A node that is not in the rack domain. -/
def Chip.otherNode (s : Chip) (n : Nat) : Bool := !(s.gn.members.contains n)

/-- Whether a request to a node can have a tag now (R157). -/
def Chip.canTag (s : Chip) (node : Nat) : Bool :=
  let t := s.tagged
  let others := (t.map (·.pkt.dest.toNat)).eraseDups.filter s.otherNode
  t.length < 65536 && (t.filter (·.pkt.dest.toNat == node)).length < s.obj O.tagPerTarget &&
  (!s.otherNode node || others.contains node || others.length < 32)

/-- Types that a WRITE_FLAGGED waits for. -/
def writes (r : GnReq) : Bool := r.pkt.ptype == 2 || r.pkt.ptype == 3 || r.pkt.ptype == 5

/-- Why a new request completes UNREACHABLE at once (R129, R150, R159). -/
def Chip.noWay (s : Chip) (node : Nat) : Bool :=
  s.gnNode == 0xFFFFF || s.gn.usable.isEmpty || s.gn.dead.contains node

/-! ### Responses -/

/-- The slots of a packet (R131, R132, R134). -/
def gnSlotsOf (p : GnPacket) : List (BitVec 512) :=
  let header := BitVec.ofNat 512 (gnHeaderHigh p * 2 ^ 32 + p.hcrc.toNat)
  if gnCarriesData p then
    [header] ++ ((List.range (gnPayloadSlots p)).map fun i => BitVec.ofNat 512 (beNat (slice p.payload (64 * i) 64))) ++
    [BitVec.ofNat 512 (p.poisonMap.toNat * 2 ^ 448 + p.dcrc.toNat * 2 ^ 416)]
  else [header]

def Chip.gnCredits (s : Chip) (port : Nat) : GnCredits := Tab.get GnCredits.none s.gn.credits port
def Chip.setGnCredits (s : Chip) (port : Nat) (f : GnCredits → GnCredits) : Chip :=
  { s with gn := { s.gn with credits := Tab.modify GnCredits.none s.gn.credits port f } }

/-- The packet at the head of VC v of a port's output; while the source holds back for its mirror, responses stay (R489). -/
def Chip.vcHead (s : Chip) (port v : Nat) : Option OutPacket :=
  (s.gn.outq.filter fun o => o.port == port && o.pkt.vc.toNat == v &&
    !(s.service.lagEpisode && !gnIsRequest o.pkt && o.pkt.ptype != 7)).head?

/-- The packet of VC v that may start now: there are credits for all its slots (R138). -/
def Chip.vcReady (s : Chip) (port v : Nat) : Option OutPacket :=
  match s.vcHead port v with
  | some o => if gnSlots o.pkt ≤ nth 0 (s.gnCredits port).tx v then some o else none
  | none => none

/-- The list rotated so that the entry after `v` comes first. -/
def rotateAfter (l : List Nat) (v : Nat) : List Nat :=
  let k := (l.findIdx (· == v)) + 1
  if l.contains v then l.drop k ++ l.take k else l

/-- The next packet of a port's output in the order of R139, with the pointers after it. -/
def Chip.nextPacket (s : Chip) (port : Nat) : Option (OutPacket × Nat × Nat) :=
  let c := s.gnCredits port
  let bulk (v : Nat) := (s.vcReady port v).filter (·.aged)
  match s.vcReady port 0 with
  | some o => some (o, c.rr1, c.rr2)
  | none =>
    match (rotateAfter [1, 3, 7] c.rr1).findSome? (s.vcReady port) with
    | some o => some (o, o.pkt.vc.toNat, c.rr2)
    | none =>
      match (rotateAfter [2, 6, 4, 5] c.rr2).findSome? (fun v => if v = 2 ∨ v = 6 then s.vcReady port v else bulk v) with
      | some o => some (o, c.rr1, o.pkt.vc.toNat)
      | none => ([4, 5].findSome? (s.vcReady port)).map (·, c.rr1, c.rr2)

/-- The VC with most slots to return, and how many; the first of equals (DESIGN CHOICE log 26). -/
def mostOwed (owed : List Nat) : Nat × Nat :=
  owed.zipIdx.foldl (fun (r : Nat × Nat) e => if e.1 > r.2 then (e.2, e.1) else r) (0, 0)

/-- A packet starts on its port: it takes its credits, and its header returns the credits of one VC (R138). -/
def Chip.startPacket (s : Chip) (o : OutPacket) (rr1 rr2 : Nat) : Chip :=
  let c := s.gnCredits o.port
  let (v, n) := if o.pkt.ptype = 7 then (0, 0) else mostOwed c.owed
  let n := min n 8191
  let vc := o.pkt.vc.toNat
  let p := if o.pkt.ptype = 7 then gnSeal o.pkt
    else gnSeal { o.pkt with crVc := BitVec.ofNat 3 v, crCount := BitVec.ofNat 13 n }
  let slots := gnSlotsOf p
  let s := s.setGnCredits o.port fun c =>
    { c with tx := setAt c.tx vc (nth 0 c.tx vc - gnSlots p), owed := setAt c.owed v (nth 0 c.owed v - n),
             rr1 := rr1, rr2 := rr2 }
  let s := s.enqueue o.port slots
  (({ s with gn := { s.gn with outq := s.gn.outq.erase o, unacked := s.gn.unacked ++ [(o.port, (s.port o.port).slotsOut, p)] } }).emit
    (.packet o.port p)).flushPort o.port

/-- A port sends every packet it has credits for, in the order of R139. -/
def Chip.pumpFuel (port : Nat) : Nat → Chip → Chip
  | 0, s => s
  | fuel + 1, s =>
    match s.nextPacket port with
    | some (o, rr1, rr2) => Chip.pumpFuel port fuel (s.startPacket o rr1 rr2)
    | none => s

def Chip.gnPump (s : Chip) (port : Nat) : Chip :=
  if (s.port port).state.carries then Chip.pumpFuel port s.gn.outq.length s else s

/-- A packet joins a port's output. -/
def Chip.gnQueue (s : Chip) (port : Nat) (p : GnPacket) : Chip :=
  ({ s with gn := { s.gn with outq := s.gn.outq ++ [OutPacket.mk port (gnSeal p) false] } }).gnPump port

/-- A response leaves on the port PORT_MAP gives for the request's ADDR, or is dropped with no usable port (R149,
R150). -/
def Chip.gnRespond (s : Chip) (p : GnPacket) : Chip :=
  match s.portMap (granuleHash p.addr.toNat) with
  | some port => s.gnQueue port p
  | none => s

/-- The response to a request: its type, status, old value and data. -/
def gnResponseTo (node : Nat) (req : GnPacket) (status : BitVec 4) (opA : Word) (payload : List Byte) (marks : List Bool) :
    GnPacket :=
  let data := req.ptype == 0 && (status == 0 || status == 1)
  { gnBlank with
    ptype := if req.ptype = 0 then 1 else if req.ptype = 5 then 6 else 4
    vc := responseVc req.vc
    poison := data && marks.any id || req.ptype == 5 && status == 1
    dest := req.src, src := BitVec.ofNat 20 node, tag := req.tag
    len := if data then req.len else 0
    status := status, addr := req.addr, opA := opA
    payload := if data then payload else []
    poisonMap := if data then poisonMapOf marks else 0 }

/-- The request is answered. -/
def Chip.gnAnswer (s : Chip) (req : GnPacket) (status : BitVec 4) (opA : Word) (payload : List Byte) (marks : List Bool) :
    Chip :=
  s.gnRespond (gnResponseTo s.gnNode req status opA payload marks)

/-! ### Requests that go out (R149–R154, R157)

`lost` is what becomes of a request with no usable port or a dead target. -/

/-- Send a request, or hold it while its granule has requests on another port (R153). -/
def Chip.gnSendOr (lost : Chip → GnReq → Chip) (s : Chip) (r : GnReq) : Chip :=
  match s.reqPort r with
  | none => lost s r
  | some port =>
    let r := { r with port := port }
    if (s.gn.reqs.any fun o => sameGranule o r && o.port != port) || s.gn.granuleHeld.any (sameGranule · r) then
      { s with gn := { s.gn with granuleHeld := s.gn.granuleHeld ++ [r] } }
    else ({ s with gn := { s.gn with reqs := s.gn.reqs ++ [r] } } : Chip).gnQueue port r.pkt

/-- A request takes a tag; a WRITE_FLAGGED waits for the earlier writes and atomics to its target (R154). -/
def Chip.gnTag (lost : Chip → GnReq → Chip) (s : Chip) (r : GnReq) : Chip :=
  let t := s.tagged
  let tag := freeTag (t.map (·.tag)) (t.length + 1) s.gn.nextTag
  let r := { r with tag := tag, pkt := { r.pkt with tag := tag } }
  let s : Chip := { s with gn := { s.gn with nextTag := tag + 1 } }
  let s : Chip := if r.work == .mirror then
      { s with service := { s.service with mirrorOut := s.service.mirrorOut ++ [(tag, r.pkt.len.toNat)] } } else s
  let before := (t.filter fun o => writes o && o.pkt.dest == r.pkt.dest).map (·.tag)
  if r.pkt.ptype = 3 && !before.isEmpty then
    ({ s with gn := { s.gn with flaggedHeld := s.gn.flaggedHeld ++ [⟨r, before, none⟩] } } : Chip).bump O.flagHolds 1
  else s.gnSendOr lost r

/-- Waiting requests take the tags that are free, in order for each target. -/
def Chip.gnGrant (lost : Chip → GnReq → Chip) (s : Chip) : Chip :=
  (s.gn.waiting.foldl (fun (a : Chip × List Nat) r =>
    let node := r.pkt.dest.toNat
    let taken : Chip := { a.1 with gn := { a.1.gn with waiting := a.1.gn.waiting.erase r } }
    if a.2.contains node then a
    else if a.1.noWay node then (lost taken r, a.2)
    else if a.1.canTag node then (taken.gnTag lost r, a.2)
    else (a.1, node :: a.2)) (s, [])).1

end Sys2Proof.Machine
end

