-- ==== Sys2Proof/Machine/Sync.lean ====
section
/-! DEFINITION. Counters, barriers and waits (06_synchronisation): adds with their records, the wake-up of waiters,
arrivals, and the commands of the family. -/

namespace Sys2Proof.Machine

/-! ### Reading counters -/

def Chip.counter (s : Chip) (i : Nat) : CounterRec := Tab.get CounterRec.zero s.sync.counters i
def Chip.setCounter (s : Chip) (i : Nat) (r : CounterRec) : Chip :=
  { s with sync := { s.sync with counters := Tab.set CounterRec.zero s.sync.counters i r } }
/-- Core-local counter j of core c (R197). -/
def Chip.coreCounter (s : Chip) (c j : Nat) : CounterRec := Tab.get CounterRec.zero s.sync.coreCounters (64 * c + j)
def Chip.setCoreCounter (s : Chip) (c j : Nat) (r : CounterRec) : Chip :=
  { s with sync := { s.sync with coreCounters := Tab.set CounterRec.zero s.sync.coreCounters (64 * c + j) r } }
def Chip.barrier (s : Chip) (b : Nat) : Barrier := Tab.get Barrier.zero s.sync.barriers b
def Chip.setBarrier (s : Chip) (b : Nat) (r : Barrier) : Chip :=
  { s with sync := { s.sync with barriers := Tab.set Barrier.zero s.sync.barriers b r } }

/-- The home site of a counter and of a barrier (R194). -/
def counterSite (i : Nat) : Nat := i / 32768
def barrierSite (b : Nat) : Nat := b / 512

/-- The chip offset of a counter. -/
def counterOffset (i : Nat) : Nat := 0xF0000000000 + 8 * i

/-- The bound barrier whose ARRIVE_CTR, or whose DONE_CTR, a counter is. -/
def Chip.arriveOf (s : Chip) (i : Nat) : Option (Nat × Barrier) :=
  s.sync.barriers.find? fun e => e.2.enable && e.2.arriveCtr.toNat == i
def Chip.doneOf (s : Chip) (i : Nat) : Option (Nat × Barrier) :=
  s.sync.barriers.find? fun e => e.2.enable && e.2.doneCtr.toNat == i

/-! ### Signallers (R208, R209) -/

/-- The waiter id of a unit of a core. -/
def coreWaiterId (c u : Nat) : Nat := 2 ^ 14 + u % 4 * 2 ^ 8 + c % 256
def queueWaiterId (q : Nat) : Nat := 2 * 2 ^ 14 + q % 2 ^ 14
def barrierWaiterId (b : Nat) : Nat := 3 * 2 ^ 14 + b

/-- LAST_KIND, LAST_ORIGIN and LAST_UNIT of an add (R208); a message of a die-to-die link has no kind there (DESIGN CHOICE log 25). -/
def Chip.signaller (s : Chip) : AddSrc → Nat × Nat × Nat
  | .core c u => (1, s.chipNumber, coreWaiterId c u)
  | .queue q _ => (2, s.chipNumber, q)
  | .cell src stream _ => (3, src.toNat, stream.toNat)
  | .gn node tag _ => (4, node.toNat, tag.toNat)
  | .gdp _ _ => (0, 0, 0)
  | .mgmt => (6, 0, 0)

/-- A counter's record of an applied add; its value is set apart. -/
def CounterRec.note (r : CounterRec) (amount : Word) (now : Word) (sig : Nat × Nat × Nat) : CounterRec :=
  { r with lastStamp := now, lastAdd := amount, lastKind := BitVec.ofNat 4 sig.1, lastOrigin := BitVec.ofNat 20 sig.2.1,
           lastUnit := BitVec.ofNat 16 sig.2.2, adds := if r.adds = 0xFFFFFFFF then r.adds else r.adds + 1 }

/-- The sum, and whether it would carry past 2⁶⁴ − 1 (R195). -/
def satAdd (a b : Word) : Word × Bool :=
  if a.toNat + b.toNat ≥ 2 ^ 64 then (BitVec.allOnes 64, true) else (a + b, false)

/-- An operation refused under DET_MODE, by its row in R373: counted and reported (DESIGN CHOICE log 96). -/
def Chip.detRefusal (s : Chip) (row : Nat) : Chip := (s.bump O.detRefusals 1).raiseLimited 0x4A01 0 [.u8 row]

/-- A refused access to the counter range: counted and reported (R194). -/
def Chip.counterRefusal (s : Chip) : Chip := (s.bump O.counterRefusals 1).raiseLimited 0x4602 0 []

/-! ### Waiters (R199, R200) -/

/-- Held arrivals that take waiter-table entries: those of cells are in the pending-signal table (R206). -/
def HeldArrival.inTable (h : HeldArrival) : Bool :=
  match h.src with
  | .cell _ _ _ => false
  | _ => true

/-- Entries used in a site's waiter table: WAITERS_USED. -/
def Chip.waitersUsed (s : Chip) (site : Nat) : Nat :=
  (s.sync.waiters.filter fun w => w.registered && counterSite w.counter == site).length +
  (s.sync.barriers.filter fun b => barrierSite b.1 == site).foldl (fun n b =>
    n + (b.2.held.filter (·.inTable)).length) 0

/-- POLLERS_NOW. -/
def Chip.pollersAt (s : Chip) (site : Nat) : Nat :=
  (s.sync.waiters.filter fun w => !w.registered && counterSite w.counter == site).length

def Chip.tick (s : Chip) : Chip := { s with sync := { s.sync with clock := s.sync.clock + 1 } }

/-- Wake every registered waiter whose threshold the counter now meets: each leaves the table (R199). -/
def Chip.wake (s : Chip) (i : Nat) : Chip :=
  let v := (s.counter i).value
  { s with sync := { s.sync with waiters := s.sync.waiters.filter fun w =>
      !(w.counter == i && w.registered && w.threshold.toNat ≤ v.toNat) } }

/-- A wait at a counter's home: met at once, or registered, or polling when the table is full (R199, R200). -/
def Chip.registerWait (s : Chip) (i : Nat) (threshold : Word) (owner : WaitOwner) : Chip × Bool :=
  if threshold.toNat ≤ (s.counter i).value.toNat then
    ({ s with sync := { s.sync with waiters := s.sync.waiters.filter fun w =>
        !(w.counter == i && w.owner == owner && w.threshold == threshold) } }, true)
  else if s.sync.waiters.any fun w => w.counter == i && w.owner == owner && w.threshold == threshold then (s, false)
  else
    let room := s.waitersUsed (counterSite i) < 16384
    let s := if room then s else s.raiseLimited 0x4604 (counterSite i) []
    ({ s with sync := { s.sync with waiters := s.sync.waiters ++ [⟨i, threshold, owner, room, s.sync.clock⟩],
                                    clock := s.sync.clock + 1 } }, false)

/-- An owner's waits leave the table. -/
def Chip.dropWaits (s : Chip) (owner : WaitOwner) : Chip :=
  { s with sync := { s.sync with waiters := s.sync.waiters.filter fun w => w.owner != owner } }

/-! ### Adds -/

/-- What becomes of an add. -/
inductive AddResult where
  /-- applied, or discarded as a stale arrival: its source is acknowledged; the value before it -/
  | applied (old : Word)
  /-- an arrival held for a later generation -/
  | held
  /-- an arrival for which there is no room (R206) -/
  | noRoom
  /-- refused (R194, R205) -/
  | refused
  deriving DecidableEq, Repr

/-- An add to an ordinary counter (R195). -/
def Chip.plainAdd (s : Chip) (i : Nat) (amount : Word) (sig : Nat × Nat × Nat) : Chip :=
  let r := s.counter i
  let (v, sat) := satAdd r.value amount
  let s := s.setCounter i ({ r with value := v }.note amount s.timebase sig)
  let s := if sat then s.raise 0x4601 [.u32 i] else s
  s.wake i

/-- An add to a core-local counter (R197). -/
def Chip.localAdd (s : Chip) (c j : Nat) (amount : Word) (src : AddSrc) : Chip :=
  let r := s.coreCounter c j
  let (v, sat) := satAdd r.value amount
  let s := s.setCoreCounter c j ({ r with value := v }.note amount s.timebase (s.signaller src))
  if sat then s.raise 0x4601 [.u16 c, .u8 j] else s

/-- The queue entry of a command. -/
def Chip.queueAt (s : Chip) (q : Nat) : Queue := Tab.get Queue.reset s.queues q
def Chip.setQueue (s : Chip) (q : Nat) (f : Queue → Queue) : Chip :=
  { s with queues := Tab.modify Queue.reset s.queues q f }
def Queue.setEntry (v : Queue) (num : Word32) (f : QEntry → QEntry) : Queue :=
  { v with entries := v.entries.map fun e => if e.num = num then f e else e }

def Chip.core (s : Chip) (c : Nat) : CoreSt := Tab.get CoreSt.reset s.cores c
def Chip.setCore (s : Chip) (c : Nat) (f : CoreSt → CoreSt) : Chip :=
  { s with cores := Tab.modify CoreSt.reset s.cores c f }

/-- The GN request an add came in. -/
def gnAtomicReq (node : BitVec 20) (tag : Half) (i : Nat) : GnPacket :=
  { gnBlank with ptype := 5, vc := if node.toNat < 0x10000 then 1 else 6, src := node, tag := tag, size := true,
                 addr := BitVec.ofNat 44 (counterOffset i) }

/-- The source of an add learns that it is applied; `old` is what a GN ATOMIC_RESP carries (R206). -/
def Chip.acknowledge (s : Chip) (src : AddSrc) (i : Nat) (old : Word) : Chip :=
  match src with
  | .core c u => if u = 0 then s.setCore c fun x => match x.stall with
      | some (.sigC none) => { x with stall := some (.sigC (some 0)) }
      | _ => x
    else s
  | .queue q num => s.setQueue q fun v => v.setEntry num fun e => { e with sig := .landed }
  | .cell src stream seq => { s with tn := { s.tn with pendingSignals := s.tn.pendingSignals.filter fun p =>
      !(p.src == src && p.stream == stream && p.seq == seq) } }
  | .gn node tag _ => s.gnAnswer (gnAtomicReq node tag i) 0 old [] []
  | _ => s

/-- The source of a held arrival learns that it is cancelled (R207). -/
def Chip.cancelArrival (s : Chip) (src : AddSrc) (i : Nat) : Chip :=
  match src with
  | .core c _ => s.setCore c fun x => match x.stall with
      | some (.sigC none) => { x with stall := some (.sigC (some 2)) }
      | _ => x
  | .queue q num => s.setQueue q fun v => v.setEntry num fun e =>
      { e with sig := .landed, status := .cancelled, phase := .finished }
  | .cell src stream seq => { s with tn := { s.tn with pendingSignals := s.tn.pendingSignals.filter fun p =>
      !(p.src == src && p.stream == stream && p.seq == seq) } }
  | .gn node tag _ => s.gnAnswer (gnAtomicReq node tag i) 3 0 [] []
  | _ => s

/-! ### Arrivals (R205, R206) -/

/-- An arrival is discarded as stale. -/
def Chip.staleArrival (s : Chip) (b : Nat) (v : Word) (src : AddSrc) : Chip :=
  let br := s.barrier b
  let n := if br.staleArrivals = 0xFFFFFFFF then br.staleArrivals else br.staleArrivals + 1
  let s := (s.setBarrier b { br with staleArrivals := n }).bump O.staleArrivalsTotal 1
  s.raise 0x4603 [.u16 b, .u64 v.toNat, .u32 (s.signaller src).2.1]

/-- An arrival is recorded in its ARRIVE_CTR's debug view (R208). -/
def Chip.noteArrival (s : Chip) (b : Nat) (v : Word) (src : AddSrc) : Chip :=
  let i := (s.barrier b).arriveCtr.toNat
  s.setCounter i ((s.counter i).note v s.timebase (s.signaller src))

/-- LAST_ORIGIN of an arrival (R208). -/
def Chip.originOf (s : Chip) (src : AddSrc) : BitVec 20 := BitVec.ofNat 20 (s.signaller src).2.1

/-- Apply a held arrival that its barrier has caught up with: it is for generation C + 2. -/
def Chip.applyHeld (s : Chip) (b : Nat) (h : HeldArrival) : Chip :=
  let br := s.barrier b
  let i := br.arriveCtr.toNat
  let done := (s.counter br.doneCtr.toNat).value
  let s := s.setBarrier b { br with held := br.held.filter (· != h) }
  let v := BitVec.ofNat 64 h.gen
  let s :=
    if (s.barrier b).arrivedG1 = br.participants then s.staleArrival b v h.src
    else (s.setBarrier b { s.barrier b with
        arrivedG1 := (s.barrier b).arrivedG1 + 1, originG1 := s.originOf h.src }).noteArrival b v h.src
  s.acknowledge h.src i done

/-- The while loop of R205: as long as every participant of generation C + 1 has arrived, it completes. -/
def Chip.barrierLoop (b : Nat) : Nat → Chip → Chip
  | 0, s => s
  | fuel + 1, s =>
    let br := s.barrier b
    if br.arrivedG = br.participants then
      let s := s.plainAdd br.doneCtr.toNat 1 (5, br.originG.toNat, b)
      let c := (s.counter br.doneCtr.toNat).value
      let s := s.setBarrier b { br with
        generation := c, arrivedG := br.arrivedG1, arrivedG1 := 0, originG := br.originG1, originG1 := 0 }
      Chip.barrierLoop b fuel (s.each (br.held.filter fun h => h.gen ≤ c.toNat + 2) fun s h => s.applyHeld b h)
    else s

/-- An arrival for generation v at a bound barrier (R205). A cell that already holds a pending-signal entry needs no
second one. -/
def Chip.arrive (s : Chip) (b : Nat) (v : Word) (src : AddSrc) (hasEntry : Bool) : Chip × AddResult :=
  let br := s.barrier b
  let c := (s.counter br.doneCtr.toNat).value.toNat
  let old := (s.counter br.arriveCtr.toNat).value
  if v.toNat ≤ c then (s.staleArrival b v src, .applied old)
  else if v.toNat = c + 1 then
    let s := (s.setBarrier b { br with arrivedG := br.arrivedG + 1, originG := s.originOf src }).noteArrival b v src
    (Chip.barrierLoop b (br.held.length + 3) s, .applied old)
  else if v.toNat = c + 2 then
    if br.arrivedG1 = br.participants then (s.staleArrival b v src, .applied old)
    else ((s.setBarrier b { br with arrivedG1 := br.arrivedG1 + 1, originG1 := s.originOf src }).noteArrival b v src, .applied old)
  else
    let room := match src with
      | .cell _ _ _ => hasEntry || s.tn.pendingSignals.length < 4096
      | _ => s.waitersUsed (barrierSite b) < 16384
    if !room then
      (match src with
       | .gn node _ _ => s.raise 0x4606 [.u16 b, .u32 node.toNat]
       | _ => s, .noRoom)
    else
      let n := if br.overrunStalls = 0xFFFFFFFF then br.overrunStalls else br.overrunStalls + 1
      let s := (s.setBarrier b { br with overrunStalls := n, held := br.held ++ [⟨v.toNat, src, s.sync.clock⟩] }).tick
      (s.bump O.overrunStallsTotal 1, .held)

/-- An add reaches a chip counter's home (R194, R195, R205). -/
def Chip.counterAdd (s : Chip) (i : Nat) (amount : Word) (src : AddSrc) (hasEntry : Bool) : Chip × AddResult :=
  match s.arriveOf i with
  | some (b, _) => s.arrive b amount src hasEntry
  | none =>
    if (s.doneOf i).isSome then (s.counterRefusal, .refused)
    else (s.plainAdd i amount (s.signaller src), .applied (s.counter i).value)

/-! ### Waits on core-local counters (R197, R208) -/

/-- The queue of a unit, and what it has started (R274). -/
def CoreSt.unitQ (x : CoreSt) (u : Nat) : List UnitInstr := if u = 1 then x.arrayQ else if u = 2 then x.vectorQ else x.dmaQ
def CoreSt.unitRun (x : CoreSt) (u : Nat) : List UnitInstr :=
  if u = 1 then x.arrayRun else if u = 2 then x.vectorRun else x.dmaRun

/-- The unmet waits of a core on its own counters: an XWAITL of the control core, an XQWAIT at the head of a unit's queue; the
unit, the counter, and what tells it from the unit's other waits. -/
def Chip.localWaits (s : Chip) (c : Nat) : List (Nat × Nat × Nat) :=
  let x := s.core c
  let unmet (j : Nat) (t : Word) : Bool := (s.coreCounter c j).value.toNat < t.toNat
  let control := match x.stall with
    | some (.waitL j t) => if unmet j t then [(0, j, x.instret.toNat)] else []
    | _ => []
  control ++ [1, 2, 3].filterMap fun u => match (x.unitQ u).head? with
    | some i => match i.op with
      | .wait j t => if unmet j t then some (u, j, i.id) else none
      | _ => none
    | none => none

/-- New waits join those a core has registered, oldest first. -/
def Chip.noteLocalWaits (s : Chip) (c : Nat) : Chip :=
  let w := s.localWaits c
  s.setCore c fun x => { x with
    localWaits := x.localWaits.filter w.contains ++ w.filter fun k => !(x.localWaits.contains k) }

/-! ### The bits of descriptors and views -/

/-- A barrier descriptor (R203). -/
def Barrier.bits (b : Barrier) : Nat :=
  b.enable.toNat * 2 ^ 255 + b.arriveCtr.toNat * 2 ^ 237 + b.doneCtr.toNat * 2 ^ 219 + b.participants.toNat * 2 ^ 199 +
  b.arrivedG.toNat * 2 ^ 172 + b.arrivedG1.toNat * 2 ^ 152 + b.overrunStalls.toNat * 2 ^ 96 +
  b.staleArrivals.toNat * 2 ^ 64 + b.generation.toNat

/-- The registered waiters of a counter with their ids, oldest first: waits, and held arrivals of the barrier whose
DONE_CTR it is (R208, R209). -/
def Chip.waiterIds (s : Chip) (i : Nat) : List Nat :=
  let ws := (s.sync.waiters.filter fun w => w.registered && w.counter == i).map fun w =>
    (w.stamp, match w.owner with
      | .queue q => queueWaiterId q
      | .core c u => coreWaiterId c u)
  let hs := match s.doneOf i with
    | some (b, br) => br.held.map fun h => (h.stamp, barrierWaiterId b)
    | none => []
  ((ws ++ hs).mergeSort fun a b => a.1 ≤ b.1).map (·.2)

/-- A debug view (R208). -/
def CounterRec.view (r : CounterRec) (waiters : List Nat) (pollers : Nat) : Nat :=
  r.value.toNat * 2 ^ 448 + r.lastStamp.toNat * 2 ^ 384 + r.lastAdd.toNat * 2 ^ 320 + r.lastKind.toNat * 2 ^ 316 +
  r.lastOrigin.toNat * 2 ^ 296 + r.lastUnit.toNat * 2 ^ 280 + r.adds.toNat * 2 ^ 224 +
  min waiters.length 65535 * 2 ^ 208 + min pollers 65535 * 2 ^ 192 +
  (waiters.take 8).zipIdx.foldl (fun n w => n + w.1 * 2 ^ (176 - 16 * w.2)) 0

def Chip.counterView (s : Chip) (i : Nat) : Nat :=
  (s.counter i).view (s.waiterIds i) (s.sync.waiters.filter fun w => !w.registered && w.counter == i).length

/-- Its waiters are the owner's control core and units; none of them polls. -/
def Chip.coreCounterView (s : Chip) (c j : Nat) : Nat :=
  let w := s.localWaits c
  (s.coreCounter c j).view (((s.core c).localWaits.filter fun k => k.2.1 == j && w.contains k).map fun k => coreWaiterId c k.1) 0

/-- What a byte of the chip-counter range holds, by its offset from 0xF00_0000_0000 (R193); none in the reserved part. -/
def Chip.syncByte (s : Chip) (off : Nat) : Option Byte :=
  if off < 0x200000 then some (BitVec.ofNat 8 ((s.counter (off / 8)).value.toNat / 2 ^ (8 * (off % 8))))
  else if off < 0x220000 then
    some (BitVec.ofNat 8 ((s.barrier ((off - 0x200000) / 32)).bits / 2 ^ (8 * (off % 32))))
  else if off < 0x1000000 then none
  else some (BitVec.ofNat 8 (s.counterView ((off - 0x1000000) / 64) / 2 ^ (8 * (off % 64))))

/-- What a byte of a core's counter page reads (R197). -/
def Chip.counterPageByte (s : Chip) (c off : Nat) : Byte :=
  if off < 0x200 then BitVec.ofNat 8 ((s.coreCounter c (off / 8)).value.toNat / 2 ^ (8 * (off % 8)))
  else if off < 0x1000 then 0
  else BitVec.ofNat 8 (s.coreCounterView c ((off - 0x1000) / 64) / 2 ^ (8 * (off % 64)))

/-- A write of 8 aligned bytes to a core's counter page (R197). -/
def Chip.counterPageWrite (s : Chip) (c off : Nat) (v : Word) (src : AddSrc) : Chip :=
  if off < 0x200 ∧ off % 8 = 0 then s.localAdd c (off / 8) v src else s

/-! ### Descriptors (R203, R204, R207) -/

/-- The first check of R204 that a binding fails, numbered in its order; 5 is "already bound". -/
def Chip.bindCheck (s : Chip) (b arrive done participants : Nat) : Option Nat :=
  let taken (i : Nat) := s.sync.barriers.any fun e => e.1 != b && e.2.enable &&
    (e.2.arriveCtr.toNat == i || e.2.doneCtr.toNat == i)
  if arrive = done then some 1
  else if taken arrive || taken done then some 2
  else if counterSite arrive ≠ barrierSite b ∨ counterSite done ≠ barrierSite b then some 3
  else if participants = 0 then some 4
  else none

/-- The RW fields of bytes 24–31. -/
def barrierFields (w : Word) : BitVec 18 × BitVec 18 × BitVec 20 :=
  (w.extractLsb' 45 18, w.extractLsb' 27 18, w.extractLsb' 7 20)

/-- A write of bytes 24–31 with ENABLE 1 (R204). -/
def Chip.barrierBind (s : Chip) (b : Nat) (w : Word) : Chip :=
  let br := s.barrier b
  let (arrive, done, n) := barrierFields w
  if br.enable then s.counterRefusal.raise 0x4605 [.u16 b, .u8 5]
  else match s.bindCheck b arrive.toNat done.toNat n.toNat with
    | some k =>
      (s.setBarrier b { br with arriveCtr := arrive, doneCtr := done, participants := n }).raise 0x4605 [.u16 b, .u8 k]
    | none =>
      s.setBarrier b { br with enable := true, arriveCtr := arrive, doneCtr := done, participants := n, arrivedG := 0,
                               arrivedG1 := 0, overrunStalls := 0, staleArrivals := 0,
                               generation := (s.counter done.toNat).value, held := [] }

/-- A write of bytes 24–31 with ENABLE 0: the barrier is unbound and every held arrival cancelled (R207). -/
def Chip.barrierUnbind (s : Chip) (b : Nat) (w : Word) : Chip :=
  let br := s.barrier b
  let (arrive, done, n) := barrierFields w
  let s := s.setBarrier b { br with enable := false, arriveCtr := arrive, doneCtr := done, participants := n, held := [] }
  let s := s.each br.held fun s h => s.cancelArrival h.src br.arriveCtr.toNat
  if br.enable && !br.held.isEmpty then s.raise 0x0601 [.u16 b, .u32 br.held.length] else s

/-- A bound barrier refuses a write of bytes 0–23, and one of bytes 24–31 with ENABLE 1 (R194, R204) (DEDUCED log 164). -/
def Chip.barrierRefuses (s : Chip) (b k : Nat) (w : Word) : Bool := (s.barrier b).enable && (k != 3 || w.getLsbD 63)

/-- A write of 8 aligned bytes of a descriptor: word 3 binds or unbinds; bytes 0–23 hold only RO fields, which keep their values
(R203). -/
def Chip.barrierWord (s : Chip) (b k : Nat) (w : Word) : Chip :=
  if k = 3 then (if w.getLsbD 63 then s.barrierBind b w else s.barrierUnbind b w)
  else if s.barrierRefuses b k w then s.counterRefusal else s

/-! ### The commands -/

/-- An add and what its source learns: applied or held; refused for lack of room, a core's or a queue's arrival is sent
again (R206). -/
def Chip.addFrom (s : Chip) (i : Nat) (amount : Word) (src : AddSrc) : Chip × AddResult :=
  let (s, r) := s.counterAdd i amount src false
  match r with
  | .applied old => (s.acknowledge src i old, r)
  | .held =>
    (match src with
     | .queue q num => s.setQueue q fun v => v.setEntry num fun e => { e with sig := .held }
     | .core c u => if u = 0 then s.setCore c fun x => { x with stall := some (.sigC none) } else s
     | .cell src stream seq => { s with tn := { s.tn with pendingSignals := s.tn.pendingSignals ++
         [⟨src, stream, seq, none, i, amount, none⟩] } }
     | _ => s, r)
  | .noRoom =>
    (match src with
     | .queue _ _ => { s with sync := { s.sync with resends := s.sync.resends ++ [⟨i, amount, src⟩] } }
     | .core _ _ => { s with sync := { s.sync with resends := s.sync.resends ++ [⟨i, amount, src⟩] } }
     | .gn node tag _ => s.gnAnswer (gnAtomicReq node tag i) 3 0 [] []
     | _ => s, r)
  | .refused =>
    (match src with
     | .gn node tag _ => s.gnAnswer (gnAtomicReq node tag i) 4 0 [] []
     | .queue q num => s.setQueue q fun v => v.setEntry num fun e =>
         { e with sig := .landed, status := .refused, phase := .finished }
     | .core c u => if u = 0 then s.setCore c fun x =>
         if x.stall = some (.sigC none) then { x with stall := some (.sigC (some 4)) } else x else s
     | _ => s, r)

def execCounterAdd (counter : BitVec 18) (amount : Word) (src : AddSrc) (s : State) : Host.Outcome State Fault Refusal :=
  s.act fun c => (c.addFrom counter.toNat amount src).1

def execWaitRegister (counter : BitVec 18) (threshold : Word) (owner : WaitOwner) (s : State) :
    Host.Outcome State Fault Refusal :=
  s.act fun c => (c.registerWait counter.toNat threshold owner).1

/-- A poller reads its counter again: a met wait ends (R200). -/
def Chip.poll (s : Chip) (i : Nat) (owner : WaitOwner) : Chip :=
  let v := (s.counter i).value
  { s with sync := { s.sync with waiters := s.sync.waiters.filter fun w =>
      !(w.counter == i && w.owner == owner && !w.registered && w.threshold.toNat ≤ v.toNat) } }

def execPollIntervalExpiry (counter : BitVec 18) (owner : WaitOwner) (s : State) : Host.Outcome State Fault Refusal :=
  s.act fun c => c.poll counter.toNat owner

def execBarrierBind (barrier : Fin 4096) (word : Word) (s : State) : Host.Outcome State Fault Refusal :=
  s.act fun c => c.when (word.getLsbD 63) fun c => c.barrierBind barrier.val word

def execBarrierUnbind (barrier : Fin 4096) (word : Word) (s : State) : Host.Outcome State Fault Refusal :=
  s.act fun c => c.when (!word.getLsbD 63) fun c => c.barrierUnbind barrier.val word

/-- Bytes 0–23 are accepted only while ENABLE is 0, and every field there is RO (R204). -/
def execBarrierDescWrite (barrier : Fin 4096) (index : Fin 3) (word : Word) (s : State) :
    Host.Outcome State Fault Refusal :=
  s.act fun c => c.barrierWord barrier.val index.val word

/-- A refused arrival is sent again (R206). -/
def Chip.resend (s : Chip) (src : AddSrc) : Chip :=
  match s.sync.resends.find? (fun r => r.src == src) with
  | none => s
  | some r =>
    let s := { s with sync := { s.sync with resends := s.sync.resends.erase r } }
    (s.addFrom r.counter r.amount src).1

def execArrivalResendTimer (src : AddSrc) (s : State) : Host.Outcome State Fault Refusal :=
  s.act fun c => c.resend src

def execCounterPageWrite (core : Fin 256) (offset : BitVec 13) (value : Word) (src : AddSrc) (s : State) :
    Host.Outcome State Fault Refusal :=
  s.act fun c => c.counterPageWrite core.val offset.toNat value src

end Sys2Proof.Machine
end

