-- ==== Sys2Proof/Machine/Kernel.lean ====
section
/-! DEFINITION. How the pieces of a command settle (R186, R303) and how a core's kernel faults and ends (R298–R306). -/

namespace Sys2Proof.Machine

/-! ### A command's fields and its pieces -/

/-- Bits [hi:lo] of a command (R172). -/
def QEntry.field (e : QEntry) (hi lo : Nat) : Nat := bitsOf e.raw.toNat hi lo
def QEntry.opcode (e : QEntry) : Nat := e.field 7 0
def QEntry.flags (e : QEntry) : Nat := e.field 15 8
def QEntry.sigEn (e : QEntry) : Bool := e.field 26 26 == 1
def QEntry.sigRemote (e : QEntry) : Bool := e.field 25 25 == 1
def QEntry.hint (e : QEntry) : BitVec 2 := BitVec.ofNat 2 (e.field 29 28)
/-- LEN of a COPY, FILL or PUT. -/
def QEntry.len (e : QEntry) : Nat := e.field 383 344

/-- The order in which R186 takes the ways a segment failed. -/
def Status.rank : Status → Nat
  | .refused => 0 | .mappedOut => 1 | .unreachable => 2 | .timeout => 3 | .noResource => 4 | .poisoned => 5 | _ => 6

/-- The failed parts, in ascending order, with one more failure. -/
def addFail : List (Nat × Status) → Nat → Status → List (Nat × Status)
  | [], k, st => [(k, st)]
  | (j, old) :: r, k, st =>
    if k < j then (k, st) :: (j, old) :: r
    else if k = j then (j, if st.rank < old.rank then st else old) :: r
    else (j, old) :: addFail r k st

/-- S, the bytes of one of the 64 segments (R186). -/
def segBytes (len : Nat) : Nat := max 4096 (((len + 63) / 64 + 4095) / 4096 * 4096)

/-- How many parts a command has: named cores, segments that hold bytes, or the segments its layers fall in. -/
def QEntry.parts (e : QEntry) : Nat :=
  if e.opcode = 1 then popCount 32 (e.field 383 352)
  else if e.opcode = 9 then min 64 (e.field 447 432)
  else (e.len + segBytes e.len - 1) / segBytes e.len

/-- The status that the failed parts among n give: OK, PARTIAL, or that of the lowest failed part (R186, R303). -/
def settleOver (n : Nat) : List (Nat × Status) → Status
  | [] => .ok
  | (_, st) :: r => if r.length + 1 < n then .partly else st

/-- A started command whose last piece is done is finished. -/
def QEntry.finishIf (e : QEntry) : QEntry :=
  if e.phase = .started ∧ e.outstanding = 0 then
    { e with phase := .finished,
             status := if settleOver e.parts e.fails = .ok then e.status else settleOver e.parts e.fails }
  else e

/-- Parts k to l of a command fail. -/
def QEntry.failParts (e : QEntry) (k l : Nat) (st : Status) : QEntry :=
  { e with fails := (List.range (l + 1 - k)).foldl (fun f i => addFail f (k + i) st) e.fails }

/-- One piece of a command, within its parts k to l, is done. -/
def QEntry.pieceDone (e : QEntry) (k l : Nat) (st : Status) : QEntry :=
  { (if st = Status.ok then e else e.failParts k l st) with outstanding := e.outstanding - 1 }.finishIf

/-- Commands of a queue that have not started, in ring order. -/
def QEntry.unstarted (e : QEntry) : Bool := e.phase == .fetched || e.phase == .waiting
/-- Started and not completed. -/
def QEntry.running (e : QEntry) : Bool := e.ready.isSome && !e.unstarted
def Queue.head (v : Queue) : Option QEntry := v.entries.find? (·.unstarted)
def Queue.entry (v : Queue) (num : Word32) : Option QEntry := v.entries.find? (·.num == num)

def Chip.setEntry (s : Chip) (q : Nat) (num : Word32) (f : QEntry → QEntry) : Chip :=
  s.setQueue q fun v => v.setEntry num f

/-- The timebase at which a command reaches the head is noted. -/
def Chip.stampHead (s : Chip) (q : Nat) : Chip :=
  match (s.queueAt q).head with
  | some e => s.setEntry q e.num fun e => { e with headTime := s.timebase }
  | none => s

/-! ### Cores and kernels -/

/-- The control core issues instructions (R301, R306). -/
def CoreSt.issuing (x : CoreSt) : Bool :=
  x.kernel.isSome && !x.ended && (x.state == .running || x.state == .draining)

/-- Every unit queue is empty and its work complete. -/
def CoreSt.unitsIdle (x : CoreSt) : Bool :=
  x.arrayQ.isEmpty && x.vectorQ.isEmpty && x.dmaQ.isEmpty && x.arrayRun.isEmpty && x.vectorRun.isEmpty && x.dmaRun.isEmpty

/-- Whose rack request a piece of work of core c is. -/
def Work.ofCore (c : Nat) : Work → Bool
  | .core c' => c' == c
  | .coreStore c' => c' == c
  | .dma c' _ => c' == c
  | _ => false

/-- A request that has no way to its target yet keeps waiting. -/
def Chip.waitOn (s : Chip) (r : GnReq) : Chip := { s with gn := { s.gn with waiting := s.gn.waiting ++ [r] } }

/-- Requests whose owner is gone: those not sent yet are dropped, no WRITE_FLAGGED waits for them, and the tags they held go to
requests that wait for one (R154, R157); the responses of the others are discarded (R189). -/
def Chip.orphan (s : Chip) (p : Work → Bool) : Chip :=
  let f (r : GnReq) : GnReq := if p r.work then { r with work := .none, sink := .none } else r
  let gone := ((s.gn.granuleHeld ++ s.gn.flaggedHeld.map (·.req)).filter fun r => p r.work).map (·.tag)
  ({ s with gn := { s.gn with
      reqs := s.gn.reqs.map f
      waiting := s.gn.waiting.filter fun r => !(p r.work)
      granuleHeld := s.gn.granuleHeld.filter fun r => !(p r.work)
      flaggedHeld := (s.gn.flaggedHeld.filter fun h => !(p h.req.work)).map fun h =>
        { h with waitFor := h.waitFor.filter fun t => !(gone.contains t) } } } : Chip).gnGrant Chip.waitOn

/-- The waits of a core's units leave the waiter tables, and its refused arrivals are not sent again. -/
def Chip.dropCoreWaits (s : Chip) (c : Nat) : Chip :=
  let s := s.each [0, 1, 2, 3] fun s u => s.dropWaits (.core c u)
  { s with sync := { s.sync with resends := s.sync.resends.filter fun r => match r.src with
      | .core c' _ => c' != c
      | _ => true } }

/-- An update engine has ended its program (R399). -/
def Chip.engineEnded (s : Chip) (e : Nat) (st : Status) : Chip :=
  { s with cellar := { s.cellar with dies := Tab.modify CellarDie.reset s.cellar.dies (e / 4) fun d =>
      { d with layer := d.layer.map fun l =>
          if l.engines.contains e then
            { l with engines := l.engines.erase e, failed := if st = .ok then l.failed else addFail l.failed e st }
          else l } } }

/-- Registers, unit queues and instruction cache as a reset leaves them; core memory, accumulators and counters stay (R306). -/
def CoreSt.cleared (x : CoreSt) : CoreSt :=
  { CoreSt.reset with state := x.state, fallow := x.fallow, unitFallow := x.unitFallow, fault := x.fault, array := x.array,
                      drainOffline := x.drainOffline, issued := x.issued }

/-- The core ends: its kernel's command learns its status (R298, R301, R303). -/
def Chip.coreEnd (s : Chip) (c : Nat) : Chip :=
  let x := s.core c
  let st := match x.faulted with
    | some (_, st) => st
    | none => .ok
  let hw := match x.faulted with
    | some (.hw, _) => true
    | _ => false
  let s := (s.orphan (Work.ofCore c)).dropCoreWaits c
  let s := s.setCore c fun x =>
    let y := if x.state = .draining then x.cleared else x
    { y with state := if x.drainOffline then .offline else .idle, stall := none, kernel := none, ended := false,
             faulted := none, drainOffline := false, storesOut := 0, reservation := none }
  let s := if x.drainOffline && !hw && c < 256 then s.raise 0x0902 [.u16 c] else s
  match x.kernel with
  | none => s
  | some k =>
    if c < 256 then s.setQueue k.queue fun v => v.setEntry k.num fun e => e.pieceDone (c % 32) (c % 32) st
    else s.engineEnded (c - 256) st

/-- An ended core whose units have run out, and without a fault whose stores have landed too, ends (R298, R301). -/
def Chip.coreEndIf (s : Chip) (c : Nat) : Chip :=
  let x := s.core c
  if x.kernel.isSome && x.ended && x.unitsIdle && (x.faulted.isSome || x.storesOut == 0) then s.coreEnd c else s

/-- The command a kernel belongs to notes a core's failure: the cause of the first core to fail, and that core (R303). -/
def QEntry.noteFail (e : QEntry) (now local' : Nat) (cause : Cause) (fate : Bool) : QEntry :=
  let first := match e.failAt with
    | none => true
    | some (t, l) => t == now && local' < l && !fate
  if first then
    { e with failAt := some (now, local'), detail := BitVec.ofNat 24 (cause.code.toNat * 65536 + local' * 256) }
  else e

/-- A fault on one core (R301). `unit` and `sub` name the unit and its own cause (DEDUCED log 115). -/
def Chip.faultOne (s : Chip) (c : Nat) (cause : Cause) (st : Status) (addr : Word) (unit sub : Nat) (fate : Bool) : Chip :=
  let x := s.core c
  match x.kernel, x.faulted with
  | some k, none =>
    let rec' : FaultRecord :=
      { timestamp := s.timebase, addr := addr, pc := x.pc, index := k.num.setWidth 16, queue := BitVec.ofNat 14 k.queue,
        unit := BitVec.ofNat 2 unit, sub := BitVec.ofNat 8 sub, status := st.code, cause := cause.code }
    let hw := cause = .hw
    let s := s.setCore c fun x => { x with
      ended := true, faulted := some (cause, st), fault := rec', stall := none, arrayQ := [], vectorQ := [], dmaQ := []
      state := if x.state = .draining || hw then .draining else .ending
      drainOffline := x.drainOffline || hw }
    let s := s.dropCoreWaits c
    let s :=
      if c < 256 then
        let s := (s.bump (O.faults + 256 * c) 1).raiseLimited 0x4901 c [.u16 c, .u8 cause.code.toNat, .u64 x.pc.toNat]
        let s := s.setQueue k.queue fun v => v.setEntry k.num fun e => e.noteFail s.now (c % 32) cause fate
        if hw then
          ((s.bump (O.hwFaults + 256 * c) 1).setObj (O.coreAdmin + 256 * c) 0).raise 0x8901 [.u16 c, .u8 unit]
        else s
      else if hw then (s.setObj (O.engineAdmin + 256 * (c - 256)) 0).raise 0x8B03 [.u8 (c - 256)]
      else s
    s.coreEndIf c
  | _, _ => s

/-- The cores that still run a kernel, in ascending order. -/
def Chip.kernelCores (s : Chip) (q : Nat) (num : Word32) : List Nat :=
  (s.cores.filter fun e => match e.2.kernel with
    | some k => e.1 < 256 && k.queue == q && k.num == num
    | none => false).map (·.1)

/-- A fault: with FATE_SHARE the first one cancels the kernel on every other core that still runs it; cores that started
together reach their time limit together (R302). -/
def Chip.coreFault (s : Chip) (c : Nat) (cause : Cause) (st : Status) (addr : Word) (unit sub : Nat) : Chip :=
  match (s.core c).kernel, (s.core c).faulted with
  | some k, none =>
    let others := if k.fateShare && c < 256 then (s.kernelCores k.queue k.num).filter (· != c) else []
    let together := if cause = .time then others else []
    let s := s.each (if cause = .time then (c :: together).mergeSort (· ≤ ·) else [c]) fun s d =>
      s.faultOne d cause st addr unit sub false
    s.each (if cause = .time then [] else others) fun s d => s.faultOne d .cancel .cancelled 0 0 0 true
  | _, _ => s

/-- A fault whose core status is its cause's own (R300). -/
def Chip.fault (s : Chip) (c : Nat) (cause : Cause) (addr : Word) : Chip := s.coreFault c cause cause.status addr 0 0

/-- The kernel is cancelled at a drain deadline: unit work is abandoned without signalling and the core is reset (R306). -/
def Chip.coreCancel (s : Chip) (c : Nat) : Chip :=
  let s := s.setCore c fun x => { x with state := if x.kernel.isSome then .draining else x.state }
  let s := if (s.core c).faulted.isNone then s.faultOne c .cancel .cancelled 0 0 0 false else s
  let s := s.setCore c fun x => { x with arrayRun := [], vectorRun := [], dmaRun := [] }
  s.coreEndIf c

end Sys2Proof.Machine
end

