-- ==== Sys2Proof/Machine/Gn.lean ====
section
/-! DEFINITION. The source side of the general network: the window table, ports, order, tags and dead targets (R141–R160),
and the mirror of a source chip (R489). -/

namespace Sys2Proof.Machine

/-! ### The window table (R143–R145) -/

def Chip.windowEntry (s : Chip) (e : Nat) : WindowEntry := Tab.get WindowEntry.reset s.gn.window e

def wValid (e : BitVec 256) : Bool := e.getLsbD 255
def wRd (e : BitVec 256) : Bool := e.getLsbD 254
def wWr (e : BitVec 256) : Bool := e.getLsbD 253
def wAt (e : BitVec 256) : Bool := e.getLsbD 252
def wPin (e : BitVec 256) : Option Nat := if bitsOf e.toNat 251 250 = 1 then some (bitsOf e.toNat 249 245) else none
def wHint (e : BitVec 256) : Hint := BitVec.ofNat 2 (bitsOf e.toNat 244 243)
def wBulk (e : BitVec 256) : Bool := bitsOf e.toNat 242 240 = 1
def wTarget (e : BitVec 256) : Nat := bitsOf e.toNat 235 216
def wTgtBase (e : BitVec 256) : Nat := bitsOf e.toNat 215 172 / 4096 * 4096
def wBase (e : BitVec 256) : Nat := bitsOf e.toNat 171 124 / 4096 * 4096
def wLimit (e : BitVec 256) : Nat := bitsOf e.toNat 123 76 / 4096 * 4096 + 4095

/-- The RW bits of an entry, and the low LIMIT bits that are held at ones. -/
def windowKept (e : BitVec 256) : BitVec 256 :=
  let held := (2 ^ 12 - 1) * 2 ^ 172 + (2 ^ 12 - 1) * 2 ^ 124 + 15 * 2 ^ 236 + (2 ^ 76 - 1)
  (e &&& ~~~(BitVec.ofNat 256 held)) ||| BitVec.ofNat 256 ((2 ^ 12 - 1) * 2 ^ 76)

/-- What a read of an entry shows: bytes 0–23 as last written, bytes 24–31 in use. -/
def WindowEntry.shown (e : WindowEntry) : BitVec 256 :=
  windowKept (BitVec.ofNat 256 (bitsOf e.live.toNat 255 192 * 2 ^ 192 + e.staged.toNat))

/-- An aligned write of bytes 24–31: the entry as written is taken into use (R145). -/
def Chip.windowCommit (s : Chip) (e : Nat) (w : Word) : Chip :=
  { s with gn := { s.gn with window := Tab.modify WindowEntry.reset s.gn.window e fun x =>
      { x with live := windowKept (BitVec.ofNat 256 (w.toNat * 2 ^ 192 + x.staged.toNat)) } } }

/-- A write of 4 or 8 aligned bytes within bytes 0–23. -/
def Chip.windowStage (s : Chip) (e off n v : Nat) : Chip :=
  { s with gn := { s.gn with window := Tab.modify WindowEntry.reset s.gn.window e fun x =>
      { x with staged := (windowKept (BitVec.ofNat 256 (setBits x.staged.toNat (8 * (off + n) - 1) (8 * off) v))).setWidth 192 } } }

/-- The lowest entry in use that holds a rack address (R144). -/
def Chip.windowOf (s : Chip) (a : Nat) : Option (BitVec 256) :=
  (s.gn.window.find? fun e => wValid e.2.live && wBase e.2.live ≤ a && a ≤ wLimit e.2.live).map (·.2.live)

/-- The right that an access needs. -/
inductive Right where
  | rd | wr | at
  deriving DecidableEq, Repr

def Right.allowed (r : Right) (e : BitVec 256) : Bool :=
  match r with
  | .rd => wRd e
  | .wr => wWr e
  | .at => wAt e

/-- The window of an access and its target offset; none where it is refused (R141, R144). -/
def Chip.translate (s : Chip) (a : Nat) (r : Right) : Option (BitVec 256 × Nat) :=
  match s.windowOf a with
  | none => none
  | some e =>
    let off := wTgtBase e + (a - wBase e)
    let node := wTarget e
    if !r.allowed e || off ≥ 2 ^ 44 then none
    else if node < 0x10000 && !(s.gn.members.contains node) then none
    else some (e, off)

/-- A window miss is counted and reported (R144). -/
def Chip.windowMiss (s : Chip) : Chip := (s.bump O.windowMisses 1).raiseLimited 0x4401 0 []

/-- The bytes from a rack address on that one packet can carry: within its window, its 4,096-byte block of the target and
`len` bytes (R133, R144). -/
def Chip.rackRun (s : Chip) (a len : Nat) (r : Right) : Nat :=
  match s.translate a r with
  | some (e, off) => min len (min (wLimit e + 1 - a) (4096 - off % 4096))
  | none => min len (4096 - a % 4096)

/-! ### Completion status (R160) -/

/-- The completion status of a response's STATUS. -/
def gnStatus (st : BitVec 4) : Status :=
  if st = 0 then .ok else if st = 1 then .poisoned else if st = 3 then .noResource else if st = 5 then .timeout
  else if st = 6 then .unreachable else .refused

/-! ### The mirror's effects (R489) -/

/-- The source mirrors: it has passed its start marker. -/
def Chip.mirroring (s : Chip) : Bool := s.service.state == .source && s.service.pairActive

/-- An effect that lands from outside the chip is queued for the mirror (DEDUCED log 116). -/
def Chip.noteMirror (s : Chip) (e : MirrorEffect) : Chip :=
  if s.mirroring then { s with service := { s.service with mirrorQueue := s.service.mirrorQueue ++ [e] } } else s

/-- A shadow sends no write, atomic or flag (R490); one that is quarantined stays silent while it drains. -/
def Chip.isShadow (s : Chip) : Bool :=
  s.service.state == .shadowing || s.service.state == .verified ||
  (s.service.state == .draining && s.service.quarantining && s.service.pair.isSome)

/-! ### The answers to a request -/

/-- Register r of a core becomes v; x0 stays zero. -/
def CoreSt.setX (x : CoreSt) (r : Nat) (v : Word) : CoreSt := if r = 0 then x else { x with x := Tab.set 0 x.x r v }
def CoreSt.setF (x : CoreSt) (r : Nat) (v : Word) : CoreSt := { x with f := Tab.set 0 x.f r v }

/-- The instruction at the pc retires: the next one is n bytes on. -/
def CoreSt.retire (x : CoreSt) (n : Nat) : CoreSt :=
  { x with pc := x.pc + BitVec.ofNat 64 n, instret := x.instret + 1, cycle := x.cycle + 1, stall := none }

/-- A loaded value as its register takes it: sign- or zero-extended, or NaN-boxed. -/
def loadValue (bytes : Nat) (signed' fp : Bool) (v : Nat) : Word :=
  if fp then (if bytes = 4 then BitVec.ofNat 64 (0xFFFFFFFF00000000 + v % 2 ^ 32) else BitVec.ofNat 64 v)
  else if signed' then BitVec.ofNat 64 (toTwos 64 (signed (8 * bytes) v))
  else BitVec.ofNat 64 (v % 2 ^ (8 * bytes))

/-- Bytes with a mark per 64-byte line of a packet are written to memory; the mirror gets them too. -/
def Chip.landBytes (s : Chip) (site : Nat) (a : Nat) (bs : List Byte) (marks : List Bool) (hint : Hint) : Chip :=
  let s := (List.range ((bs.length + 63) / 64)).foldl (fun s i =>
    s.writeFrom site (a + 64 * i) ((bs.drop (64 * i)).take 64) (nth false marks i) hint) s
  s.noteMirror (.write a bs)

/-- The core form of a rack address (R142). -/
def rackForm (a : Nat) : Word := BitVec.ofNat 64 (2 ^ 56 + a)

/-- A request is complete: its requester takes the status, and the data with a mark per line; `old` is the value an
atomic returns. Data that no message carries from the port's site to their home are lost, and time out (R33, R41). -/
def Chip.gnFinish (s : Chip) (r : GnReq) (st : Status) (data : List Byte) (marks : List Bool) (old : Word) : Chip :=
  let poison := marks.any id
  let s := if poison || st == .poisoned then s.bump O.poisonReturns 1 else s
  let lost := match r.sink with
    | .mem a _ => s.rangeWithdrawn a data.length
    | _ => false
  let cut := match r.sink with
    | .mem a _ => (pieces a data.length).any fun p => s.cutOff (portSite r.port) p.1
    | _ => false
  let st := if st = .ok && lost then Status.mappedOut else if st = .ok && cut then .timeout else st
  let s := match r.sink with
    | .mem a hint => if r.work = .none || lost then s else s.landBytes (portSite r.port) a data marks hint
    | _ => s
  match r.work with
  | .cmd q num k l => s.setQueue q fun v => v.setEntry num fun e =>
      e.pieceDone k l (if st = .ok && poison then .poisoned else st)
  | .core c =>
    match r.sink with
    | .reg _ rd n sg fp len =>
      let v := loadValue n sg fp (if r.pkt.ptype = 5 then old.toNat else leNat data)
      if r.pkt.ptype = 0 then
        if poison || st != .ok then s.fault c .poison (rackForm r.rack)
        else s.setCore c fun x => if x.stall = some .rack then (if fp then x.setF rd v else x.setX rd v).retire len else x
      else if st != .ok then s.coreFault c .remote st (rackForm r.rack) 0 0
      else s.setCore c fun x => if x.stall = some .rack then (if fp then x.setF rd v else x.setX rd v).retire len else x
    | _ => s
  | .coreStore c =>
    let s := s.setCore c fun x => { x with storesOut := x.storesOut - 1 }
    if st != .ok then s.coreFault c .remote st (rackForm r.rack) 0 0 else s.coreEndIf c
  | .dma c id => s.setCore c fun x => { x with dmaRun := x.dmaRun.map fun u =>
      if u.id = id then
        let bad := if st != .ok then some st else if poison then some .poisoned else none
        { u with outstanding := u.outstanding - 1,
                 fault := match u.fault, bad with
                   | none, some b => some (0, b)
                   | f, _ => f,
                 faultAddr := if u.fault.isNone && bad.isSome then rackForm r.rack else u.faultAddr }
      else u }
  | .mirror => { s with service := { s.service with
      mirrorOut := s.service.mirrorOut.filter fun m => m.1 != r.tag } }
  | _ => s

/-- A request is settled: WRITE_FLAGGEDs that wait for it note it, and its requester takes the answer (R155). -/
def Chip.gnSettle (s : Chip) (r : GnReq) (st : Status) (data : List Byte) (marks : List Bool) (old : Word) : Chip :=
  let holds := s.gn.flaggedHeld.map fun h =>
    if h.waitFor.contains r.tag then
      { h with waitFor := h.waitFor.erase r.tag,
               failed := if h.failed.isNone && st != .ok then some st else h.failed }
    else h
  let s := { s with gn := { s.gn with flaggedHeld := holds } }
  s.gnFinish r st data marks old

/-- A request ends without data: a READ returns all ones marked poisoned, an atomic all ones (R158–R160). -/
def Chip.gnFail (s : Chip) (r : GnReq) (st : Status) : Chip :=
  let n := if r.pkt.ptype = 0 then r.pkt.len.toNat else 0
  s.gnSettle r st (List.replicate n 0xFF) (List.replicate ((n + 63) / 64) true) (BitVec.allOnes 64)

/-! ### Sending (R149–R154, R157) -/

/-- A request with no way to its target completes UNREACHABLE (R150). -/
def Chip.gnLost (s : Chip) (r : GnReq) : Chip := s.gnFail r .unreachable

def Chip.gnSend (s : Chip) (r : GnReq) : Chip := s.gnSendOr Chip.gnLost r
def Chip.gnIssue (s : Chip) (r : GnReq) : Chip := s.gnTag Chip.gnLost r
def Chip.gnFeed (s : Chip) : Chip := s.gnGrant Chip.gnLost

/-- A new request. A shadow does not send writes: they complete OK, an atomic with a free old value (R490, DEDUCED log 27);
only its adds to COUNTER go out. -/
def Chip.gnSubmit (s : Chip) (r : GnReq) : Chip :=
  let node := r.pkt.dest.toNat
  if s.isShadow && writes r && r.work != .mirror then (s.gnSettle r .ok [] [] (Config.freeWord s.freeCtr)).drew
  else if s.noWay node then s.gnFail r .unreachable
  else if (s.gn.waiting.any fun w => w.pkt.dest.toNat == node) || !s.canTag node then
    { s with gn := { s.gn with waiting := s.gn.waiting ++ [r] } }
  else s.gnIssue r

/-- A request's packet: type, target, data (R132, R137). -/
def gnRequest (node : Nat) (ptype : BitVec 4) (dest off : Nat) (bulk : Bool) (hint : Hint) (len : Nat)
    (payload : List Byte) (marks : List Bool) : GnPacket :=
  { gnBlank with
    ptype := ptype
    vc := if dest ≥ 0x10000 then 6 else if ptype = 3 ∨ ptype = 5 then 1 else if bulk then 4 else 2
    poison := marks.any id
    hint := hint, dest := BitVec.ofNat 20 dest, src := BitVec.ofNat 20 node
    len := BitVec.ofNat 13 len, addr := BitVec.ofNat 44 off, payload := payload, poisonMap := poisonMapOf marks }

/-- A READ of at most one packet through the window table. -/
def Chip.rackRead (s : Chip) (a len : Nat) (hint : Hint) (work : Work) (sink : Sink) : Option Chip :=
  (s.translate a .rd).map fun (e, off) =>
    s.gnSubmit ⟨0, gnRequest s.gnNode 0 (wTarget e) off (wBulk e) (if hint = 0 then wHint e else hint) len [] [], a, 0,
                wPin e, work, sink⟩

/-- A WRITE, or a WRITE_FLAGGED, of at most one packet through the window table. -/
def Chip.rackWrite (s : Chip) (a : Nat) (bs : List Byte) (marks : List Bool) (flagged : Bool) (hint : Hint) (work : Work) :
    Option Chip :=
  (s.translate a .wr).map fun (e, off) =>
    s.gnSubmit ⟨0, gnRequest s.gnNode (if flagged then 3 else 2) (wTarget e) off (wBulk e)
                  (if hint = 0 then wHint e else hint) bs.length bs marks, a, 0, wPin e, work, .none⟩

/-- An ATOMIC through the window table (R278). -/
def Chip.rackAtomic (s : Chip) (a : Nat) (aop : BitVec 4) (dbl : Bool) (operand : Word) (hint : Hint) (work : Work)
    (sink : Sink) : Option Chip :=
  (s.translate a .at).map fun (e, off) =>
    let p := gnRequest s.gnNode 5 (wTarget e) off (wBulk e) (if hint = 0 then wHint e else hint) 0 [] []
    s.gnSubmit ⟨0, { p with aop := aop, size := dbl, opA := operand }, a, 0, wPin e, work, sink⟩

/-! ### The mirror (R489) -/

/-- A mirrored effect as requests to the peer, without the window table; writes stay within 4,096 bytes. -/
def Chip.mirrorSend (s : Chip) (peer : Nat) : MirrorEffect → Chip
  | .write a bs =>
    s.each (linePieces (bs.length / 64 + 2) a bs.length) fun s p =>
      let b := (bs.drop (p.1 - a)).take p.2
      s.gnSubmit ⟨0, gnRequest s.gnNode 2 peer p.1 false 0 b.length b [], p.1, 0, none, .mirror, .none⟩
  | .atomic a aop size v w =>
    s.gnSubmit ⟨0, { gnRequest s.gnNode 5 peer a false 0 0 [] [] with aop := aop, size := size, opA := v, opB := w }, a, 0, none,
                .mirror, .none⟩
  | .record r => { s with service := { s.service with mirrorRecords := s.service.mirrorRecords ++ [r] } }

/-- A counter add waits for the acknowledgement of every mirrored write before it, and so does a record. -/
def MirrorEffect.isAdd : MirrorEffect → Bool
  | .atomic a _ _ _ _ => a ≥ 0xF0000000000
  | .write _ _ => false
  | .record _ => true

/-- Bytes of mirrored traffic without an acknowledgement. -/
def Chip.mirrorLag (s : Chip) : Nat :=
  s.service.mirrorOut.foldl (fun n m => n + m.2) 0 + s.service.mirrorQueue.foldl (fun n e => n + match e with
    | .write _ bs => bs.length
    | _ => 0) 0

def Chip.mirrorFuel (peer : Nat) : Nat → Chip → Chip
  | 0, s => s
  | fuel + 1, s =>
    match s.service.mirrorQueue with
    | [] => s
    | e :: rest =>
      if e.isAdd && !s.service.mirrorOut.isEmpty then s
      else Chip.mirrorFuel peer fuel (({ s with service := { s.service with mirrorQueue := rest } } : Chip).mirrorSend peer e)

/-- The backlog's episode: above 64 MiB the source holds TN input and GN responses, until it falls below 32 MiB. The event
names the backlog as MIRROR_LAG holds it, in KiB (R515, DEDUCED log 22). -/
def Chip.mirrorEpisode (s : Chip) : Chip :=
  let lag := s.mirrorLag
  if !s.service.lagEpisode && lag > 64 * 2 ^ 20 then
    ({ s with service := { s.service with lagEpisode := true } } : Chip).raise 0x4E03 [.u32 ((lag + 1023) / 1024)]
  else if s.service.lagEpisode && lag < 32 * 2 ^ 20 then
    let s : Chip := { s with service := { s.service with lagEpisode := false } }
    s.each s.gn.usable fun s p => s.gnPump p
  else s

/-- Queued effects go out, in order (DEDUCED log 126). -/
def Chip.mirrorPump (s : Chip) : Chip :=
  match s.service.pair with
  | some pr => (Chip.mirrorFuel pr.peer.toNat s.service.mirrorQueue.length s).mirrorEpisode
  | none => s

/-! ### Ports that fail (R140, R149, R153) -/

/-- Requests held for a moved granule go out once none for it is outstanding on an old port (R153). -/
def Chip.granuleRelease (s : Chip) (g : Nat) : Chip :=
  let mine := s.gn.granuleHeld.filter fun r => r.rack / 4096 == g
  let busy (r : GnReq) := s.gn.reqs.any fun o => sameGranule o r && some o.port != s.reqPort r
  let go := mine.filter fun r => !(busy r)
  let s : Chip := { s with gn := { s.gn with granuleHeld := s.gn.granuleHeld.filter fun r => !(go.contains r) } }
  s.each go fun s r => s.gnSend r

/-- Packets of a port that never started go to the port the map now gives, each request ahead of later ones held for its granule
(R152); with no usable port it completes UNREACHABLE. -/
def Chip.gnReroute (s : Chip) (port : Nat) : Chip :=
  let mine := s.gn.outq.filter (·.port == port)
  let unsent := (mine.filter (gnIsRequest ·.pkt)).filterMap fun o =>
    s.gn.reqs.find? fun r => r.tag == o.pkt.tag && r.port == port
  let answers := mine.filter fun o => !(gnIsRequest o.pkt) && o.pkt.ptype != 7
  let s : Chip := { s with gn := { s.gn with
      outq := s.gn.outq.filter (·.port != port)
      reqs := s.gn.reqs.filter fun r => !(unsent.contains r) } }
  let s := if s.gn.usable.isEmpty then s.each unsent Chip.gnLost
    else
      let s : Chip := { s with gn := { s.gn with granuleHeld := unsent ++ s.gn.granuleHeld } }
      s.each (unsent.map fun r => r.rack / 4096).eraseDups Chip.granuleRelease
  (s.each answers fun s o => s.gnRespond o.pkt).gnFeed

/-- A GN port leaves the lit states: credits fall to zero, what its link had not acknowledged is returned, and the map is
rebuilt (R138, R140, R149). -/
def Chip.gnPortDown (s : Chip) (port : Nat) : Chip :=
  let mine := (s.gn.unacked.filter fun u => u.1 == port).map fun u => (port, u.2.2)
  let s : Chip := { s with gn := { s.gn with
      credits := Tab.set GnCredits.none s.gn.credits port GnCredits.none
      unacked := s.gn.unacked.filter fun u => u.1 != port
      returned := s.gn.returned ++ mine } }
  (s.rebuildPortMap port).gnReroute port

/-- The grants of an input buffer (R138). -/
def gnGrants : List Nat := [128, 512, 3072, 3072, 512, 512, 256, 128]

/-- A GN port enters a usable state: it grants its input buffer with a CREDIT packet, which needs no credit, and the map
is rebuilt (R138, R149) (DEDUCED log 60). -/
def Chip.gnPortUp (s : Chip) (port : Nat) : Chip :=
  let word (l : List Nat) : Word := BitVec.ofNat 64 (l.foldl (fun n g => n * 65536 + g) 0)
  let p := gnSeal { gnBlank with ptype := 7, src := BitVec.ofNat 20 s.gnNode, dest := 0xFFFFF, tag := 0xFFFF,
                                 opA := word (gnGrants.take 4), opB := word (gnGrants.drop 4) }
  let s := s.enqueue port (gnSlotsOf p)
  (s.emit (.packet port p)).rebuildPortMap port

/-- Packets whose link has acknowledged every slot are gone (R60). -/
def Chip.gnAcked (s : Chip) (port : Nat) : Chip :=
  let n := (s.port port).slotsAcked
  { s with gn := { s.gn with unacked := s.gn.unacked.filter fun u => u.1 != port || u.2.1 > n } }

/-! ### The commands of the source -/

/-- WINDOW_ENTRY_COMMIT (R145). -/
def execWindowEntryCommit (entry : Fin 1024) (word : Word) (s : State) : Host.Outcome State Fault Refusal :=
  s.act fun c => c.windowCommit entry.val word

/-- Slots that arrive return their credits later, and a header's credits count at once (R138). -/
def Chip.gnTake (s : Chip) (port : Nat) (p : GnPacket) : Chip :=
  let s := s.setGnCredits port fun c =>
    { c with owed := setAt c.owed p.vc.toNat (nth 0 c.owed p.vc.toNat + gnSlots p) }
  if p.ptype = 7 then s
  else (s.setGnCredits port fun c =>
    { c with tx := setAt c.tx p.crVc.toNat (nth 0 c.tx p.crVc.toNat + p.crCount.toNat) }).gnPump port

/-- A packet discarded for its HCRC or its type (R136). -/
def Chip.gnBad (s : Chip) : Chip := (s.bump O.badPackets 1).raiseLimited 0x4403 0 []

/-- A packet on a port whose role is GN and that carries traffic; before GN_NODE is set only CREDIT is accepted (R129). -/
def Chip.gnAccepts (s : Chip) (port : Nat) (p : GnPacket) : Bool :=
  s.obju O.portRole port == 2 && ((s.port port).state.carries || (s.port port).state == .draining) && (s.gnNode != 0xFFFFF || p.ptype == 7)

/-- A packet that passes its HCRC and has one of the row's types does f; another one is discarded. -/
def Chip.gnArrival (s : Chip) (port : Nat) (p : GnPacket) (types : List (BitVec 4)) (f : Chip → Chip) : Chip :=
  s.when (s.gnAccepts port p) fun s =>
    if p.hcrc != gnHcrc p then s.gnBad
    else if types.contains p.ptype then f (s.gnTake port p)
    else if p.ptype ≥ 8 then s.gnBad
    else s

/-- The target is Dead: the event is raised once (R158). -/
def Chip.markDead (s : Chip) (node : Nat) (tag : Half) : Chip :=
  if s.gn.dead.contains node then s
  else ({ s with gn := { s.gn with dead := s.gn.dead ++ [node] } } : Chip).raise 0x8401 [.u32 node, .u16 tag.toNat]

/-- A response completes its tag (R160). A READ_RESP whose DCRC fails counts as poisoned (R136). -/
def Chip.gnResponse (s : Chip) (p : GnPacket) : Chip :=
  match s.gn.reqs.find? (fun r => r.tag == p.tag && r.pkt.dest == p.src) with
  | none => s
  | some r =>
    let s : Chip := { s with gn := { s.gn with reqs := s.gn.reqs.erase r } }
    let fits := (r.pkt.ptype = 0 && p.ptype = 1) || (r.pkt.ptype = 5 && p.ptype = 6) ||
      ((r.pkt.ptype = 2 || r.pkt.ptype = 3) && p.ptype = 4)
    let s := if p.status ≥ 7 then s.gnBad else s
    let st := if fits then gnStatus p.status else .refused
    let s :=
      if st = .ok || st = .poisoned then
        let n := (p.payload.length + 63) / 64
        let badCrc := gnCarriesData p && p.dcrc != gnDcrc p
        let marks := (List.range n).map fun i => st == .poisoned || badCrc || p.poison && p.poisonMap == 0 || gnLinePoison p i
        s.gnSettle r (if badCrc then .poisoned else st) p.payload marks p.opA
      else s.gnFail r st
    let s := if st = .unreachable then s.markDead p.src.toNat p.tag else s
    (s.gnFeed).mirrorPump

def execGnResponse (port : Fin 160) (packet : GnPacket) (s : State) : Host.Outcome State Fault Refusal :=
  s.act fun c => c.gnArrival port.val packet [1, 4, 6] fun c => c.gnResponse packet

/-- A CREDIT packet: TAG 0xFFFF sets every VC's credits, another adds to them (R138). -/
def Chip.gnCreditPacket (s : Chip) (port : Nat) (p : GnPacket) : Chip :=
  let grants := (List.range 8).map fun v =>
    if v < 4 then bitsOf p.opA.toNat (63 - 16 * v) (48 - 16 * v) else bitsOf p.opB.toNat (127 - 16 * v) (112 - 16 * v)
  let s := s.setGnCredits port fun c =>
    if p.tag = 0xFFFF then { c with tx := grants }
    else { c with tx := setAt c.tx p.crVc.toNat (nth 0 c.tx p.crVc.toNat + p.crCount.toNat) }
  s.gnPump port

def execGnCredit (port : Fin 160) (packet : GnPacket) (s : State) : Host.Outcome State Fault Refusal :=
  s.act fun c => c.gnArrival port.val packet [7] fun c => c.gnCreditPacket port.val packet

/-- A packet whose HCRC fails or whose PTYPE is reserved is discarded (R136). -/
def execGnBadPacket (port : Fin 160) (packet : GnPacket) (s : State) : Host.Outcome State Fault Refusal :=
  s.act fun c => c.when (c.gnAccepts port.val packet && (packet.hcrc != gnHcrc packet || packet.ptype ≥ 8)) Chip.gnBad

/-- 64 or more slots of a VC are unreturned and no header left in 100 ns: a CREDIT packet returns them (R138). -/
def Chip.creditReturn (s : Chip) (port v : Nat) : Chip :=
  let owed := nth 0 (s.gnCredits port).owed v
  s.when ((s.port port).state.carries && owed ≥ 64) fun s =>
    let n := min owed 8191
    let s := s.setGnCredits port fun c => { c with owed := setAt c.owed v (owed - n) }
    s.gnQueue port { gnBlank with ptype := 7, src := BitVec.ofNat 20 s.gnNode, dest := 0xFFFFF, crVc := BitVec.ofNat 3 v,
                                  crCount := BitVec.ofNat 13 n }

def execCreditReturnTimer (port : Fin 160) (vc : Fin 8) (s : State) : Host.Outcome State Fault Refusal :=
  s.act fun c => c.creditReturn port.val vc.val

/-- The bulk packet that has been at an output longest has waited 1 ms: it is served with VC2 and VC6 from now on (R139)
(DEDUCED log 163). -/
def Chip.bulkAge (s : Chip) (port : Nat) : Chip :=
  match s.gn.outq.findIdx? fun o => o.port == port && !o.aged && (o.pkt.vc == 4 || o.pkt.vc == 5) with
  | some i => ({ s with gn := { s.gn with outq := s.gn.outq.modify i fun o => { o with aged := true } } } : Chip).gnPump port
  | none => s

def execBulkAging (port : Fin 160) (s : State) : Host.Outcome State Fault Refusal := s.act fun c => c.bulkAge port.val

/-- Packets that R62 or R86 returned: READs go out again, writes and atomics complete TIMEOUT (R140). -/
def Chip.packetsReturned (s : Chip) (port : Nat) : Chip :=
  let mine := s.gn.returned.filter fun r => r.1 == port
  s.when (!mine.isEmpty) fun s =>
    let s : Chip := { s with gn := { s.gn with returned := s.gn.returned.filter fun r => r.1 != port } }
    let before := s.usableGn == s.gn.usable
    let s := s.rebuildPortMap port
    let s := if before then s.raise 0x4402 [.u8 port, .u32 s.gn.usable.length] else s
    let s := s.each mine fun s m =>
      match s.gn.reqs.find? (fun r => r.tag == m.2.tag && r.port == port && gnIsRequest m.2) with
      | none => s
      | some r =>
        if r.pkt.ptype = 0 then
          match s.reqPort r with
          | none => s
          | some p =>
            let s : Chip := { s with gn := { s.gn with reqs := s.gn.reqs.map fun o => if o = r then { r with port := p } else o } }
            (s.bump O.readsResent 1).gnQueue p r.pkt
        else
          let s : Chip := { s with gn := { s.gn with reqs := s.gn.reqs.erase r } }
          (s.raise 0x8402 [.u8 port, .u16 r.tag.toNat]).gnFail r .timeout
    s.gnFeed

def execGnPacketsReturned (port : Fin 160) (s : State) : Host.Outcome State Fault Refusal :=
  s.act fun c => c.packetsReturned port.val

def execGranuleHoldRelease (granule : Nat) (s : State) : Host.Outcome State Fault Refusal :=
  s.act fun c => c.granuleRelease granule

/-- A held WRITE_FLAGGED whose earlier operations have all their responses is sent, or fails with the first failure among
them, UNREACHABLE if the target is Dead (R154, R155). -/
def Chip.flaggedRelease (s : Chip) (tag : Half) : Chip :=
  match s.gn.flaggedHeld.find? (fun h => h.req.tag == tag && h.waitFor.isEmpty) with
  | none => s
  | some h =>
    let s : Chip := { s with gn := { s.gn with flaggedHeld := s.gn.flaggedHeld.erase h } }
    let s :=
      if s.gn.dead.contains h.req.pkt.dest.toNat then s.gnFail h.req .unreachable
      else match h.failed with
        | some st => s.gnFail h.req st
        | none => s.gnSend h.req
    s.gnFeed

def execWriteFlaggedRelease (tag : Half) (s : State) : Host.Outcome State Fault Refusal :=
  s.act fun c => c.flaggedRelease tag

/-- An operation without a response for DEAD_TIME: TIMEOUT, and its target is Dead; the time of one that still waits for credits
does not run (R158). -/
def Chip.deadTime (s : Chip) (tag : Half) : Chip :=
  match s.gn.reqs.find? (fun r => r.tag == tag) with
  | none => s
  | some r =>
    if s.gn.outq.any fun o => o.port == r.port && gnIsRequest o.pkt && o.pkt.tag == tag then s
    else
    let s : Chip := { s with gn := { s.gn with reqs := s.gn.reqs.erase r } }
    ((s.markDead r.pkt.dest.toNat tag).gnFail r .timeout).gnFeed.mirrorPump

def execDeadTimeExpiry (tag : Half) (s : State) : Host.Outcome State Fault Refusal := s.act fun c => c.deadTime tag

/-- TARGET_RELEASE: the node is no longer Dead, and every operation on its tags completes UNREACHABLE (R159). -/
def Chip.targetRelease (s : Chip) (node : Nat) : Chip :=
  let mine := s.tagged.filter fun r => r.pkt.dest.toNat == node
  let s : Chip := { s with gn := { s.gn with
      dead := s.gn.dead.filter (· != node)
      reqs := s.gn.reqs.filter fun r => r.pkt.dest.toNat != node
      granuleHeld := s.gn.granuleHeld.filter fun r => r.pkt.dest.toNat != node
      flaggedHeld := s.gn.flaggedHeld.filter fun h => h.req.pkt.dest.toNat != node } }
  let s := s.each mine fun s r => s.gnFail r .unreachable
  ((s.raise 0x0401 [.u32 node]).gnFeed).mirrorPump

def execTargetRelease (node : Word32) (s : State) : Host.Outcome State Fault Refusal :=
  s.act fun c => c.targetRelease node.toNat

end Sys2Proof.Machine
end

