-- ==== Sys2Proof/Machine/Tn.lean ====
section
/-! DEFINITION. The tensor network's router and the source side of its streams (R89–R102, R107–R116, R124–R126). -/

namespace Sys2Proof.Machine

/-! ### Chip numbers (R89, R91) -/

def chipX (n : Nat) : Nat := n % 64
def chipY (n : Nat) : Nat := n / 64 % 64
def chipDomain (n : Nat) : Nat := n / 4096

/-- A chip of this chip's domain, within DOMAIN_X and DOMAIN_Y (R93). -/
def Chip.inDomain (s : Chip) (n : Nat) : Bool :=
  chipDomain n == chipDomain s.chipNumber && chipX n < s.obj O.domainX && chipY n < s.obj O.domainY

/-- Hops between two chips of one domain. -/
def chipDistance (a b : Nat) : Nat := (chipX a != chipX b).toNat + (chipY a != chipY b).toNat

/-- A direct peer: another chip of the same row or column. -/
def directPeer (a b : Nat) : Bool := chipDomain a == chipDomain b && chipDistance a b == 1

/-! ### Cells (R94) -/

/-- The slot of a cell. -/
def cellBits (c : Cell) : BitVec 512 :=
  c.type ++ c.flags ++ c.dest ++ c.src ++ c.age ++ c.defl ++ c.stream ++ c.seq ++ c.len ++ c.offset ++ c.payload

/-- The cell of a slot. -/
def cellOfBits (b : BitVec 512) : Cell :=
  { type := b.extractLsb' 508 4, flags := b.extractLsb' 504 4, dest := b.extractLsb' 488 16, src := b.extractLsb' 472 16,
    age := b.extractLsb' 466 6, defl := b.extractLsb' 462 4, stream := b.extractLsb' 448 14, seq := b.extractLsb' 432 16,
    len := b.extractLsb' 426 6, offset := b.extractLsb' 384 42, payload := b.extractLsb' 0 384 }

def cellBlank : Cell :=
  { type := 0, flags := 0, dest := 0, src := 0, age := 0, defl := 0, stream := 0, seq := 0, len := 0, offset := 0, payload := 0 }

/-- Types that carry a SEQ (R95). -/
def cellSequenced (c : Cell) : Bool :=
  c.type == 0 || c.type == 1 || c.type == 2 || c.type == 5 || c.type == 6 || c.type == 7 || c.type == 8

/-- AGE of a cell injected now (R94). -/
def Chip.ageNow (s : Chip) : BitVec 6 := BitVec.ofNat 6 (bitsOf s.timebase.toNat 15 10)

/-- The age of a cell, in 1.024 µs units (R100). -/
def Chip.cellAge (s : Chip) (c : Cell) : Nat := (s.ageNow - c.age).toNat

/-- Bytes of payload as a payload field: byte i at bits [383 − 8i : 376 − 8i] (R94). -/
def payloadOf (bs : List Byte) : BitVec 384 := BitVec.ofNat 384 (beNat (fit 48 bs))
def cellBytes (c : Cell) : List Byte := (beBytes 48 c.payload.toNat).take c.len.toNat
/-- Bits [hi:lo] of a payload. -/
def payloadField (c : Cell) (hi lo : Nat) : Nat := bitsOf c.payload.toNat hi lo

/-! ### Ports of the router (R91, R92) -/

/-- The chip a port reaches, once its probe word named one (R87). -/
def Port.peerChip (p : Port) : Option Nat :=
  if p.peerIdent = 0xFFFFFFFF ∨ !p.peerIdent.getLsbD 0 then none else some (p.peerIdent.toNat / 65536)

/-- A chip that a TN port of this one may reach (R91). -/
def Chip.cabledTo (s : Chip) (n : Nat) : Bool := directPeer s.chipNumber n && s.inDomain n

/-- The TN ports of an assigned chip, in ascending order, that are Active, Degraded or Sparing and reach a chip of its row or
column, with the chips they reach (R89, R91, R92). -/
def Chip.tnPorts (s : Chip) : List (Nat × Nat) :=
  if s.objb O.chipAssigned then
    ((s.ports.filter fun e => s.obju O.portRole e.1 == 1 && e.2.up).filterMap fun e => (e.2.peerChip).map (e.1, ·)).filter
      fun e => s.cabledTo e.2
  else []

/-- What the port itself needs to be usable for routing: a fresh link-control slot that shows the peer ready (R92). -/
def Chip.portFresh (s : Chip) (p : Nat) : Bool := (s.port p).peerReady && !(Tab.get false s.tn.stale p)

/-- Usable for routing (R91, R92). -/
def Chip.tnUsable (s : Chip) : List (Nat × Nat) :=
  if s.tnReady then s.tnPorts.filter fun e => s.portFresh e.1 else []

/-! ### The router (R99–R101) -/

/-- Priority: whether a ranks above b (R100). -/
def Chip.outranks (s : Chip) (a b : Cell) : Bool :=
  let key (c : Cell) : List Nat :=
    [(c.defl != 15).toNat, 63 - s.cellAge c, 15 - c.defl.toNat, c.src.toNat, c.stream.toNat, c.seq.toNat]
  decide (key a ≤ key b)

/-- The least recently used of some ports, the lowest of equals. -/
def Chip.lruPort (s : Chip) (l : List Nat) : Option Nat :=
  maxBy (fun p => -((Tab.get 0 s.tn.portUse p : Nat) : Int)) l

/-- A cell leaves on a port. -/
def Chip.placeCell (s : Chip) (p : Nat) (c : Cell) : Chip :=
  let s := s.enqueue p [cellBits c]
  { s with tn := { s.tn with portUse := Tab.set 0 s.tn.portUse p (s.tn.portClock + 1), portClock := s.tn.portClock + 1 } }

/-- The NACK UNREACHABLE that a router makes of a cell (R125). -/
def Chip.unreachableNack (s : Chip) (c : Cell) : Cell :=
  { cellBlank with type := 4, dest := c.src, src := c.dest, age := s.ageNow, stream := c.stream, seq := c.seq,
                   payload := BitVec.ofNat 384 (4 * 2 ^ 380 + c.type.toNat * 2 ^ 376) }

/-- One slot time in progress: the chip, the ports used, and the cells kept for transit and for injection. -/
structure Slot where
  chip : Chip
  used : List Nat
  transit : List Cell
  inject : List Cell

/-- Ports that are free in this slot time: nothing placed on them, and room in their replay buffers. -/
def Slot.free (r : Slot) : List (Nat × Nat) :=
  r.chip.tnUsable.filter fun e => !(r.used.contains e.1) && !(r.chip.port e.1).replayFull

def Slot.send (r : Slot) (p : Nat) (c : Cell) (forwarded : Bool) : Slot :=
  let s := r.chip.placeCell p c
  { r with chip := if forwarded && c.defl = 15 then s.bump O.goldenSeen 1 else s, used := p :: r.used }

/-- A cell is ejected; the Headgate notes in a PROBE when (R98). -/
def Chip.eject (s : Chip) (c : Cell) : Chip :=
  let c := if c.type = 10 && !c.flags.getLsbD 2 then
      { c with payload := BitVec.ofNat 384 (setBits c.payload.toNat 319 256 s.timebase.toNat) } else c
  { s with tn := { s.tn with ejected := s.tn.ejected ++ [c] } }

/-- What the router does with one cell (R99); a TIME cell is never forwarded (R95). -/
def Slot.route (r : Slot) (k : Cell) (offered : Bool) : Slot :=
  let s := r.chip
  let here := s.chipNumber
  let dest := k.dest.toNat
  let usable := s.tnUsable
  if dest = here then { r with chip := s.eject k }
  else if k.type = 9 then r
  else if s.cellAge k ≥ 46 then
    { r with chip := (s.bump O.lifetimeDiscards 1).raiseLimited 0x4301 0 [] }
  else
    let productive (e : Nat × Nat) := chipDistance e.2 dest < chipDistance here dest
    match s.lruPort ((r.free.filter productive).map (·.1)) with
    | some p => r.send p k (!offered)
    | none =>
      if directPeer here dest && !(usable.any fun e => e.2 == dest) &&
          (k.defl.toNat ≥ s.obj O.unreachDefl || offered) then
        if cellSequenced k then
          let n := s.unreachableNack k
          let s := s.bumpElem O.nacksSent 4 1
          if n.dest.toNat = here then { r with chip := s.eject n }
          else { r with chip := { s with tn := { s.tn with arrivals := s.tn.arrivals ++ [n] } } }
        else r
      else if offered then { r with inject := r.inject ++ [k] }
      else
        let near := r.free.filter fun e => chipDistance e.2 dest ≤ chipDistance here dest
        let q := if near.isEmpty then r.free else near
        match s.lruPort (q.map (·.1)) with
        | none => { r with transit := r.transit ++ [k] }
        | some p =>
          let k := { k with defl := if k.defl = 15 then 15 else k.defl + 1 }
          ({ r with chip := s.bump O.deflections 1 }).send p k true

/-- The transit buffer holds 8,192 cells: what has the lowest priority beyond them is dropped (R101). -/
def Chip.trimTransit (s : Chip) : Chip :=
  let t := s.tn.transit.mergeSort s.outranks
  if t.length ≤ 8192 then s
  else (({ s with tn := { s.tn with transit := t.take 8192 } } : Chip).bump O.transitDrops (t.length - 8192)).raiseLimited 0x4302 0 []

/-- A cell as it is injected: a fresh AGE, and in a PROBE its T_SENT (R94, R98). -/
def Chip.injected (s : Chip) (c : Cell) : Cell :=
  let c := { c with age := s.ageNow }
  if c.type = 10 && !c.flags.getLsbD 2 then
    { c with payload := BitVec.ofNat 384 (setBits c.payload.toNat 383 320 s.timebase.toNat) } else c

/-- One slot time: arrivals and transit cells in order of priority, then cells offered for injection, with a fresh AGE;
nothing is injected while the transit buffer holds more than 4,096 cells (R101) or the chip is not TNREADY (R92) (DESIGN CHOICE log 23) (DESIGN CHOICE log 114). -/
def Chip.routerSlot (s : Chip) : Chip :=
  let held := (s.tn.arrivals ++ s.tn.transit).mergeSort s.outranks
  let blocked := s.tn.transit.length > 4096 || !s.tnReady
  let offered := if blocked then [] else (s.tn.inject.map s.injected).mergeSort s.outranks
  let keep := if blocked then s.tn.inject else []
  let s : Chip := { s with tn := { s.tn with arrivals := [], transit := [], inject := [] } }
  let r := held.foldl (fun r k => Slot.route r k false) ⟨s, [], [], []⟩
  let r := offered.foldl (fun r k => Slot.route r k true) r
  let s := r.chip
  let s : Chip := { s with tn := { s.tn with transit := r.transit, inject := keep ++ r.inject ++ s.tn.inject } }
  (s.each r.used fun s p => s.flushPort p).trimTransit

def execRouterSlot (s : State) : Host.Outcome State Fault Refusal := s.act Chip.routerSlot

/-- A cell that the router takes back counts as deflected (R86). -/
def deflected (c : Cell) : Cell := { c with defl := if c.defl = 15 then 15 else c.defl + 1 }

/-- Cells of a port go back to the router; a TIME cell, which is never forwarded, is lost (R86, R95). -/
def Chip.takeBack (s : Chip) (slots : List (BitVec 512)) : Chip :=
  let cells := (slots.map cellOfBits).filter fun c => c.type != 9
  { s with tn := { s.tn with arrivals := s.tn.arrivals ++ cells.map deflected } }

/-! ### Offering cells -/

/-- A cell for injection; one addressed to this chip is looped back inside the Headgate (R103). -/
def Chip.offer (s : Chip) (c : Cell) : Chip :=
  if c.dest.toNat = s.chipNumber then s.eject (s.injected c)
  else { s with tn := { s.tn with inject := s.tn.inject ++ [{ c with age := s.ageNow }] } }

/-- An unsequenced cell of this chip. -/
def Chip.reply (s : Chip) (c : Cell) : Chip := s.offer { c with src := BitVec.ofNat 16 s.chipNumber, age := s.ageNow }

/-! ### Send streams (R107–R113) -/

def Chip.stream (s : Chip) (n : Nat) : Option SendStream := Tab.get none s.tn.streams n
def Chip.setStream (s : Chip) (n : Nat) (v : Option SendStream) : Chip :=
  { s with tn := { s.tn with streams := Tab.set none s.tn.streams n v } }

/-- The stream of an owner to a destination. -/
def Chip.streamOf (s : Chip) (o : StreamOwner) (dest : Half) : Option (Nat × SendStream) :=
  s.tn.streams.findSome? fun e => match e.2 with
    | some x => if x.owner = o && x.dest = dest then some (e.1, x) else none
    | none => none

/-- The lowest number from n on that no stream has. -/
def freeStream (used : List Nat) : Nat → Nat → Nat
  | 0, n => n
  | fuel + 1, n => if used.contains n then freeStream used fuel (n + 1) else n

/-- A stream that can take new cells: bound and neither closing nor refused, or bound now if one is free (R104, R108). -/
def Chip.bindStream (s : Chip) (o : StreamOwner) (dest : Half) : Chip × Option Nat :=
  match s.streamOf o dest with
  | some (n, x) => (s, if x.closing || x.refused then none else some n)
  | none =>
    let used := (s.tn.streams.filter (·.2.isSome)).map (·.1)
    if used.length ≥ 16384 then (s, none)
    else
      let n := freeStream used (used.length + 1) 0
      (s.setStream n (some ⟨o, dest, 0, [], [], Tab.get false s.tn.heldDests dest.toNat, false, false, s.aon⟩), some n)

/-- Cells in the retransmit store (R104). -/
def Chip.retxUsed (s : Chip) : Nat := s.tn.streams.foldl (fun n e => n + match e.2 with
  | some x => x.cells.length
  | none => 0) 0

/-- The window: no SEQ s while SEQ s − 32,768 or an older one is unacknowledged (R108). -/
def SendStream.windowOpen (x : SendStream) : Bool :=
  match x.cells with
  | [] => true
  | c :: _ => (x.nextSeq - c.cell.seq).toNat < 32768

/-- A cell takes its SEQ; a SIGNAL with COVER covers every cell before it (R114). -/
def sealCell (c : Cell) (src : Nat) (stream : Nat) (seq : Half) : Cell :=
  let p := if c.type = 1 && c.payload.getLsbD 303 || (c.type = 7 || c.type = 8) && c.flags.getLsbD 0 && c.payload.getLsbD 303
    then BitVec.ofNat 384 (setBits c.payload.toNat 319 304 ((seq - 1).toNat)) else c.payload
  { c with src := BitVec.ofNat 16 src, stream := BitVec.ofNat 14 stream, seq := seq, payload := p }

/-- Waiting cells of a stream enter the retransmit store while its window and the store have room, and go out unless the stream
is held (R104, R108, R112). -/
def Chip.streamFuel (n : Nat) : Nat → Chip → Chip
  | 0, s => s
  | fuel + 1, s =>
    match s.stream n with
    | some x =>
      match x.pend with
      | [] => s
      | t :: rest =>
        if x.closing || x.refused || !x.windowOpen || s.retxUsed ≥ 2097152 then s
        else
          let c := sealCell t.cell s.chipNumber n x.nextSeq
          let x := { x with pend := rest, nextSeq := x.nextSeq + 1, lastCell := s.aon, cells := x.cells ++ [{ t with cell := c }] }
          let s := s.setStream n (some x)
          Chip.streamFuel n fuel (if x.held then s else s.offer c)
    | none => s

def Chip.streamPump (s : Chip) (n : Nat) : Chip :=
  match s.stream n with
  | some x => Chip.streamFuel n x.pend.length s
  | none => s

/-- Cells join a stream. -/
def Chip.sendCells (s : Chip) (n : Nat) (l : List (Cell × Work)) : Chip :=
  match s.stream n with
  | some x =>
    (s.setStream n (some { x with pend := x.pend ++ l.map fun e => ⟨{ e.1 with dest := x.dest }, e.2, 0, 0, none⟩ })).streamPump n
  | none => s

/-- A cell has landed, or will never land: its command learns it. -/
def Chip.cellDone (s : Chip) (w : Work) (st : Status) : Chip :=
  match w with
  | .cmd q num k l => s.setQueue q fun v => v.setEntry num fun e => e.pieceDone k l st
  | .cmdSignal q num => s.setQueue q fun v => v.setEntry num fun e =>
      if st = Status.ok then { e with sig := .landed }
      else { e with sig := .landed, status := st, phase := if e.phase = .started && e.outstanding > 0 then .started else .finished }
  | .coll slot seq =>
    if st = Status.ok then s
    else { s with coll := { s.coll with active := s.coll.active.map fun c =>
      if c.slot = slot && c.seq = seq then { c with lost := true } else c } }
  | _ => s

/-- cum or SACK of an ACK covers a SEQ (R110). -/
def ackCovers (a : Cell) (seq : Half) : Bool :=
  (a.seq - seq).toNat < 32768 ||
  (let i := (seq - a.seq - 1).toNat
   i < 256 && a.payload.getLsbD (383 - i))

/-- The copy of a cell that is sent again: RETX set, a fresh AGE (R111). -/
def Chip.resendCell (s : Chip) (n : Nat) (t : TxCell) : Chip :=
  let s := match s.stream n with
    | some x => s.setStream n (some { x with lastCell := s.aon })
    | none => s
  s.offer { t.cell with flags := t.cell.flags ||| 8, defl := 0 }

/-- Change one unacknowledged cell of a stream. -/
def SendStream.modify (x : SendStream) (seq : Half) (f : TxCell → TxCell) : SendStream :=
  { x with cells := x.cells.map fun t => if t.cell.seq = seq then f t else t }

/-- The source sends a close: an ACK with FIN, with its last SEQ (R113). -/
def Chip.sendFin (s : Chip) (n : Nat) (x : SendStream) : Chip :=
  s.reply { cellBlank with type := 3, flags := 1, dest := x.dest, stream := BitVec.ofNat 14 n, seq := x.nextSeq - 1 }

/-- A stream closes when it may: nothing unacknowledged, and idle or refused (R113, R516). -/
def Chip.closeStream (s : Chip) (n : Nat) : Chip :=
  match s.stream n with
  | some x =>
    if x.cells.isEmpty && !x.closing then (s.setStream n (some { x with closing := true })).sendFin n x else s
  | none => s

/-- A refused stream closes as soon as nothing is unacknowledged (R516). -/
def Chip.closeRefused (s : Chip) (n : Nat) : Chip :=
  match s.stream n with
  | some x => if x.refused then s.closeStream n else s
  | none => s

/-- An ACK frees every cell it covers (R110), and ends the count of UNREACHABLE NACKs (R125). -/
def Chip.takeAck (s : Chip) (a : Cell) : Chip :=
  let n := a.stream.toNat
  match s.stream n with
  | none => s
  | some x =>
    if x.dest ≠ a.src then s
    else
      let gone := x.cells.filter fun t => ackCovers a t.cell.seq
      let s := s.setStream n (some { x with cells := x.cells.filter fun t => !ackCovers a t.cell.seq })
      let s : Chip := { s with tn := { s.tn with unreach := Tab.set 0 s.tn.unreach x.dest.toNat 0 } }
      let s := s.each gone fun s t => s.cellDone t.work .ok
      (s.streamPump n).closeRefused n

/-- The wait before a NACKed cell is sent again (R107); j is free below half of BACKOFF_BASE. -/
def Chip.backoffTime (s : Chip) (hint n : Nat) : Nat :=
  let base := s.obj O.backoffBase
  max (8 * hint) (min (base * 2 ^ (n - 1)) (s.obj O.backoffMax)) + (Config.freeWord s.freeCtr).toNat % max 1 (base / 2)

/-- Cells of this chip's streams that p names are offered for injection no longer; the retransmit store keeps them. -/
def Chip.recall (s : Chip) (p : Cell → Bool) : Chip :=
  { s with tn := { s.tn with inject := s.tn.inject.filter fun c => !(cellSequenced c && c.src.toNat == s.chipNumber && p c) } }

/-- Every cell for a destination is held (R125). -/
def Chip.holdDest (s : Chip) (dest : Nat) : Chip :=
  if Tab.get false s.tn.heldDests dest then s
  else
    let s : Chip := { s with tn := { s.tn with
      heldDests := Tab.set false s.tn.heldDests dest true
      streams := s.tn.streams.map fun e => (e.1, e.2.map fun x => if x.dest.toNat = dest then { x with held := true } else x) } }
    (s.recall (·.dest.toNat == dest)).raise 0x8301 [.u16 dest]

/-- Work of one command of a queue. -/
def Work.ofCmd (q : Nat) (num : Word32) : Work → Bool
  | .cmd q' n _ _ => q' == q && n == num
  | .cmdSignal q' n => q' == q && n == num
  | _ => false

/-- The other work of the command that a piece of work belongs to. -/
def Work.sibling : Work → Work → Bool
  | .cmd q n _ _ => Work.ofCmd q n
  | .cmdSignal q n => Work.ofCmd q n
  | _ => fun _ => false

/-- A refused cell never lands: it and what its command has not sent yet leave the stream, which takes no new cell and closes
once it is empty (R187, R516). -/
def Chip.refuseCell (s : Chip) (n : Nat) (x : SendStream) (t : TxCell) : Chip :=
  let unsent := x.pend.filter fun u => t.work.sibling u.work
  let s := s.setStream n (some { x with
    cells := x.cells.filter (·.cell.seq != t.cell.seq), pend := x.pend.filter fun u => !(t.work.sibling u.work), refused := true })
  ((t :: unsent).foldl (fun s u => s.cellDone u.work .refused) s).closeRefused n

/-- A NACK of one cell (R106). -/
def Chip.takeNack (s : Chip) (a : Cell) : Chip :=
  let n := a.stream.toNat
  let reason := payloadField a 383 380
  let bad := reason = 0 ∨ reason ≥ 8
  let s := if bad then s.raiseLimited 0x4305 1 [] else s
  match s.stream n with
  | none => s
  | some x =>
    match x.cells.find? (fun t => t.cell.seq == a.seq) with
    | none => s
    | some t =>
      if x.dest ≠ a.src then s
      else if reason = 7 ∨ bad then s.refuseCell n x t
      else
        let k := t.nacks + 1
        let due := s.aon + s.backoffTime (payloadField a 375 360) k
        let s := (s.setStream n (some (x.modify a.seq fun t => { t with nacks := k, retx := 0, backoff := some due }))).drew
        if reason = 4 then
          let u := Tab.get 0 s.tn.unreach x.dest.toNat + 1
          let s : Chip := { s with tn := { s.tn with unreach := Tab.set 0 s.tn.unreach x.dest.toNat u } }
          if u ≥ s.obj O.unreachLimit then s.holdDest x.dest.toNat else s
        else s

/-- A back-off ends: the cell is sent again (R107). -/
def Chip.backoffEnd (s : Chip) (n : Nat) (seq : Half) : Chip :=
  match s.stream n with
  | none => s
  | some x =>
    match x.cells.find? (fun t => t.cell.seq == seq && t.backoff.isSome) with
    | none => s
    | some t => if x.held then s
      else (s.setStream n (some (x.modify seq fun t => { t with backoff := none }))).resendCell n t

def execBackoffExpiry (stream : BitVec 14) (seq : Half) (s : State) : Host.Outcome State Fault Refusal :=
  s.act fun c => c.backoffEnd stream.toNat seq

/-- RETX_TIME without an ACK: the cell goes out again, or after RETX_LIMIT its stream is held (R111, R112); a close is
repeated (R113). -/
def Chip.retxTimeout (s : Chip) (n : Nat) (seq : Half) : Chip :=
  match s.stream n with
  | none => s
  | some x =>
    if x.closing then (if seq = x.nextSeq - 1 then s.sendFin n x else s)
    else match x.cells.find? (fun t => t.cell.seq == seq && t.backoff.isNone) with
      | none => s
      | some t =>
        if x.held then s
        else if t.retx ≥ s.obj O.retxLimit then
          ((s.setStream n (some { x with held := true })).recall (·.stream.toNat == n)).raise 0x8302 [.u16 n, .u16 x.dest.toNat]
        else (s.setStream n (some (x.modify seq fun t => { t with retx := t.retx + 1 }))).resendCell n t

/-- STREAM_IDLE: a stream with nothing to send or to be acknowledged closes (R113). -/
def Chip.streamIdle (s : Chip) (n : Nat) : Chip :=
  match s.stream n with
  | some x => if x.pend.isEmpty && !x.held then s.closeStream n else s
  | none => s

def execStreamIdleExpiry (stream : BitVec 14) (s : State) : Host.Outcome State Fault Refusal :=
  s.act fun c => c.streamIdle stream.toNat

/-- The destination has answered the close: the stream is free, and cells that waited for it bind a fresh one (R113,
R516). -/
def Chip.streamClosed (s : Chip) (n : Nat) : Chip :=
  match s.stream n with
  | some x =>
    if x.closing then
      if x.pend.isEmpty then s.setStream n none
      else (s.setStream n (some { x with nextSeq := 0, closing := false, refused := false, lastCell := s.aon })).streamPump n
    else s
  | none => s

/-- DEST_RELEASE: everything for a chip is discarded and every stream to it and context from it is freed (R126). -/
def Chip.destRelease (s : Chip) (dest : Half) : Chip :=
  let mine := s.tn.streams.filterMap fun e => match e.2 with
    | some x => if x.dest = dest then some (e.1, x) else none
    | none => none
  let s := s.each mine fun s e => s.setStream e.1 none
  let mineCell (c : Cell) := c.dest == dest && cellSequenced c && c.src.toNat == s.chipNumber
  let s : Chip := { s with
    coll := { s.coll with contextComm := s.coll.contextComm.filter fun e => e.1 != dest }
    tn := { s.tn with
    inject := s.tn.inject.filter fun c => !mineCell c
    contexts := s.tn.contexts.filter fun c => c.src != dest
    pendingSignals := s.tn.pendingSignals.filter fun p => p.src != dest || p.cover.isNone
    unreach := Tab.set 0 s.tn.unreach dest.toNat 0
    heldDests := Tab.set false s.tn.heldDests dest.toNat false } }
  s.each mine fun s e => s.each (e.2.cells ++ e.2.pend) fun s t => s.cellDone t.work .unreachable

end Sys2Proof.Machine
end

