-- ==== Sys2Proof/Machine/Headgate.lean ====
section
/-! DEFINITION. The Headgate's receive side: contexts, acknowledgements, refusals, held signals and the sluice
(R98, R103–R117). -/

namespace Sys2Proof.Machine

/-- What becomes of a cell that a context lets land. -/
inductive Landing where
  /-- its effect is visible (R105) -/
  | landed
  /-- refused, with a reason and a hint -/
  | nack (reason hint : Nat)
  /-- it waits in the sluice and lands later (R117) -/
  | queued
  deriving DecidableEq, Repr

/-! ### Refusals (R106) -/

/-- A NACK of a sequenced cell goes to its source. -/
def Chip.sendNack (s : Chip) (c : Cell) (reason hint : Nat) : Chip :=
  let s := s.bumpElem O.nacksSent reason 1
  let s := if reason = 3 then s.bump O.sluiceNacks 1 else s
  s.offer { cellBlank with
    type := 4, dest := c.src, src := c.dest, age := s.ageNow, stream := c.stream, seq := c.seq,
    payload := BitVec.ofNat 384 (reason * 2 ^ 380 + c.type.toNat * 2 ^ 376 + min hint 65535 * 2 ^ 360) }

/-! ### Receive contexts (R109, R110) -/

def Chip.context (s : Chip) (src : Half) (stream : BitVec 14) : Option RxContext :=
  s.tn.contexts.find? fun x => x.src == src && x.stream == stream
def Chip.setContext (s : Chip) (x : RxContext) : Chip :=
  { s with tn := { s.tn with contexts := s.tn.contexts.map fun y => if y.src = x.src && y.stream = x.stream then x else y } }

/-- Whether cum covers a SEQ (R114). -/
def RxContext.covers (x : RxContext) (seq : Half) : Bool :=
  let d := (seq - x.cum).toNat
  d == 0 || d ≥ 32768

/-- cum moves over any run of landed SEQs. -/
def RxContext.advance (x : RxContext) : Nat → RxContext
  | 0 => x
  | fuel + 1 =>
    if x.landed.contains (x.cum + 1) then
      RxContext.advance { x with cum := x.cum + 1, landed := x.landed.erase (x.cum + 1) } fuel
    else x

/-- An ACK of a context: cum, and the landed map of the 256 SEQs after it (R110). -/
def Chip.sendAck (s : Chip) (src : Half) (stream : BitVec 14) : Chip :=
  match s.context src stream with
  | none => s
  | some x =>
    let sack := (List.range 256).foldl (fun n i =>
      if x.landed.contains (x.cum + 1 + BitVec.ofNat 16 i) then n + 2 ^ (383 - i) else n) 0
    let s := s.setContext { x with unacked := 0 }
    s.reply { cellBlank with type := 3, dest := src, stream := stream, seq := x.cum, payload := BitVec.ofNat 384 sack }

/-- Cells that wait in the sluice: of one in two lines' queues, the part in the first counts (R117). -/
def Chip.sluiceUsed (s : Chip) : Nat :=
  s.tn.sluice.foldl (fun n l => n + (l.cells.filter fun c =>
    !(c.offset.toNat * 4 / 64 != l.line && s.tn.sluice.any fun k => k.line == c.offset.toNat * 4 / 64 && k.cells.contains c)).length) 0

/-- Cells in the receive store: sequenced ones from their ejection until they have landed, and parked ones (R104). -/
def Chip.recvUsed (s : Chip) : Nat :=
  (s.tn.ejected.filter cellSequenced).length + s.tn.contexts.foldl (fun n x => n + x.parked.length) 0 + s.sluiceUsed

/-! ### Addresses (R98) -/

/-- The chip offset a cell names. -/
def cellOffset (c : Cell) : Nat := c.offset.toNat * 4

/-- An offset of the chip-counter range that names one whole counter. -/
def namesCounter (o : Nat) : Bool := 0xF0000000000 ≤ o && o < 0xF0000200000 && o % 8 == 0
def inCounterRange (o : Nat) : Bool := 0xF0000000000 ≤ o && o < 0xF0002000000

/-- A refused cell of the counter range is counted and reported (R98, R194). -/
def Chip.badAddr (s : Chip) (o : Nat) : Chip × Landing :=
  (if inCounterRange o then s.counterRefusal else s, .nack 7 0)

/-! ### Signals (R105, R114, R206) -/

/-- The counter an add of a cell reaches, by its offset. -/
def counterOfOffset (o : Nat) : Nat := (o - 0xF0000000000) / 8

/-- An add from a cell to a chip counter, mirrored if a source mirrors (R489). -/
def Chip.cellAdd (s : Chip) (c : Cell) (amount : Word) (hasEntry : Bool) : Chip × AddResult :=
  let i := counterOfOffset (cellOffset c)
  let src := AddSrc.cell c.src c.stream c.seq
  let (s, r) := s.counterAdd i amount src hasEntry
  match r with
  | .applied old => ((s.acknowledge src i old).noteMirror (.atomic (cellOffset c) 0 true amount 0), r)
  | .held =>
    let s := if hasEntry then
        ({ s with tn := { s.tn with pendingSignals := s.tn.pendingSignals.map fun p =>
          if p.src = c.src && p.stream = c.stream && p.seq = c.seq then { p with cover := none } else p } } : Chip)
      else { s with tn := { s.tn with pendingSignals := s.tn.pendingSignals ++ [⟨c.src, c.stream, c.seq, none, i, amount, none⟩] } }
    (s.noteMirror (.atomic (cellOffset c) 0 true amount 0), r)
  | _ => (s, r)

/-- A SIGNAL lands: applied, or held until its cover lands (R114, R115). -/
def Chip.landSignal (s : Chip) (c : Cell) : Chip × Landing :=
  let o := cellOffset c
  let amount := BitVec.ofNat 64 (payloadField c 383 320)
  let cover : Half := BitVec.ofNat 16 (payloadField c 319 304)
  if !namesCounter o then s.badAddr o
  else
    let open' := !c.payload.getLsbD 303 || (match s.context c.src c.stream with
      | some x => x.covers cover
      | none => false)
    if open' then
      match s.cellAdd c amount false with
      | (s, .noRoom) => (s, .nack 2 0)
      | (s, .refused) => (s, .nack 7 0)
      | (s, _) => (s, .landed)
    else if s.tn.pendingSignals.length ≥ 4096 then (s, .nack 2 0)
    else
      ({ s with tn := { s.tn with pendingSignals := s.tn.pendingSignals ++
          [⟨c.src, c.stream, c.seq, some cover, counterOfOffset o, amount, none⟩] } }, .landed)

/-! ### ATOMIC_ADD (R98, R115, R135) -/

/-- An integer add to memory of n bytes, not applied to bytes stored poisoned. -/
def Chip.memAdd (s : Chip) (a n amount : Nat) : Chip :=
  let (s, r) := s.read a n 0
  if readPoison r then s
  else s.write a (leBytes n (leNat (readData r) + amount)) false 0

def Chip.landAtomic (s : Chip) (c : Cell) : Chip × Landing :=
  let o := cellOffset c
  let wide := c.payload.getLsbD 319
  if inCounterRange o then
    if wide && namesCounter o then
      match s.cellAdd c (BitVec.ofNat 64 (payloadField c 383 320)) false with
      | (s, .noRoom) => (s, .nack 2 0)
      | (s, .refused) => (s, .nack 7 0)
      | (s, _) => (s, .landed)
    else s.badAddr o
  else
    let n := if wide then 8 else 4
    if s.rangeData o n && o % n == 0 then
      let amount := if wide then payloadField c 383 320 else payloadField c 351 320
      ((s.memAdd o n amount).noteMirror (.atomic o 0 wide (BitVec.ofNat 64 amount) 0), .landed)
    else s.badAddr o

/-! ### PUT and the sluice (R105, R117) -/

/-- The 64-byte lines a PUT touches. -/
def putLines (c : Cell) : List Nat :=
  let o := cellOffset c
  if c.len = 0 then [] else if (o + c.len.toNat - 1) / 64 = o / 64 then [o / 64] else [o / 64, o / 64 + 1]

/-- The part of a PUT within one line is applied. -/
def Chip.applyPart (s : Chip) (c : Cell) (line : Nat) : Chip :=
  let o := cellOffset c
  let lo := max o (64 * line)
  let hi := min (o + c.len.toNat) (64 * line + 64)
  let bs := ((cellBytes c).drop (lo - o)).take (hi - lo)
  let s := (s.write lo bs false 0).noteMirror (.write lo bs)
  { s with tn := { s.tn with recentPuts := Tab.set 0 (s.tn.recentPuts.filter fun e => e.2 + 2 > s.now) line s.now } }

def Chip.lineQueue (s : Chip) (line : Nat) : Option SluiceLine := s.tn.sluice.find? (·.line == line)

/-- A PUT lands at once, or waits: each of its lines that has a queue takes it there, and one that was just written gets a queue
if one of the 64 is free. A full queue refuses it (R117). -/
def Chip.landPut (s : Chip) (c : Cell) : Chip × Landing :=
  let o := cellOffset c
  if !(s.rangeData o c.len.toNat) || (c.len = 0 && !(s.rangeData o 1)) then s.badAddr o
  else
    let lines := putLines c
    let full := lines.filter fun l => match s.lineQueue l with
      | some q => q.cells.length ≥ 1024
      | none => false
    if !full.isEmpty then
      let late (q : SluiceLine) : SluiceLine :=
        if full.contains q.line then { q with slot := max q.slot (s.now + 2 * q.cells.length) + 2 } else q
      let s : Chip := { s with tn := { s.tn with sluice := s.tn.sluice.map late } }
      let slots := lines.filterMap fun l => (s.lineQueue l).map (·.slot)
      (s, .nack 3 ((slots.foldl max 0 - s.now + 7) / 8))
    else
      let busy (l : Nat) := Tab.get 0 (s.tn.recentPuts.map fun e => (e.1, e.2 + 2)) l > s.now
      lines.foldl (fun r l =>
        let s := r.1
        if (s.lineQueue l).isSome then
          ({ s with tn := { s.tn with sluice := s.tn.sluice.map fun q => if q.line = l then { q with cells := q.cells ++ [c] } else q } },
            .queued)
        else if busy l && s.tn.sluice.length < 64 then
          ({ s with tn := { s.tn with sluice := s.tn.sluice ++ [⟨l, [c], 0⟩] } }, .queued)
        else (s.applyPart c l, r.2)) (s, .landed)

/-! ### Multicast at the turn chip (R119, R120) -/

/-- The members of a multicast: every chip of the turn chip's row or column, without the source unless SELF is set. -/
def Chip.mcastMembers (s : Chip) (c : Cell) : List Nat :=
  let turn := c.dest.toNat
  let all := if c.type = 7 then (List.range (s.obj O.domainX)).map fun x => turn - chipX turn + x
    else (List.range (s.obj O.domainY)).map fun y => turn - 64 * chipY turn + 64 * y
  all.filter fun m => m != c.src.toNat || c.flags.getLsbD 1

/-- The relay's copy of a multicast cell. -/
def relayCell (c : Cell) : Cell :=
  { c with type := if c.flags.getLsbD 0 then 1 else 0, flags := 0, defl := 0 }

/-- A copy for each member can enter the retransmit store at once: its stream takes cells, or one is free to bind, and the
store has room (R104, R120). -/
def Chip.relayReady (s : Chip) (members : List Nat) : Bool :=
  let streams := members.map fun m => s.streamOf .relay (BitVec.ofNat 16 m)
  let takes (x : SendStream) : Bool := !x.closing && !x.refused && x.windowOpen && x.pend.isEmpty
  streams.all (fun e => match e with
    | some e => takes e.2
    | none => true) &&
  (s.tn.streams.filter (·.2.isSome)).length + (streams.filter (·.isNone)).length ≤ 16384 &&
  s.retxUsed + members.length ≤ 2097152

/-- Relay a cell to each member on the relay streams. -/
def Chip.relayTo (s : Chip) (c : Cell) (members : List Nat) : Chip :=
  s.each members fun s m => match s.bindStream .relay (BitVec.ofNat 16 m) with
    | (s, some n) => s.sendCells n [(relayCell c, .relay)]
    | (s, none) => s

/-- The members of a multicast other than the turn chip. -/
def Chip.mcastOthers (s : Chip) (c : Cell) : List Nat := (s.mcastMembers c).filter (· != s.chipNumber)

/-- The turn chip's own copy of a multicast SIGNAL, if it is a member. -/
def Chip.mcastOwn (s : Chip) (c : Cell) (hasEntry : Bool) : Chip × AddResult :=
  if (s.mcastMembers c).contains s.chipNumber then
    s.cellAdd { relayCell c with dest := c.dest } (BitVec.ofNat 64 (payloadField c 383 320)) hasEntry
  else (s, .applied 0)

/-- A multicast SIGNAL that waits for its cover (R120). -/
def mcastEntry (c : Cell) (cover : Half) : PendingSignal :=
  ⟨c.src, c.stream, c.seq, some cover, counterOfOffset (cellOffset c), BitVec.ofNat 64 (payloadField c 383 320), some c⟩

/-- A multicast cell lands at its turn chip once every copy is in the retransmit store; while one could not be, the cell is
refused as if the receive store were full, and so is one whose own copy cannot land (R106, R120) (DEDUCED log 155). -/
def Chip.landMcast (s : Chip) (c : Cell) : Chip × Landing :=
  let others := s.mcastOthers c
  if c.flags.getLsbD 0 then
    let o := cellOffset c
    if !namesCounter o then s.badAddr o
    else
      let cover : Half := BitVec.ofNat 16 (payloadField c 319 304)
      let open' := !c.payload.getLsbD 303 || (match s.context c.src c.stream with
        | some x => x.covers cover
        | none => false)
      if open' then
        if !(s.relayReady others) then (s, .nack 1 0)
        else match s.mcastOwn c false with
          | (s, .noRoom) => (s, .nack 2 0)
          | (s, .refused) => (s, .nack 7 0)
          | (s, _) => (s.relayTo c others, .landed)
      else if s.tn.pendingSignals.length ≥ 4096 then (s, .nack 2 0)
      else ({ s with tn := { s.tn with pendingSignals := s.tn.pendingSignals ++ [mcastEntry c cover] } }, .landed)
  else
    let own := (s.mcastMembers c).contains s.chipNumber
    if own && !(s.rangeData (cellOffset c) c.len.toNat) then s.badAddr (cellOffset c)
    else if !(s.relayReady others) then (s, .nack 1 0)
    else
      match (if own then s.landPut (relayCell c) else (s, .landed)) with
      | (s, .nack r h) => (s, .nack r h)
      | (s, l) => (s.relayTo c others, l)

/-! ### Landing (R109) -/

/-- A held multicast SIGNAL whose cover has landed is relayed and applied here, once its copies can enter the retransmit store. -/
def Chip.releaseMcast (s : Chip) (p : PendingSignal) (m : Cell) : Chip :=
  let others := s.mcastOthers m
  if !(s.relayReady others) then s
  else
    let one (f : PendingSignal → PendingSignal) (s : Chip) : Chip :=
      { s with tn := { s.tn with pendingSignals := s.tn.pendingSignals.map fun q => if q = p then f q else q } }
    let s := one (fun q => { q with mcast := none }) (s.relayTo m others)
    let gone (s : Chip) : Chip :=
      { s with tn := { s.tn with pendingSignals := s.tn.pendingSignals.erase { p with mcast := none } } }
    if (s.mcastMembers m).contains s.chipNumber then
      match s.mcastOwn m true with
      | (s, .refused) => gone s
      | (s, _) => s
    else gone s

/-- Held signals of a stream that cum now covers are applied in SEQ order (R114). -/
def Chip.releaseSignals (s : Chip) (src : Half) (stream : BitVec 14) : Chip :=
  match s.context src stream with
  | none => s
  | some x =>
    let ready := (s.tn.pendingSignals.filter fun p => p.src == src && p.stream == stream && (match p.cover with
      | some v => x.covers v
      | none => false)).mergeSort fun a b => (a.seq - x.cum - 1).toNat ≤ (b.seq - x.cum - 1).toNat
    s.each ready fun s p =>
      let c : Cell := { cellBlank with type := 1, src := p.src, stream := p.stream, seq := p.seq,
                                       offset := BitVec.ofNat 42 (counterOffset p.counter / 4) }
      match p.mcast with
      | some m => s.releaseMcast p m
      | none =>
        match s.cellAdd c p.amount true with
        | (s, .refused) => { s with tn := { s.tn with pendingSignals := s.tn.pendingSignals.erase p } }
        | (s, _) => s

/-- Multicast SIGNALs that waited for room in this chip's streams try again. -/
def Chip.retryMcasts (s : Chip) : Chip :=
  s.each (s.tn.pendingSignals.filter (·.mcast.isSome)) fun s p => s.releaseSignals p.src p.stream

/-- A SEQ has landed: the map and cum move, held signals are applied, and the ACK is sent when it is due (R110). -/
def Chip.noteLanded (s : Chip) (src : Half) (stream : BitVec 14) (seq : Half) : Chip :=
  match s.context src stream with
  | none => s
  | some x =>
    let x := ({ x with landed := seq :: x.landed, unacked := x.unacked + 1 } : RxContext).advance 4097
    let s := (s.setContext x).releaseSignals src stream
    if x.unacked ≥ s.obj O.ackCells then s.sendAck src stream else s

/-- Whether a SEQ is already in the landed map, or in the sluice. -/
def Chip.seenSeq (s : Chip) (x : RxContext) (seq : Half) : Bool :=
  x.landed.contains seq ||
  s.tn.sluice.any fun l => l.cells.any fun c => c.src == x.src && c.stream == x.stream && c.seq == seq

/-- A cell whose SEQ lies within the landed map lands by its type's rule, or is refused. -/
def Chip.landIn (land : Chip → Cell → Chip × Landing) (s : Chip) (c : Cell) : Chip :=
  match land s c with
  | (s, .landed) => s.noteLanded c.src c.stream c.seq
  | (s, .nack r h) => s.sendNack c r h
  | (s, .queued) => s

/-- Parked cells that cum has come within 4,096 of land (R109). -/
def Chip.unparkFuel (land : Chip → Cell → Chip × Landing) (src : Half) (stream : BitVec 14) : Nat → Chip → Chip
  | 0, s => s
  | fuel + 1, s =>
    match s.context src stream with
    | none => s
    | some x =>
      match x.parked.find? (fun c => (c.seq - x.cum - 1).toNat < 4096) with
      | none => s
      | some c =>
        Chip.unparkFuel land src stream fuel (Chip.landIn land (s.setContext { x with parked := x.parked.erase c }) c)

def Chip.unpark (land : Chip → Cell → Chip × Landing) (s : Chip) (src : Half) (stream : BitVec 14) : Chip :=
  match s.context src stream with
  | some x => Chip.unparkFuel land src stream x.parked.length s
  | none => s

/-- A sequenced cell at the Headgate (R104, R109, R190, R489). -/
def Chip.sequenced (land : Chip → Cell → Chip × Landing) (s : Chip) (c : Cell) : Chip :=
  if s.job.state ≥ 2 then s.sendNack c 5 0
  else if s.service.lagEpisode then s.sendNack c 1 0
  else
    let known := (s.context c.src c.stream).isSome
    if !known && c.seq ≥ 32768 then s.raise 0x4304 []
    else if !known && s.tn.contexts.length ≥ 16384 then s.sendNack c 5 0
    else
      let s : Chip := if known then s
        else { s with tn := { s.tn with contexts := s.tn.contexts ++ [⟨c.src, c.stream, 0xFFFF, [], 0, []⟩] } }
      match s.context c.src c.stream with
      | none => s
      | some x =>
        let d := (c.seq - x.cum - 1).toNat
        if d < 4096 then
          if s.seenSeq x c.seq then s.sendAck c.src c.stream
          else if s.recvUsed ≥ 1048576 then s.sendNack c 1 0
          else Chip.unpark land (Chip.landIn land s c) c.src c.stream
        else if d < 32768 then
          if x.parked.any fun p => p.seq == c.seq then s.sendAck c.src c.stream
          else if s.recvUsed ≥ 1048576 then s.sendNack c 1 0
          else s.setContext { x with parked := x.parked ++ [c] }
        else s.sendAck c.src c.stream

/-- ACK_TIME after the first unacknowledged landing (R110). -/
def Chip.ackTime (s : Chip) (src : Half) (stream : BitVec 14) : Chip :=
  match s.context src stream with
  | some x => if x.unacked > 0 then s.sendAck src stream else s
  | none => s

def execAckTimeExpiry (src : Half) (stream : BitVec 14) (s : State) : Host.Outcome State Fault Refusal :=
  s.act fun c => c.ackTime src stream

/-- The sluice applies the next PUT of a line; the cell lands once its other line has its part too (R117). -/
def Chip.sluiceApply (land : Chip → Cell → Chip × Landing) (s : Chip) (line : Nat) : Chip :=
  match s.lineQueue line with
  | none => s
  | some q =>
    match q.cells with
    | [] => s
    | c :: rest =>
      let sl := if rest.isEmpty then s.tn.sluice.filter (·.line != line)
        else s.tn.sluice.map fun y => if y.line = line then { y with cells := rest } else y
      let s := ({ s with tn := { s.tn with sluice := sl } } : Chip).applyPart c line
      if s.tn.sluice.any fun y => y.cells.contains c then s
      else (Chip.unpark land (s.noteLanded c.src c.stream c.seq) c.src c.stream).mirrorPump

/-- A close of one of this chip's receive contexts: it is freed with the signals still held for it, and answered (R113). -/
def Chip.takeFin (s : Chip) (a : Cell) : Chip :=
  if a.flags.getLsbD 2 then
    match s.stream a.stream.toNat with
    | some x => if x.dest = a.src then s.streamClosed a.stream.toNat else s
    | none => s
  else
    let s : Chip := { s with
      tn := { s.tn with
        contexts := s.tn.contexts.filter fun x => !(x.src == a.src && x.stream == a.stream)
        pendingSignals := s.tn.pendingSignals.filter fun p => !(p.src == a.src && p.stream == a.stream && p.cover.isSome) }
      coll := { s.coll with contextComm := s.coll.contextComm.filter fun e => !(e.1 == a.src && e.2.1 == a.stream) } }
    s.reply { cellBlank with type := 3, flags := 5, dest := a.src, stream := a.stream, seq := a.seq }

def execCellAck (cell : Cell) (s : State) : Host.Outcome State Fault Refusal :=
  s.act fun c => c.when (cell.type == 3 && !cell.flags.getLsbD 0 && cell.dest.toNat == c.chipNumber) fun c =>
    ({ c with tn := { c.tn with ejected := c.tn.ejected.erase cell } } : Chip).takeAck cell |>.retryMcasts

/-! ### Cells that carry no SEQ -/

/-- A cell of reserved type is discarded (R96). -/
def execCellReservedType (cell : Cell) (s : State) : Host.Outcome State Fault Refusal :=
  s.act fun c => c.when (cell.type ≥ 11 && cell.dest.toNat == c.chipNumber) fun c =>
    (({ c with tn := { c.tn with ejected := c.tn.ejected.erase cell } } : Chip).bump O.badCells 1).raiseLimited 0x4305 0 []

/-- A PROBE: at its destination it is answered with T_SEEN; the answer gives the round trip and the one-way time (R98,
R127). -/
def Chip.takeProbe (s : Chip) (c : Cell) : Chip :=
  if c.flags.getLsbD 2 then
    match s.tn.probe with
    | some target =>
      if target = c.src then
        let sent := BitVec.ofNat 64 (payloadField c 383 320)
        let seen := BitVec.ofNat 64 (payloadField c 319 256)
        let rtt := (s.timebase - sent).toNat % 2 ^ 32
        let one := (seen - sent).toNat % 2 ^ 32
        { s with tn := { s.tn with probe := none, probeResult := BitVec.ofNat 64 (rtt * 2 ^ 32 + one) } }
      else s
    | none => s
  else
    s.reply { cellBlank with
      type := 10, flags := 4, dest := c.src
      payload := BitVec.ofNat 384 (payloadField c 383 320 * 2 ^ 320 + payloadField c 319 256 * 2 ^ 256) }

/-- A cell without the stamp its ejection left. -/
def unstamped (c : Cell) : Cell := { c with payload := BitVec.ofNat 384 (setBits c.payload.toNat 319 256 0) }

/-- The PROBE that the Headgate ejected, with the time it did so; one that was not ejected before is ejected now. -/
def Chip.ejectedProbe (s : Chip) (c : Cell) : Chip × Cell :=
  let s := if s.tn.ejected.any (fun e => e == c || unstamped e == c) then s else s.eject c
  match s.tn.ejected.find? (fun e => e == c || unstamped e == unstamped c) with
  | some e => ({ s with tn := { s.tn with ejected := s.tn.ejected.erase e } }, e)
  | none => (s, c)

def execCellProbe (cell : Cell) (s : State) : Host.Outcome State Fault Refusal :=
  s.act fun c => c.when (cell.type == 10 && cell.dest.toNat == c.chipNumber) fun c =>
    (c.ejectedProbe cell).1.takeProbe (c.ejectedProbe cell).2

/-- PROBE_TARGET sends one PROBE, which gets its T_SENT as it is injected (R98, R127). -/
def Chip.probeTo (s : Chip) (chip : Half) : Chip :=
  ({ s with tn := { s.tn with probe := some chip } } : Chip).reply { cellBlank with type := 10, dest := chip }

def execProbeTarget (chip : Half) (s : State) : Host.Outcome State Fault Refusal := s.act fun c => c.probeTo chip

/-- No reply within 1 ms: PROBE_RESULT is all ones (R127). -/
def execProbeReplyTimeout (s : State) : Host.Outcome State Fault Refusal :=
  s.act fun c => c.when c.tn.probe.isSome fun c =>
    { c with tn := { c.tn with probe := none, probeResult := 0xFFFFFFFFFFFFFFFF } }

/-! ### The timebase (R121–R123) -/

/-- The master's chip number. -/
def Chip.tbMasterChip (s : Chip) : Nat :=
  if s.obj O.tbMaster = 0xFFFFFFFF then chipDomain s.chipNumber * 4096 else s.obj O.tbMaster

/-- The TN ports that reach a direct peer. -/
def Chip.portsTo (s : Chip) (chip : Nat) : List Nat := (s.tnPorts.filter (·.2 == chip)).map (·.1)

/-- The parent: the master for a chip of its row or column; else (x, my), or (mx, y) while every port to that chip is
routing-down by R92's conditions on the port itself (DEDUCED log 156). -/
def Chip.tbParentChip (s : Chip) : Nat :=
  let me := s.chipNumber
  let m := s.tbMasterChip
  if directPeer me m then m
  else
    let a := chipDomain me * 4096 + chipY m * 64 + chipX me
    let b := chipDomain me * 4096 + chipY me * 64 + chipX m
    if (s.portsTo a).any s.portFresh then a else b

/-- A TIME cell goes straight to the direct peer on any TN port that carries traffic; the Headgate injects none while the
transit buffer holds more than 4,096 cells (R92, R101). -/
def Chip.sendTime (s : Chip) (chip : Nat) (payload : Nat) : Chip :=
  if s.tn.transit.length > 4096 then s
  else match s.lruPort (s.portsTo chip) with
    | none => s
    | some p => (s.placeCell p { cellBlank with
        type := 9, dest := BitVec.ofNat 16 chip, src := BitVec.ofNat 16 s.chipNumber, age := s.ageNow
        payload := BitVec.ofNat 384 payload }).flushPort p

/-- Holdover, with its event (R123). -/
def Chip.holdover (s : Chip) : Chip :=
  ({ s with tn := { s.tn with tbState := .holdover } } : Chip).raise 0x4303 []

/-- Every 100 µs: the master is in state master; any other assigned chip sends its parent a request, and in holdover goes on
at its last corrected rate (R122, R123) (DEDUCED log 157). -/
def Chip.timeExchange (s : Chip) : Chip :=
  if !s.objb O.chipAssigned then s
  else if s.chipNumber = s.tbMasterChip then
    { s with tn := { s.tn with tbState := .master, tbParent := 0xFFFFFFFF } }
  else
    let p := s.tbParentChip
    let s := if s.tn.tbState = .master then s.holdover else s
    let slew := if s.tn.tbState = .holdover then s.tn.tbRate else s.tn.tbSlew
    ({ s with tn := { s.tn with tbParent := BitVec.ofNat 32 p, tbSlew := slew } } : Chip).sendTime p (s.timebase.toNat * 2 ^ 320)

def execTimebaseExchangeTimer (s : State) : Host.Outcome State Fault Refusal := s.act Chip.timeExchange

/-- The median of offsets: of an even number, the mean of the middle two, toward zero. -/
def medianOf (l : List Int) : Int :=
  let m := l.mergeSort (· ≤ ·)
  if l.length % 2 = 1 then m.getD (l.length / 2) 0
  else (m.getD (l.length / 2 - 1) 0 + m.getD (l.length / 2) 0).tdiv 2

/-- An answer of the parent: the offset is filtered by the median of eight; the first lock steps the counter forward, and
later at most 10 ns are added or withheld (R122). The eight are the last eight, counted anew after the first lock (DESIGN
CHOICE log 158). -/
def Chip.timeAnswer (s : Chip) (c : Cell) (t4 : Word) : Chip :=
  let t (hi lo : Nat) : Int := (payloadField c hi lo : Int)
  let off := ((t 319 256 - t 383 320) - ((t4.toNat : Int) - t 255 192)).tdiv 2
  let offsets := (off :: s.tn.offsets).take 8
  let s : Chip := { s with tn := { s.tn with offsets := offsets } }
  if offsets.length < 8 then s
  else
    let m := medianOf offsets
    let s : Chip := { s with tn := { s.tn with tbOffset := m } }
    if !s.tn.everLocked then
      let s : Chip := { s with
        timebase := if m > 0 then s.timebase + BitVec.ofInt 64 m else s.timebase
        tn := { s.tn with tbState := .locked, everLocked := true, offsets := [] } }
      s.raise 0x0301 [.u16 s.tn.tbParent.toNat, .u32 (toTwos 32 m)]
    else
      let s := if m.natAbs > 100 then s.raise 0x8303 [] else s
      let d := max (-10) (min 10 m)
      { s with tn := { s.tn with
          tbState := if s.tn.tbState = .master then .master else .locked, tbSlew := d, tbRate := d } }

/-- A TIME cell: a request is answered, the parent's answer corrects the counter. An answer carries T3, which a request
leaves zero (R98). It is taken by an assigned chip, from a direct peer alone, on that peer's port (R89, R122). -/
def Chip.takeTime (s : Chip) (port : Nat) (c : Cell) (stamp : Word) : Chip :=
  if c.dest.toNat ≠ s.chipNumber ∨ !(s.tnPorts.contains (port, c.src.toNat)) then s
  else if payloadField c 255 192 ≠ 0 then
    if s.tn.tbParent.toNat = c.src.toNat then s.timeAnswer c stamp else s
  else s.sendTime c.src.toNat (payloadField c 383 320 * 2 ^ 320 + stamp.toNat * 2 ^ 256 + s.timebase.toNat * 2 ^ 192)

def execCellTime (port : Fin 160) (cell : Cell) (stamp : Word) (s : State) : Host.Outcome State Fault Refusal :=
  s.act fun c => c.when (cell.type == 9) fun c =>
    ({ c with tn := { c.tn with ejected := c.tn.ejected.erase cell } } : Chip).takeTime port.val cell stamp

/-- No answer of the parent for 1 ms: holdover (R123). -/
def execTimebaseHoldover (s : State) : Host.Outcome State Fault Refusal :=
  s.act fun c => c.when (c.tn.tbState == .locked) Chip.holdover

/-- TNREADY has changed: a link-control slot with the new value on every TN port (R92). -/
def Chip.readyChange (s : Chip) : Chip :=
  let ports := (s.ports.filter fun e => s.obju O.portRole e.1 == 1 && e.2.state.linked).map (·.1)
  let s := s.each ports fun s p => s.sendCtrl p 0 0
  { s with tn := { s.tn with readySent := s.tnReady } }

/-- The cells of a TN port that the peer has not acknowledged go back to the router; the superframes keep their numbers and are
replayed without them (R124) (DEDUCED log 59). -/
def Chip.unloadPort (s : Chip) (p : Nat) : Chip :=
  let x := s.port p
  (s.setPort p fun x => { x with
    txPending := [], slotsOut := 0, replay := x.replay.map fun r => { r with cells := [] } }).takeBack
    (x.replay.flatMap (·.cells) ++ x.txPending)

/-- No link-control slot for 1 µs: the port is routing-down, and its cells are routed again (R92, R124). -/
def execPortFreshnessExpiry (port : Fin 160) (s : State) : Host.Outcome State Fault Refusal :=
  s.act fun c =>
    let c : Chip := { c with tn := { c.tn with stale := Tab.set false c.tn.stale port.val true } }
    c.when (c.isTnPort port.val) fun c => c.unloadPort port.val

end Sys2Proof.Machine
end

