-- ==== Sys2Proof/Machine/Numerics.lean ====
section
/-! DEFINITION. The element formats, the rules for special values, MX blocks, exact sums, stochastic rounding and the
reductions of collectives (12_numerics, R219, R224, R228). -/

namespace Sys2Proof.Machine

/-! ### Formats (R352–R354) -/

def Fmt.e4m3 : Fmt := ⟨4, 3⟩
def Fmt.e3m2 : Fmt := ⟨3, 2⟩
def Fmt.e2m3 : Fmt := ⟨2, 3⟩
def Fmt.e2m1 : Fmt := ⟨2, 1⟩

/-- The codes of R285. -/
def fmtBits (code : Nat) : Nat :=
  match code with
  | 0 => 32 | 1 => 16 | 2 => 16 | 7 => 6 | 8 => 6 | 9 => 4 | 0xC => 4 | 0xD => 32 | 0xE => 32 | _ => 8

/-- The floating format of a code, with the elements of an MX format. -/
def fmtOf (code : Nat) : Option Fmt :=
  match code with
  | 0 => some .fp32 | 1 => some .bf16 | 2 => some .fp16 | 3 => some .e4m3 | 4 => some .e5m2 | 5 => some .e4m3
  | 6 => some .e5m2 | 7 => some .e3m2 | 8 => some .e2m3 | 9 => some .e2m1 | _ => none

/-- An MX format: blocks of 32 elements with a scale. -/
def fmtMx (code : Nat) : Bool := 5 ≤ code && code ≤ 0xA

/-- The largest magnitude code of a format without infinity; none for the formats with infinity. -/
def satCode (code : Nat) : Option Nat :=
  match code with
  | 3 => some 0x7E | 5 => some 0x7E | 7 => some 0x1F | 8 => some 0x1F | 9 => some 0x7 | _ => none

/-- The value of an element without its block's scale (R353). -/
def elemValue (code bits : Nat) : FVal :=
  match code with
  | 0xA => .fin (signed 8 bits < 0) (signed 8 bits).natAbs (-6)
  | 0xB => .fin (signed 8 bits < 0) (signed 8 bits).natAbs 0
  | 0xC => .fin (signed 4 bits < 0) (signed 4 bits).natAbs 0
  | 0xD => .fin (signed 32 bits < 0) (signed 32 bits).natAbs 0
  | 0xE => .fin false (bits % 2 ^ 32) 0
  | _ =>
    match fmtOf code with
    | none => .nan false
    | some f =>
      match satCode code with
      | none => f.decode bits
      | some _ =>
        let frac := bits % 2 ^ f.mbits
        let ex := bits / 2 ^ f.mbits % 2 ^ f.ebits
        let neg := bits / 2 ^ (f.mbits + f.ebits) % 2 == 1
        if (code = 3 ∨ code = 5) ∧ ex = 15 ∧ frac = 7 then .nan false
        else if ex = 0 then .fin neg frac f.emin
        else .fin neg (2 ^ f.mbits + frac) (f.emin + (ex - 1 : Int))

/-- A value times a power of two. -/
def FVal.scale (v : FVal) (k : Int) : FVal :=
  match v with
  | .fin n m e => .fin n m (e + k)
  | x => x

/-- The block value of an element under a scale byte (R354). -/
def mxValue (code x bits : Nat) : FVal :=
  if x = 0xFF then .nan false else (elemValue code bits).scale ((x : Int) - 127)

/-- The canonical NaN of a floating format (R355). -/
def nanCode (code : Nat) : Nat :=
  match fmtOf code with
  | some f => if (satCode code).isSome then 0x7F else f.qnan
  | none => 0

/-! ### Rounding (R359, R360) -/

/-- Round a finite value to a format without infinity: beyond the largest magnitude it saturates with OF and NX. -/
def Fmt.roundSat (f : Fmt) (top : Nat) (rm : RMode) (neg : Bool) (m : Nat) (e : Int) : Nat × FFlags :=
  if m = 0 then (f.signBit neg, FFlags.none)
  else
    let q := f.place (Nat.log2 m + 1) e
    let (r, inexact) := roundAt rm neg m e false q
    let (r, q) := if r = 2 ^ (f.mbits + 1) then (2 ^ f.mbits, q + 1) else (r, q)
    let ex := if r < 2 ^ f.mbits then 0 else (q - f.emin).toNat + 1
    let code := ex * 2 ^ f.mbits + (if r < 2 ^ f.mbits then r else r - 2 ^ f.mbits)
    if code > top then (f.signBit neg + top, ⟨false, false, true, false, true⟩)
    else (f.signBit neg + code, ⟨false, false, false, f.tiny rm neg m e false && inexact, inexact⟩)

/-- A value rounded to a floating format by its code (R360). -/
def roundTo (code : Nat) (rm : RMode) (v : FVal) : Nat × FFlags :=
  match fmtOf code with
  | none => (0, FFlags.none)
  | some f =>
    match satCode code with
    | none => f.round rm v
    | some top =>
      match v with
      | .fin n m e => f.roundSat top rm n m e
      | .inf _ => (nanCode code, FFlags.invalid)
      | .nan s => (nanCode code, if s then FFlags.invalid else FFlags.none)

/-! ### Integers -/

/-- A finite value rounded to an integer: the integer, and whether it is inexact. -/
def roundInt (rm : RMode) (neg : Bool) (m : Nat) (e : Int) : Int × Bool :=
  let (r, inexact) := roundAt rm neg m e false 0
  (if neg then -(r : Int) else r, inexact)

/-! ### MIN and MAX (R357) -/

/-- a is less than b; −0 is less than +0. Neither is NaN. -/
def FVal.below (a b : FVal) : Bool :=
  match a, b with
  | .inf n, .inf n' => n && !n'
  | .inf n, _ => n
  | _, .inf n => !n
  | .fin n m e, .fin n' m' e' =>
    if m = 0 ∧ m' = 0 then n && !n' else dyLt (FVal.int (.fin n m e)) (FVal.int (.fin n' m' e'))
  | _, _ => false

/-- minimumNumber or maximumNumber of two encodings of a format. -/
def minMax (code : Nat) (max : Bool) (a b : Nat) : Nat × FFlags :=
  let va := elemValue code a
  let vb := elemValue code b
  let fl := if va.isSnan || vb.isSnan then FFlags.invalid else FFlags.none
  let r :=
    if va.isNan && vb.isNan then nanCode code
    else if va.isNan then b
    else if vb.isNan then a
    else if max then (if va.below vb then b else a)
    else (if vb.below va then b else a)
  (r, fl)

/-! ### Exact sums (R358) -/

/-- The exact sum of terms, with NV for a signalling NaN or infinities of both signs. -/
def exactSum (rm : RMode) (l : List FVal) : FVal × FFlags :=
  let pos := l.any fun v => v == .inf false
  let neg := l.any fun v => v == .inf true
  let nv := l.any (·.isSnan) || (pos && neg && !(l.any (·.isNan)))
  let fl := if nv then FFlags.invalid else FFlags.none
  if l.any (·.isNan) || (pos && neg) then (.nan false, fl)
  else if pos then (.inf false, fl)
  else if neg then (.inf true, fl)
  else
    let d := l.foldl (fun d v => dyAdd d v.int) (0, 0)
    let minus := (!l.isEmpty && l.all fun v => v.isZero && v.neg?) || (rm == .rdn && l.any fun v => !v.isZero)
    (FVal.ofDy minus d, fl)

/-! ### MX blocks (R361, R362) -/

/-- The largest-normal exponent of an MX element format. -/
def mxEmax (code : Nat) : Int :=
  match code with
  | 5 => 8 | 6 => 15 | 7 => 4 | 8 => 2 | 9 => 2 | _ => 0

/-- The exponent of a value's leading one. -/
def FVal.log2 : FVal → Int
  | .fin _ m e => (Nat.log2 m : Int) + e
  | _ => 0

/-- A larger magnitude. -/
def FVal.magBelow (a b : FVal) : Bool :=
  match a, b with
  | .fin _ m e, .fin _ m' e' => dyLt (m, e) (m', e')
  | _, _ => false

/-- One element of a block under a scale, rounded and saturated as R360 has it for its format: MXFP8 E5M2 has infinity
(DEDUCED log 28). -/
def mxElem (code : Nat) (rm : RMode) (x : Int) (v : FVal) : Nat × FFlags :=
  match v.scale (-x) with
  | .fin n m e =>
    if code = 0xA then
      let (k, inexact) := roundInt rm n m (e + 6)
      let c := min (max k (-128)) 127
      (toTwos 8 c, ⟨false, false, c != k, false, inexact || c != k⟩)
    else
      let (b, fl) := roundTo code rm (.fin n m e)
      (b, { fl with uf := false })
  | _ => (0, FFlags.none)

/-- A block of FP32 values, none for a masked element, as a scale byte and element encodings. -/
def mxEncode (code : Nat) (rm : RMode) (vs : List (Option FVal)) : Nat × List (Option Nat) × FFlags :=
  let act := vs.filterMap id
  if act.any fun v => v.isNan || v == .inf false || v == .inf true then
    (0xFF, vs.map fun v => v.map fun _ => 0,
     if act.any (·.isSnan) then FFlags.invalid else FFlags.none)
  else
    let amax := act.foldl (fun a v => if FVal.magBelow a v then v else a) (.fin false 0 0)
    let x : Nat := if amax.isZero then 0 else (min (max (amax.log2 - mxEmax code + 127) 0) 254).toNat
    let r := vs.map fun v => v.map fun v => mxElem code rm ((x : Int) - 127) v
    (x, r.map fun v => v.map (·.1), r.foldl (fun f v => match v with
      | some v => f.join v.2
      | none => f) FFlags.none)

/-- An element of a block as FP32 (R362). -/
def mxDecode (code : Nat) (rm : RMode) (x bits : Nat) : Nat × FFlags :=
  if x = 0xFF then (Fmt.fp32.qnan, FFlags.invalid) else Fmt.fp32.round rm (mxValue code x bits)

/-! ### Stochastic rounding (R228, R368, R369) -/

def mix (z : Word) : Word :=
  let z := (z ^^^ (z >>> 30)) * 0xBF58476D1CE4E5B9
  let z := (z ^^^ (z >>> 27)) * 0x94D049BB133111EB
  z ^^^ (z >>> 31)

/-- The random bits of an element of a pass. -/
def srBits (seed : Word) (tensor : Word32) (index : Word) (pass : Word32) : Word32 :=
  let h := mix (seed ^^^ 0x53524E4744330001)
  let h := mix (h ^^^ ((tensor.setWidth 64 <<< 32) ||| pass.setWidth 64))
  let h := mix (h ^^^ index)
  let h := mix (h ^^^ 0x9E3779B97F4A7C15)
  (h >>> 32).setWidth 32

/-- A finite non-zero magnitude m × 2^e rounded to a format by the random bits u (DEDUCED log 41). -/
def Fmt.roundSr (f : Fmt) (u : Nat) (neg : Bool) (m : Nat) (e : Int) : Nat × FFlags :=
  if m = 0 then (f.signBit neg, FFlags.none)
  else
    let q := f.place (Nat.log2 m + 1) e
    let (t, frac, inexact) : Nat × Nat × Bool :=
      if q ≤ e then (m * 2 ^ (e - q).toNat, 0, false)
      else
        let k := (q - e).toNat
        (m / 2 ^ k, m % 2 ^ k * 2 ^ 32 / 2 ^ k, m % 2 ^ k != 0)
    let r := if inexact && u < frac then t + 1 else t
    let (r, q) := if r = 2 ^ (f.mbits + 1) then (2 ^ f.mbits, q + 1) else (r, q)
    let ex := if r < 2 ^ f.mbits then 0 else (q - f.emin).toNat + 1
    if ex ≥ 2 ^ f.ebits - 1 then (f.infBits neg, ⟨false, false, true, false, true⟩)
    else
      (f.signBit neg + ex * 2 ^ f.mbits + (if r < 2 ^ f.mbits then r else r - 2 ^ f.mbits),
       ⟨false, false, false, false, inexact⟩)

/-! ### The reductions of collectives (R219, R224) -/

/-- Bytes of an element. -/
def dtypeBytes (d : Nat) : Nat :=
  match d with
  | 0 => 1 | 1 => 4 | 2 => 8 | 3 => 4 | 4 => 8 | 5 => 4 | 6 => 2 | _ => 2

/-- The format code of a floating DTYPE. -/
def dtypeFmt (d : Nat) : Option Nat :=
  match d with
  | 5 => some 0 | 6 => some 1 | 7 => some 2 | _ => none

/-- Whether R219 allows an operator for a type. -/
def redopAllowed (d op : Nat) : Bool :=
  if d = 0 then false else if d ≤ 4 then op ≤ 5 else d ≤ 7 && op ≤ 2

/-- a ⊕ b of two elements. -/
def combine (d op a b : Nat) : Nat :=
  match dtypeFmt d with
  | some code =>
    if op = 0 then (roundTo code .rne (exactSum .rne [elemValue code a, elemValue code b]).1).1
    else (minMax code (op == 2) a b).1
  | none =>
    let w := 8 * dtypeBytes d
    let sgn := d == 1 || d == 2
    let less (x y : Nat) : Bool := if sgn then signed w x < signed w y else x < y
    match op with
    | 0 => (a + b) % 2 ^ w
    | 1 => if less b a then b else a
    | 2 => if less a b then b else a
    | 3 => a &&& b
    | 4 => a ||| b
    | _ => a ^^^ b

/-- ⊕ on the elements of two equally long runs of bytes. -/
def combineBytes (d op : Nat) : Nat → List Byte → List Byte → List Byte
  | 0, _, _ => []
  | n + 1, a, b =>
    let e := dtypeBytes d
    if a.isEmpty then []
    else leBytes e (combine d op (leNat (a.take e)) (leNat (b.take e))) ++ combineBytes d op n (a.drop e) (b.drop e)

def reduceBytes (d op : Nat) (a b : List Byte) : List Byte := combineBytes d op a.length a b

end Sys2Proof.Machine
end

