-- ==== Sys2Proof/Machine/Coll.lean ====
section
/-! DEFINITION. Communicators and collectives (07_collectives): binding, the flat algorithm, reduction in member order,
signatures, padded all-to-all, the early-arrival store and every way a collective ends. -/

namespace Sys2Proof.Machine

/-! ### Memories a range may lie in (R179) -/

/-- HBM, the withdrawn part with it (R267), the cellar, and the row of core memories. -/
def Region.memory : Region → Option Nat
  | .hbm _ => some 0 | .withdrawn => some 0 | .cellar => some 1 | .coreMem => some 2 | _ => none

/-- A range, or the one byte of an empty one, lies in one memory that `ok` allows. -/
def Chip.oneMemory (s : Chip) (ok : Nat → Bool) (a len : Nat) : Bool :=
  match (s.region a).memory with
  | some k => ok k && s.rangeAll (fun r => r.memory == some k) a (max len 1)
  | none => false

/-- HBM or core memory. -/
def hbmOrCore (k : Nat) : Bool := k != 1

/-! ### Communicator slots (R213) -/

def Chip.comm (s : Chip) (n : Nat) : CommSlot := Tab.get CommSlot.zero s.coll.comms n
def Chip.setComm (s : Chip) (n : Nat) (v : CommSlot) : Chip :=
  { s with coll := { s.coll with comms := Tab.set CommSlot.zero s.coll.comms n v } }

/-- The collectives in flight on a slot. -/
def Chip.inflightOn (s : Chip) (n : Nat) : List Collective := s.coll.active.filter (·.slot == n)

/-- A descriptor (R213). -/
def Chip.commBits (s : Chip) (n : Nat) : Nat :=
  let v := s.comm n
  v.enable.toNat * 2 ^ 511 + v.commId.toNat * 2 ^ 495 + v.nmembers.toNat * 2 ^ 482 + v.myIndex.toNat * 2 ^ 470 +
  v.members.toNat * 2 ^ 384 + v.errBase.toNat * 2 ^ 320 + v.membersHash.toNat * 2 ^ 288 + v.nextSeq.toNat * 2 ^ 256 +
  v.startSeq.toNat * 2 ^ 224 + v.state.code * 2 ^ 216 + (s.inflightOn n).length * 2 ^ 208

/-- The slot that holds a COMM_ID. -/
def Chip.slotOf (s : Chip) (id : Half) : Option (Nat × CommSlot) :=
  s.coll.comms.find? fun e => e.2.state != .unbound && e.2.commId == id

/-- MEMBERS_HASH of a member list (R228). -/
def membersHash (l : List Half) : Word32 :=
  (l.foldl (fun h m => mix (h ^^^ m.setWidth 64)) 0x44584E33C0110001#64).setWidth 32

/-- The first check of R214 that a binding fails. -/
def Chip.commCheck (s : Chip) (n : Nat) (v : CommSlot) : Option Nat :=
  let len := v.nmembers.toNat
  let list := v.members.toNat
  let ring := v.errBase.toNat
  if list % 64 ≠ 0 ∨ ring % 1024 ≠ 0 ∨ !(s.oneMemory hbmOrCore list (2 * len)) ∨ !(s.oneMemory hbmOrCore ring 1024) ∨
      s.rangeWithdrawn list (2 * len) ∨ s.rangeWithdrawn ring 1024 then some 1
  else if s.coll.comms.any fun e => e.1 != n && e.2.state != .unbound && e.2.commId == v.commId then some 2
  else if len = 0 ∨ len > 4096 ∨ v.myIndex.toNat ≥ len then some 3
  else
    let (_, r) := s.read list (2 * len) 0
    let ids := (List.range len).map fun i => BitVec.ofNat 16 (leNat (((readData r).drop (2 * i)).take 2))
    if readPoison r || !(ids.all fun m => s.inDomain m.toNat) || ids.eraseDups.length ≠ len then some 4
    else if !(s.objb O.chipAssigned) || (nth 0 ids v.myIndex.toNat).toNat ≠ s.chipNumber then some 5
    else none

/-- A write of bytes 56–63 with ENABLE 1 (R214, R215). -/
def Chip.commBind (s : Chip) (n : Nat) (w : Word) : Chip :=
  let v := s.comm n
  if v.state = .draining then s
  else if v.state ≠ .unbound then s.raise 0x4701 [.u16 n, .u8 6]
  else
    let v := { v with commId := w.extractLsb' 47 16, nmembers := w.extractLsb' 34 13, myIndex := w.extractLsb' 22 12 }
    match s.commCheck n v with
    | some k => (s.setComm n v).raise 0x4701 [.u16 n, .u8 k]
    | none =>
      let (s, r) := s.read v.members.toNat (2 * v.nmembers.toNat) 0
      let ids := (List.range v.nmembers.toNat).map fun i => BitVec.ofNat 16 (leNat (((readData r).drop (2 * i)).take 2))
      s.setComm n { v with enable := true, state := .bound, nextSeq := v.startSeq, membersHash := membersHash ids, list := ids }

/-- A drained slot is Unbound: what the early-arrival store held for it is discarded (R215). -/
def Chip.commSettle (s : Chip) (n : Nat) : Chip :=
  let v := s.comm n
  if v.state = .draining && (s.inflightOn n).isEmpty then
    let gone := s.coll.early.filter fun e => e.comm == some v.commId
    let s : Chip := { s with coll := { s.coll with early := s.coll.early.filter fun e => e.comm != some v.commId } }
    (s.bump O.earlyDiscards gone.length).setComm n { v with state := .unbound, list := [] }
  else s

/-! ### COLLECTIVEs that have not taken a sequence (R215, R220, R221) -/

/-- The body of a COLLECTIVE (R217). -/
def collCmdOf (e : QEntry) : CollCmd :=
  { src := e.field 511 468, dst := e.field 467 424, count := e.field 423 392, commId := BitVec.ofNat 16 (e.field 391 376),
    op := e.field 375 372, dtype := e.field 371 367, redop := e.field 366 364, rootRow := e.field 363 352,
    capacity := e.field 351 320, arrivalOrder := e.field 8 8 == 1, bulk := e.field 27 27 == 1, hint := e.hint }

/-- Why a COLLECTIVE on a communicator cannot run any more: the slot drains or is gone (R215), or it is Failed (R220). -/
def Chip.collBlocked (s : Chip) (id : Half) : Option Status :=
  match s.slotOf id with
  | none => some .refused
  | some (_, v) => if v.state = .draining then some .refused else if v.state = .failed then some .memberFailed else none

/-- A command waits for a context no longer. -/
def Chip.dropCollWait (s : Chip) (q : Nat) (num : Word32) : Chip :=
  { s with coll := { s.coll with waiting := s.coll.waiting.filter fun w => !(w.queue == q && w.num == num) } }

/-- A COLLECTIVE completes without having taken a sequence. -/
def Chip.collGiveUp (s : Chip) (q : Nat) (num : Word32) (st : Status) : Chip :=
  (s.dropCollWait q num).setEntry q num fun e => { e with phase := .finished, status := st }

/-- The COLLECTIVE at a queue's head that still waits on counters completes where its communicator is blocked. -/
def Chip.collBlockHead (s : Chip) (q : Nat) : Chip :=
  match (s.queueAt q).head with
  | some e =>
    if e.phase = .waiting && e.opcode = 8 then
      match s.collBlocked (collCmdOf e).commId with
      | some st => ((((s.dropWaits (.queue q)).collGiveUp q e.num st).setQueue q fun v => { v with aged := false })).stampHead q
      | none => s
    else s
  | none => s

/-- A communicator that is blocked refuses what waits for it at once, at a queue's head or for a context (DEDUCED log 159). -/
def Chip.collSweep (s : Chip) : Chip :=
  let s := s.each s.coll.waiting fun s w => match s.collBlocked w.cmd.commId with
    | some st => s.collGiveUp w.queue w.num st
    | none => s
  s.each (s.queues.map (·.1)) Chip.collBlockHead

/-- A write of bytes 56–63 with ENABLE 0 (R215). -/
def Chip.commUnbind (s : Chip) (n : Nat) : Chip :=
  let v := s.comm n
  if v.state = .bound ∨ v.state = .failed then
    let k := (s.inflightOn n).length
    let s := (s.setComm n { v with enable := false, state := .draining }).collSweep
    let s := if k > 0 then s.raise 0x0701 [.u16 n, .u32 k] else s
    s.commSettle n
  else s

/-- A write to a descriptor: bytes 0–55 while ENABLE is 0, bytes 56–63 as a whole (R214). -/
def Chip.commWrite (s : Chip) (n off len : Nat) (x : Nat) : Chip :=
  if off ≥ 56 then
    if len = 8 then
      let w := BitVec.ofNat 64 x
      if w.getLsbD 63 then s.commBind n w else s.commUnbind n
    else s
  else
    let v := s.comm n
    if v.enable then s
    else
      let b := setBits (s.commBits n) (8 * (off + len) - 1) (8 * off) x
      s.setComm n { v with
        members := BitVec.ofNat 64 (bitsOf b 447 384), errBase := BitVec.ofNat 64 (bitsOf b 383 320)
        startSeq := BitVec.ofNat 32 (bitsOf b 255 224) }

def execCommBind (slot : Fin 4096) (word : Word) (s : State) : Host.Outcome State Fault Refusal :=
  s.act fun c => c.when (word.getLsbD 63) fun c => c.commBind slot.val word

def execCommUnbind (slot : Fin 4096) (word : Word) (s : State) : Host.Outcome State Fault Refusal :=
  s.act fun c => c.when (!word.getLsbD 63) fun c => c.commUnbind slot.val

/-! ### The command (R217–R220) -/

/-- The operations of R218. -/
def CollCmd.bytes (c : CollCmd) : Nat := c.count * dtypeBytes c.dtype
def CollCmd.rowBytes (c : CollCmd) : Nat := (c.rootRow + 1) * dtypeBytes c.dtype
def CollCmd.reduces (c : CollCmd) : Bool := c.op == 0 || c.op == 1 || c.op == 4
/-- The source header of ALLTOALL_PADDED (R230). -/
def padHeader (n : Nat) : Nat := (4 * n + 63) / 64 * 64

/-- Bytes of the source and of the destination, for N members. -/
def CollCmd.srcLen (c : CollCmd) (n : Nat) : Nat :=
  if c.op = 1 ∨ c.op = 5 then n * c.bytes else if c.op = 6 then padHeader n else c.bytes
def CollCmd.dstLen (c : CollCmd) (n : Nat) : Nat :=
  if c.op = 2 ∨ c.op = 5 then n * c.bytes else if c.op = 6 then c.capacity * c.rowBytes + 12 * n else c.bytes

/-- Why a COLLECTIVE completes at its head without a sequence (R220, R267). -/
def Chip.collCheck (s : Chip) (e : QEntry) : Option Status :=
  let c := collCmdOf e
  match s.slotOf c.commId with
  | none => some .refused
  | some (_, v) =>
    let n := v.nmembers.toNat
    let me := v.myIndex.toNat
    let sl := c.srcLen n
    let dl := c.dstLen n
    let badOp := c.op ≥ 7 || c.dtype ≥ 8 || c.redop ≥ 6 ||
      (if c.reduces then !(redopAllowed c.dtype c.redop) else c.redop != 0)
    let badRoot := if c.op = 3 ∨ c.op = 4 then c.rootRow ≥ n else c.op != 6 && c.rootRow != 0
    let badCap := if c.op = 6 then c.capacity == 0 || c.count != 0 else c.capacity != 0
    let badRange := !(s.oneMemory hbmOrCore c.src sl) || !(s.oneMemory hbmOrCore c.dst dl)
    let same := c.src == c.dst && sl == dl
    let inPlace := (c.op == 2 && c.src == c.dst + me * c.bytes) || (c.op == 1 && c.dst == c.src + me * c.bytes)
    let badOverlap := (rangesOverlap c.src sl c.dst dl && !same && !inPlace) || (c.src == c.dst && (c.op == 5 || c.op == 6))
    if badOp || badRoot || badCap || badRange || badOverlap || (c.arrivalOrder && !c.reduces) || v.state = .draining then
      some .refused
    else if c.arrivalOrder && s.objb O.detMode then some .refused
    else if v.state = .failed then some .memberFailed
    else if s.rangeWithdrawn c.src sl || s.rangeWithdrawn c.dst dl then some .mappedOut
    else none
where
  rangesOverlap (a la b lb : Nat) : Bool := la > 0 && lb > 0 && a < b + lb && b < a + la

/-- A COLLECTIVE that DET_MODE alone refuses (R373). -/
def Chip.collDet (s : Chip) (e : QEntry) : Bool :=
  (collCmdOf e).arrivalOrder && s.objb O.detMode && (s.setObj O.detMode 0).collCheck e != some .refused

/-! ### Signatures (R228) -/

def collSignature (c : CollCmd) (v : CommSlot) (seq : Word32) : Word :=
  let w (n : Nat) : Word := BitVec.ofNat 64 n
  [w (c.commId.toNat + v.nmembers.toNat * 2 ^ 16 + v.membersHash.toNat * 2 ^ 32), w seq.toNat,
   w (c.op + c.redop * 16 + c.arrivalOrder.toNat * 128), w c.dtype, w c.count, w c.rootRow, w c.capacity].foldl
    (fun h x => mix (h ^^^ x)) 0x44584E33C0110001#64

/-! ### Cells (R226, R227) -/

def pieceBytes : Nat := 48
def piecesOf (len : Nat) : Nat := (len + 47) / 48

def collData (phase : Nat) (seq : Word32) (piece : Nat) (bs : List Byte) : Cell :=
  { cellBlank with type := 5, len := BitVec.ofNat 6 bs.length, payload := payloadOf bs
                   offset := BitVec.ofNat 42 (phase * 2 ^ 41 + seq.toNat % 64 * 2 ^ 35 + piece) }
def collPhase (c : Cell) : Nat := bitsOf c.offset.toNat 41 41
def collCseq (c : Cell) : Nat := bitsOf c.offset.toNat 40 35
def collPiece (c : Cell) : Nat := bitsOf c.offset.toNat 34 0

def collCtrl (kind : Nat) (id : Half) (seq : Word32) (rest : Nat) : Cell :=
  { cellBlank with type := 6, payload := BitVec.ofNat 384 (kind * 2 ^ 376 + id.toNat * 2 ^ 360 + seq.toNat * 2 ^ 328 + rest) }
def ctrlKind (c : Cell) : Nat := payloadField c 383 376
def ctrlComm (c : Cell) : Half := BitVec.ofNat 16 (payloadField c 375 360)
def ctrlSeq (c : Cell) : Word32 := BitVec.ofNat 32 (payloadField c 359 328)

/-- NAMED and NAMES, with unused entries 0xFFF (R227, R237). -/
def namesField (l : List Nat) : Nat :=
  (List.range 8).foldl (fun n i => n * 4096 + nth 0xFFF l i % 4096) 0
def namesOf (c : Cell) : List Nat :=
  ((List.range 8).map fun i => payloadField c (294 - 12 * i) (283 - 12 * i)).filter (· != 0xFFF)

/-! ### Running collectives -/

def Chip.collOf (s : Chip) (slot : Nat) (seq : Word32) : Option Collective :=
  s.coll.active.find? fun c => c.slot == slot && c.seq == seq
def Chip.setColl (s : Chip) (c : Collective) : Chip :=
  { s with coll := { s.coll with active := s.coll.active.map fun x => if x.slot = c.slot && x.seq = c.seq then c else x } }

/-- The other members, from this one on (R222). -/
def CommSlot.others (v : CommSlot) : List Nat :=
  let n := v.nmembers.toNat
  (List.range (n - 1)).map fun i => (v.myIndex.toNat + 1 + i) % n

def CommSlot.chip (v : CommSlot) (m : Nat) : Half := nth 0 v.list m
def CommSlot.indexOf (v : CommSlot) (chip : Half) : Option Nat :=
  if v.list.contains chip then some (v.list.idxOf chip) else none

/-- A cell of a collective to a member, on the stream bound at the start, or on one bound now where DEST_RELEASE freed that
(DEDUCED log 136). -/
def Chip.collSend (s : Chip) (slot : Nat) (v : CommSlot) (m : Nat) (c : Cell) (w : Work) : Chip :=
  match s.streamOf (.coll slot) (v.chip m) with
  | some (n, _) => s.sendCells n [(c, w)]
  | none => match s.bindStream (.coll slot) (v.chip m) with
    | (s, some n) => s.sendCells n [(c, w)]
    | (s, none) => s

/-- Data cells of a sequence that have no SEQ yet are never sent. -/
def Chip.collMute (s : Chip) (slot : Nat) (seq : Word32) : Chip :=
  let f (x : SendStream) : SendStream := { x with pend := x.pend.filter fun t => t.work != .coll slot seq || t.cell.type != 5 }
  { s with tn := { s.tn with streams := s.tn.streams.map fun e => (e.1, e.2.map f) } }

/-- ABORT to members (R227). -/
def Chip.sendAborts (s : Chip) (c : Collective) (v : CommSlot) (dests : List Nat) (reason : Status) (detector named : Nat)
    (names : List Nat) : Chip :=
  let rest := reason.code.toNat * 2 ^ 320 + detector * 2 ^ 308 + named * 2 ^ 295 + namesField names * 2 ^ 199
  s.each dests fun s m => s.collSend c.slot v m (collCtrl 3 v.commId c.seq rest) .none

/-- The lateness of a collective that ends: which member's START came last, and the spread (R238). -/
def Chip.noteLate (s : Chip) (c : Collective) (v : CommSlot) : Chip :=
  let last := match c.starts.getLast? with
    | some r => if c.selfLast then v.myIndex.toNat else r.member
    | none => v.myIndex.toNat
  let spread := match c.starts.head?, c.starts.getLast? with
    | some a, some b => b.time - a.time
    | _, _ => 0
  let e : LateEntry := ⟨v.commId, c.seq, BitVec.ofNat 12 last, c.selfLast, spread⟩
  { s with coll := { s.coll with lateRing := Tab.set LateEntry.zero s.coll.lateRing s.coll.lateNext e,
                                 lateNext := (s.coll.lateNext + 1) % 1024 } }

/-- A held cell belongs to a sequence. -/
def EarlyCell.ofSeq (e : EarlyCell) (id : Half) (seq : Word32) : Bool :=
  e.comm == some id && (if e.cell.type = 6 then ctrlSeq e.cell == seq else collCseq e.cell == seq.toNat % 64)

/-- A collective ends: its context and its held cells are freed, its command has its status (R223, R237). -/
def Chip.collEnd (s : Chip) (c : Collective) (v : CommSlot) (st : Status) (segMap : Nat) : Chip :=
  let s := (s.collMute c.slot c.seq).noteLate c v
  let s : Chip := { s with coll := { s.coll with
      active := s.coll.active.filter fun x => !(x.slot == c.slot && x.seq == c.seq)
      early := s.coll.early.filter fun e => !(e.ofSeq v.commId c.seq) } }
  let s := s.setQueue c.queue fun q => q.setEntry c.num fun e =>
    { e with phase := .finished, status := st, detail := c.seq.setWidth 24, segMap := some (BitVec.ofNat 64 segMap) }
  s.commSettle c.slot

/-- The 64-byte error record (R237). -/
def Chip.errorRecord (s : Chip) (c : Collective) (v : CommSlot) (st : Status) (detector named : Nat) (names : List Nat)
    (other : Word) : Chip :=
  let r := c.seq.toNat * 2 ^ 480 + v.commId.toNat * 2 ^ 464 + st.code.toNat * 2 ^ 456 + c.cmd.op * 2 ^ 452 +
    detector * 2 ^ 436 + named * 2 ^ 423 + namesField names * 2 ^ 320 + c.sig.toNat * 2 ^ 256 + other.toNat * 2 ^ 192 +
    c.tStart.toNat * 2 ^ 128 + s.timebase.toNat * 2 ^ 64
  s.write (v.errBase.toNat + 64 * (c.seq.toNat % 16)) (leBytes 64 r) false 0

/-- A collective fails: its error record, then its end. Where nobody is named, the first named member reads as an unused
name (DEDUCED log 133). -/
def Chip.collFail (s : Chip) (c : Collective) (v : CommSlot) (st : Status) (detector named : Nat) (names : List Nat)
    (other : Word) : Chip :=
  let seg := if st = .refused then 0 else (names.head?.getD 0xFFF) + detector * 2 ^ 16
  (s.errorRecord c v st detector named names other).collEnd c v st seg

/-- This member's own failure of a collective: ABORT to the others, naming itself (R222, R230, R235). -/
def Chip.collAbortSelf (s : Chip) (c : Collective) (v : CommSlot) (st : Status) : Chip :=
  let me := v.myIndex.toNat
  let names := if st = .poisoned then [me] else []
  ((s.collMute c.slot c.seq).sendAborts c v v.others st me names.length names).collFail c v st me names.length names 0

/-! ### Blocks and messages (R218, R222) -/

/-- The block of an owner within the source: offset and length. -/
def CollCmd.block (c : CollCmd) (n j : Nat) : Nat × Nat :=
  let e := dtypeBytes c.dtype
  if c.op = 0 then
    let lo := j * c.count / n
    (lo * e, ((j + 1) * c.count / n - lo) * e)
  else if c.op = 1 then (j * c.bytes, c.bytes)
  else if c.op = 4 ∧ j = c.rootRow then (0, c.bytes)
  else (0, 0)

/-- What this member sends to member m at its start: phase, source offset, length. -/
def CollCmd.message (c : CollCmd) (n me m : Nat) : Option (Nat × Nat × Nat) :=
  if c.reduces then some (0, (c.block n m).1, (c.block n m).2)
  else if c.op = 2 then some (1, 0, c.bytes)
  else if c.op = 3 then (if me = c.rootRow then some (1, 0, c.bytes) else none)
  else if c.op = 5 then some (1, m * c.bytes, c.bytes)
  else none

/-- The bytes of a member's grant (R231). -/
def Collective.givenTo (c : Collective) (i : Nat) : Option GrantRec := c.given.find? (·.member == i)

/-- What DST is to receive in phase 1 from member i: where it goes, and its length. -/
def Collective.inbound (c : Collective) (n me i : Nat) : Nat × Nat :=
  let k := c.cmd
  if i = me then (0, 0)
  else if k.op = 0 then ((k.block n i).1, (k.block n i).2)
  else if k.op = 2 ∨ k.op = 5 then (i * k.bytes, k.bytes)
  else if k.op = 3 then (if i = k.rootRow then (0, k.bytes) else (0, 0))
  else if k.op = 6 then
    match c.givenTo i with
    | some g => (g.rowOffset * k.rowBytes, g.kept * k.rowBytes)
    | none => (0, 0)
  else (0, 0)

/-- Where an owner writes its results in DST. -/
def CollCmd.resultAt (c : CollCmd) (n me : Nat) : Nat := if c.op = 0 then (c.block n me).1 else 0

/-- Bytes of a source range, read once with the command's HINT (R250); none if any of them is poisoned. -/
def Chip.collRead (s : Chip) (k : CollCmd) (a len : Nat) : Chip × Option (List Byte) :=
  let (s, r) := s.read a len k.hint
  (s, if readPoison r then none else some (readData r))

/-- Bytes that reach DST go to the mirror as well: a shadow runs no collective of its own (R489, DEDUCED log 31). What this
member moves itself carries the command's HINT, a cell's data NORMAL (R250). -/
def Chip.collStore (s : Chip) (hint : BitVec 2) (a : Nat) (bs : List Byte) : Chip := (s.write a bs false hint).noteMirror (.write a bs)

/-! ### The owner (R224, R225) -/

def Collective.piece (c : Collective) (k : Nat) : Option PieceAcc := c.pieces.find? (·.piece == k)

/-- One contribution is applied to a piece. -/
def PieceAcc.apply (p : PieceAcc) (cmd : CollCmd) (member : Nat) (bs : List Byte) : PieceAcc :=
  { p with applied := p.applied ++ [member]
           acc := if p.applied.isEmpty then bs else reduceBytes cmd.dtype cmd.redop p.acc bs }

/-- The held contribution of member i to piece k. -/
def Chip.heldContribution (s : Chip) (c : Collective) (v : CommSlot) (i k : Nat) : Option EarlyCell :=
  s.coll.early.find? fun e => e.cell.type == 5 && e.ofSeq v.commId c.seq && collPhase e.cell == 0 && collPiece e.cell == k &&
    e.cell.src == v.chip i

/-- The length of piece k of a message. -/
def pieceLen (len k : Nat) : Nat := min 48 (len - 48 * k)

/-- A piece is reduced over every member: it goes to DST, and for ALLREDUCE to every other member. -/
def Chip.pieceResult (s : Chip) (c : Collective) (v : CommSlot) (p : PieceAcc) : Chip :=
  let n := v.nmembers.toNat
  let s := s.collStore c.cmd.hint (c.cmd.dst + c.cmd.resultAt n v.myIndex.toNat + 48 * p.piece) p.acc
  if c.cmd.op = 0 then
    s.each v.others fun s m => s.collSend c.slot v m (collData 1 c.seq p.piece p.acc) (.coll c.slot c.seq)
  else s

/-- Contributions that are next in member order are applied: the own one, and those the store holds. The second result
is false if the own one was read poisoned. -/
def Chip.advancePiece (slot : Nat) (seq : Word32) (k : Nat) : Nat → Chip → Chip × Bool
  | 0, s => (s, true)
  | fuel + 1, s =>
    match s.collOf slot seq with
    | none => (s, true)
    | some c =>
      let v := s.comm slot
      let n := v.nmembers.toNat
      let me := v.myIndex.toNat
      match c.piece k with
      | none => (s, true)
      | some p =>
        let put (s : Chip) (i : Nat) (bs : List Byte) : Chip :=
          let p := p.apply c.cmd i bs
          let s := s.setColl { c with pieces := c.pieces.map fun x => if x.piece = k then p else x }
          if p.applied.length = n then s.pieceResult c v p else s
        let i := if c.cmd.arrivalOrder then (if p.applied.contains me then n else me) else p.applied.length
        if i ≥ n then (s, true)
        else if i = me then
          let (o, len) := c.cmd.block n me
          match s.collRead c.cmd (c.cmd.src + o + 48 * k) (pieceLen len k) with
          | (s, none) => (s, false)
          | (s, some bs) => Chip.advancePiece slot seq k fuel (put s me bs)
        else
          match s.heldContribution c v i k with
          | none => (s, true)
          | some e =>
            let s : Chip := { s with coll := { s.coll with early := s.coll.early.erase e } }
            Chip.advancePiece slot seq k fuel (put s i (fit (pieceLen (c.cmd.block n me).2 k) (cellBytes e.cell)))

/-! ### Padded all-to-all (R230, R231) -/

/-- The rows for member j within the source. -/
def Collective.rowsFor (c : Collective) (v : CommSlot) (j : Nat) : Nat :=
  padHeader v.nmembers.toNat + (c.offers.take j).foldl (· + ·) 0 * c.cmd.rowBytes

/-- A grant: rows go out, or for the own grant move locally. False if a row was read poisoned. -/
def Chip.collGrant (s : Chip) (c : Collective) (v : CommSlot) (j kept rowOffset : Nat) : Chip × Bool :=
  if c.grants.any (·.member == j) then (s, true)
  else
    let kept := min kept (nth 0 c.offers j)
    let s := s.setColl { c with grants := c.grants ++ [⟨j, kept, rowOffset⟩] }
    let len := kept * c.cmd.rowBytes
    match s.collRead c.cmd (c.cmd.src + c.rowsFor v j) len with
    | (s, none) => (s, false)
    | (s, some bs) =>
      if j = v.myIndex.toNat then (s.collStore c.cmd.hint (c.cmd.dst + rowOffset * c.cmd.rowBytes) bs, true)
      else
        (s.each (List.range (piecesOf len)) fun s k =>
          s.collSend c.slot v j (collData 1 c.seq k (slice bs (48 * k) (pieceLen len k))) (.coll c.slot c.seq), true)

/-- What member i offers this member, once known. -/
def Collective.offered (c : Collective) (v : CommSlot) (i : Nat) : Option Nat :=
  if i = v.myIndex.toNat then some (nth 0 c.offers i)
  else (c.starts.find? (·.member == i)).map (·.offered.toNat)

/-- Grants in source order, as far as the offers are known. -/
def Chip.advanceGrants (slot : Nat) (seq : Word32) : Nat → Chip → Chip × Bool
  | 0, s => (s, true)
  | fuel + 1, s =>
    match s.collOf slot seq with
    | none => (s, true)
    | some c =>
      let v := s.comm slot
      let i := c.given.length
      if c.cmd.op ≠ 6 ∨ c.gathering ∨ i ≥ v.nmembers.toNat then (s, true)
      else
        match c.offered v i with
        | none => (s, true)
        | some o =>
          let kept := min o (c.cmd.capacity - c.rowsKept)
          let c := { c with given := c.given ++ [⟨i, kept, c.rowsKept⟩], rowsKept := c.rowsKept + kept }
          let s := s.setColl c
          let at' := c.rowsKept - kept
          if i = v.myIndex.toNat then
            match s.collGrant c v i kept at' with
            | (s, true) => Chip.advanceGrants slot seq fuel s
            | r => r
          else
            Chip.advanceGrants slot seq fuel
              (s.collSend slot v i (collCtrl 2 v.commId seq (kept * 2 ^ 296 + at' * 2 ^ 264)) (.coll slot seq))

/-- The rows dropped as a destination, and the own rows dropped at destinations. -/
def Collective.drops (c : Collective) (v : CommSlot) : Nat × Nat :=
  let n := v.nmembers.toNat
  ((List.range n).foldl (fun d i => d + ((c.offered v i).getD 0 - ((c.givenTo i).map (·.kept)).getD 0)) 0,
   (List.range n).foldl (fun d j => d + (nth 0 c.offers j - ((c.grants.find? (·.member == j)).map (·.kept)).getD 0)) 0)

/-- The unfilled rows are zeroed, and the tail of counts is written (R230, R231). -/
def Chip.padTail (s : Chip) (c : Collective) (v : CommSlot) : Chip :=
  let n := v.nmembers.toNat
  let rb := c.cmd.rowBytes
  let s := s.collStore c.cmd.hint (c.cmd.dst + c.rowsKept * rb) (List.replicate ((c.cmd.capacity - c.rowsKept) * rb) 0)
  let keptFrom (i : Nat) := ((c.givenTo i).map (·.kept)).getD 0
  let words := (List.range n).map keptFrom ++ (List.range n).map (fun i => (c.offered v i).getD 0 - keptFrom i) ++
    (List.range n).map fun j => ((c.grants.find? (·.member == j)).map (·.kept)).getD 0
  s.collStore c.cmd.hint (c.cmd.dst + c.cmd.capacity * rb) (words.flatMap (leBytes 4))

/-! ### Differences (R229) -/

/-- The detector names the members whose signature differs, tells the others and completes MISMATCH. -/
def Chip.endGather (s : Chip) (c : Collective) (v : CommSlot) : Chip :=
  let bad := (c.starts.filter (·.sig != c.sig)).mergeSort fun a b => a.member ≤ b.member
  let names := bad.map (·.member)
  let other := (bad.head?.map (·.sig)).getD 0
  let me := v.myIndex.toNat
  let s := s.sendAborts c v v.others .mismatch me names.length names
  let s := s.raise 0x8701 ([.u16 v.commId.toNat, .u32 c.seq.toNat] ++ names.map (.u16 ·))
  s.collFail c v .mismatch me names.length names other

/-- A START as a member records it. -/
def startRec (m : Nat) (cell : Cell) (time : Word) : StartRec :=
  ⟨m, BitVec.ofNat 64 (payloadField cell 327 264), BitVec.ofNat 32 (payloadField cell 263 232), time⟩

/-- The STARTs of other members among held cells, in the order they came. -/
def Collective.withStarts (c : Collective) (v : CommSlot) (held : List EarlyCell) : Collective :=
  { c with starts := held.foldl (fun l (e : EarlyCell) =>
      match (if e.cell.type == 6 && ctrlKind e.cell == 1 then v.indexOf e.cell.src else none) with
      | some m => if m = v.myIndex.toNat || l.any (·.member == m) then l else l ++ [startRec m e.cell (BitVec.ofNat 64 e.time)]
      | none => l) c.starts }

/-- A START is noted; the first difference makes this member a detector. -/
def Chip.takeStart (s : Chip) (c : Collective) (v : CommSlot) (m : Nat) (cell : Cell) (time : Word) : Chip :=
  if m = v.myIndex.toNat || c.starts.any (·.member == m) then s
  else
    let r := startRec m cell time
    let differs := r.sig != c.sig
    let c' := { c with starts := c.starts ++ [r], gathering := c.gathering || differs }
    let s := s.setColl c'
    let s := if differs && !c.gathering then s.collMute c.slot c.seq else s
    if c'.gathering && c'.starts.length + 1 = v.nmembers.toNat then s.endGather c' v else s

/-! ### What arrives for a started collective -/

/-- An ABORT (R229, R236). -/
def Chip.takeAbort (s : Chip) (c : Collective) (v : CommSlot) (cell : Cell) : Chip :=
  if c.gathering then s
  else
    let reason := payloadField cell 327 320
    let detector := payloadField cell 319 308
    let named := payloadField cell 307 295
    let sender := (v.indexOf cell.src).getD detector
    let fail (st : Status) (n : Nat) (names : List Nat) :=
      let other := if st = .mismatch then
          (((names.head?.bind fun m => c.starts.find? (·.member == m)).map (·.sig)).getD 0) else 0
      (s.collMute c.slot c.seq).collFail c v st detector n names other
    match reason with
    | 4 => fail .mismatch named (namesOf cell)
    | 3 => fail .timeout named (namesOf cell)
    | 9 => fail .memberFailed named (namesOf cell)
    | 2 => fail .memberFailed 1 [sender]
    | 7 => fail .memberFailed 1 [sender]
    | 6 => fail .poisoned 1 [sender]
    | _ => s

/-- A control cell of a started collective. -/
def Chip.takeCtrl (s : Chip) (slot : Nat) (seq : Word32) (cell : Cell) (time : Word) : Chip :=
  match s.collOf slot seq with
  | none => s
  | some c =>
    let v := s.comm slot
    if ctrlKind cell = 1 then
      match v.indexOf cell.src with
      | none => s
      | some m =>
        let s := s.takeStart c v m cell time
        match Chip.advanceGrants slot seq (v.nmembers.toNat + 1) s with
        | (s, true) => s
        | (s, false) => match s.collOf slot seq with
          | some c => s.collAbortSelf c v .poisoned
          | none => s
    else if ctrlKind cell = 2 then
      match v.indexOf cell.src with
      | some m =>
        if c.gathering || c.cmd.op ≠ 6 then s
        else match s.collGrant c v m (payloadField cell 327 296) (payloadField cell 295 264) with
          | (s, true) => s
          | (s, false) => match s.collOf slot seq with
            | some c => s.collAbortSelf c v .poisoned
            | none => s
      | none => s
    else if ctrlKind cell = 3 then s.takeAbort c v cell
    else s

/-- Pieces move on, and a poisoned own contribution ends the collective. -/
def Chip.advanceAll (s : Chip) (slot : Nat) (seq : Word32) (ks : List Nat) : Chip :=
  s.each ks fun s k =>
    let n := (s.comm slot).nmembers.toNat
    match Chip.advancePiece slot seq k (n + 1) s with
    | (s, true) => s
    | (s, false) => match s.collOf slot seq with
      | some c => s.collAbortSelf c (s.comm slot) .poisoned
      | none => s

/-- Whether a contribution can be applied now: it is next in member order, or order does not matter. -/
def Collective.nextIn (c : Collective) (k m : Nat) : Bool :=
  match c.piece k with
  | some p => c.cmd.arrivalOrder || p.applied.length == m
  | none => true

/-- A data cell of a started collective that needs no room: it is applied, written to DST, or discarded. -/
def Chip.takeData (s : Chip) (c : Collective) (v : CommSlot) (cell : Cell) : Chip :=
  let n := v.nmembers.toNat
  let me := v.myIndex.toNat
  let k := collPiece cell
  match v.indexOf cell.src with
  | none => s
  | some m =>
    if c.gathering || m = me then s
    else if collPhase cell = 0 then
      match c.piece k with
      | none => s
      | some p =>
        if p.applied.contains m then s
        else
          let p := p.apply c.cmd m (fit (pieceLen (c.cmd.block n me).2 k) (cellBytes cell))
          let s := s.setColl { c with pieces := c.pieces.map fun x => if x.piece = k then p else x }
          if p.applied.length = n then s.pieceResult c v p else s.advanceAll c.slot c.seq [k]
    else
      let (o, len) := c.inbound n me m
      if 48 * k ≥ len || c.landed.contains (m, k) then s
      else
        (s.collStore 0 (c.cmd.dst + o + 48 * k) (fit (pieceLen len k) (cellBytes cell))).setColl
          { c with landed := (m, k) :: c.landed }

/-! ### The start (R221, R222) -/

/-- Streams to every other member, all of them or none. -/
def Chip.bindMembers (s : Chip) (slot : Nat) (v : CommSlot) : Option Chip :=
  v.others.foldl (fun (s : Option Chip) m => s.bind fun s =>
    match s.bindStream (.coll slot) (v.chip m) with
    | (s, some _) => some s
    | (_, none) => none) (some s)

/-- The cells that came before the start are applied: an ABORT alone decides, else STARTs, grants and data. -/
def Chip.replayEarly (s : Chip) (slot : Nat) (seq : Word32) (held : List EarlyCell) : Chip :=
  s.each held fun s e =>
    match s.collOf slot seq with
    | none => s
    | some c =>
      let v := s.comm slot
      if e.cell.type = 6 then s.takeCtrl slot seq e.cell (BitVec.ofNat 64 e.time)
      else
        let later := collPhase e.cell = 0 && (match v.indexOf e.cell.src with
          | some m => !(c.nextIn (collPiece e.cell) m)
          | none => false)
        if later then { s with coll := { s.coll with early := s.coll.early ++ [e] } } else s.takeData c v e.cell

/-- START goes to every other member. -/
def Chip.sendStarts (s : Chip) (c : Collective) (v : CommSlot) : Chip :=
  s.each v.others fun s m =>
    let offered := if c.cmd.op = 6 then nth 0 c.offers m else 0
    s.collSend c.slot v m
      (collCtrl 1 v.commId c.seq (c.sig.toNat * 2 ^ 264 + offered * 2 ^ 232 + v.myIndex.toNat * 2 ^ 220)) (.coll c.slot c.seq)

/-- The collective sends its data, moves its own share and reduces what it can; one that has ended, or that has found a
difference among the STARTs it holds, sends none (R222, R229). -/
def Chip.collRun (s : Chip) (slot : Nat) (seq : Word32) : Chip :=
  match s.collOf slot seq with
  | none => s
  | some c =>
    let v := s.comm slot
    let n := v.nmembers.toNat
    let me := v.myIndex.toNat
    if c.gathering then s
    else if c.cmd.op = 6 then
      match Chip.advanceGrants slot seq (n + 1) s with
      | (s, true) => s
      | (s, false) => match s.collOf slot seq with
        | some c => s.collAbortSelf c v .poisoned
        | none => s
    else
      let reads := c.cmd.op ≠ 3 ∨ me = c.cmd.rootRow
      match s.collRead c.cmd c.cmd.src (if reads then c.cmd.srcLen n else 0) with
      | (s, none) => s.collAbortSelf c v .poisoned
      | (s, some src) =>
        let msgs := v.others.filterMap fun m => (c.cmd.message n me m).map fun x => (m, x)
        let most := msgs.foldl (fun k x => max k (piecesOf x.2.2.2)) 0
        let s := s.each (List.range most) fun s k =>
          s.each (msgs.filter fun x => k < piecesOf x.2.2.2) fun s x =>
            let (ph, o, len) := x.2
            s.collSend slot v x.1 (collData ph seq k (slice src (o + 48 * k) (pieceLen len k))) (.coll slot seq)
        if c.cmd.reduces then s.advanceAll slot seq (c.pieces.map (·.piece))
        else if c.cmd.op = 2 then s.collStore c.cmd.hint (c.cmd.dst + me * c.cmd.bytes) src
        else if c.cmd.op = 3 then (if me = c.cmd.rootRow then s.collStore c.cmd.hint c.cmd.dst src else s)
        else s.collStore c.cmd.hint (c.cmd.dst + me * c.cmd.bytes) (slice src (me * c.cmd.bytes) c.cmd.bytes)

/-- The source header of ALLTOALL_PADDED: the offers, whether it was poisoned, and whether its rows stay in the memory. -/
def Chip.readOffers (s : Chip) (c : CollCmd) (n : Nat) : Chip × List Nat × Bool × Bool :=
  let (s, r) := s.read c.src (4 * n) c.hint
  let offers := (List.range n).map fun j => leNat (((readData r).drop (4 * j)).take 4)
  let total := padHeader n + offers.foldl (· + ·) 0 * c.rowBytes
  (s, offers, readPoison r, s.oneMemory hbmOrCore c.src total && !(s.rangeWithdrawn c.src total))

/-- A waiting COLLECTIVE takes a context and its sequence; with them, the cells held for the sequence. -/
def Chip.collTake (s : Chip) (w : CollWait) (slot : Nat) (v : CommSlot) (offers : List Nat) :
    Chip × Collective × List EarlyCell :=
  let seq := v.nextSeq
  let held := s.coll.early.filter (·.ofSeq v.commId seq)
  let startsHeld := (held.filter fun e => e.cell.type == 6 && ctrlKind e.cell == 1).map (·.cell.src)
  let selfLast := v.nmembers.toNat > 1 && (v.others.all fun m => startsHeld.contains (v.chip m))
  let blk := (w.cmd.block v.nmembers.toNat v.myIndex.toNat).2
  let c : Collective :=
    { slot := slot, seq := seq, queue := w.queue, num := w.num, cmd := w.cmd, sig := collSignature w.cmd v seq,
      tStart := w.tStart, starts := [], selfLast := selfLast, grants := [], given := [], rowsKept := 0,
      pieces := (List.range (piecesOf blk)).map fun k => ⟨k, [], []⟩, landed := [], offers := offers, gathering := false,
      lost := false }
  let s := s.dropCollWait w.queue w.num
  let s : Chip := { s with coll := { s.coll with
      active := s.coll.active ++ [c], early := s.coll.early.filter fun e => !(e.ofSeq v.commId seq) } }
  let s := (s.setComm slot { v with nextSeq := seq + 1 }).bump O.collStarted 1
  (if selfLast then s.bump O.collSelfLast 1 else s, c, held)

/-- A collective opens on its streams: an ABORT that came before its start ends it, rows outside the memory and a poisoned
header end it too; otherwise STARTs go out, those held are compared, and then its data moves (R222, R229, R230, R236). -/
def Chip.collOpen (s : Chip) (w : CollWait) (slot : Nat) (v : CommSlot) : Chip :=
  let n := v.nmembers.toNat
  let (s, offers, poison, fits) := if w.cmd.op = 6 then s.readOffers w.cmd n else (s, [], false, true)
  let (s, c, held) := s.collTake w slot v offers
  let known := c.withStarts v held
  let early := s.setColl known
  let early := match held.find? fun e => e.cell.type == 6 && ctrlKind e.cell == 3 with
    | some a => early.takeCtrl slot c.seq a.cell (BitVec.ofNat 64 a.time)
    | none => early
  if (early.collOf slot c.seq).isNone then early
  else if !fits then early.collAbortSelf known v .refused
  else if poison then early.collAbortSelf known v .poisoned
  else
    let starts := held.filter (·.cell.type == 6)
    let data := held.filter (·.cell.type != 6)
    ((((s.sendStarts c v).replayEarly slot c.seq starts).collRun slot c.seq).replayEarly slot c.seq data)

/-- A waiting COLLECTIVE begins, if the chip is TNREADY and a context, room on its communicator and its streams are there
(R92, R221) (DESIGN CHOICE log 29). -/
def Chip.collBegin (s : Chip) (w : CollWait) : Option Chip :=
  match s.slotOf w.cmd.commId with
  | none => none
  | some (slot, v) =>
    if !s.tnReady || v.state ≠ .bound || s.coll.active.length ≥ 2048 || (s.inflightOn slot).length ≥ 16 then none
    else (s.bindMembers slot v).map fun s => s.collOpen w slot v

/-- What waits begins, oldest first; one that cannot keeps later ones of its communicator waiting (R216, R221). -/
def Chip.collFeed (s : Chip) : Chip :=
  (s.coll.waiting.foldl (fun (r : Chip × List Half) w =>
    if r.2.contains w.cmd.commId then r
    else match r.1.collBegin w with
      | some s => (s, r.2)
      | none => (r.1, w.cmd.commId :: r.2)) (s, [])).1

/-! ### Landing (R226, R232) -/

def Chip.earlyCtrl (s : Chip) : Nat := (s.coll.early.filter (·.cell.type == 6)).length
def Chip.earlyData (s : Chip) : Nat := (s.coll.early.filter (·.cell.type != 6)).length

/-- A cell is held in the early-arrival store, or refused EARLY_FULL. -/
def Chip.holdEarly (s : Chip) (cell : Cell) (id : Option Half) : Chip × Landing :=
  let full := if cell.type = 6 then s.earlyCtrl ≥ 262144 else s.earlyData ≥ 3932160
  if full then ((s.bump O.earlyNacks 1).raiseLimited 0x4703 0 [], .nack 6 0)
  else ({ s with coll := { s.coll with early := s.coll.early ++ [⟨cell, id, s.timebase.toNat⟩] } }, .landed)

/-- The COMM_ID a context has recorded. -/
def Chip.commOfContext (s : Chip) (src : Half) (stream : BitVec 14) : Option Half :=
  (s.coll.contextComm.find? fun e => e.1 == src && e.2.1 == stream).map (·.2.2)

/-- The oldest sequence started and not completed on a slot, or NEXT_SEQ (R226). -/
def Chip.windowBase (s : Chip) (slot : Nat) : Word32 :=
  match (s.inflightOn slot).head? with
  | some c => (s.inflightOn slot).foldl (fun b x => if (x.seq - b).toNat ≥ 2 ^ 31 then x.seq else b) c.seq
  | none => (s.comm slot).nextSeq

/-- A COLL_DATA cell whose communicator is known. -/
def Chip.dataCell (s : Chip) (cell : Cell) (id : Half) : Chip × Landing :=
  match s.slotOf id with
  | none => s.holdEarly cell (some id)
  | some (slot, v) =>
    let base := s.windowBase slot
    let d := (collCseq cell + 64 - base.toNat % 64) % 64
    if d ≥ 32 then (s, .landed)
    else
      let seq := base + BitVec.ofNat 32 d
      match s.collOf slot seq with
      | some c =>
        let later := collPhase cell = 0 && !c.gathering && (match v.indexOf cell.src with
          | some m => !(c.nextIn (collPiece cell) m)
          | none => false)
        if later then s.holdEarly cell (some id) else (s.takeData c v cell, .landed)
      | none => if (seq - v.nextSeq).toNat < 2 ^ 31 then s.holdEarly cell (some id) else (s, .landed)

/-- A COLL_CTRL cell. -/
def Chip.ctrlCell (s : Chip) (cell : Cell) : Chip × Landing :=
  let id := ctrlComm cell
  if ctrlKind cell = 0 ∨ ctrlKind cell > 3 then (s.bump O.badCells 1, .landed)
  else
    match s.slotOf id with
    | none => s.holdEarly cell (some id)
    | some (slot, v) =>
      let seq := ctrlSeq cell
      if (s.collOf slot seq).isSome then (s.takeCtrl slot seq cell s.timebase, .landed)
      else if (seq - v.nextSeq).toNat < 2 ^ 31 then s.holdEarly cell (some id)
      else if ctrlKind cell = 3 then ((s.bump O.abortsLate 1).raiseLimited 0x4702 0 [], .landed)
      else (s, .landed)

/-- A context learns its COMM_ID from the first control cell that lands; data held until then is taken up (R226). -/
def Chip.learnComm (s : Chip) (cell : Cell) : Chip :=
  if (s.commOfContext cell.src cell.stream).isSome then s
  else
    let id := ctrlComm cell
    let mine (e : EarlyCell) := e.comm.isNone && e.cell.src == cell.src && e.cell.stream == cell.stream
    let held := s.coll.early.filter mine
    let s : Chip := { s with coll := { s.coll with
        contextComm := s.coll.contextComm ++ [(cell.src, cell.stream, id)]
        early := s.coll.early.filter fun e => !(mine e) } }
    s.each held fun s e => (s.dataCell e.cell id).1

/-- A collective cell lands (R105, R226, R232). -/
def Chip.collLand (s : Chip) (cell : Cell) : Chip × Landing :=
  if cell.type = 5 then
    match s.commOfContext cell.src cell.stream with
    | some id => s.dataCell cell id
    | none => s.holdEarly cell none
  else
    match s.ctrlCell cell with
    | (s, .landed) =>
      if ctrlKind cell = 0 ∨ ctrlKind cell > 3 then (s, .landed) else (s.learnComm cell, .landed)
    | r => r

/-! ### How a collective ends -/

/-- A member's START, its grant or a piece of its phase-1 data has not come. -/
def Collective.awaits (c : Collective) (v : CommSlot) (m : Nat) : Bool :=
  let n := v.nmembers.toNat
  let me := v.myIndex.toNat
  !(c.starts.any (·.member == m)) ||
  (c.landed.filter (·.1 == m)).length < piecesOf (c.inbound n me m).2 ||
  (c.cmd.op == 6 && !(c.grants.any (·.member == m)))

/-- That, or a contribution of its is not applied. -/
def Collective.lacks (c : Collective) (v : CommSlot) (m : Nat) : Bool :=
  c.awaits v m || c.pieces.any fun p => !(p.applied.contains m)

/-- That, or a contribution of its has neither been applied nor landed in the early-arrival store (R233). -/
def Chip.missing (s : Chip) (c : Collective) (v : CommSlot) (m : Nat) : Bool :=
  c.awaits v m || c.pieces.any fun p => !(p.applied.contains m) && (s.heldContribution c v m p.piece).isNone

/-- R223's conditions. -/
def Chip.collReady (s : Chip) (c : Collective) (v : CommSlot) : Bool :=
  let n := v.nmembers.toNat
  !c.gathering && !c.lost && (v.others.all fun m => !(c.lacks v m)) && (c.pieces.all fun p => p.applied.length == n) &&
  (c.cmd.op != 6 || (c.grants.length == n && c.given.length == n)) &&
  !(s.tn.streams.any fun e => match e.2 with
    | some x => x.cells.any (·.work == .coll c.slot c.seq) || x.pend.any (·.work == .coll c.slot c.seq)
    | none => false)

/-- A collective has everything: OK, or DROPPED with its counts (R223, R231, R237). -/
def Chip.collComplete (s : Chip) (slot : Nat) (seq : Word32) : Chip :=
  match s.collOf slot seq with
  | none => s
  | some c =>
    let v := s.comm slot
    if !(s.collReady c v) then s
    else if c.cmd.op = 6 then
      let (a, b) := c.drops v
      let s := s.padTail c v
      if a = 0 ∧ b = 0 then s.collEnd c v .ok 0
      else s.collEnd c v .dropped (min a 0xFFFFFFFF + min b 0xFFFFFFFF * 2 ^ 32)
    else s.collEnd c v .ok 0

def execCollComplete (slot : Fin 4096) (seq : Word32) (s : State) : Host.Outcome State Fault Refusal :=
  s.act fun c => (c.collComplete slot.val seq).collFeed

/-- The gather ends (R229). -/
def Chip.gatherExpiry (s : Chip) (slot : Nat) (seq : Word32) : Chip :=
  match s.collOf slot seq with
  | some c => if c.gathering then s.endGather c (s.comm slot) else s
  | none => s

def execMismatchGatherExpiry (slot : Fin 4096) (seq : Word32) (s : State) : Host.Outcome State Fault Refusal :=
  s.act fun c => (c.gatherExpiry slot.val seq).collFeed

/-- The oldest waiting COLLECTIVE of a slot takes the sequence it would have had (DEDUCED log 160). -/
def Chip.collForce (s : Chip) (slot : Nat) : Chip :=
  let v := s.comm slot
  match s.coll.waiting.find? fun w => w.cmd.commId == v.commId && v.state == .bound with
  | some w =>
    let (s, c, held) := s.collTake w slot v []
    s.setColl (c.withStarts v held)
  | none => s

/-- COLL_WATCHDOG (R233). -/
def Chip.collWatchdog (s : Chip) (slot : Nat) (seq : Word32) : Chip :=
  let s := if (s.collOf slot seq).isNone && (s.comm slot).nextSeq == seq then s.collForce slot else s
  match s.collOf slot seq with
  | none => s
  | some c =>
    let v := s.comm slot
    let me := v.myIndex.toNat
    let names := (List.range v.nmembers.toNat).filter fun m => m != me && s.missing c v m
    let s := (s.collMute slot seq).sendAborts c v v.others .timeout me names.length names
    let s := s.raise 0x8702 ([.u16 v.commId.toNat, .u32 seq.toNat] ++ (names.take 8).map (.u16 ·))
    s.collFail c v .timeout me names.length names 0

def execCollWatchdogExpiry (slot : Fin 4096) (seq : Word32) (s : State) : Host.Outcome State Fault Refusal :=
  s.act fun c => (c.collWatchdog slot.val seq).collFeed

/-- Members whose chips the Headgate does not hold (R125, R112). -/
def Chip.reachable (s : Chip) (slot : Nat) (v : CommSlot) (m : Nat) : Bool :=
  match s.streamOf (.coll slot) (v.chip m) with
  | some (_, x) => !x.held
  | none => !(Tab.get false s.tn.heldDests (v.chip m).toNat)

/-- A member chip is treated as failed: every collective that includes it ends, and its communicators are Failed (R234). -/
def Chip.memberFailed (s : Chip) (chip : Half) : Chip :=
  let slots := s.coll.comms.filter fun e => e.2.state != .unbound && (e.2.indexOf chip).isSome && e.2.chip e.2.myIndex.toNat != chip
  s.each slots fun s e =>
    let v := s.comm e.1
    let m := (v.indexOf chip).getD 0
    let me := v.myIndex.toNat
    let dests := v.others.filter fun k => k != m && s.reachable e.1 v k
    let s := (s.setComm e.1 { v with state := if v.state = .bound then .failed else v.state }).collSweep
    s.each (s.inflightOn e.1) fun s c =>
      let s := (s.collMute c.slot c.seq).sendAborts c v dests .memberFailed me 1 [m]
      (s.raise 0x8703 [.u16 v.commId.toNat, .u16 chip.toNat]).collFail c v .memberFailed me 1 [m] 0

/-- The Headgate holds cells for a chip (R112, R125). -/
def Chip.chipHeld (s : Chip) (chip : Half) : Bool :=
  Tab.get false s.tn.heldDests chip.toNat || s.tn.streams.any fun e => match e.2 with
    | some x => x.held && x.dest == chip
    | none => false

def execCollMemberFailed (chip : Half) (s : State) : Host.Outcome State Fault Refusal :=
  s.act fun c => c.when (c.chipHeld chip) fun c => (c.memberFailed chip).collFeed

/-- The drain of a collective's context has been asked for: by its queue, its communicator, the job's end or a drain of
the chip (R235). -/
def Chip.collDraining (s : Chip) (c : Collective) : Bool :=
  (s.queueAt c.queue).state == .draining || (s.comm c.slot).state == .draining || s.job.state ≥ 2 ||
  s.service.state == .draining

/-- COLL_DRAIN_DEADLINE: what still runs completes CANCELLED (R235); a command that waits for a context has no sequence to
abort (DEDUCED log 160). -/
def Chip.collDrain (s : Chip) (slot : Nat) : Chip :=
  let waits := s.coll.waiting.filter fun w => w.cmd.commId == (s.comm slot).commId &&
    ((s.queueAt w.queue).state == .draining || s.job.state ≥ 2 || s.service.state == .draining)
  let s := s.each ((s.inflightOn slot).filter s.collDraining) fun s c => s.collAbortSelf c (s.comm slot) .cancelled
  s.each waits fun s w => s.collGiveUp w.queue w.num .cancelled

def execCollDrainDeadline (slot : Fin 4096) (s : State) : Host.Outcome State Fault Refusal :=
  s.act fun c => (c.collDrain slot.val).collFeed

/-- Cells for a COMM_ID that stayed unbound for COLL_WATCHDOG are discarded (R232). -/
def Chip.earlyDiscard (s : Chip) (id : Half) : Chip :=
  if (s.slotOf id).isSome then s
  else
    let gone := s.coll.early.filter fun e => e.comm == some id
    ({ s with coll := { s.coll with early := s.coll.early.filter fun e => e.comm != some id } } : Chip).bump
      O.earlyDiscards gone.length

def execEarlyStoreDiscard (commId : Half) (s : State) : Host.Outcome State Fault Refusal :=
  s.act fun c => c.earlyDiscard commId

end Sys2Proof.Machine
end

