-- ==== Sys2Proof/Machine/Queues.lean ====
section
/-! DEFINITION. Queues and commands (05_queues_commands): control blocks and doorbells, fetching, the checks at the head,
waits and start order, what each opcode does, completion records, and how a queue drains. -/

namespace Sys2Proof.Machine

/-! ### Control blocks (R165, R166) -/

def QState.code : QState → Nat
  | .disabled => 0 | .active => 1 | .draining => 2 | .error => 3

/-- The control block of a queue. -/
def Queue.bits (v : Queue) : Nat :=
  v.sqBase.toNat * 2 ^ 448 + v.cqBase.toNat * 2 ^ 384 + v.sqLog2.toNat * 2 ^ 379 + v.cqLog2.toNat * 2 ^ 374 +
  v.prio.toNat * 2 ^ 372 + v.stopOnErr.toNat * 2 ^ 371 + v.cqCountEn.toNat * 2 ^ 370 + v.cqCounter.toNat * 2 ^ 352 +
  v.sqHead.toNat * 2 ^ 288 + v.sqTail.toNat * 2 ^ 256 + v.cqTail.toNat * 2 ^ 224 + v.cqHead.toNat * 2 ^ 192 +
  v.waitLimit.toNat * 2 ^ 160 + v.state.code * 2 ^ 152 + v.lastStatus.toNat * 2 ^ 144 + v.lastIndex.toNat * 2 ^ 128 +
  v.entries.length % 65536 * 2 ^ 112

/-- A doorbell page: SQ_DOORBELL reads as SQ_TAIL, CQ_DOORBELL as CQ_HEAD, everything else as zero (R165). -/
def Queue.doorbellByte (v : Queue) (off : Nat) : Byte :=
  if off < 4 then BitVec.ofNat 8 (v.sqTail.toNat / 2 ^ (8 * off))
  else if 8 ≤ off ∧ off < 12 then BitVec.ofNat 8 (v.cqHead.toNat / 2 ^ (8 * (off - 8)))
  else 0

def queueSite (q : Nat) : Nat := q / 2048

/-- The queues that are not Disabled. -/
def Chip.liveQueues (s : Chip) : List Nat := (s.queues.filter fun e => e.2.state != .disabled).map (·.1)

/-! ### The digest of a command (R491) -/

/-- Bytes as little-endian words, the last one filled with zeros. -/
def wordsOf : Nat → List Byte → List Word
  | 0, _ => []
  | fuel + 1, bs => if bs.isEmpty then [] else BitVec.ofNat 64 (leNat (bs.take 8)) :: wordsOf fuel (bs.drop 8)

/-- a and b of a digest. -/
def digestOf (opcode : Nat) (bs : List Byte) : Word × Word :=
  let ws := (wordsOf bs.length bs).zipIdx
  let a := ws.foldl (fun a w => a + mix (w.1 ^^^ mix (BitVec.ofNat 64 (2 * w.2)))) 0#64
  let b := ws.foldl (fun b w => b + mix (w.1 ^^^ mix (BitVec.ofNat 64 (2 * w.2 + 1)))) 0#64
  let a := mix (a ^^^ BitVec.ofNat 64 bs.length ^^^ BitVec.ofNat 64 (opcode * 2 ^ 56))
  (a, mix (b ^^^ a))

/-- The rack address of a body's field, in the form of R142. -/
def rackOf (x : Nat) : Option Nat := if x / 2 ^ 48 = 256 then some (x % 2 ^ 48) else none

/-- PUT, remote SIGNAL, COLLECTIVE, UPDATE, and a COPY or FILL with a rack destination (R489). -/
def QEntry.netFacing (e : QEntry) : Bool :=
  e.opcode == 4 || (e.opcode == 5 && e.sigRemote) || e.opcode == 8 || e.opcode == 9 ||
  (e.opcode == 2 && (rackOf (e.field 447 384)).isSome) || (e.opcode == 3 && (rackOf (e.field 511 448)).isSome)

/-- A network-facing command's digest is kept until its record, on a source that mirrors and on a shadow. -/
def Chip.noteDigest (s : Chip) (q : Nat) (e : QEntry) (bs : List Byte) : Chip :=
  if s.mirroring || s.isShadow then
    let (a, b) := digestOf e.opcode bs
    { s with service := { s.service with digests := s.service.digests ++ [(q, e.num, a, b)] } }
  else s

def Chip.digestFor (s : Chip) (q : Nat) (e : QEntry) : Word × Word :=
  match s.service.digests.find? (fun d => d.1 == q && d.2.1 == e.num) with
  | some d => d.2.2
  | none => digestOf e.opcode []

/-! ### Completion records (R184, R185) -/

/-- The failed parts as a map. -/
def failMap (l : List (Nat × Status)) : Nat := l.foldl (fun n f => n ||| 2 ^ (f.1 % 64)) 0

def QEntry.segBits (e : QEntry) : Nat :=
  match e.segMap with
  | some m => m.toNat
  | none => if e.opcode = 10 then e.headTime.toNat else failMap e.fails

/-- DETAIL: the lowest failed segment's status, and 24 bits per opcode. -/
def QEntry.detailBits (e : QEntry) : Nat :=
  if e.opcode = 10 then e.field 479 448
  else
    let top := match e.fails with
      | [] => 0
      | (_, st) :: _ => st.code.toNat
    let low := if e.opcode = 1 then e.detail.toNat / 256 * 256 + e.fails.length % 256 else e.detail.toNat
    top * 2 ^ 24 + low

/-- The record of a command that completes now with a status, as the next record of its queue. -/
def Chip.recordBits (s : Chip) (v : Queue) (e : QEntry) (st : Status) : Nat :=
  let pass := v.cqTail.toNat / 2 ^ v.cqLog2.toNat % 2
  s.timebase.toNat * 2 ^ 192 + e.segBits * 2 ^ 128 + e.field 63 32 * 2 ^ 96 + e.detailBits * 2 ^ 64 +
  e.num.toNat % 65536 * 2 ^ 48 + e.opcode * 2 ^ 40 + st.code.toNat * 2 ^ 32 + (1 - pass)

/-- What a source keeps of a completed network-facing command (R489). -/
def Chip.noteMirrorRecord (s : Chip) (q : Nat) (e : QEntry) (st : Status) : Chip :=
  if s.mirroring && e.netFacing then
    let (a, b) := s.digestFor q e
    let r : MirrorRecord := ⟨BitVec.ofNat 16 q, e.num.setWidth 16, st.code, BitVec.ofNat 8 e.opcode, BitVec.ofNat 64 e.segBits, a, b⟩
    { s with service := { s.service with
        mirrorQueue := s.service.mirrorQueue ++ [.record r]
        digests := s.service.digests.filter fun d => !(d.1 == q && d.2.1 == e.num) } }
  else s

/-- A queue that drains is Disabled once nothing is in flight (R171). -/
def Chip.settleQueue (s : Chip) (q : Nat) : Chip :=
  let v := s.queueAt q
  if v.state = .draining && v.entries.isEmpty then s.setQueue q fun v => { v with state := .disabled } else s

/-- The waits of a command at the head leave the waiter tables. -/
def Chip.dropWaitsOf (s : Chip) (q : Nat) (e : QEntry) : Chip :=
  if e.phase = .waiting then s.dropWaits (.queue q) else s

/-- A command completes: its record, its queue's pointers, and then CQ_COUNTER's add. -/
def Chip.record (s : Chip) (q : Nat) (e : QEntry) (st : Status) : Chip :=
  let v := s.queueAt q
  let at' := v.cqBase.toNat + 32 * (v.cqTail.toNat % 2 ^ v.cqLog2.toNat)
  let s := (s.noteMirrorRecord q e st).write at' (leBytes 32 (s.recordBits v e st)) false 0
  let s := s.dropWaitsOf q e
  let s := s.setQueue q fun v => { v with
    cqTail := v.cqTail + 1, lastStatus := st.code, lastIndex := BitVec.ofNat 16 (e.num.toNat % 2 ^ v.sqLog2.toNat)
    aged := v.aged && !(e.unstarted && e.ready.isSome)
    entries := v.entries.filter (·.num != e.num) }
  let s := if st = .cancelled then s.bump (O.cpCancelled + 256 * queueSite q) 1 else s
  let s := if v.cqCountEn then (s.addFrom v.cqCounter.toNat 1 (.queue q e.num)).1 else s
  s.settleQueue q
/-- Fetched commands that have not started complete CANCELLED, in ring order (R171, R189). -/
def Chip.cancelUnstarted (s : Chip) (q : Nat) : Chip :=
  s.each ((s.queueAt q).entries.filter (·.unstarted)) fun s e => s.record q e .cancelled

/-- A record with any other status than OK or DROPPED stops a queue with STOP_ON_ERR, a reserved opcode every one (R171,
R175). -/
def Chip.completeWith (s : Chip) (q : Nat) (e : QEntry) (st : Status) : Chip :=
  let v := s.queueAt q
  let s := s.record q e st
  if v.state = .active && (e.opcode > 10 || v.stopOnErr && st != .ok && st != .dropped) then
    let s := (s.setQueue q fun v => { v with state := .error }).raise 0x4503
      [.u16 q, .u16 (e.num.toNat % 65536), .u8 st.code.toNat]
    s.cancelUnstarted q
  else s

/-- A command processor fails: each Active queue of its site enters Error (R171, R192). -/
def Chip.cpFault (s : Chip) (site : Nat) : Chip :=
  let mine := (s.queues.filter fun e => queueSite e.1 == site && e.2.state == .active).map (·.1)
  (s.raise 0x8501 [.u8 site]).each mine fun s q => (s.setQueue q fun v => { v with state := .error }).cancelUnstarted q

/-! ### Signals (R174, R187) -/

def QEntry.sigChip (e : QEntry) : Nat := e.field 319 304
def QEntry.sigCounter (e : QEntry) : Nat := e.field 303 286
def QEntry.sigAdd (e : QEntry) : Word :=
  if e.opcode = 5 then BitVec.ofNat 64 (e.field 511 448) else BitVec.ofNat 64 (e.field 285 256)

/-- The SIGNAL cell of a command: it covers what its stream carried before, unless the SIGNAL opcode says NOCOVER. -/
def QEntry.signalCell (e : QEntry) : Cell :=
  let cover := if e.opcode = 5 && e.field 8 8 = 1 then 0 else 2 ^ 303
  { cellBlank with type := 1, offset := BitVec.ofNat 42 (counterOffset e.sigCounter / 4)
                   payload := BitVec.ofNat 384 (e.sigAdd.toNat * 2 ^ 320 + cover) }

/-- A command's local signal is applied. -/
def Chip.signalLocal (s : Chip) (q : Nat) (e : QEntry) : Chip :=
  let s := s.setEntry q e.num fun e => { e with sig := .held }
  (s.addFrom e.sigCounter e.sigAdd (.queue q e.num)).1

/-- A command's remote signal goes out on the queue's stream once the chip is TNREADY (R92); a shadow sends none (R490). -/
def Chip.signalRemote (s : Chip) (q : Nat) (e : QEntry) : Chip :=
  if s.isShadow then s.setEntry q e.num fun e => { e with sig := .landed }
  else
    match (if s.tnReady then s.bindStream (.queue q) (BitVec.ofNat 16 e.sigChip) else (s, none)) with
    | (s, some n) =>
      (s.setEntry q e.num fun e => { e with sig := .sent }).sendCells n [(e.signalCell, .cmdSignal q e.num)]
    | (s, none) => s

/-- A finished command completes: on success once its signal has landed (R184, R185). -/
def Chip.complete (s : Chip) (q : Nat) (num : Word32) : Chip :=
  match (s.queueAt q).entry num with
  | none => s
  | some e =>
    if e.opcode = 5 && e.phase = .started && e.sig = .landed && !(s.isShadow && e.netFacing) then s.completeWith q e e.status
    else if e.phase ≠ .finished then s
    else if (e.status = .ok || e.status = .dropped) && e.sigEn && e.opcode ≠ 5 then
      match e.sig with
      | .landed => s.completeWith q e e.status
      | .notSent =>
        let s := if e.sigRemote then s.signalRemote q e else s.signalLocal q e
        match (s.queueAt q).entry num with
        | some e => if e.sig = .landed then s.completeWith q e e.status else s
        | none => s
      | _ => s
    else s.completeWith q e e.status

def execCommandComplete (queue : Fin 16384) (num : Word32) (s : State) : Host.Outcome State Fault Refusal :=
  s.act fun c => c.complete queue.val num

/-! ### Control writes (R167, R171) -/

/-- A refused configuration write or ENABLE names its queue and field (DESIGN CHOICE log 32). -/
def Chip.queueRefusal (s : Chip) (q field : Nat) : Chip := s.raise 0x4501 [.u16 q, .u8 field]

/-- The field for which an ENABLE is refused, if any: 0 CTRL itself, for the job or service state, 1 SQ_BASE, 2 CQ_BASE,
3 SQ_LOG2, 4 CQ_LOG2. -/
def Chip.enableCheck (s : Chip) (v : Queue) : Option Nat :=
  let badLog (n : BitVec 5) := n.toNat < 6 || n.toNat > 16
  let badBase (b : Word) (n : Nat) := b.toNat % 4096 ≠ 0 || !(s.oneMemory hbmOrCore b.toNat n) || s.rangeWithdrawn b.toNat n
  if s.job.state ≥ 2 || s.service.state == .draining || s.service.state == .drained ||
      (s.service.quarantined && !s.isShadow) then some 0
  else if badLog v.sqLog2 then some 3
  else if badLog v.cqLog2 then some 4
  else if badBase v.sqBase (64 * 2 ^ v.sqLog2.toNat) then some 1
  else if badBase v.cqBase (32 * 2 ^ v.cqLog2.toNat) then some 2
  else none

/-- CTRL ENABLE: a Disabled queue with a valid configuration is Active, and the first one makes the job Running (R171,
R190). -/
def Chip.enableQueue (s : Chip) (q : Nat) : Chip :=
  let v := s.queueAt q
  if v.state ≠ .disabled then s
  else match s.enableCheck v with
    | some k => s.queueRefusal q k
    | none =>
      let s := s.setQueue q fun v => { v with
        state := .active, sqHead := 0, sqTail := 0, cqTail := 0, cqHead := 0, aged := false }
      if s.job.state = 0 then { s with job := { s.job with state := 1 } } else s

/-- A queue starts to drain: nothing more is fetched, and what has not started is cancelled (R189). -/
def Chip.drainQueue (s : Chip) (q : Nat) : Chip :=
  let v := s.queueAt q
  if v.state = .active ∨ v.state = .error then
    ((s.setQueue q fun v => { v with state := .draining }).cancelUnstarted q).settleQueue q
  else s

def Chip.drainAllQueues (s : Chip) : Chip := s.each s.liveQueues fun s q => s.drainQueue q

def execCtrlEnable (queue : Fin 16384) (s : State) : Host.Outcome State Fault Refusal :=
  s.act fun c => c.enableQueue queue.val

def execCtrlDisable (queue : Fin 16384) (s : State) : Host.Outcome State Fault Refusal :=
  s.act fun c => c.drainQueue queue.val

/-- A control block's RW fields as bytes of the block say. -/
def Queue.withBits (v : Queue) (b : Nat) : Queue :=
  { v with
    sqBase := BitVec.ofNat 64 (bitsOf b 511 448), cqBase := BitVec.ofNat 64 (bitsOf b 447 384)
    sqLog2 := BitVec.ofNat 5 (bitsOf b 383 379), cqLog2 := BitVec.ofNat 5 (bitsOf b 378 374)
    prio := BitVec.ofNat 2 (bitsOf b 373 372), stopOnErr := bitOf b 371, cqCountEn := bitOf b 370
    cqCounter := BitVec.ofNat 18 (bitsOf b 369 352), waitLimit := BitVec.ofNat 32 (bitsOf b 191 160) }

/-- The first RW field among the bytes from an offset of a control block on, by its place among them in R166: 1 SQ_BASE,
2 CQ_BASE, 3 SQ_LOG2, 9 WAIT_LIMIT (DESIGN CHOICE log 32). -/
def rwField (off : Nat) : Nat := if off ≥ 56 then 1 else if off ≥ 48 then 2 else if off ≥ 40 then 3 else 9

/-- A write of n bytes at offset off of a control block: the RW fields while Disabled, CTRL in every state, RO fields never
(R166, R167). -/
def Chip.qcbWrite (s : Chip) (q off n x : Nat) : Chip :=
  if off < 8 then
    if off > 0 then s
    else if x % 4 = 1 then s.enableQueue q
    else if x % 4 = 2 then s.drainQueue q
    else s
  else
    let rw := off + n > 44 || (16 ≤ off && off < 24 && off + n > 20)
    if !rw then s
    else
      let v := s.queueAt q
      if v.state ≠ .disabled then s.queueRefusal q (rwField off)
      else s.setQueue q fun v => v.withBits (setBits v.bits (8 * (off + n) - 1) (8 * off) x)

def execQueueConfigWrite (queue : Fin 16384) (index : Fin 8) (word : Word) (s : State) :
    Host.Outcome State Fault Refusal :=
  s.act fun c => c.qcbWrite queue.val (8 * index.val) 8 word.toNat

/-! ### Doorbells (R168) -/

/-- An ignored doorbell write. -/
def Chip.doorbellRefusal (s : Chip) (q : Nat) : Chip := s.raiseLimited 0x4502 q []

def Chip.sqDoorbell (s : Chip) (q : Nat) (t : Word32) : Chip :=
  let v := s.queueAt q
  if v.state = .active && (t - v.sqHead).toNat ≤ 2 ^ v.sqLog2.toNat && (t - v.sqTail).toNat < 2 ^ 31 then
    s.setQueue q fun v => { v with sqTail := t }
  else s.doorbellRefusal q

/-- CQ_DOORBELL names how many records have been consumed: not more than were written, and never fewer than before
(DEDUCED log 33). -/
def Chip.cqDoorbell (s : Chip) (q : Nat) (t : Word32) : Chip :=
  let v := s.queueAt q
  if (v.state = .active || v.state = .error) && (v.cqTail - t).toNat ≤ 2 ^ v.cqLog2.toNat && (t - v.cqHead).toNat < 2 ^ 31 then
    s.setQueue q fun v => { v with cqHead := t }
  else s.doorbellRefusal q

def execSqDoorbell (queue : Fin 16384) (value : Word32) (s : State) : Host.Outcome State Fault Refusal :=
  s.act fun c => c.sqDoorbell queue.val value

def execCqDoorbell (queue : Fin 16384) (value : Word32) (s : State) : Host.Outcome State Fault Refusal :=
  s.act fun c => c.cqDoorbell queue.val value

/-- A write of 4 or 8 aligned bytes in a doorbell page. -/
def Chip.doorbellWrite (s : Chip) (q off x : Nat) : Chip :=
  if off = 0 then s.sqDoorbell q (BitVec.ofNat 32 x)
  else if off = 8 then s.cqDoorbell q (BitVec.ofNat 32 x)
  else s

/-! ### Fetching (R169, R170) -/

/-- The command processor of a queue's site is in Fallow: it does nothing before it wakes (R431). -/
def Chip.cpAsleep (s : Chip) (q : Nat) : Bool := (Tab.get Site.reset s.power.sites (queueSite q)).cpFallow

/-- The queue's site restarts for new command-processor firmware: no command starts there (R470). -/
def Chip.cpRestarts (s : Chip) (q : Nat) : Bool :=
  match s.mgmt.activation with
  | some a => a.component == 2 && a.units.head? == some (queueSite q)
  | none => false

/-- The next slot of the ring is fetched: covered by the doorbell, a completion slot free for it, and at most 8 commands
ahead of the one to start. A slot read poisoned completes POISONED at the head (DEDUCED log 34). -/
def Chip.fetchCommand (s : Chip) (q : Nat) : Chip :=
  s.when (!(s.cpAsleep q)) fun s =>
  let v := s.queueAt q
  let ahead := (v.entries.filter (·.unstarted)).length
  if v.state = .active && v.sqHead != v.sqTail && ahead < 9 &&
      (v.cqTail - v.cqHead).toNat + v.entries.length < 2 ^ v.cqLog2.toNat then
    let (s, r) := s.readFrom (queueSite q) (v.sqBase.toNat + 64 * (v.sqHead.toNat % 2 ^ v.sqLog2.toNat)) 64 0
    let e : QEntry :=
      { num := v.sqHead, raw := BitVec.ofNat 512 (leNat (readData r)), phase := .fetched, ready := none, headTime := 0,
        fails := [], outstanding := 0, failAt := none, status := if readPoison r then .poisoned else .ok, detail := 0,
        sig := .notSent, segMap := none, held := [] }
    let s := s.setQueue q fun v => { v with sqHead := v.sqHead + 1, entries := v.entries ++ [e] }
    if ahead = 0 then s.stampHead q else s
  else s

def execCommandFetch (queue : Fin 16384) (s : State) : Host.Outcome State Fault Refusal :=
  s.act fun c => c.fetchCommand queue.val

/-! ### The checks at the head (R93, R179) -/

/-- What the check at the head finds. -/
inductive Verdict where
  /-- it may wait and start; what the check read -/
  | pass (held : List (BitVec 1024))
  /-- it completes with a status and a SEG_MAP, and does nothing -/
  | fail (st : Status) (segMap : Option Word)
  deriving DecidableEq, Repr

def anyMemory (_ : Nat) : Bool := true

/-- A chip offset or a rack address, its range within one memory. -/
def Chip.dmaRange (s : Chip) (x len : Nat) : Bool :=
  match rackOf x with
  | some a => a + max len 1 ≤ 2 ^ 48
  | none => x < 2 ^ 44 && s.oneMemory anyMemory x len

/-- COPY and FILL. -/
def Chip.checkDma (s : Chip) (e : QEntry) : Option Status :=
  let copy := e.opcode = 2
  let dst := if copy then e.field 447 384 else e.field 511 448
  let src := e.field 511 448
  if e.field 343 320 ≠ 0 || !(s.dmaRange dst e.len) || (copy && !(s.dmaRange src e.len)) ||
      (copy && (rackOf src).isSome && (rackOf dst).isSome) then some .refused
  else if copy && e.field 8 8 = 1 then
    match rackOf dst with
    | some a => if 1 ≤ e.len ∧ a % 64 + e.len ≤ 64 then none else some .refused
    | none => some .refused
  else none

/-- The mode of a PUT: 0 unicast, 1 MCAST_ROW, 2 MCAST_COL. -/
def QEntry.putMode (e : QEntry) : Nat := e.field 9 8
def QEntry.putChip (e : QEntry) : Nat := e.field 443 428
def QEntry.putOffset (e : QEntry) : Nat := e.field 427 384

/-- PUT (R119, R177). -/
def Chip.checkPut (s : Chip) (e : QEntry) : Option Status :=
  let me := s.chipNumber
  let turn := e.putChip
  if e.putMode = 3 || (e.putMode = 0 && e.field 10 10 = 1) || e.field 343 320 ≠ 0 || e.field 447 444 ≠ 0 ||
      e.putOffset % 4 ≠ 0 || e.putOffset + max e.len 1 > 2 ^ 44 ||
      !(e.field 511 448 < 2 ^ 44 && s.oneMemory anyMemory (e.field 511 448) e.len) then some .refused
  else if !(s.inDomain turn) then some .unreachable
  else if (e.putMode = 1 && chipX turn ≠ chipX me) || (e.putMode = 2 && chipY turn ≠ chipY me) then some .refused
  else none

/-- FLAGS that an opcode has. -/
def flagsMask (opcode : Nat) : Nat :=
  if opcode = 1 ∨ opcode = 2 ∨ opcode = 5 ∨ opcode = 8 then 1 else if opcode = 4 then 7 else if opcode = 9 then 3 else 0

/-- The opcodes that need no more than this file has: every one but KERNEL and UPDATE. -/
def Chip.checkPlain (s : Chip) (e : QEntry) : Option Status :=
  match e.opcode with
  | 2 => s.checkDma e
  | 3 => s.checkDma e
  | 4 => s.checkPut e
  | 5 => if e.sigEn then none else some .refused
  | 6 => if e.field 347 346 = 3 then some .refused else none
  | 8 => s.collCheck e
  | _ => if e.opcode > 10 then some .refused else none

/-- The checks of R179 over those of an opcode: a slot read poisoned, reserved fields of the header, then the opcode's own,
then a remote signal's chip (DEDUCED log 16). -/
def Chip.headCheck (s : Chip) (e : QEntry) (own : Chip → QEntry → Chip × Verdict) : Chip × Verdict :=
  if e.status ≠ .ok then (s, .fail e.status none)
  else if e.field 24 16 ≠ 0 ∨ e.flags / (flagsMask e.opcode + 1) ≠ 0 then (s, .fail .refused none)
  else
    match own s e with
    | (s, .pass held) =>
      if e.sigEn && e.sigRemote && !(s.inDomain e.sigChip) then (s, .fail .unreachable none) else (s, .pass held)
    | r => r

def ownPlain (s : Chip) (e : QEntry) : Chip × Verdict :=
  (if e.opcode = 8 && s.collDet e then s.detRefusal 5 else s, match s.checkPlain e with
    | some st => .fail st none
    | none => .pass [])

/-! ### Waits and start order (R173, R180–R182) -/

/-- The waits of a command: inline, then those of a WAIT body. -/
def QEntry.waitList (e : QEntry) : List (Nat × Word) :=
  let inline := (List.range (e.field 31 30)).map fun k =>
    let w := e.field (127 + 64 * k) (64 + 64 * k)
    (bitsOf w 63 46, BitVec.ofNat 64 (bitsOf w 45 0))
  let body := if e.opcode = 6 then
    [(e.field 383 366, BitVec.ofNat 64 (e.field 511 448)), (e.field 365 348, BitVec.ofNat 64 (e.field 447 384))].take
      (e.field 347 346) else []
  inline ++ body

/-- Each wait of the command at the head is met, or registered with its counter; whether all are met. -/
def Chip.meetWaits (s : Chip) (q : Nat) (e : QEntry) : Chip × Bool :=
  e.waitList.foldl (fun (r : Chip × Bool) w =>
    let (s, met) := r.1.registerWait w.1 w.2 (.queue q)
    (s, r.2 && met)) (s, true)

/-- The cores that a KERNEL names, chip-wide. -/
def QEntry.cores (q : Nat) (e : QEntry) : List Nat :=
  ((List.range 32).filter fun i => bitOf (e.field 383 352) i).map (32 * queueSite q + ·)

/-- The head of a queue, if it is ready. -/
def Queue.readyHead (v : Queue) : Option (QEntry × Nat) :=
  match v.head with
  | some e => e.ready.map (e, ·)
  | none => none

/-- A KERNEL's cores are free, and no KERNEL that became ready earlier waits for one of them (R181). -/
def Chip.coresFree (s : Chip) (q : Nat) (e : QEntry) (stamp : Nat) : Bool :=
  let mine := e.cores q
  (mine.all fun c => (s.core c).state == .idle) &&
  !(s.queues.any fun o => o.1 != q && queueSite o.1 == queueSite q && o.2.state == .active && match o.2.readyHead with
    | some (k, t) => k.opcode == 1 && t < stamp && (k.cores o.1).any mine.contains
    | none => false)

/-- Earlier commands of the queue have issued every GN write: those of COPY and FILL hold tags, and KERNELs have ended
(R176). -/
def Chip.gnIssued (s : Chip) (q : Nat) (e : QEntry) : Bool :=
  ((s.queueAt q).entries.takeWhile (·.num != e.num)).all fun o =>
    !(o.opcode == 1 && o.phase == .started) && !(s.gn.waiting.any fun r => r.work.ofCmd q o.num)

/-- A stream of the queue to a chip, for a command of the tensor network: it waits until the chip is TNREADY (R92). -/
def Chip.streamReady (s : Chip) (q chip : Nat) : Bool :=
  s.isShadow || s.tnReady && (s.bindStream (.queue q) (BitVec.ofNat 16 chip)).2.isSome

/-- An opcode's own start condition, its waits apart (R175). -/
def Chip.canStart (s : Chip) (q : Nat) (e : QEntry) (stamp : Nat) : Bool :=
  match e.opcode with
  | 1 => s.coresFree q e stamp
  | 2 => e.field 8 8 = 0 || s.gnIssued q e
  | 4 => s.streamReady q e.putChip
  | 5 => !e.sigRemote || s.streamReady q e.sigChip
  | 7 => (s.queueAt q).entries.head? == some e
  | 10 => (s.queueAt q).entries.head? == some e
  | _ => true

/-- The queue's head may start now: ready, its condition met, and within the limits of R181. -/
def Chip.startable (s : Chip) (q : Nat) : Bool :=
  let v := s.queueAt q
  v.state == .active && (match v.readyHead with
    | some (e, t) => s.canStart q e t
    | none => false) &&
  (v.entries.filter (·.running)).length < 16 &&
  (s.queues.filter fun o => queueSite o.1 == queueSite q).foldl (fun n o => n + (o.2.entries.filter (·.running)).length) 0 < 1024

/-- PRIO with the aging of R181. -/
def Queue.rank (v : Queue) : Nat := v.prio.toNat - v.aged.toNat

/-- It is the queue's turn on its command processor: lowest PRIO, in round robin. -/
def Chip.cpTurn (s : Chip) (q : Nat) : Bool :=
  let site := queueSite q
  let ready := (s.queues.filter fun o => queueSite o.1 == site && s.startable o.1).map fun o => (o.1, o.2.rank)
  let lowest := ready.foldl (fun m o => min m o.2) 4
  let round := (ready.filter (·.2 == lowest)).map (·.1)
  let last := Tab.get 0 s.cpLast site
  let next := match round.find? (last < ·) with
    | some n => some n
    | none => round.head?
  next == some q

/-- The command at the head starts: its record of pieces begins with one of its own, which `release` ends. -/
def Chip.begin' (s : Chip) (q : Nat) (e : QEntry) : Chip :=
  let s := s.setQueue q fun v => { v.setEntry e.num (fun e => { e with phase := .started, outstanding := 1 }) with aged := false }
  let s := { s with cpLast := Tab.set 0 s.cpLast (queueSite q) q }
  s.stampHead q

/-- The issue of a command's pieces is over; a network-facing command on a shadow runs on until its mirror record. -/
def Chip.release (s : Chip) (q : Nat) (e : QEntry) : Chip :=
  if s.isShadow && e.netFacing then s
  else s.setEntry q e.num fun e => e.pieceDone 0 0 .ok

/-- The command at a queue's head is attempted: it is checked once, its waits are taken up, and it starts when all of them
are met, its own condition holds and it is the queue's turn (DEDUCED log 20). -/
def Chip.attempt (s : Chip) (q : Nat) (mine : Nat → Bool) (own : Chip → QEntry → Chip × Verdict)
    (start : Chip → Nat → QEntry → Chip) : Chip :=
  let v := s.queueAt q
  match v.head with
  | none => s
  | some e =>
    if v.state ≠ .active || !(mine e.opcode) || s.cpAsleep q || s.cpRestarts q then s
    else
      let s := if e.phase = .fetched then
          match s.headCheck e own with
          | (s, .pass held) => s.setEntry q e.num fun e => { e with phase := .waiting, held := held }
          | (s, .fail st m) =>
            (s.setEntry q e.num fun e => { e with phase := .finished, status := st, segMap := m }).stampHead q
        else s
      match (s.queueAt q).entry e.num with
      | none => s
      | some e =>
        if e.phase ≠ .waiting then s
        else
          let (s, met) := s.meetWaits q e
          if !met then s
          else
            let s := if e.ready.isNone then
                (s.setEntry q e.num fun e => { e with ready := some s.sync.clock }).tick
              else s
            match (s.queueAt q).entry e.num with
            | some e => if s.startable q && s.cpTurn q then (start (s.begin' q e) q e).release q e else s
            | none => s

/-! ### COPY and FILL (R164, R176, R186) -/

/-- Part of a command's data: where it starts in the range, its bytes, their mark. -/
structure Chunk where
  off : Nat
  bytes : List Byte
  poison : Bool

/-- A range cut at its segments and where `run` says: offsets from its start, and lengths (DEDUCED log 30). -/
def cutRange (run : Nat → Nat → Nat) (seg : Nat) : Nat → Nat → Nat → List (Nat × Nat)
  | 0, _, _ => []
  | fuel + 1, o, len =>
    if o ≥ len then []
    else
      let n := max 1 (min (run o (len - o)) (seg - o % seg))
      (o, n) :: cutRange run seg fuel (o + n) len

/-- The pieces of a chip range within one line and one segment each. -/
def lineCuts (a len seg : Nat) : List (Nat × Nat) := cutRange (fun o r => min r (64 - (a + o) % 64)) seg len 0 len

/-- Segment k of a command fails. -/
def Chip.failSeg (s : Chip) (q : Nat) (e : QEntry) (k : Nat) (st : Status) : Chip :=
  s.setEntry q e.num fun e => e.failParts k k st

/-- A piece of the source is read; one in withdrawn HBM fails its segment (R267), poison fails it too and travels on. -/
def Chip.readChunk (q : Nat) (e : QEntry) (src seg : Nat) (r : Chip × List Chunk) (p : Nat × Nat) : Chip × List Chunk :=
  let (s, l) := r
  if s.rangeWithdrawn (src + p.1) p.2 then (s.failSeg q e (p.1 / seg) .mappedOut, l)
  else
    let (s, d, m) := s.readPieceFrom (queueSite q) (src + p.1) p.2 e.hint
    (if m then s.failSeg q e (p.1 / seg) .poisoned else s, l ++ [⟨p.1, d, m⟩])

/-- A chunk lands at the destination. -/
def Chip.writeChunk (s : Chip) (q : Nat) (e : QEntry) (dst seg : Nat) (k : Chunk) : Chip :=
  s.each (pieces (dst + k.off) k.bytes.length) fun s p =>
    let bs := (k.bytes.drop (p.1 - (dst + k.off))).take p.2
    let t := s.writePieceFrom (queueSite q) p.1 bs k.poison e.hint
    if s.rangeWithdrawn p.1 p.2 then t.failSeg q e (k.off / seg) .mappedOut
    else if s.cutOff (queueSite q) p.1 then t.failSeg q e (k.off / seg) .timeout
    else t

/-- A rack request of a command is issued, or refused for a window miss (R144). -/
def Chip.issueRack (s : Chip) (q : Nat) (e : QEntry) (k : Nat) (send : Chip → Option Chip) : Chip :=
  match send (s.setEntry q e.num fun e => { e with outstanding := e.outstanding + 1 }) with
  | some s => s
  | none => s.windowMiss.failSeg q e k .refused

def QEntry.work (q : Nat) (e : QEntry) (k : Nat) : Work := .cmd q e.num k k

/-- The marks of the 64-byte lines of a payload from the marks of its pieces. -/
def lineMarks (r : List (List Byte × Bool)) : List Bool :=
  let marks := r.flatMap fun p => List.replicate p.1.length p.2
  (List.range ((marks.length + 63) / 64)).map fun i => ((marks.drop (64 * i)).take 64).any id

/-- Bytes with marks go to a rack address; the range is one packet's. -/
def Chip.sendRack (s : Chip) (q : Nat) (e : QEntry) (dst seg o : Nat) (r : List (List Byte × Bool)) (flagged : Bool) : Chip :=
  let k := o / seg
  let s := if readPoison r then s.failSeg q e k .poisoned else s
  s.issueRack q e k fun s => s.rackWrite (dst + o) (readData r) (lineMarks r) flagged e.hint (e.work q k)

/-- The bytes of the source, for the digest of a network-facing command. -/
def Chip.digestRange (s : Chip) (q : Nat) (e : QEntry) (a len : Nat) : Chip :=
  if s.mirroring || s.isShadow then
    let (s, r) := s.readFrom (queueSite q) a len 1
    s.noteDigest q e (readData r)
  else s

def Chip.startCopy (s : Chip) (q : Nat) (e : QEntry) : Chip :=
  let len := e.len
  let seg := segBytes len
  let src := e.field 511 448
  let dst := e.field 447 384
  match rackOf src, rackOf dst with
  | some a, _ =>
    s.each (cutRange (fun o r => s.rackRun (a + o) r .rd) seg len 0 len) fun s p =>
      if s.rangeWithdrawn (dst + p.1) p.2 then s.failSeg q e (p.1 / seg) .mappedOut
      else if s.cutOff (queueSite q) (dst + p.1) then s.failSeg q e (p.1 / seg) .timeout
      else s.issueRack q e (p.1 / seg) fun s => s.rackRead (a + p.1) p.2 e.hint (e.work q (p.1 / seg)) (.mem (dst + p.1) e.hint)
  | none, some a =>
    let s := s.digestRange q e src len
    s.each (cutRange (fun o r => s.rackRun (a + o) r .wr) seg len 0 len) fun s p =>
      if s.rangeWithdrawn (src + p.1) p.2 then s.failSeg q e (p.1 / seg) .mappedOut
      else
        let (s, r) := s.readFrom (queueSite q) (src + p.1) p.2 e.hint
        s.sendRack q e a seg p.1 r (e.field 8 8 == 1)
  | none, none =>
    let (s, l) := (lineCuts src len seg).foldl (Chip.readChunk q e src seg) (s, [])
    s.each l fun s k => s.writeChunk q e dst seg k

/-- The bytes of FILL's pattern from an offset of its range on. -/
def QEntry.pattern (e : QEntry) (o n : Nat) : List Byte :=
  (List.range n).map fun i => BitVec.ofNat 8 (e.field 447 384 / 2 ^ (8 * ((o + i) % 8)))

def Chip.startFill (s : Chip) (q : Nat) (e : QEntry) : Chip :=
  let len := e.len
  let seg := segBytes len
  let dst := e.field 511 448
  match rackOf dst with
  | some a =>
    let s := if s.mirroring || s.isShadow then s.noteDigest q e (e.pattern 0 len) else s
    s.each (cutRange (fun o r => s.rackRun (a + o) r .wr) seg len 0 len) fun s p =>
      s.sendRack q e a seg p.1 [(e.pattern p.1 p.2, false)] false
  | none => s.each (lineCuts dst len seg) fun s p => s.writeChunk q e dst seg ⟨p.1, e.pattern p.1 p.2, false⟩

def execCmdCopy (queue : Fin 16384) (s : State) : Host.Outcome State Fault Refusal :=
  s.act fun c => c.attempt queue.val (· == 2) ownPlain Chip.startCopy

def execCmdFill (queue : Fin 16384) (s : State) : Host.Outcome State Fault Refusal :=
  s.act fun c => c.attempt queue.val (· == 3) ownPlain Chip.startFill

/-! ### PUT (R119, R120, R177) -/

/-- A PUT's cell of source bytes. -/
def QEntry.putCell (e : QEntry) (o : Nat) (bs : List Byte) : Cell :=
  { cellBlank with
    type := if e.putMode = 0 then 0 else if e.putMode = 1 then 7 else 8
    flags := if e.putMode ≠ 0 ∧ e.field 10 10 = 1 then 2 else 0
    len := BitVec.ofNat 6 bs.length, offset := BitVec.ofNat 42 ((e.putOffset + o) / 4), payload := payloadOf bs }

/-- The source bytes of a cell are read: the cell, or none where its segments have failed. -/
def Chip.readPut (q : Nat) (e : QEntry) (src seg : Nat) (r : Chip × List (Cell × Work)) (k : Nat) : Chip × List (Cell × Work) :=
  let (s, l) := r
  let o := 48 * k
  let n := min 48 (e.len - o)
  let a := o / seg
  let b := (o + n - 1) / seg
  let fail (s : Chip) (st : Status) := s.setEntry q e.num fun e => e.failParts a b st
  if s.rangeWithdrawn (src + o) n then (fail s .mappedOut, l)
  else
    let (s, d) := s.readFrom (queueSite q) (src + o) n e.hint
    if readPoison d then (fail s .poisoned, l)
    else (s, l ++ [(e.putCell o (readData d), .cmd q e.num a b)])

/-- Its cells go out on the queue's stream; its own signal to the same chip follows them, unless a cell was not sent
(R174, R177). A shadow sends nothing (R490). -/
def Chip.startPut (s : Chip) (q : Nat) (e : QEntry) : Chip :=
  let seg := segBytes e.len
  let src := e.field 511 448
  let s := s.digestRange q e src e.len
  let (s, cells) := (List.range ((e.len + 47) / 48)).foldl (Chip.readPut q e src seg) (s, [])
  if s.isShadow then s
  else
    match s.bindStream (.queue q) (BitVec.ofNat 16 e.putChip) with
    | (s, none) => s
    | (s, some n) =>
      let s := s.setEntry q e.num fun e => { e with outstanding := e.outstanding + cells.length }
      let clean := match (s.queueAt q).entry e.num with
        | some x => x.fails.isEmpty
        | none => false
      let follow := e.sigEn && e.sigRemote && e.sigChip == e.putChip && clean
      let s := if follow then s.setEntry q e.num fun e => { e with sig := .sent } else s
      s.sendCells n (cells ++ if follow then [(e.signalCell, .cmdSignal q e.num)] else [])

def execCmdPut (queue : Fin 16384) (s : State) : Host.Outcome State Fault Refusal :=
  s.act fun c => c.attempt queue.val (· == 4) ownPlain Chip.startPut

/-! ### The other opcodes -/

/-- SIGNAL: the add to its counter is the command's effect (R178). It has no pieces: it runs until its signal has
landed. -/
def Chip.startSignal (s : Chip) (q : Nat) (e : QEntry) : Chip :=
  let s := s.setEntry q e.num fun e => { e with outstanding := 2 }
  if e.sigRemote then (s.noteDigest q e []).signalRemote q e else s.signalLocal q e

def execCmdSignal (queue : Fin 16384) (s : State) : Host.Outcome State Fault Refusal :=
  s.act fun c => c.attempt queue.val (· == 5) ownPlain Chip.startSignal

def startNothing (s : Chip) (_ : Nat) (_ : QEntry) : Chip := s

def execCmdNop (queue : Fin 16384) (s : State) : Host.Outcome State Fault Refusal :=
  s.act fun c => c.attempt queue.val (· == 0) ownPlain startNothing

def execCmdWait (queue : Fin 16384) (s : State) : Host.Outcome State Fault Refusal :=
  s.act fun c => c.attempt queue.val (· == 6) ownPlain startNothing

def execCmdFence (queue : Fin 16384) (s : State) : Host.Outcome State Fault Refusal :=
  s.act fun c => c.attempt queue.val (· == 7) ownPlain startNothing

/-- A reserved opcode never passes its check: it completes REFUSED (R175). -/
def execCmdReservedOpcode (queue : Fin 16384) (s : State) : Host.Outcome State Fault Refusal :=
  s.act fun c => c.attempt queue.val (· > 10) ownPlain startNothing

/-- COLLECTIVE: it waits for its context from here on, and runs as the collectives' rules say (R221); where its communicator has
become blocked since its check, it completes (R215, R220). A shadow takes the sequence and the digest of
the source alone (R490, R491). -/
def Chip.startCollective (s : Chip) (q : Nat) (e : QEntry) : Chip :=
  let c := collCmdOf e
  let ext (n : Nat) : Nat :=
    if c.op = 6 then padHeader n + (s.readOffers c n).2.1.foldl (· + ·) 0 * c.rowBytes else c.srcLen n
  match s.collBlocked c.commId, s.slotOf c.commId with
  | some st, _ => (s.setEntry q e.num fun e => { e with outstanding := 2 }).collGiveUp q e.num st
  | none, none => s
  | none, some (slot, v) =>
    let n := v.nmembers.toNat
    let reads := c.op ≠ 3 ∨ v.myIndex.toNat = c.rootRow
    let s := s.digestRange q e c.src (if reads then ext n else 0)
    if s.isShadow then
      (s.setComm slot { v with nextSeq := v.nextSeq + 1 }).setEntry q e.num fun e => { e with detail := v.nextSeq.setWidth 24 }
    else
      let s := s.setEntry q e.num fun e => { e with outstanding := 2 }
      ({ s with coll := { s.coll with waiting := s.coll.waiting ++ [⟨q, e.num, c, s.timebase⟩] } } : Chip).collFeed

def execCmdCollective (queue : Fin 16384) (s : State) : Host.Outcome State Fault Refusal :=
  s.act fun c => (c.attempt queue.val (· == 8) ownPlain Chip.startCollective).collFeed

/-- A step marker (R488, R489, R492): at START_STEP mirroring and comparison begin; at a later one the shadow counts the
step that has ended. -/
def Chip.stepMarker (s : Chip) (step : Word32) : Chip :=
  match s.service.pair with
  | none => s
  | some p =>
    if s.service.state = .source then
      if step = p.startStep then { s with service := { s.service with pairActive := true } } else s
    else if s.isShadow then
      if !s.service.pairActive then
        if step = p.startStep then
          { s with service := { s.service with pairActive := true, step := step, stepEqual := true } }
        else s
      else
        let n := if s.service.stepEqual then s.service.shadowEqual + 1 else 0
        let s : Chip := { s with service := { s.service with shadowEqual := n, step := step, stepEqual := true } }
        if s.service.state = .shadowing && n ≥ s.obj O.shadowSteps then
          ({ s with service := { s.service with state := .verified } } : Chip).raise 0x0E01 [.u32 p.peer.toNat, .u64 step.toNat]
        else s
    else s

def Chip.startMarker (s : Chip) (_ : Nat) (e : QEntry) : Chip :=
  if e.field 511 511 = 1 then s.stepMarker (BitVec.ofNat 32 (e.field 479 448)) else s

def execCmdMarker (queue : Fin 16384) (s : State) : Host.Outcome State Fault Refusal :=
  s.act fun c => c.attempt queue.val (· == 10) ownPlain Chip.startMarker

/-! ### Timers of a queue -/

/-- WAIT_LIMIT: the command at the head whose waits are still unmet completes TIMEOUT (R182). -/
def Chip.waitLimit (s : Chip) (q : Nat) : Chip :=
  let v := s.queueAt q
  match v.head with
  | some e =>
    if v.state = .active && e.phase = .waiting && v.waitLimit ≠ 0 && e.opcode ≠ 8 && !(s.meetWaits q e).2 then
      ((s.dropWaits (.queue q)).setEntry q e.num fun e => { e with phase := .finished, status := .timeout }).stampHead q
    else s
  | none => s

def execWaitLimitExpiry (queue : Fin 16384) (s : State) : Host.Outcome State Fault Refusal :=
  s.act fun c => c.waitLimit queue.val

/-- A ready command has waited 1 ms: its queue counts one PRIO level higher until it starts (R181). -/
def Chip.queueAging (s : Chip) (q : Nat) : Chip :=
  if (s.queueAt q).readyHead.isSome then s.setQueue q fun v => { v with aged := true } else s

def execQueuePrioAging (queue : Fin 16384) (s : State) : Host.Outcome State Fault Refusal :=
  s.act fun c => c.queueAging queue.val

end Sys2Proof.Machine
end

