-- ==== Sys2Proof/Machine/Launch.lean ====
section
/-! DEFINITION. KERNEL: the image's header, the checks at the head, and how its cores start (R294–R297). -/

namespace Sys2Proof.Machine

/-! ### Kernel images (R294) -/

/-- Fields of an image header. -/
def imageTimeLimit (h : Nat) : Nat := bitsOf h 159 128
def imageEntry (h : Nat) : Nat := bitsOf h 127 96
def imageCodeLen (h : Nat) : Nat := bitsOf h 95 64

/-- The header's own rules. -/
def imageOk (h : Nat) : Bool :=
  bitsOf h 511 160 == 0 && bitsOf h 63 32 == 0 && bitsOf h 31 24 == 0 && bitsOf h 23 16 == 1 && bitsOf h 15 0 == 0xD3C0 &&
  imageCodeLen h ≥ 4 && imageCodeLen h ≤ 1048576 && imageCodeLen h % 4 == 0 && imageEntry h % 2 == 0 &&
  imageEntry h < imageCodeLen h

/-- The header at an image's offset as the head check reads it: its bits, or why it is refused. The image lies in memories
that `ok` allows. -/
def Chip.readImage (s : Chip) (ok : Nat → Bool) (code : Nat) : Chip × Except Status Nat :=
  if code ≥ 2 ^ 44 ∨ code % 64 ≠ 0 ∨ !(s.oneMemory ok code 64) then (s, .error .refused)
  else if s.rangeWithdrawn code 64 then (s, .error .mappedOut)
  else
    let (s, r) := s.read code 64 0
    let h := leNat (readData r)
    if readPoison r then (s, .error .poisoned)
    else if !(imageOk h) || !(s.oneMemory ok code (64 + imageCodeLen h)) then (s, .error .refused)
    else (s, .ok h)

/-! ### The checks at the head (R176, R295) -/

def QEntry.argLines (e : QEntry) : Nat := e.field 343 332
def QEntry.code (e : QEntry) : Nat := e.field 511 448
def QEntry.args (e : QEntry) : Nat := e.field 447 384

def ownKernel (s : Chip) (q : Nat) (e : QEntry) : Chip × Verdict :=
  let n := e.argLines
  let badArgs := n ≠ 0 && !(e.args < 2 ^ 44 && s.oneMemory hbmOrCore e.args (64 * n))
  let offline := (e.cores q).filter fun c => (s.core c).state == .offline
  if e.field 351 344 ≠ 0 ∨ e.field 331 320 ≠ 0 ∨ n > 64 ∨ badArgs then (s, .fail .refused none)
  else
    match s.readImage hbmOrCore e.code with
    | (s, .error st) => (s, .fail st none)
    | (s, .ok h) =>
      if !offline.isEmpty then
        (s, .fail .refused (some (BitVec.ofNat 64 (offline.foldl (fun m c => m + 2 ^ (c % 32)) 0))))
      else if n ≠ 0 && s.rangeWithdrawn e.args (64 * n) then (s, .fail .mappedOut none)
      else (s, .pass [BitVec.ofNat 1024 h])

/-! ### The start (R296, R297) -/

/-- Where a core's own memory lies; an update engine's scratch memory takes its place (R399). -/
def coreBase (c : Nat) : Nat := if c < 256 then 0x80000000000 + c * 2 ^ 24 else 2 ^ 44 + (c - 256) * 2 ^ 22

/-- The tags of a core's banks, which its control core's shadow takes at kernel start (R315). -/
def ArraySt.tags (a : ArraySt) : Tab (Bool × BitVec 4 × Nat × Nat) :=
  (a.banks.filter (·.2.loaded)).map fun b => (b.1, true, b.2.wfmt, b.2.d, b.2.n)

/-- Argument lines go to a core's memory with their marks, and the rest of the 4 KiB is zero. -/
def Chip.putArgs (s : Chip) (base : Nat) (lines : List (List Byte × Bool)) : Chip :=
  let s := s.each lines.zipIdx fun s l => s.write (base + 64 * l.2) l.1.1 l.1.2 0
  s.write (base + 64 * lines.length) (List.replicate (4096 - 64 * lines.length) 0) false 0

/-- A block of memory read line by line: each 64 bytes with the mark of what they were read from. -/
def Chip.readLines (s : Chip) (a n : Nat) : Chip × List (List Byte × Bool) :=
  (List.range n).foldl (fun (r : Chip × List (List Byte × Bool)) i =>
    let (s, d) := r.1.read (a + 64 * i) 64 0
    (s, r.2 ++ [(readData d, readPoison d)])) (s, [])

/-- The info block of R297. -/
def Chip.infoBlock (s : Chip) (q : Nat) (e : QEntry) (c rank n : Nat) : Nat :=
  let valid := s.objb O.chipAssigned
  valid.toNat * 2 ^ 344 + (s.objb O.detMode).toNat * 2 ^ 336 + (if s.part = .a then 0 else 1) * 2 ^ 328 +
  e.argLines % 256 * 2 ^ 320 + e.args * 2 ^ 256 + e.code * 2 ^ 192 + s.timebase.toNat * 2 ^ 128 + e.field 63 32 * 2 ^ 96 +
  e.num.toNat % 65536 * 2 ^ 80 + q * 2 ^ 64 + n * 2 ^ 56 + rank * 2 ^ 48 + c % 32 * 2 ^ 40 + c / 32 * 2 ^ 32 + c * 2 ^ 16 +
  (if valid then s.chipNumber else 0)

/-- The registers with which a control core starts. -/
def startRegs (sp a0 a1 a2 a3 : Nat) : Tab Word :=
  ([(2, sp), (10, a0), (11, a1), (12, a2), (13, a3)].filter (·.2 != 0)).map fun e => (e.1, BitVec.ofNat 64 e.2)

/-- A core starts a kernel: registers, empty unit queues, an empty instruction cache. -/
def CoreSt.launch (x : CoreSt) (pc : Nat) (regs : Tab Word) (k : KernelCtx) : CoreSt :=
  { x with
    state := .running, fallow := false, pc := BitVec.ofNat 64 pc, x := regs, f := [], frm := 0, fflags := 0, csrs := []
    reservation := none, icache := false, stall := none, arrayQ := [], vectorQ := [], dmaQ := [], arrayRun := []
    vectorRun := [], dmaRun := [], localWaits := [], storesOut := 0, kernel := some k, ended := false, faulted := none
    array := { x.array with shadow := x.array.tags } }

/-- One named core of a KERNEL starts. -/
def Chip.startCore (s : Chip) (q : Nat) (e : QEntry) (lines : List (List Byte × Bool)) (n : Nat) (s' : Nat × Nat) : Chip :=
  let (c, rank) := s'
  let h := (e.held.head?.getD 0).toNat
  let own := 2 ^ 57
  let s := (s.putArgs (coreBase c) lines).write (coreBase c + 0x1000) (leBytes 64 (s.infoBlock q e c rank n)) false 0
  let k : KernelCtx :=
    { queue := q, num := e.num, code := e.code, codeLen := imageCodeLen h
      timeLimit := if imageTimeLimit h = 0 then s.obj O.kernelTimeLimit else imageTimeLimit h, fateShare := e.field 8 8 == 1 }
  (s.setCore c fun x => x.launch (e.code + 64 + imageEntry h) (startRegs (own + 2 ^ 24) own (own + 0x1000) rank n) k).bump
    (O.kernels + 256 * c) 1

/-- Every named core starts (R296). -/
def Chip.startKernel (s : Chip) (q : Nat) (e : QEntry) : Chip :=
  let cores := e.cores q
  let (s, lines) := s.readLines e.args e.argLines
  let s := s.setEntry q e.num fun e => { e with outstanding := e.outstanding + cores.length }
  s.each cores.zipIdx fun s c => s.startCore q e lines cores.length c

def execCmdKernel (queue : Fin 16384) (s : State) : Host.Outcome State Fault Refusal :=
  s.act fun c => c.attempt queue.val (· == 1) (fun s e => ownKernel s queue.val e) Chip.startKernel

end Sys2Proof.Machine
end

