-- ==== Sys2Proof/Machine/Reduce.lean ====
section
/-! DEFINITION. FP32 operations on encodings, and the fixed orders of sums: lanes and tree (R341), the XF32 tree (R365). -/

namespace Sys2Proof.Machine

/-! ### FP32 to nearest even, one rounding per operation (R395) -/

def f32v (a : Nat) : FVal := Fmt.fp32.decode a
def f32r (v : FVal) : Nat := (Fmt.fp32.round .rne v).1
def fadd (a b : Nat) : Nat := f32r (FVal.add .rne (f32v a) (f32v b)).1
def fneg (a : Nat) : Nat := a ^^^ 0x80000000
def fsub (a b : Nat) : Nat := fadd a (fneg b)
def fmul (a b : Nat) : Nat := f32r (FVal.mul (f32v a) (f32v b)).1
def ffma (a b c : Nat) : Nat := f32r (FVal.fma .rne (f32v a) (f32v b) (f32v c)).1
def fdiv (a b : Nat) : Nat := (Fmt.fp32.div .rne (f32v a) (f32v b)).1
def fsqrt (a : Nat) : Nat := (Fmt.fp32.sqrt .rne (f32v a)).1
def fone : Nat := 0x3F800000
/-- A natural number as FP32. -/
def fnat (n : Nat) : Nat := f32r (.fin false n 0)
/-- a < b, as numbers; false with a NaN. -/
def flt (a b : Nat) : Bool :=
  match f32v a, f32v b with
  | .fin n m e, .fin n' m' e' => dyLt (FVal.int (.fin n m e)) (FVal.int (.fin n' m' e'))
  | x, y => x.below y
def fnan (a : Nat) : Bool := (f32v a).isNan

/-! ### Lanes and tree (R341) -/

/-- Two inputs of which either may be absent. -/
def meet {α : Type} (f : α → α → α) : Option α → Option α → Option α
  | some a, some b => some (f a b)
  | some a, none => some a
  | none, b => b

/-- One level of the tree: neighbours in pairs. -/
def pairUp {α : Type} (f : α → α → α) : List (Option α) → List (Option α)
  | a :: b :: r => meet f a b :: pairUp f r
  | l => l

/-- The root after n levels. -/
def treeRoot {α : Type} (f : α → α → α) : Nat → List (Option α) → Option α
  | 0, l => (l.head?).join
  | n + 1, l => treeRoot f n (pairUp f l)

/-- The lanes after the elements of a list, 256 at a time, in ascending order. -/
def laneFold {α : Type} (f : α → α → α) : Nat → List (Option α) → List (Option α) → List (Option α)
  | 0, lanes, _ => lanes
  | fuel + 1, lanes, l =>
    if l.isEmpty then lanes
    else
      let row := l.take 256
      laneFold f fuel (List.zipWith (meet f) lanes (row ++ List.replicate (256 - row.length) none)) (l.drop 256)

/-- A reduction in the fixed order of R341; absent elements are masked. -/
def reduceOrder {α : Type} (f : α → α → α) (l : List (Option α)) : Option α :=
  treeRoot f 8 (laneFold f (l.length / 256 + 1) (List.replicate 256 none) l)

/-- The FP32 sum of a list in that order. -/
def fsumOrder (l : List Nat) : Nat := (reduceOrder fadd (l.map some)).getD 0

/-! ### XF32 (R317, R365) -/

/-- An exact value rounded to XF32's 40-bit fraction. -/
def rne40 (v : FVal) : FVal := Fmt.xf40.decode (Fmt.xf40.round .rne v).1

/-- A node of the tree: the exact sum, rounded. -/
def xfAdd (a b : FVal) : FVal := rne40 (exactSum .rne [a, b]).1

/-- The tree sum of products over L = 2^levels leaves; missing leaves are absent. -/
def xfTree (levels : Nat) (ps : List (FVal × FVal)) : Option FVal :=
  treeRoot xfAdd levels (ps.map (fun p => some (rne40 (FVal.mul p.1 p.2).1)) ++ List.replicate (2 ^ levels - ps.length) none)

end Sys2Proof.Machine
end

