-- ==== Sys2Proof/Machine/Update.lean ====
section
/-! DEFINITION. The parameter update (13_cellar_update): layer descriptors and state headers, the update rules, the working
copy and the ratio, as functions of what a layer reads. -/

namespace Sys2Proof.Machine

/-! ### Layer descriptors (R392, R394, R400) -/

/-- A layer descriptor's fields. -/
structure Desc where
  bits : Nat

def Desc.field (d : Desc) (hi lo : Nat) : Nat := bitsOf d.bits hi lo
def Desc.layerId (d : Desc) : Nat := d.field 1023 992
def Desc.rule (d : Desc) : Nat := d.field 991 984
def Desc.gfmt (d : Desc) : Nat := d.field 983 980
def Desc.wfmt (d : Desc) : Nat := d.field 979 976
def Desc.stochastic (d : Desc) : Bool := d.field 975 975 == 1
def Desc.tile (d : Desc) : Bool := d.field 974 974 == 1
def Desc.nesterov (d : Desc) : Bool := d.field 973 973 == 1
def Desc.ratioEn (d : Desc) : Bool := d.field 972 972 == 1
def Desc.nsIters (d : Desc) : Nat := d.field 971 968
def Desc.rows (d : Desc) : Nat := d.field 959 928
def Desc.cols (d : Desc) : Nat := d.field 927 896
def Desc.master (d : Desc) : Nat := d.field 895 852
def Desc.state (d : Desc) : Nat := d.field 851 808
def Desc.grad (d : Desc) : Nat := d.field 807 764
def Desc.work (d : Desc) : Nat := d.field 763 720
def Desc.tk (d : Desc) : Nat := 32 * (d.field 719 712 + 1)
def Desc.tn (d : Desc) : Nat := d.field 711 704 + 1
def Desc.stride (d : Desc) : Nat := d.field 703 672
def Desc.lr (d : Desc) : Nat := d.field 671 640
def Desc.p1 (d : Desc) : Nat := d.field 639 608
def Desc.p2 (d : Desc) : Nat := d.field 607 576
def Desc.p3 (d : Desc) : Nat := d.field 575 544
def Desc.wd (d : Desc) : Nat := d.field 543 512
def Desc.gscale (d : Desc) : Nat := d.field 511 480
def Desc.ratioLo (d : Desc) : Nat := d.field 479 448
def Desc.ratioHi (d : Desc) : Nat := d.field 447 416
def Desc.nsCoef (d : Desc) (i : Nat) : Nat := d.field (415 - 32 * i) (384 - 32 * i)
def Desc.prog (d : Desc) : Nat := d.field 319 276
def Desc.rowList (d : Desc) : Nat := d.field 275 232
def Desc.ntouched (d : Desc) : Nat := d.field 231 200

/-- Elements of the layer. -/
def Desc.elems (d : Desc) : Nat := d.rows * d.cols
/-- Bytes of one state array: Ē. -/
def Desc.arrayBytes (d : Desc) : Nat := (4 * d.elems + 63) / 64 * 64
def Desc.short (d : Desc) : Nat := min d.rows d.cols
def Desc.long (d : Desc) : Nat := max d.rows d.cols

/-- Bytes of STATE (R394). -/
def Desc.stateBytes (d : Desc) : Nat :=
  match d.rule with
  | 0 => 64 + d.arrayBytes
  | 1 => 64 + 2 * d.arrayBytes
  | 2 => 64 + 2 * d.arrayBytes + (8 * d.short * d.short + 63) / 64 * 64
  | 3 => (64 + 2 * d.arrayBytes + 4 * d.rows + 63) / 64 * 64
  | _ => 64

/-- Bytes of a gradient element. -/
def Desc.gradSize (d : Desc) : Nat := if d.gfmt = 0 then 4 else 2

/-- Bytes of the gradient. -/
def Desc.gradBytes (d : Desc) : Nat := (if d.rule = 3 then d.ntouched * d.cols else d.elems) * d.gradSize

/-- Bytes of a row of n elements of the working copy, without scales. -/
def Desc.packed (d : Desc) (n : Nat) : Nat := (fmtBits d.wfmt * n + 7) / 8

/-- The least STRIDE (R400). -/
def Desc.minStride (d : Desc) : Nat :=
  if d.tile then max (d.packed d.tn) (if fmtMx d.wfmt then d.tn else 0)
  else d.packed d.cols + if fmtMx d.wfmt then d.cols / 32 else 0

/-- Bytes of a tile, and tiles across and down. -/
def Desc.tileBytes (d : Desc) : Nat := (d.tk + if fmtMx d.wfmt then d.tk / 32 else 0) * d.stride
def Desc.tilesAcross (d : Desc) : Nat := (d.cols + d.tn - 1) / d.tn
def Desc.tilesDown (d : Desc) : Nat := (d.rows + d.tk - 1) / d.tk

/-- Bytes from WORK to the end of the working copy. -/
def Desc.workBytes (d : Desc) : Nat :=
  if d.tile then d.tilesDown * d.tilesAcross * d.tileBytes else (d.rows - 1) * d.stride + d.minStride

/-- The die that serves a descriptor, if MASTER and STATE lie in one die's half (R384, R388, R389). -/
def Desc.die (d : Desc) : Option Nat :=
  let half (a : Nat) : Nat := a / 2 ^ 39
  let inside (a n : Nat) : Bool := a % 64 == 0 && half a == half (a + n - 1) && half a == half d.master
  if (half d.master = 8 ∨ half d.master = 9) ∧ inside d.master (4 * d.elems) ∧ inside d.state d.stateBytes then
    some (half d.master - 8)
  else none

/-! ### What a layer reads and computes -/

/-- A number and whether it was read or computed from poisoned data. -/
abbrev Val := Nat × Bool

/-- The numbers of n bytes each that marked bytes hold. -/
def valsOf (n : Nat) : Nat → List (Byte × Bool) → List Val
  | 0, _ => []
  | fuel + 1, l =>
    if l.isEmpty then []
    else (leNat ((l.take n).map (·.1)), (l.take n).any (·.2)) :: valsOf n fuel (l.drop n)

/-- A list cut into rows of n. -/
def rowsOf {α : Type} (n : Nat) : Nat → List α → List (List α)
  | 0, _ => []
  | k + 1, l => l.take n :: rowsOf n k (l.drop n)

/-- Columns of equally long rows. -/
def columns {α : Type} (d : α) (n : Nat) (m : List (List α)) : List (List α) :=
  (List.range n).map fun j => m.map fun r => r.getD j d

/-- b to the power t, exactly as R395 writes it. -/
def pow32Loop : Nat → Nat → Nat → Nat → Nat
  | 0, _, _, r => r
  | fuel + 1, b, t, r => if t = 0 then r else pow32Loop fuel (fmul b b) (t / 2) (if t % 2 = 1 then fmul r b else r)

def pow32 (b t : Nat) : Nat := pow32Loop 64 b t fone

/-- The constants a die computes once for a layer. -/
structure RuleConst where
  eta : Nat
  k : Nat
  etaSigma : Nat

def Desc.consts (d : Desc) (lrScale : Nat) : RuleConst :=
  let eta := fmul d.lr lrScale
  ⟨eta, fmul eta d.wd, fmul eta d.p2⟩

/-- SGD_M on one element: w and m after it (R396). -/
def Desc.sgd (d : Desc) (c : RuleConst) (w m g : Nat) : Nat × Nat :=
  let m := ffma d.p1 m g
  let s := if d.nesterov then ffma d.p1 m g else m
  (ffma (fneg c.eta) s (ffma (fneg c.k) w w), m)

/-- ADAMW on one element at step count t: w, m and v after it (R396). -/
def Desc.adam (d : Desc) (c : RuleConst) (c1 c2 w m v g : Nat) : Nat × Nat × Nat :=
  let q1 := fsub fone d.p1
  let q2 := fsub fone d.p2
  let m := ffma d.p1 m (fmul q1 g)
  let v := ffma d.p2 v (fmul (fmul q2 g) g)
  let den := fadd (fsqrt (fdiv v c2)) d.p3
  (ffma (fneg c.eta) (fdiv (fdiv m c1) den) (ffma (fneg c.k) w w), m, v)

/-- c1 and c2 at step count t. -/
def Desc.bias (d : Desc) (t : Nat) : Nat × Nat := (fsub fone (pow32 d.p1 t), fsub fone (pow32 d.p2 t))

/-! ### Matrix products of ORTHO (R398) -/

/-- An operand rounded to BF16. -/
def bf16Of (a : Nat) : FVal := Fmt.bf16.decode (Fmt.bf16.round .rne (f32v a)).1

/-- The products of one output element in blocks of 32, each summed by the tree, the block sums in order (DEDUCED log 40). -/
def blockSum : Nat → List (FVal × FVal) → Option FVal → Option FVal
  | 0, _, acc => acc
  | fuel + 1, ps, acc =>
    if ps.isEmpty then acc else blockSum fuel (ps.drop 32) (meet xfAdd acc (xfTree 5 (ps.take 32)))

def dotBf16 (a b : List FVal) : Nat :=
  match blockSum (a.length / 32 + 1) (a.zip b) none with
  | some v => f32r v
  | none => 0

/-- x · yᵀ of matrices given by their rows. -/
def matMulT (x y : List (List Nat)) : List (List Nat) :=
  let ys := y.map (·.map bf16Of)
  x.map fun r => let r := r.map bf16Of; ys.map (dotBf16 r)

def zipRows (f : Nat → Nat → Nat) (x y : List (List Nat)) : List (List Nat) := List.zipWith (List.zipWith f) x y

/-- One Newton–Schulz iteration: A, A·A and the new X. -/
def Desc.newtonSchulz (d : Desc) (x : List (List Nat)) : List (List Nat) × List (List Nat) × List (List Nat) :=
  let n := x.length
  let a := matMulT x x
  let aa := matMulT a (columns 0 n a)
  let b := zipRows (fun p q => ffma (d.nsCoef 2) p (fmul (d.nsCoef 1) q)) aa a
  let bx := matMulT b (columns 0 d.long x)
  (a, aa, zipRows (fun p q => ffma (d.nsCoef 0) p q) x bx)

def Desc.nsLoop (d : Desc) : Nat → List (List Nat) × List (List Nat) × List (List Nat) →
    List (List Nat) × List (List Nat) × List (List Nat)
  | 0, r => r
  | k + 1, r => d.nsLoop k (d.newtonSchulz r.2.2)

/-! ### Sums and the ratio (R401) -/

/-- The sum of squares of numbers in row-major order: four quarters, each in the order of R341. -/
def sumsq (l : List Nat) : Nat :=
  let n := l.length
  let q (i : Nat) : Nat := fsumOrder (((l.drop (i * n / 4)).take ((i + 1) * n / 4 - i * n / 4)).map fun x => fmul x x)
  fadd (fadd (fadd (q 0) (q 1)) (q 2)) (q 3)

/-- The ratio of two sums. -/
def ratioOf (sd sw : Nat) : Nat :=
  if (f32v sw).isZero then (if (f32v sd).isZero then 0 else Fmt.fp32.infBits false) else fsqrt (fdiv sd sw)

/-! ### What a layer has computed -/

/-- The outcome of a layer's computation. -/
structure LayerOut where
  /-- what it writes to the cellar, in order: arrays of FP32 numbers, or of counts, by address -/
  stores : List (Nat × List Val)
  /-- rows whose master was updated: row number, old and new master -/
  rows : List (Nat × List Val × List Val)
  /-- the status of the computation: OK, POISONED or REFUSED -/
  status : Status
  /-- the row list ended it before the ratio was known -/
  cut : Bool

/-- What a layer has read: master, state arrays, gradient, row by row; the row list and the rows' step counts. -/
structure LayerIn where
  w : List (List Val)
  m : List (List Val)
  v : List (List Val)
  g : List (List Val)
  list : List Val
  steps : List Val
  /-- LSTEP of the header -/
  lstep : Nat

def poisonOf (rows : List (List Val)) : Bool := rows.any fun r => r.any (·.2)

/-- g of the rules: the gradient element widened and scaled. -/
def Desc.scaled (d : Desc) (g : Val) : Val := (fmul d.gscale (if d.gfmt = 0 then g.1 else g.1 * 65536), g.2)

def Desc.mAddr (d : Desc) (row : Nat) : Nat := d.state + 64 + 4 * d.cols * row
def Desc.vAddr (d : Desc) (row : Nat) : Nat := d.state + 64 + d.arrayBytes + 4 * d.cols * row
def Desc.wAddr (d : Desc) (row : Nat) : Nat := d.master + 4 * d.cols * row
def Desc.stepAddr (d : Desc) (row : Nat) : Nat := d.state + 64 + 2 * d.arrayBytes + 4 * row

/-- SGD_M over a layer. -/
def Desc.runSgd (d : Desc) (c : RuleConst) (i : LayerIn) : LayerOut :=
  let rows := (i.w.zip (i.m.zip i.g)).zipIdx.map fun r =>
    let out := (r.1.1.zip (r.1.2.1.zip r.1.2.2)).map fun e =>
      let g := d.scaled e.2.2
      let p := e.1.2 || e.2.1.2 || g.2
      let (w, m) := d.sgd c e.1.1 e.2.1.1 g.1
      ((w, p), ((m, p) : Val))
    (r.2, r.1.1, out)
  { stores := rows.flatMap fun r => [(d.mAddr r.1, r.2.2.map (·.2)), (d.wAddr r.1, r.2.2.map (·.1))]
    rows := rows.map fun r => (r.1, r.2.1, r.2.2.map (·.1))
    status := if poisonOf i.w || poisonOf i.m || poisonOf i.g then .poisoned else .ok, cut := false }

/-- A row under the ADAMW lines, and what it writes. -/
def Desc.adamRow (d : Desc) (c : RuleConst) (t : Val) (row : Nat) (w m v g : List Val) :
    List (Nat × List Val) × (Nat × List Val × List Val) :=
  let (c1, c2) := d.bias t.1
  let out := (w.zip (m.zip (v.zip g))).map fun e =>
    let g := d.scaled e.2.2.2
    let p := e.1.2 || e.2.1.2 || e.2.2.1.2 || g.2 || t.2
    let (w, m, v) := d.adam c c1 c2 e.1.1 e.2.1.1 e.2.2.1.1 g.1
    (((w, p) : Val), ((m, p) : Val), ((v, p) : Val))
  ([(d.mAddr row, out.map (·.2.1)), (d.vAddr row, out.map (·.2.2)), (d.wAddr row, out.map (·.1))], (row, w, out.map (·.1)))

/-- ADAMW over a layer. -/
def Desc.runAdam (d : Desc) (c : RuleConst) (i : LayerIn) : LayerOut :=
  let r := (i.w.zip (i.m.zip (i.v.zip i.g))).zipIdx.map fun r =>
    d.adamRow c ((i.lstep + 1) % 2 ^ 64, false) r.2 r.1.1 r.1.2.1 r.1.2.2.1 r.1.2.2.2
  { stores := r.flatMap (·.1), rows := r.map (·.2)
    status := if poisonOf i.w || poisonOf i.m || poisonOf i.v || poisonOf i.g then .poisoned else .ok, cut := false }

/-- The entries of a row list before the first that breaks the order or the bound (R397). -/
def goodRows (rows : Nat) (list : List Val) : List Val :=
  (list.zipIdx.takeWhile fun e =>
    e.1.1 < rows && (e.2 == 0 || (list.getD (e.2 - 1) (0, false)).1 < e.1.1)).map (·.1)

/-- SPARSE_ADAM over the rows of its list, until an entry breaks the order or the bound (R397). The layer's arrays hold the
rows of the list. -/
def Desc.runSparse (d : Desc) (c : RuleConst) (i : LayerIn) : LayerOut :=
  let good := goodRows d.rows i.list
  let cut := good.length < i.list.length
  let r := good.zipIdx.map fun e =>
    let st := i.steps.getD e.2 (0, false)
    let t : Val := (min (st.1 + 1) (2 ^ 32 - 1), st.2 || e.1.2)
    let x := d.adamRow c t e.1.1 (i.w.getD e.2 []) (i.m.getD e.2 []) (i.v.getD e.2 []) (i.g.getD e.2 [])
    (x.1 ++ [(d.stepAddr e.1.1, [t])], x.2)
  let n := good.length
  let bad := poisonOf (i.w.take n) || poisonOf (i.m.take n) || poisonOf (i.v.take n) || poisonOf (i.g.take n) ||
    (i.list.take (n + 1)).any (·.2) || (i.steps.take n).any (·.2)
  { stores := r.flatMap (·.1), rows := r.map (·.2)
    status := if cut then .refused else if bad then .poisoned else .ok, cut := cut }

/-- ORTHO over a layer (R398). -/
def Desc.runOrtho (d : Desc) (c : RuleConst) (i : LayerIn) : LayerOut :=
  let mg := List.zipWith (fun rm rg => List.zipWith (fun m g =>
    let g := d.scaled g
    let m' := ffma d.p1 m.1 g.1
    (((m', m.2 || g.2) : Val), if d.nesterov then ffma d.p1 m' g.1 else m')) rm rg) i.m i.g
  let g := mg.map (·.map (·.2))
  let bad := poisonOf i.m || poisonOf i.g
  let all := bad || poisonOf i.w
  let r := fdiv fone (fadd (fsqrt (sumsq g.flatten)) d.p3)
  let tall := d.rows > d.cols
  let x0 := (if tall then columns 0 d.cols g else g).map (·.map (fmul · r))
  let (a, aa, x) := d.nsLoop d.nsIters ([], [], x0)
  let o := if tall then columns 0 d.rows x else x
  let w1 := List.zipWith (fun rw ro => List.zipWith (fun w o =>
    ((ffma (fneg c.etaSigma) o (ffma (fneg c.k) w.1 w.1), w.2 || bad) : Val)) rw ro) i.w o
  let marked (l : List Nat) : List Val := l.map (·, bad)
  let sq := 4 * d.short * d.short
  let base := d.state + 64
  { stores := (mg.zipIdx.map fun r => (d.mAddr r.2, r.1.map (·.1))) ++
      [(base + d.arrayBytes, marked x.flatten), (base + 2 * d.arrayBytes, marked a.flatten),
       (base + 2 * d.arrayBytes + sq, marked aa.flatten)] ++
      w1.zipIdx.map fun r => (d.wAddr r.2, r.1)
    rows := (i.w.zip w1).zipIdx.map fun r => (r.2, r.1.1, r.1.2)
    status := if all then .poisoned else .ok, cut := false }

/-- A built-in rule over a layer. -/
def Desc.run (d : Desc) (lrScale : Nat) (i : LayerIn) : LayerOut :=
  let c := d.consts lrScale
  match d.rule with
  | 0 => d.runSgd c i
  | 1 => d.runAdam c i
  | 2 => d.runOrtho c i
  | _ => d.runSparse c i

/-- Sd and Sw of a layer's rows. -/
def LayerOut.sums (o : LayerOut) : Nat × Nat :=
  let w := o.rows.flatMap fun r => r.2.1.map (·.1)
  let w1 := o.rows.flatMap fun r => r.2.2.map (·.1)
  (sumsq (List.zipWith (fun a b => fsub b a) w w1), sumsq w)

/-! ### The working copy (R400) -/

/-- The rounding of a working copy: stochastic with seed, tensor and pass, or to nearest even. -/
structure WorkRound where
  sr : Option (Word × Word32 × Word32)

/-- A magnitude's encoding on a format's grid, chosen by the random bits u, unbounded above (R368). -/
def Fmt.srMag (f : Fmt) (u m : Nat) (e : Int) : Nat :=
  if m = 0 then 0
  else
    let q := f.place (Nat.log2 m + 1) e
    let (t, frac) : Nat × Nat :=
      if q ≤ e then (m * 2 ^ (e - q).toNat, 0)
      else (m / 2 ^ (q - e).toNat, m % 2 ^ (q - e).toNat * 2 ^ 32 / 2 ^ (q - e).toNat)
    let r := if u < frac then t + 1 else t
    let (r, q) := if r = 2 ^ (f.mbits + 1) then (2 ^ f.mbits, q + 1) else (r, q)
    (if r < 2 ^ f.mbits then 0 else (q - f.emin).toNat + 1) * 2 ^ f.mbits +
      (if r < 2 ^ f.mbits then r else r - 2 ^ f.mbits)

/-- An element rounded stochastically to a format; one without infinity saturates (R360, R368). -/
def srElem (code u : Nat) (v : FVal) : Nat :=
  match v with
  | .fin n m e =>
    if code = 0xA then
      let (t, frac) : Nat × Nat := if e + 6 ≥ 0 then (m * 2 ^ (e + 6).toNat, 0)
        else (m / 2 ^ (-(e + 6)).toNat, m % 2 ^ (-(e + 6)).toNat * 2 ^ 32 / 2 ^ (-(e + 6)).toNat)
      let t : Nat := if u < frac then t + 1 else t
      toTwos 8 (min (max (if n then -(t : Int) else t) (-128)) 127)
    else
      match fmtOf code with
      | none => 0
      | some f =>
        let top := match satCode code with
          | some x => x
          | none => (2 ^ f.ebits - 1) * 2 ^ f.mbits
        f.signBit n + min (f.srMag u m e) top
  | _ => (roundTo code .rne v).1

/-- The random bits of element `index`. -/
def WorkRound.bits (r : WorkRound) (index : Nat) : Nat :=
  match r.sr with
  | some (seed, tensor, pass) => (srBits seed tensor (BitVec.ofNat 64 index) pass).toNat
  | none => 0

/-- An element of a format without scales. -/
def WorkRound.elem (r : WorkRound) (code index w : Nat) : Nat :=
  match r.sr with
  | some _ => srElem code (r.bits index) (f32v w)
  | none => (roundTo code .rne (f32v w)).1

/-- A block under its scale: the scale byte and the elements; a block with a NaN or an infinity has scale 0xFF (R361). -/
def WorkRound.block (r : WorkRound) (code : Nat) (ws : List (Nat × Nat)) : Nat × List Nat :=
  let (x, codes, _) := mxEncode code .rne (ws.map fun w => some (f32v w.2))
  match r.sr with
  | none => (x, codes.map (·.getD 0))
  | some _ =>
    if x = 0xFF then (x, ws.map fun _ => 0)
    else (x, ws.map fun w => srElem code (r.bits w.1) ((f32v w.2).scale (127 - (x : Int))))

/-- Element codes of b bits packed little-endian, each byte marked if an element in it is. -/
def packMarked (b : Nat) (l : List Val) : List (Byte × Bool) :=
  let word := l.zipIdx.foldl (fun n e => n + e.1.1 * 2 ^ (b * e.2)) 0
  (leBytes ((b * l.length + 7) / 8) word).zipIdx.map fun y =>
    (y.1, ((l.drop (8 * y.2 / b)).take ((8 * y.2 + 7) / b + 1 - 8 * y.2 / b)).any (·.2))

/-- The elements of blocks of 32, with the blocks' scale bytes. -/
def WorkRound.blocks (r : WorkRound) (code : Nat) (bs : List (List (Nat × Val))) : List Val × List (List Val) :=
  let out := bs.map fun b =>
    let (x, es) := r.block code (b.map fun e => (e.1, e.2.1))
    let bad := b.any (·.2.2)
    (((x, bad) : Val), es.map fun e => ((e, bad) : Val))
  (out.map (·.1), out.map (·.2))

/-- A row of the LINEAR layout: its elements, then its scales. -/
def Desc.linearRow (d : Desc) (r : WorkRound) (row : Nat) (ws : List Val) : List (Byte × Bool) :=
  let indexed := ws.zipIdx.map fun w => (row * d.cols + w.2, w.1)
  if fmtMx d.wfmt then
    let (scales, es) := r.blocks d.wfmt (rowsOf 32 (d.cols / 32) indexed)
    packMarked (fmtBits d.wfmt) es.flatten ++ scales.map fun x => (BitVec.ofNat 8 x.1, x.2)
  else packMarked (fmtBits d.wfmt) (indexed.map fun e => (r.elem d.wfmt e.1 e.2.1, e.2.2))

/-- One tile of the TILE layout: its rows by offset from the tile's start. Elements beyond the layer are zero. -/
def Desc.tileRows (d : Desc) (r : WorkRound) (at' : Nat → Nat → Val) (g h : Nat) : List (Nat × List (Byte × Bool)) :=
  let el (k n : Nat) : Nat × Val :=
    let row := g * d.tk + k
    let col := h * d.tn + n
    if row < d.rows ∧ col < d.cols then (row * d.cols + col, at' row col) else (0, (0, false))
  if fmtMx d.wfmt then
    let groups := (List.range (d.tk / 32)).map fun j =>
      r.blocks d.wfmt ((List.range d.tn).map fun n => (List.range 32).map fun k => el (32 * j + k) n)
    (groups.zipIdx.flatMap fun x => (List.range 32).map fun k =>
      ((32 * x.2 + k) * d.stride, packMarked (fmtBits d.wfmt) (x.1.2.map fun b => b.getD k (0, false)))) ++
    groups.zipIdx.map fun x => ((d.tk + x.2) * d.stride, x.1.1.map fun s => (BitVec.ofNat 8 s.1, s.2))
  else (List.range d.tk).map fun k => (k * d.stride, packMarked (fmtBits d.wfmt) ((List.range d.tn).map fun n =>
    let e := el k n
    let row := g * d.tk + k
    let col := h * d.tn + n
    if row < d.rows ∧ col < d.cols then (r.elem d.wfmt e.1 e.2.1, e.2.2) else (0, false)))

/-- The working copy of new master rows: bytes with their marks by address. -/
def Desc.workCopy (d : Desc) (r : WorkRound) (rows : List (Nat × List Val)) : List (Nat × List (Byte × Bool)) :=
  if d.tile then
    let at' (row col : Nat) : Val := ((rows.map (·.2)).getD row []).getD col (0, false)
    (List.range d.tilesDown).flatMap fun g => (List.range d.tilesAcross).flatMap fun h =>
      (d.tileRows r at' g h).map fun x => (d.work + (g * d.tilesAcross + h) * d.tileBytes + x.1, x.2)
  else rows.map fun x => (d.work + x.1 * d.stride, d.linearRow r x.1 x.2)

end Sys2Proof.Machine
end

