-- ==== Sys2Proof/Machine/Cellar.lean ====
section
/-! DEFINITION. The cellar dies (13_cellar_update): accesses to their memory, and how UPDATEs run layer by layer. -/

namespace Sys2Proof.Machine

def Chip.die (s : Chip) (d : Nat) : CellarDie := Tab.get CellarDie.reset s.cellar.dies d
def Chip.setDie (s : Chip) (d : Nat) (f : CellarDie → CellarDie) : Chip :=
  { s with cellar := { s.cellar with dies := Tab.modify CellarDie.reset s.cellar.dies d f } }

/-! ### UPDATE's checks at the head (R387, R388) -/

def QEntry.desc (e : QEntry) : Nat := e.field 511 448
def QEntry.ndesc (e : QEntry) : Nat := e.field 447 432

/-- A finite F32. -/
def f32Finite (w : Nat) : Bool := bitsOf w 30 23 != 255

/-- HBM, of which a part may have been withdrawn. -/
def isHbm (k : Nat) : Bool := k == 0
/-- HBM or the cellar, where a user program may lie (R392). -/
def hbmOrCellar (k : Nat) : Bool := k == 0 || k == 1

/-- What one descriptor is refused for (R388). -/
def Chip.descBad (s : Chip) (x : Desc) : Bool :=
  x.rule > 4 || x.gfmt > 1 || x.wfmt > 0xA ||
  x.rows == 0 || x.cols == 0 || x.elems > 2 ^ 34 ||
  x.die.isNone ||
  !(s.oneMemory isHbm x.grad x.gradBytes) || !(s.oneMemory isHbm x.work x.workBytes) ||
  x.stride < x.minStride || (!x.tile && fmtMx x.wfmt && x.cols % 32 != 0) ||
  (x.rule == 2 && (x.nsIters == 0 || x.short > 32768)) || (x.rule == 3 && (x.tile || fmtMx x.wfmt))

/-- The descriptors one by one, as both dies read them; each is followed by the header of its program, zero without one. -/
def Chip.readDescs (s : Chip) (a : Nat) : Nat → Nat → List (BitVec 1024) → Chip × Except Status (List (BitVec 1024))
  | 0, _, acc => (s, .ok acc)
  | n + 1, i, acc =>
    let (s, r) := s.readFrom 8 (a + 128 * i) 128 0
    let x : Desc := ⟨leNat (readData r)⟩
    if readPoison r || s.cutOff 9 (a + 128 * i) then (s, .error .poisoned)
    else if s.descBad x then (s, .error .refused)
    else if x.rule = 4 then
      match s.readImage hbmOrCellar x.prog with
      | (s, .ok h) => s.readDescs a n (i + 1) (acc ++ [BitVec.ofNat 1024 x.bits, BitVec.ofNat 1024 h])
      | (s, .error st) => (s, .error st)
    else s.readDescs a n (i + 1) (acc ++ [BitVec.ofNat 1024 x.bits, 0])

/-- Cellar firmware and update rules are valid (R457). -/
def Chip.updatesRun (s : Chip) : Bool :=
  [6, 7].all fun k => (Tab.get Component.reset s.mgmt.components k).state != .invalid

/-- The checks; without its firmware or its rules the cellar checks nothing, and the UPDATE completes NO_RESOURCE. -/
def ownUpdate (s : Chip) (e : QEntry) : Chip × Verdict :=
  let n := e.ndesc
  if !s.updatesRun then (s, .fail .noResource none)
  else if n = 0 ∨ n > 4096 ∨ !(f32Finite (e.field 431 400)) ∨ e.field 399 384 ≠ 0 ∨ e.desc ≥ 2 ^ 44 ∨ e.desc % 128 ≠ 0 ∨
      !(s.oneMemory hbmOrCore e.desc (128 * n)) then (s, .fail .refused none)
  else if s.rangeWithdrawn e.desc (128 * n) then (s, .fail .mappedOut none)
  else
    match s.readDescs e.desc n 0 [] with
    | (s, .ok l) => (s, .pass l)
    | (s, .error st) => (s, .fail st none)

/-- The layers of a die among held descriptors. -/
def layersOf (d : Nat) : Nat → List (BitVec 1024) → List (Nat × BitVec 1024 × BitVec 512)
  | i, x :: h :: r =>
    let rest := layersOf d (i + 1) r
    if (⟨x.toNat⟩ : Desc).die = some d then (i, x, h.setWidth 512) :: rest else rest
  | _, _ => []

/-- UPDATE starts: each die takes the layers it serves (R389). -/
def Chip.startUpdate (s : Chip) (q : Nat) (e : QEntry) : Chip :=
  s.each [0, 1] fun s d =>
    let todo := layersOf d 0 e.held
    if todo.isEmpty then s
    else
      let job : UpdateJob :=
        { queue := q, num := e.num, ndesc := e.ndesc, lrScale := BitVec.ofNat 32 (e.field 431 400)
          step := BitVec.ofNat 64 (e.field 383 320), user := BitVec.ofNat 32 (e.field 63 32), hint := e.hint
          noWorking := e.field 8 8 == 1, hold := e.field 9 9 == 1, todo := todo, begun := false }
      (s.setEntry q e.num fun e => { e with outstanding := e.outstanding + 1 }).setDie d fun x =>
        { x with jobs := x.jobs ++ [job] }

def execCmdUpdate (queue : Fin 16384) (s : State) : Host.Outcome State Fault Refusal :=
  s.act fun c => c.attempt queue.val (· == 9) ownUpdate Chip.startUpdate

/-! ### A layer starts (R389, R390, R393, R399) -/

/-- The engines of a die that are online. -/
def Chip.enginesOnline (s : Chip) (d : Nat) : List Nat :=
  ((List.range 4).map (4 * d + ·)).filter fun e => (s.core (256 + e)).state != .offline

/-- The die that serves a layer, as a requester (R389). -/
def Desc.origin (x : Desc) : Nat := 8 + x.die.getD 0

/-- The state header of a layer: its bits and whether it was read poisoned. -/
def Chip.stateHeader (s : Chip) (x : Desc) : Chip × Nat × Bool :=
  let (s, r) := s.readFrom x.origin x.state 64 0
  (s, leNat (readData r), readPoison r)

/-- What ends a layer before it computes anything. A row list must lie in HBM (DEDUCED log 42). -/
def Chip.layerCheck (s : Chip) (d : Nat) (noWorking : Bool) (x : Desc) : Chip × Option Status :=
  let listBytes := if x.rule = 3 then 4 * x.ntouched else 0
  if (s.enginesOnline d).isEmpty then (s, some .noResource)
  else
    let (s, h, bad) := s.stateHeader x
    if bad then (s, some .poisoned)
    else if bitsOf h 319 288 ≠ x.layerId ∨ bitsOf h 287 280 ≠ x.rule ∨ (listBytes > 0 && !(s.oneMemory isHbm x.rowList listBytes)) then
      (s, some .refused)
    else if s.rangeWithdrawn x.grad x.gradBytes || (!noWorking && s.rangeWithdrawn x.work x.workBytes) ||
        s.rangeWithdrawn x.rowList listBytes then (s, some .mappedOut)
    else (s, none)

/-- One engine starts a USER program (R297, R399) (DEDUCED log 127). -/
def Chip.startEngine (s : Chip) (j : UpdateJob) (x : Desc) (h e : Nat) : Chip :=
  let base := coreBase (256 + e)
  let own := 2 ^ 57
  let info := (s.objb O.chipAssigned).toNat * 2 ^ 344 + (s.objb O.detMode).toNat * 2 ^ 336 +
    (if s.part = .a then 0 else 1) * 2 ^ 328 + x.prog * 2 ^ 192 + s.timebase.toNat * 2 ^ 128 + j.user.toNat * 2 ^ 96 +
    j.num.toNat % 65536 * 2 ^ 80 + j.queue * 2 ^ 64 + 4 * 2 ^ 56 + e % 4 * 2 ^ 48 + e * 2 ^ 40 + 0xFF * 2 ^ 32 +
    (0x100 + e) * 2 ^ 16 + (if s.objb O.chipAssigned then s.chipNumber else 0)
  let s := s.write base (leBytes 128 x.bits ++ List.replicate (4096 - 128) 0) false 0
  let s := s.write (base + 0x1000) (leBytes 64 info) false 0
  let k : KernelCtx :=
    { queue := j.queue, num := j.num, code := x.prog, codeLen := imageCodeLen h
      timeLimit := if imageTimeLimit h = 0 then s.obj O.kernelTimeLimit else imageTimeLimit h, fateShare := false }
  s.setCore (256 + e) fun c => c.launch (x.prog + 64 + imageEntry h) (startRegs (own + 2 ^ 22) own (own + 0x1000) (e % 4) 4) k

/-- The engines of a die have woken (R431). -/
def Chip.enginesAwake (s : Chip) (d : Nat) : Bool :=
  (s.enginesOnline d).all fun e => !(s.core (256 + e)).fallow

/-- The die runs an UPDATE of which a layer has started. -/
def CellarDie.midUpdate (x : CellarDie) : Bool := x.layer.isSome || (x.jobs.head?.map (·.begun)).getD false

/-- The die takes new firmware or new update rules, and its next UPDATE waits (R470). -/
def Chip.dieRestarts (s : Chip) (d : Nat) : Bool :=
  match s.mgmt.activation with
  | some a => (a.component == 6 || a.component == 7) && a.units.contains d && !(s.die d).midUpdate
  | none => false

/-- The next layer of a die starts, once its engines are awake and unless the die takes new firmware. A USER program runs on the die's four engines; one that cannot run it has failed
(DEDUCED log 43). -/
def Chip.layerStart (s : Chip) (d : Nat) : Chip :=
  s.when (s.enginesAwake d && !(s.dieRestarts d)) fun s =>
  match (s.die d).layer, (s.die d).jobs with
  | none, j :: js =>
    match j.todo with
    | [] => s
    | (i, desc, h) :: rest =>
      let x : Desc := ⟨desc.toNat⟩
      let (s, early) := s.layerCheck d j.noWorking x
      let user := early.isNone && x.rule == 4
      let free := ((List.range 4).map (4 * d + ·)).filter fun e => (s.core (256 + e)).state == .idle
      let gone := ((List.range 4).map (4 * d + ·)).filter fun e => (s.core (256 + e)).state != .idle
      let s := s.setDie d fun y => { y with
        jobs := { j with todo := rest, begun := true } :: js
        layer := some ⟨i, desc, early, if user then free else [], if user then gone.map (·, Status.noResource) else []⟩ }
      if user then s.each free fun s e => s.startEngine j x h.toNat e else s
  | _, _ => s

def execUpdateLayerStart (die : Fin 2) (s : State) : Host.Outcome State Fault Refusal :=
  s.act fun c => c.layerStart die.val

/-! ### A layer computes (R395–R404) -/

/-- A range as bytes with the marks of what they were read from. -/
def Chip.readMarked (s : Chip) (site : Nat) (a len : Nat) (hint : BitVec 2) : Chip × List (Byte × Bool) :=
  let (s, r) := s.readFrom site a len hint
  (s, r.flatMap fun p => p.1.map (·, p.2))

/-- Numbers of n bytes each from an address on. -/
def Chip.readVals (s : Chip) (site a n count : Nat) (hint : BitVec 2) : Chip × List Val :=
  let (s, b) := s.readMarked site a (n * count) hint
  (s, valsOf n count b)

/-- Rows of numbers at the addresses of a list. -/
def Chip.readRows (s : Chip) (site n cols : Nat) (hint : BitVec 2) (as : List Nat) : Chip × List (List Val) :=
  as.foldl (fun (r : Chip × List (List Val)) a =>
    let (s, v) := r.1.readVals site a n cols hint
    (s, r.2 ++ [v])) (s, [])

/-- Marked bytes go to memory: a line is poisoned where one of its bytes is marked. -/
def Chip.storeMarked (s : Chip) (site : Nat) (a : Nat) (bs : List (Byte × Bool)) (hint : BitVec 2) : Chip :=
  s.each (pieces a bs.length) fun s p =>
    let l := (bs.drop (p.1 - a)).take p.2
    s.writeFrom site p.1 (l.map (·.1)) (l.any (·.2)) hint

/-- What a layer reads: for SPARSE_ADAM, the rows of its list up to the first entry that breaks it. -/
def Chip.layerRead (s : Chip) (x : Desc) (hint : BitVec 2) : Chip × LayerIn :=
  let (s, h, _) := s.stateHeader x
  let sparse := x.rule == 3
  let (s, list) := if sparse then s.readVals x.origin x.rowList 4 x.ntouched hint else (s, [])
  let rows := if sparse then (goodRows x.rows list).map (·.1) else List.range x.rows
  let (s, w) := s.readRows x.origin 4 x.cols 0 (rows.map x.wAddr)
  let (s, m) := s.readRows x.origin 4 x.cols 0 (rows.map x.mAddr)
  let (s, v) := if x.rule = 1 ∨ sparse then s.readRows x.origin 4 x.cols 0 (rows.map x.vAddr) else (s, [])
  let (s, steps) := if sparse then s.readRows x.origin 4 1 0 (rows.map x.stepAddr) else (s, [])
  let (s, g) := s.readRows x.origin x.gradSize x.cols hint ((List.range rows.length).map (x.grad + x.gradSize * x.cols * ·))
  (s, { w := w, m := m, v := v, g := g, list := list, steps := steps.flatten, lstep := bitsOf h 511 448 })

/-- How a layer ended. -/
structure LayerEnd where
  status : Status
  ratio : Nat
  rmsW : Nat
  held : Bool

def LayerEnd.early (st : Status) : LayerEnd := ⟨st, Fmt.fp32.qnan, Fmt.fp32.qnan, false⟩

/-- LOW and HIGH of a ratio (R402) (DEDUCED log 36). -/
def Desc.outOfBounds (x : Desc) (ratio : Nat) : Bool × Bool :=
  (x.ratioEn && flt ratio x.ratioLo, x.ratioEn && (flt x.ratioHi ratio || fnan ratio))

/-- The ratio and RMS_W that two sums over n elements give. -/
def LayerEnd.of (st : Status) (sd sw n : Nat) : LayerEnd := ⟨st, ratioOf sd sw, fsqrt (fdiv sw (fnat n)), false⟩

/-- Stores land in order; `part` of them, where the layer is abandoned (R391). -/
def Chip.layerStores (s : Chip) (site : Nat) (l : List (Nat × List (Byte × Bool))) (hint : BitVec 2) : Chip :=
  s.each l fun s x => s.storeMarked site x.1 x.2 hint

/-- A store that no message carries to its home (R33). -/
def Chip.storesLost (s : Chip) (site : Nat) (l : List (Nat × List (Byte × Bool))) : Bool :=
  l.any fun x => (pieces x.1 x.2.length).any fun p => s.cutOff site p.1

/-- The numbers of an array as marked bytes. -/
def valBytes (l : List Val) : List (Byte × Bool) := l.flatMap fun v => (leBytes 4 v.1).map (·, v.2)

/-- Everything a layer writes before its header: master and state, and the working copy. -/
def Chip.layerWrites (s : Chip) (j : UpdateJob) (x : Desc) (o : LayerOut) :
    List (Nat × List (Byte × Bool)) × List (Nat × List (Byte × Bool)) :=
  let r : WorkRound := ⟨if x.stochastic then
    some (BitVec.ofNat 64 (s.obj O.srSeed), BitVec.ofNat 32 x.layerId, j.step.setWidth 32) else none⟩
  (o.stores.map fun a => (a.1, valBytes a.2),
   if j.noWorking then [] else x.workCopy r (o.rows.map fun a => (a.1, a.2.2)))

/-- A built-in rule runs over a layer to its end; with HOLD nothing is written unless the first pass finds nothing amiss (DESIGN CHOICE log 38). A
working copy that did not land whole for want of a path ends the layer as a timed-out read does (DESIGN CHOICE log 172). -/
def Chip.layerRun (s : Chip) (j : UpdateJob) (i : Nat) (x : Desc) : Chip × LayerEnd :=
  let (s, inp) := s.layerRead x j.hint
  let o := x.run j.lrScale.toNat inp
  let (sd, sw) := o.sums
  let e := if o.cut then LayerEnd.early o.status else LayerEnd.of o.status sd sw (x.cols * o.rows.length)
  let out := x.outOfBounds e.ratio
  if j.hold && (o.status != .ok || out.1 || out.2) then
    (s, { e with status := if o.status = .ok then .refused else o.status, held := true })
  else
    let (cel, work) := s.layerWrites j x o
    let lost := s.storesLost x.origin work
    let s := (s.layerStores x.origin cel 0).layerStores x.origin work j.hint
    let s := if s.mirroring || s.isShadow then
        { s with cellar := { s.cellar with digestBytes := s.cellar.digestBytes ++
            [(j.queue, j.num, i, work.flatMap fun a => a.2.map (·.1))] } }
      else s
    (s, if lost && e.status == .ok then { e with status := .poisoned } else e)

/-- A USER layer whose engines have ended: the sums they left, added in rank order (R399, R401) (DEDUCED log 35). -/
def Chip.layerUser (s : Chip) (d : Nat) (x : Desc) (failed : List (Nat × Status)) : Chip × LayerEnd :=
  let sum (s : Chip) (off : Nat) : Nat :=
    let v (r : Nat) := s.word (coreBase (256 + 4 * d + r) + off) 4
    fadd (fadd (fadd (v 0) (v 1)) (v 2)) (v 3)
  let st := match failed with
    | [] => Status.ok
    | (_, st) :: _ => st
  (s, LayerEnd.of st (sum s 0xF00) (sum s 0xF04) x.elems)

/-! ### A layer ends (R390, R393, R402–R404) -/

/-- The state header of a layer that ended OK (R393). -/
def Chip.advanceHeader (s : Chip) (j : UpdateJob) (x : Desc) : Chip :=
  let (s, h, _) := s.stateHeader x
  s.writeFrom x.origin (x.state + 40) (leBytes 8 s.timebase.toNat ++ leBytes 8 j.step.toNat ++ leBytes 8 (bitsOf h 511 448 + 1)) false 0

/-- The entry of the ratio ring, its counts and its events (DEDUCED log 45). -/
def Chip.layerReport (s : Chip) (d : Nat) (j : UpdateJob) (x : Desc) (e : LayerEnd) : Chip :=
  let out := x.outOfBounds e.ratio
  let r : RatioEntry :=
    { step := j.step, timestamp := s.timebase, layerId := BitVec.ofNat 32 x.layerId, ratio := BitVec.ofNat 32 e.ratio
      rmsW := BitVec.ofNat 32 e.rmsW, status := e.status.code, rule := BitVec.ofNat 8 x.rule, held := e.held
      high := out.2, low := out.1 }
  let s := { s with cellar := { s.cellar with
    ratioRing := Tab.set RatioEntry.zero s.cellar.ratioRing s.cellar.ratioNext r
    ratioNext := (s.cellar.ratioNext + 1) % 1024 } }
  let s := s.setDie d fun y => { y with layersDone := y.layersDone + 1 }
  let s := if out.1 || out.2 then
      (s.bump O.ratioOut 1).raise 0x4B01 [.u32 x.layerId, .u64 j.step.toNat, .f32 e.ratio] else s
  if e.held then s.raise 0x4B02 [.u32 x.layerId, .u64 j.step.toNat, .u8 e.status.code.toNat] else s

/-- The digest of an UPDATE whose last layer has ended: its working-copy bytes in descriptor order (R491) (DEDUCED log 39). -/
def Chip.updateDigest (s : Chip) (q : Nat) (num : Word32) : Chip :=
  let mine := (s.cellar.digestBytes.filter fun b => b.1 == q && b.2.1 == num).mergeSort fun a b => a.2.2.1 ≤ b.2.2.1
  match (s.queueAt q).entry num with
  | some e =>
    let s := s.noteDigest q e (mine.flatMap (·.2.2.2))
    { s with cellar := { s.cellar with digestBytes := s.cellar.digestBytes.filter fun b => !(b.1 == q && b.2.1 == num) } }
  | none => s

/-- A layer of job j, no longer in the die's list, ends. -/
def Chip.layerDone (s : Chip) (d : Nat) (j : UpdateJob) (i : Nat) (x : Desc) (e : LayerEnd) : Chip :=
  let s := if e.status = .ok then s.advanceHeader j x else s
  let s := s.layerReport d j x e
  if e.status = .ok then s
  else s.setEntry j.queue j.num fun v =>
    let k := 64 * i / j.ndesc
    { v.failParts k k e.status with detail := v.detail + 1 }

/-- A die that has ended all layers of its first job leaves it; the UPDATE is done when both dies have. -/
def Chip.jobIf (s : Chip) (d : Nat) : Chip :=
  match (s.die d).jobs with
  | j :: js =>
    if j.todo.isEmpty && (s.die d).layer.isNone then
      let s := s.setDie d fun y => { y with jobs := js }
      let other := (s.die (1 - d)).jobs.any fun k => k.queue == j.queue && k.num == j.num
      let s := if other then s else s.updateDigest j.queue j.num
      s.setEntry j.queue j.num fun e => e.pieceDone 0 0 .ok
    else s
  | [] => s

/-- The layer a die runs ends; a USER layer only once its engines have. -/
def Chip.layerEnd (s : Chip) (d : Nat) : Chip :=
  match (s.die d).layer, (s.die d).jobs with
  | some l, j :: _ =>
    let x : Desc := ⟨l.desc.toNat⟩
    if !l.engines.isEmpty then s
    else
      let (s, e) := match l.early with
        | some st => (s, LayerEnd.early st)
        | none => if x.rule = 4 then s.layerUser d x l.failed else s.layerRun j l.index x
      ((s.setDie d fun y => { y with layer := none }).layerDone d j l.index x e).jobIf d
  | _, _ => s

def execUpdateLayerEnd (die : Fin 2) (s : State) : Host.Outcome State Fault Refusal :=
  s.act fun c => c.layerEnd die.val

/-! ### The drain deadline (R391) -/

/-- The part of a list that had landed when a layer was abandoned: how much is free (DESIGN CHOICE log 44). -/
def Chip.landedPart {α : Type} (s : Chip) (l : List α) : Chip × List α :=
  (s.drew, l.take ((Config.freeWord s.freeCtr).toNat % (l.length + 1)))

/-- The layer a die runs is abandoned: without HOLD a part of what it writes may have landed, and its engines are reset. -/
def Chip.layerAbandon (s : Chip) (d : Nat) (j : UpdateJob) (l : LayerRun) : Chip :=
  let x : Desc := ⟨l.desc.toNat⟩
  let s := if l.early.isSome || j.hold || x.rule = 4 then s
    else
      let (s, inp) := s.layerRead x j.hint
      let (cel, work) := s.layerWrites j x (x.run j.lrScale.toNat inp)
      let (s, cel) := s.landedPart cel
      let (s, work) := s.landedPart work
      (s.layerStores x.origin cel 0).layerStores x.origin work j.hint
  let s := s.each l.engines fun s e => s.coreCancel (256 + e)
  (s.setDie d fun y => { y with layer := none }).layerDone d j l.index x (LayerEnd.early .cancelled)

/-- The UPDATEs of draining queues end at one die: the running layer first, then every layer not started (DEDUCED log 37). -/
def Chip.cancelUpdates (s : Chip) (d : Nat) : Chip :=
  s.each (s.die d).jobs fun s j =>
    if (s.queueAt j.queue).state != .draining then s
    else
      let s := match (s.die d).layer, (s.die d).jobs.head? with
        | some l, some k => if k.queue == j.queue && k.num == j.num then s.layerAbandon d j l else s
        | _, _ => s
      let s := s.each j.todo fun s t => s.layerDone d j t.1 ⟨t.2.1.toNat⟩ (LayerEnd.early .cancelled)
      let s := s.setDie d fun y => { y with jobs := y.jobs.filter fun k => !(k.queue == j.queue && k.num == j.num) }
      let other := (s.die (1 - d)).jobs.any fun k => k.queue == j.queue && k.num == j.num
      let s := if other then s else s.updateDigest j.queue j.num
      s.setEntry j.queue j.num fun e => e.pieceDone 0 0 .ok

/-- UPDATE_DRAIN_DEADLINE: the UPDATEs of draining queues are cancelled, complete and are counted (R189, R391). -/
def Chip.updateDeadline (s : Chip) : Chip :=
  let mine := (((s.die 0).jobs ++ (s.die 1).jobs).filter fun j => (s.queueAt j.queue).state == .draining).map
    fun j => (j.queue, j.num)
  let mine := mine.eraseDups
  if mine.isEmpty then s
  else
    let s := (s.cancelUpdates 0).cancelUpdates 1
    let s := s.each mine fun s j => s.complete j.1 j.2
    s.raiseCount 0x4504 mine.length []

def execUpdateDrainDeadline (s : State) : Host.Outcome State Fault Refusal :=
  s.act fun c => c.updateDeadline

end Sys2Proof.Machine
end

