-- ==== Sys2Proof/Machine/Drain.lean ====
section
/-! DEFINITION. How queues end at their drain deadline (R188, R189) and how a job ends and is sanitised (R190). -/

namespace Sys2Proof.Machine

/-! ### QUEUE_DRAIN_DEADLINE -/

/-- A command that ends at another deadline: a COLLECTIVE in flight (R235), an UPDATE at a die (R391). -/
def Chip.otherDeadline (s : Chip) (q : Nat) (e : QEntry) : Bool :=
  s.coll.active.any (fun c => c.queue == q && c.num == e.num) ||
  ((s.die 0).jobs ++ (s.die 1).jobs).any fun j => j.queue == q && j.num == e.num

/-- The segments of a command's work that is still out. -/
def segsOut (l : List Work) : List (Nat × Nat) :=
  l.filterMap fun w => match w with
    | .cmd _ _ a b => some (a, b)
    | _ => none

/-- What a command has out in the GN and in its streams. -/
def Chip.worksOut (s : Chip) (p : Work → Bool) : List Work :=
  ((s.gn.reqs ++ s.gn.waiting ++ s.gn.granuleHeld ++ s.gn.flaggedHeld.map (·.req)).map (·.work) ++
   s.tn.streams.flatMap fun e => match e.2 with
     | some x => (x.cells ++ x.pend).map (·.work)
     | none => []).filter p

/-- Cells of a command leave the retransmit store; cells on the fibre may still land (R189). -/
def Chip.dropCells (s : Chip) (p : Work → Bool) : Chip :=
  let gone := s.tn.streams.flatMap fun e => match e.2 with
    | some x => (x.cells.filter fun t => p t.work).map (·.cell)
    | none => []
  { s with tn := { s.tn with
      streams := s.tn.streams.map fun e => (e.1, e.2.map fun x =>
        { x with cells := x.cells.filter fun t => !(p t.work), pend := x.pend.filter fun t => !(p t.work) })
      inject := s.tn.inject.filter fun c => !(gone.any fun g => g.dest == c.dest && g.stream == c.stream && g.seq == c.seq &&
        c.src.toNat == s.chipNumber && cellSequenced c) } }

/-- A held or refused arrival of a command is not applied any more. -/
def Chip.dropArrivals (s : Chip) (q : Nat) (num : Word32) : Chip :=
  let mine (a : AddSrc) : Bool := a == .queue q num
  { s with sync := { s.sync with
      barriers := s.sync.barriers.map fun b => (b.1, { b.2 with held := b.2.held.filter fun h => !(mine h.src) })
      resends := s.sync.resends.filter fun r => !(mine r.src) } }

/-- What remains of a started command at its deadline is cancelled and completes CANCELLED; a KERNEL's cores end, and it
completes as R303 has it; what another command has outstanding fails CANCELLED (DEDUCED log 135). -/
def Chip.cancelStarted (s : Chip) (q : Nat) (e : QEntry) : Chip :=
  if e.opcode = 1 && e.phase = .started then
    let s := s.each (s.kernelCores q e.num) Chip.coreCancel
    s.complete q e.num
  else
    let out := Work.ofCmd q e.num
    let segs := segsOut (s.worksOut out)
    let s := (((s.orphan out).dropCells out).dropArrivals q e.num).dropCollWait q e.num
    let e := segs.foldl (fun e k => e.failParts k.1 k.2 .cancelled) e
    s.record q e .cancelled

/-- The drain deadline of a Draining queue: what can complete does, then the rest is cancelled and counted. COLLECTIVEs and
UPDATEs still running end at the deadlines of their chapters; the queue is Disabled once nothing is in flight (DESIGN CHOICE log 46) (DEDUCED log 47). -/
def Chip.queueDeadline (s : Chip) (q : Nat) : Chip :=
  if (s.queueAt q).state ≠ .draining then s
  else
    let s := s.each (s.queueAt q).entries fun s e => s.complete q e.num
    let rest := (s.queueAt q).entries.filter fun e => !(s.otherDeadline q e)
    let s := s.each rest fun s e => s.cancelStarted q e
    let s := if rest.isEmpty then s else s.raiseCount 0x4504 rest.length []
    s.settleQueue q

def execQueueDrainDeadline (queue : Fin 16384) (s : State) : Host.Outcome State Fault Refusal :=
  s.act fun c => c.queueDeadline queue.val

/-! ### The job (R190) -/

/-- JOB_END: every queue drains, and the job is Ending. A chip that was drained serves again once it is Idle (R482). -/
def Chip.jobEnd (s : Chip) : Chip :=
  if s.job.state < 2 then
    let s := s.drainAllQueues
    let back := (s.service.state == .draining || s.service.state == .drained) && !s.service.quarantining
    { s with
      job := { state := 2, endTime := s.aon }
      service := if back then { s.service with state := .serving } else s.service }
  else s

def execJobEnd (value : Bool) (s : State) : Host.Outcome State Fault Refusal :=
  s.act fun c => c.when value Chip.jobEnd

/-- Nothing of the job runs any more: queues, collectives, GN tags. -/
def Chip.jobQuiet (s : Chip) : Bool :=
  s.liveQueues.isEmpty && s.coll.active.isEmpty && s.gn.reqs.isEmpty && s.gn.waiting.isEmpty &&
  s.gn.granuleHeld.isEmpty && s.gn.flaggedHeld.isEmpty && s.cores.all fun e => e.2.kernel.isNone

/-- Every send stream is unbound and every receive context freed, as DEST_RELEASE does (R126). -/
def Chip.freeStreams (s : Chip) : Chip :=
  { s with
    coll := { s.coll with contextComm := [] }
    tn := { s.tn with
      streams := []
      contexts := []
      inject := s.tn.inject.filter fun c => !(cellSequenced c && c.src.toNat == s.chipNumber)
      pendingSignals := s.tn.pendingSignals.filter fun p => p.cover.isNone
      unreach := [], heldDests := [] } }

/-- Every core is reset: its memory, its accumulators and its counters are left to the sanitising. -/
def Chip.resetCores (s : Chip) : Chip := { s with cores := s.cores.map fun e => (e.1, e.2.cleared) }

def Chip.sanitiseStart (s : Chip) : Chip :=
  s.when (s.job.state == 2 && s.jobQuiet) fun s =>
    let s := s.freeStreams.resetCores
    { s with job := { s.job with state := 3 } }

def execJobSanitiseStart (s : State) : Host.Outcome State Fault Refusal := s.act Chip.sanitiseStart

/-- Every memory, counter and store of a job is emptied: HBM wherever it lies, with its cache and its marks, the cellar,
the core memories, accumulators and bank tags; chip and core-local counters, barriers and waiter tables (R196); the window
table; the receive, retransmit and early-arrival stores and the pending-signal table (DEDUCED log 128). -/
def Chip.wipe (s : Chip) : Chip :=
  { s with
    mem := []
    hbm := { s.hbm with
      cache := [], poison := [], unitPoison := [], hidden := [], hiddenPoison := []
      migration := s.hbm.migration.map fun m => { m with copying := m.copying.map fun c => { c with zeroed := true } } }
    sync := { s.sync with
      counters := [], coreCounters := [], waiters := [], resends := []
      barriers := s.sync.barriers.map fun b => (b.1, { b.2 with enable := false, held := [] }) }
    gn := { s.gn with window := [] }
    coll := { s.coll with early := [] }
    tn := { s.tn with sluice := [], recentPuts := [], pendingSignals := []
                      contexts := s.tn.contexts.map fun c => { c with parked := [] }
                      streams := s.tn.streams.map fun e => (e.1, e.2.map fun x => { x with cells := [], pend := [] }) }
    cores := s.cores.map fun e => (e.1, { e.2 with array := ArraySt.reset }) }

/-- The whole sequence at once: what the boot and a debug grant run (R455, R466). -/
def Chip.sanitise (s : Chip) : Chip := s.freeStreams.resetCores.wipe

/-- Sanitising is over: the job is Idle. Where the memory of a cellar die cannot be reached, the step that zeroes it does not
complete, and the chip stays in Sanitising (DEDUCED log 161). -/
def Chip.sanitiseDone (s : Chip) : Chip :=
  s.when (s.job.state == 3 && s.mgmt.stage == 6) fun s =>
    if s.cellarDown 0 || s.cellarDown 1 then s.raise 0x8502 [.u8 3]
    else
    let ms := (s.aon - s.job.endTime) / 1000000
    let s := (s.wipe.bump O.sanitiseCount 1).setObj O.sanitiseTime (min ms (2 ^ 32 - 1))
    ({ s with job := { s.job with state := 0 } } : Chip).raise 0x0501 [.u32 ms]

def execJobSanitiseDone (s : State) : Host.Outcome State Fault Refusal := s.act Chip.sanitiseDone

end Sys2Proof.Machine
end

