-- ==== Sys2Proof/Machine/Secded.lean ====
section
/-! DEFINITION. SECDED of the core memories and the accumulators (R275, R328): what an access does that meets bits in error.
Which bits are in error is an input, given with a PATROL_SCRUB or an HBM_ACCESS (DESIGN CHOICE log 97). -/

namespace Sys2Proof.Machine

/-- The bits that are set among the lowest n. -/
def onesIn (x n : Nat) : Nat := ((List.range n).filter fun i => x.testBit i).length

/-- What a code of one-error correction and two-error detection finds. -/
inductive Secded where
  | clean | corrected | double
  /-- three or more bits in error: the code gives no guarantee -/
  | beyond
  deriving DecidableEq, Repr

def secdedOf (flips n : Nat) : Secded :=
  match onesIn flips n with
  | 0 => .clean
  | 1 => .corrected
  | 2 => .double
  | _ => .beyond

/-- The bits in error of word j of a core-memory line: its eight bytes, and its check byte above them. Positions 0–63 are
the bytes of the line, position 64 + j the check byte of word j. -/
def wordFlips (errors : List (Nat × Nat)) (j : Nat) : Nat :=
  errors.foldl (fun x e =>
    if e.1 / 8 = j then x ^^^ (e.2 <<< (8 * (e.1 % 8))) else if e.1 = 64 + j then x ^^^ (e.2 <<< 64) else x) 0

/-- One word of a core-memory line is read: a single-bit error is corrected and counted, a double-bit error marks the line
poisoned. What more errors do is free. -/
def Chip.coreWord (s : Chip) (line j : Nat) (errors : List (Nat × Nat)) : Chip :=
  let a := 64 * line + 8 * j
  let core := (a - 0x80000000000) / 0x1000000
  let x := wordFlips errors j
  match secdedOf x 72 with
  | .clean => s
  | .corrected => s.bump (O.cmCorrected + 256 * core) 1
  | .double => ((s.putBytes a (leBytes 8 ((s.word a 8) ^^^ (x % 2 ^ 64)))).mark a true).raise 0x8903 [.u16 core, .u64 a]
  | .beyond =>
    let bad := (Config.freeWord (s.freeCtr + 1)).getLsbD 0
    let t := s.putBytes a (leBytes 8 (Config.freeWord s.freeCtr).toNat)
    let t := { t with freeCtr := s.freeCtr + 2 }
    if bad then (t.mark a true).raise 0x8903 [.u16 core, .u64 a] else t

/-- A line of a core memory is read with bits in error (R275). -/
def Chip.readCoreLine (s : Chip) (line : Nat) (errors : List (Nat × Nat)) : Chip :=
  s.each (List.range 8) fun s j => s.coreWord line j errors

/-- An accumulator entry is read with bits in error: a corrected one is counted, an uncorrectable one poisons its row
(R328). Bits 0–87 are its data, 88–89 its class, 90–97 its check. -/
def Chip.accEntry (s : Chip) (core row column : Nat) (errors : List (Nat × Nat)) : Chip :=
  let x := errors.foldl (fun x e => x ^^^ (e.2 <<< (8 * e.1))) 0
  let poisonRow (s : Chip) : Chip := s.setCore core fun c => { c with array := { c.array with
    acc := Tab.modify AccRow.empty c.array.acc row fun r => { r with poison := true } } }
  let uncorrected (s : Chip) : Chip :=
    ((poisonRow s).bump (O.accUncorrected + 256 * core) 1).raise 0x8911 [.u16 core, .u16 row, .u16 column]
  match secdedOf x 98 with
  | .clean => s
  | .corrected => s.bump (O.accCorrected + 256 * core) 1
  | .double => uncorrected s
  | .beyond =>
    let w := (Config.freeWord (s.freeCtr + 1)).setWidth 24 ++ Config.freeWord s.freeCtr
    let bad := (Config.freeWord (s.freeCtr + 1)).getLsbD 63
    let s := { s with freeCtr := s.freeCtr + 2 }
    let s := s.setCore core fun c => { c with array := { c.array with
      acc := Tab.modify AccRow.empty c.array.acc row fun r =>
        { r with entries := Tab.modify AccEntry.zero r.entries column fun e => { e with bits := w } } } }
    if bad then uncorrected s else s

end Sys2Proof.Machine
end

