-- ==== Sys2Proof/Machine/Memory.lean ====
section
/-! DEFINITION. The commands of the memory system (08_memory_system): accesses, the interleave table, error protection,
map-out, shrink, margining and refresh. -/

namespace Sys2Proof.Machine

/-! ### HBM_ACCESS and CHANNEL_ACCESS_TIMEOUT -/

/-- An access that reaches the home of its line. Of one to a core memory, the bits in error that it met are what is booked
(DESIGN CHOICE log 97). -/
def Chip.hbmAccess (s : Chip) (x : HbmAccess) : Chip :=
  let errors := x.errors.map fun e => (e.1.val, e.2.toNat)
  match s.region x.addr with
  | .hbm _ =>
    if x.len = 0 ∨ x.addr % 64 + x.len > 64 then s
    else match x.write with
      | none =>
        let (t, d, m) := s.readHbmLine (x.addr / 64) x.hint errors
        t.emit (.data ((d.drop (x.addr % 64)).take x.len) m)
      | some (bs, poison) =>
        s.when (bs.length == x.len) fun s => s.writeHbmLine x.addr bs poison x.hint errors
  | .coreMem => s.readCoreLine (x.addr / 64) errors
  | _ => s

def execHbmAccess (access : HbmAccess) (s : State) : Host.Outcome State Fault Refusal :=
  s.act fun c => c.hbmAccess access

/-- An access to a channel got no response in 10 µs: it counts toward UNRESPONSIVE, and it completes as an
uncorrectable read with free data (R260). -/
def Chip.channelTimeout (s : Chip) (n : Nat) : Chip :=
  let s := s.setChannel n fun c => { c with silent := c.silent + 1 }
  let d := (List.range 8).flatMap fun i => leBytes 8 (Config.freeWord (s.freeCtr + i)).toNat
  let s := { s with freeCtr := s.freeCtr + 8 }
  let s := ((s.bump (O.chUe + 256 * n) 1).raiseLimited 0x8801 0 [.u16 (2 * n)]).emit (.data d true)
  if (s.channel n).silent ≥ 8 then s.judge n .unresponsive else s

def execChannelAccessTimeout (channel : Fin 1024) (s : State) : Host.Outcome State Fault Refusal :=
  s.act fun c => c.channelTimeout channel.val

/-! ### The interleave table (R245, R246) -/

/-- The channels a region uses, first and count. -/
def ilChannels (w : Word) : Nat × Nat := if ilPolicy w = 2 then (128 * ilSite w, 128) else (0, 1024)

def rangesMeet (a la b lb : Nat) : Bool := a < b + lb && b < a + la

/-- The first check of R246 that an entry fails, in the order of its list (1–7). -/
def Chip.ilCheck (s : Chip) (r : Nat) (w : Word) : Option Nat :=
  let others := s.regions.filter fun e => e.1 != r
  if ilPolicy w = 3 then some 1
  else if ilSize w = 0 ∨ (ilPolicy w = 1 ∧ ilSize w % 8 ≠ 0) then some 2
  else if ilSite w ≠ 0 ∧ ilPolicy w ≠ 2 then some 3
  else if others.any fun e => rangesMeet (ilBase w) (ilSize w) (ilBase e.2) (ilSize e.2) then some 4
  else if ilBase w + ilSize w > 3 * s.hbm.v then some 5
  else if others.any fun e =>
      rangesMeet (ilChBase w) (ilShare w) (ilChBase e.2) (ilShare e.2) &&
      rangesMeet (ilChannels w).1 (ilChannels w).2 (ilChannels e.2).1 (ilChannels e.2).2 then some 6
  else if ilChBase w + ilShare w > 3 * s.hbm.v then some 7
  else none

/-- The offset that an entry gives a channel address, if its share covers it: the inverse of R247. -/
def offsetIn (e : Word) (channel chaddr : Nat) : Option Nat :=
  let lo := ilChBase e * 2 ^ 20
  if chaddr < lo ∨ chaddr ≥ lo + ilShare e * 2 ^ 20 then none
  else
    let (first, n, w, slice) :=
      if ilPolicy e = 0 then (0, 1024, 10, 0)
      else if ilPolicy e = 1 then (channel / 128 * 128, 128, 7, channel / 128 * (ilSize e * 2 ^ 27))
      else (128 * ilSite e, 128, 7, 0)
    if channel < first ∨ channel ≥ first + n then none
    else
      let q := (chaddr - lo) / 256
      let y := q * 2 ^ w + ((channel - first) ^^^ foldQ w n 64 q) % n
      some (ilBase e * 2 ^ 30 + slice + y * 256 + chaddr % 256)

/-- The offset a place of HBM has under a table, if any entry maps it. -/
def offsetOf (table : List (Nat × Word)) (phys : Nat) : Option Nat :=
  (table.filter (fun e => ilValid e.2)).findSome? fun e => offsetIn e.2 (phys / (3 * 2 ^ 30)) (phys % (3 * 2 ^ 30))

/-- The interleave table changes: every byte of HBM stays in its place, and its offset follows the table. -/
def Chip.retable (s : Chip) (table : Tab Word) : Chip :=
  let s := s.each (s.cachedLines.map (·.1)) fun s l => s.evict l
  let phys (a : Nat) : Option Nat := (s.place a).map fun p => p.channel * (3 * 2 ^ 30) + p.chaddr
  let here := s.mem.filter fun e => e.1 < 0x30000000000
  let bytes := here.filterMap fun e => (phys e.1).map (·, e.2)
  let marks := (s.hbm.poison.filter fun e => e.1 < 0x30000000000 / 64).filterMap fun e => (phys (64 * e.1)).map (· / 64)
  let mem := s.mem.filter fun e => e.1 ≥ 0x30000000000
  let poison := s.hbm.poison.filter fun e => e.1 ≥ 0x30000000000 / 64
  let (mem, hidden) := (bytes ++ s.hbm.hidden).foldl (fun (r : List Host.Cell × Tab Byte) e =>
    match offsetOf table e.1 with
    | some o => (Tab.set 0 r.1 o e.2, r.2)
    | none => (r.1, Tab.set 0 r.2 e.1 e.2)) (mem, [])
  let (poison, hiddenPoison) := (marks ++ s.hbm.hiddenPoison.map (·.1)).foldl (fun (r : Tab Bool × Tab Bool) l =>
    match offsetOf table (64 * l) with
    | some o => (Tab.set false r.1 (o / 64) true, r.2)
    | none => (r.1, Tab.set false r.2 l true)) (poison, [])
  { s with mem := mem, hbm := { s.hbm with interleave := table, poison := poison, hidden := hidden,
                                           hiddenPoison := hiddenPoison } }

/-- An aligned 8-byte write of bytes 24–31 of an interleave entry (R246). -/
def Chip.ilCommit (s : Chip) (r : Nat) (w : Word) : Chip :=
  if s.job.state ≠ 0 then s.raise 0x4806 [.u16 r, .u8 0]
  else
    let w := w &&& 0xFE000FFFFFFFFF00
    match (if ilValid w then s.ilCheck r w else none) with
    | none => s.retable (Tab.set 0 s.hbm.interleave r w)
    | some k =>
      (s.retable (Tab.set 0 s.hbm.interleave r (w &&& 0x7FFFFFFFFFFFFFFF))).raise 0x4806 [.u16 r, .u8 k]

/-- A write of n = 4 or 8 aligned bytes of an interleave entry: one that R246 ignores raises 0x4806; bytes 0–23 are reserved
(DESIGN CHOICE log 134). -/
def Chip.ilWrite (s : Chip) (r off n x : Nat) : Chip :=
  if off = 24 ∧ n = 8 then s.ilCommit r (BitVec.ofNat 64 x)
  else if s.job.state ≠ 0 then s.raise 0x4806 [.u16 r, .u8 0]
  else if off < 24 then s
  else s.raise 0x4806 [.u16 r, .u8 8]

def execInterleaveEntryCommit (entry : Fin 64) (word : Word) (s : State) : Host.Outcome State Fault Refusal :=
  s.act fun c => c.ilCommit entry.val word

/-! ### The cache -/

/-- KEEP_RELEASE: every KEEP line becomes a NORMAL line (R251). -/
def Chip.keepRelease (s : Chip) : Chip :=
  { s with hbm := { s.hbm with cache := s.hbm.cache.map fun e => (e.1, e.2.map fun c => { c with keep := false }) } }

def execKeepRelease (value : Bool) (s : State) : Host.Outcome State Fault Refusal :=
  s.act fun c => c.when value Chip.keepRelease

/-! ### Error protection -/

/-- Corrected lines of a channel within the last n ns. -/
def Chip.correctedIn (s : Chip) (n ns : Nat) : Nat :=
  let count (p : Nat) := ((s.pcOf p).history.filter fun c => !c.ue && s.aon < c.time + ns).length
  count (2 * n) + count (2 * n + 1)

/-- The channels that have corrections on record. -/
def Chip.channelsSeen (s : Chip) : List Nat := (s.hbm.pcs.map fun e => e.1 / 2).eraseDups

/-- Every 1 s: the stacks' on-die ECC counts are added up, and the corrected-line rate over 10 s is checked (R252,
R260). -/
def Chip.odeccRead (s : Chip) (counts : List (Nat × Nat)) : Chip :=
  let s := s.each counts fun s c => if c.1 < 1024 then s.bump (O.chOdecc + 256 * c.1) c.2 else s
  s.each s.channelsSeen fun s n =>
    if s.correctedIn n 10000000000 > 10 * s.obj O.ceLimit then s.judge n .ceRate else s

def execOdeccReadTimer (counts : List (Nat × Nat)) (s : State) : Host.Outcome State Fault Refusal :=
  s.act fun c => c.odeccRead counts

/-- The unit whose line lies in a unit of HBM now: the unit itself, or one it is the donor of; none where it is free. -/
def Chip.ownerOf (s : Chip) (w : Nat) : Option Nat :=
  if w % 1024 < s.hbm.v && (s.donorOf w).isNone then some w
  else (s.hbm.remap.map (·.1) ++ s.hbm.sweeps.flatMap fun x => x.away.map (·.1)).find? fun u => s.servingUnit u == w

/-- The place of a byte of a unit as channel × 3 GiB + channel address, from a place with the same address in its unit. -/
def physIn (u phys : Nat) : Nat :=
  let a := phys % (3 * 2 ^ 30)
  let pcaddr := u % 1024 * unitBytes + (a / 512 * 256 + a % 256) % unitBytes
  unitChannel u * (3 * 2 ^ 30) + pcaddr / 256 * 512 + unitPc u % 2 * 256 + pcaddr % 256

/-- A scrub of a line that no offset names, by the place it belongs to and the unit that holds it. -/
def Chip.scrubHidden (s : Chip) (phys w : Nat) (errors : List (Nat × Nat)) : Chip :=
  if (s.channel (unitChannel w)).unresponsive then (s.unanswered (unitPc w)).1
  else if errors.isEmpty then s
  else
    let d0 := (List.range 64).map fun i => Tab.get 0 s.hbm.hidden (phys + i)
    let m0 := Tab.get false s.hbm.hiddenPoison (phys / 64)
    let (t, d, m) := s.decodeLine (unitPc w) (w % 1024 * unitBytes + (phys % (3 * 2 ^ 30) / 512 * 256 + phys % 256) % unitBytes)
      d0 m0 errors
    { t with hbm := { t.hbm with
        hidden := d.zipIdx.foldl (fun h b => Tab.set 0 h (phys + b.2) b.1) t.hbm.hidden
        hiddenPoison := Tab.set false t.hbm.hiddenPoison (phys / 64) m } }

/-- A scrub of a line by its place in HBM: a line of the headland, or one that no valid entry maps (R257). -/
def Chip.scrubPlace (s : Chip) (phys : Nat) (errors : List (Nat × Nat)) : Chip :=
  let w := physUnit phys
  match s.ownerOf w with
  | none => s.scrubHidden phys w errors
  | some u => match offsetOf s.hbm.interleave (physIn u phys) with
    | some o => (s.readStored (o / 64) errors).1
    | none => s.scrubHidden (physIn u phys) w errors

/-- The patrol scrub reads a line: corrections are written back and an uncorrectable line is poisoned (R257, R386). Lines
below 2^38 are those of chip offsets; the 3 × 2^34 above are HBM's, by channel and channel address, and above those stand
the accumulator entries (DESIGN CHOICE log 166, log 97). -/
def Chip.scrub (s : Chip) (line : Nat) (errors : List (Nat × Nat)) : Chip :=
  if 2 ^ 38 + 3 * 2 ^ 34 ≤ line then
    let n := line - (2 ^ 38 + 3 * 2 ^ 34)
    if n / 2 ^ 18 < 264 then s.accEntry (n / 2 ^ 18) (n / 256 % 1024) (n % 256) errors else s
  else if 2 ^ 38 ≤ line then s.scrubPlace (64 * (line - 2 ^ 38)) errors else
  match s.region (64 * line) with
  | .hbm _ => (s.readStored line errors).1
  | .cellar => (s.readCellar line errors).1
  | .coreMem => s.readCoreLine line errors
  | _ => s

def execPatrolScrub (line : Nat) (errors : List (Fin 72 × Byte)) (s : State) : Host.Outcome State Fault Refusal :=
  s.act fun c => c.scrub line (errors.map fun e => (e.1.val, e.2.toNat))

/-! ### Map-out (R260–R264) -/

def Chip.mapoutRequest (s : Chip) (n : Nat) : Chip :=
  s.when (n < 1024 && (s.channel n).state = .healthy) fun s => s.judge n .request

def execMapoutRequest (channel : Half) (s : State) : Host.Outcome State Fault Refusal :=
  s.act fun c => c.mapoutRequest channel.toNat

/-- The cached lines of a unit are written back and leave the cache (R263 step 1). -/
def Chip.flushUnit (s : Chip) (u : Nat) : Chip :=
  let lines := (s.cachedLines.map (·.1)).filter fun l => match s.place (64 * l) with
    | some p => p.unit == u
    | none => false
  s.each lines fun s l => s.evict l

/-- A unit enters the copy. -/
def UnitCopy.begin' (t : Nat × Nat) : UnitCopy := ⟨t.1, t.2, [], false⟩

/-- Units of a map-out enter the copy, up to eight at a time, in ascending order (R263). -/
def Chip.fillCopies (s : Chip) : Chip :=
  match s.hbm.migration with
  | none => s
  | some m =>
    let next := m.todo.take (8 - m.copying.length)
    let s := s.each (next.map (·.1)) Chip.flushUnit
    { s with hbm := { s.hbm with migration := some { m with
        todo := m.todo.drop next.length, copying := m.copying ++ next.map UnitCopy.begin' } } }

/-- The sweep of a pseudo-channel, after a change. -/
def Chip.setSweep (s : Chip) (p : Nat) (f : Sweep → Sweep) : Chip :=
  { s with hbm := { s.hbm with sweeps := s.hbm.sweeps.map fun w => if w.pc = p then f w else w } }

def Chip.sweepOf (s : Chip) (p : Nat) : Option Sweep := s.hbm.sweeps.find? fun w => w.pc == p

/-- Units of a sweep enter the copy, as those of a map-out do (R269). -/
def Chip.fillSweep (s : Chip) (p : Nat) : Chip :=
  match s.sweepOf p with
  | none => s
  | some w =>
    let next := w.todo.take (8 - w.copying.length)
    (s.each (next.map (·.1)) Chip.flushUnit).setSweep p fun w =>
      { w with todo := w.todo.drop next.length, copying := w.copying ++ next.map UnitCopy.begin' }

/-- The map-out of a channel chooses its donor units and starts (R262, R263). -/
def Chip.mapoutStart (s : Chip) (n : Nat) : Chip :=
  match s.hbm.migration with
  | some m =>
    if m.channel = n ∧ !m.chosen then
      let units := s.unitsOfChannel n
      -- the round robin starts after the channel's own pseudo-channels
      let donors := s.chooseDonors (2 * n + 1) n units.length
      let s := { s with hbm := { s.hbm with migration := some { m with chosen := true, todo := units.zip donors } } }
      s.fillCopies
    else s
  | none => s

def execMapoutStart (channel : Fin 1024) (s : State) : Host.Outcome State Fault Refusal :=
  s.act fun c => c.mapoutStart channel.val

/-- A unit of a sweep stands at its donor, or is back. -/
def Chip.sweepUnit (s : Chip) (p : Nat) (u d : Nat) : Chip :=
  match s.sweepOf p with
  | none => s
  | some w =>
    if w.phase = .copyingBack then s.returnUnit p u
    else (s.clearDonor d).setSweep p fun w => let w := w.without u; { w with moved := w.moved ++ [(u, d)] }

/-- A unit's copy ends: accesses are held, the remap entry is set, the unit switches to its donor (R263). In poison mode
every line not written during the copy is poisoned there. A sweep's unit switches in the same way (R269). -/
def Chip.unitCopyDone (s : Chip) (u : Nat) : Chip :=
  match s.hbm.migration.bind fun m => (m.copying.find? fun c => c.unit == u).map (m, ·) with
  | some (m, c) =>
    let unitPoison := s.hbm.unitPoison.filter fun x => x.unit != u || !m.poison
    let unitPoison := if m.poison && !c.zeroed then UnitPoison.mk u c.written :: unitPoison else unitPoison
    let s := { s with hbm := { s.hbm with
      unitPoison := unitPoison
      migration := some { m with copying := m.copying.filter fun x => x.unit != u } } }
    (s.relocate u c.donor).fillCopies
  | none =>
    match s.hbm.sweeps.findSome? fun w => (w.copying.find? fun c => c.unit == u).map (w.pc, ·) with
    | none => s
    | some (p, c) => (s.sweepUnit p u c.donor).fillSweep p

def execUnitCopyDone (unit : Nat) (s : State) : Host.Outcome State Fault Refusal :=
  s.act fun c => c.unitCopyDone unit

/-- The next Pending channel's map-out starts, in the order they were judged bad (R261). -/
def Chip.nextMapout (s : Chip) : Chip :=
  match s.hbm.waitingChannels with
  | [] => s
  | n :: r =>
    if s.hbm.migration.isSome || s.hbm.shrink.isSome then s
    else
      let s := { s with hbm := { s.hbm with waitingChannels := r } }
      let cause := (s.channel n).cause.getD .request
      if s.mappedOutCount ≥ 64 then
        (s.setChannel n fun c => { c with state := .retained }).raise 0xC801 []
      else s.tryMapout n cause

/-- The units a sweep of a pseudo-channel needs. -/
def Chip.sweepNeed (s : Chip) (p : Nat) : Nat := (s.unitsOfPc p).length

/-- A sweep starts: the pseudo-channel's units begin to move to donors on other channels (R269). -/
def Chip.startSweep (s : Chip) (p : Nat) : Chip :=
  let units := s.unitsOfPc p
  let donors := s.chooseDonors p (p / 2) units.length
  let s := s.setPc p fun c => { c with sweepDue := false }
  let s := { s with hbm := { s.hbm with sweeps := s.hbm.sweeps ++ [Sweep.mk p .draining (units.zip donors) [] []] } }
  (s.redeal fun x => x == p).fillSweep p

/-- A sweep that is due starts if its site runs none and 2,048 units stay free; for lack of headland it is deferred, with
one event a period (R269). A channel that is not in service is not swept. -/
def Chip.trySweep (s : Chip) (p : Nat) : Chip :=
  let st := (s.channel (p / 2)).state
  if (s.pcOf p).sweepDue = false then s
  else if st ≠ .healthy && st ≠ .pending then s.setPc p fun c => { c with sweepDue := false }
  else if s.hbm.sweeps.any fun w => w.pc / 256 == p / 256 then s
  else if s.headlandFree < s.sweepNeed p + 2048 then
    if (s.pcOf p).deferred then s
    else (s.setPc p fun c => { c with deferred := true }).raise 0x4804 [.u16 p]
  else s.startSweep p

/-- A sweep is asked for. -/
def Chip.askSweep (s : Chip) (p : Nat) : Chip := (s.setPc p fun c => { c with sweepDue := true }).trySweep p

/-- Sweeps that waited for room, or for the sweep of their site, start in ascending order (DESIGN CHOICE log 167). -/
def Chip.dueSweeps (s : Chip) : Chip :=
  s.each ((s.hbm.pcs.filter fun e => e.2.sweepDue).map (·.1)) Chip.trySweep

/-- The last unit has switched: the channel is MappedOut, the log gets its record, the next Pending channel starts (R261,
R264), and so do sweeps that wait for their site. -/
def Chip.mapoutComplete (s : Chip) : Chip :=
  match s.hbm.migration with
  | none => s
  | some m =>
    if m.chosen && m.todo.isEmpty && m.copying.isEmpty then
      let ms := (s.aon - m.start) / 1000000
      let s := s.setChannel m.channel fun c => { c with state := .mappedOut }
      let entry : MapoutRecord := ⟨m.channel, m.cause.code, if m.poison then 1 else 0, ms, s.timebase⟩
      let log := s.hbm.mapoutLog ++ [entry]
      let s := { s with hbm := { s.hbm with migration := none, mapoutLog := log.drop (log.length - 64) } }
      let s := s.raise 0x0801 [.u16 m.channel, .u8 m.cause.code, .u32 ms, .u32 s.headlandFree]
      s.nextMapout.dueSweeps
    else s

def execMapoutComplete (s : State) : Host.Outcome State Fault Refusal := s.act Chip.mapoutComplete

/-! ### Shrinking the visible capacity (R266) -/

/-- The band is withdrawn: V falls by one, its data is discarded, and the map-out that needs it starts. -/
def Chip.withdraw (s : Chip) : Chip :=
  match s.hbm.shrink with
  | none => s
  | some k =>
    let ranges := s.withdrawnRanges
    let s := s.each (s.cachedLines.map (·.1)) fun s l =>
      if ranges.any (fun r => r.1 ≤ 64 * l && 64 * l ≤ r.2) then s.dropLine l else s
    let gone (a : Nat) : Bool := ranges.any fun r => r.1 ≤ a && a ≤ r.2
    let band (u : Nat) : Bool := u % 1024 == s.hbm.v - 1
    let s := { s with
      mem := Tab.keep (fun a => !gone a) s.mem
      hbm := { s.hbm with
        poison := Tab.keep (fun l => !gone (64 * l)) s.hbm.poison
        unitPoison := s.hbm.unitPoison.filter fun x => !band x.unit
        remap := Tab.keep (fun u => !band u) s.hbm.remap
        sweeps := s.hbm.sweeps.map (Sweep.keep fun u => !band u)
        hidden := Tab.keep (fun k => !band (physUnit k)) s.hbm.hidden
        hiddenPoison := Tab.keep (fun l => !band (physUnit (64 * l))) s.hbm.hiddenPoison
        v := s.hbm.v - 1, shrink := none } }
    let s := s.raise 0x8802 (.u64 s.hbmVisible :: rangeArgs ranges)
    s.beginMapout k.channel k.cause

def execShrinkAck (value : Bool) (s : State) : Host.Outcome State Fault Refusal :=
  s.act fun c => c.when value Chip.withdraw

def execShrinkGraceExpiry (s : State) : Host.Outcome State Fault Refusal := s.act Chip.withdraw

/-! ### Margining (R268–R270) -/

/-- Once per MARGIN_PERIOD: a new period starts for the pseudo-channel, and its sweep with it. -/
def Chip.marginPeriod (s : Chip) (p : Nat) : Chip :=
  if s.obj O.marginPeriod = 0 then s
  else (s.setPc p fun c => { c with deferred := false }).askSweep p

def execMarginPeriodTimer (pc : Fin 2048) (s : State) : Host.Outcome State Fault Refusal :=
  s.act fun c => c.marginPeriod pc.val

def execMarginNow (pc : Half) (s : State) : Host.Outcome State Fault Refusal :=
  s.act fun c => c.when (pc.toNat < 2048) fun c => c.askSweep pc.toNat

/-- A window's width and its centre from the trained point. -/
def winWidth (l r : Int) : Int := r - l
def winCentre (l r : Int) : Int := (l + r).tdiv 2

/-- One pin after the sweep: the centre is retrained where it lies 4 or more steps off, and the edges count from the
new trained point (R269). -/
def retrained (w : Int × Int × Int × Int) : PinWindow :=
  let (l, r, lo, hi) := w
  let c := winCentre l r
  let v := winCentre lo hi
  let c := if c.natAbs ≥ 4 then c else 0
  let v := if v.natAbs ≥ 4 then v else 0
  ⟨l - c, r - c, lo - v, hi - v⟩

/-- The swept windows against the minima (R270): an event for each pin below one, and the channel judged bad when a window
is below half of one. -/
def Chip.checkWindows (s : Chip) (p : Nat) (w : List PinWindow) : Chip :=
  let tmin : Int := s.obj O.marginTimeMin
  let vmin : Int := s.obj O.marginVrefMin
  let s := s.each w.zipIdx fun s x =>
    let t := winWidth x.1.left x.1.right
    let v := winWidth x.1.vlow x.1.vhigh
    if t < tmin then s.raise 0x4803 [.u16 p, .u8 x.2, .u8 t.toNat]
    else if v < vmin then s.raise 0x4803 [.u16 p, .u8 x.2, .u8 v.toNat]
    else s
  if w.any fun x => 2 * winWidth x.left x.right < tmin || 2 * winWidth x.vlow x.vhigh < vmin then
    s.judge (p / 2) .margin
  else s

/-- What a sweep has yet to move has moved: units that wait are written back from the cache first. -/
def Chip.sweepMoves (s : Chip) (p : Nat) : Chip :=
  match s.sweepOf p with
  | none => s
  | some w =>
    let s := s.each (w.todo.map (·.1)) Chip.flushUnit
    s.each (w.copying.map UnitCopy.pair ++ w.todo) fun s t => s.sweepUnit p t.1 t.2

/-- A phase of a sweep ends: drain done, sweep and retrain done, copy-back done (R269). -/
def Chip.sweepPhaseDone (s : Chip) (p : Nat) (windows : List (Int × Int × Int × Int)) : Chip :=
  match s.sweepOf p with
  | none => s
  | some w =>
    match w.phase with
    | .draining => (s.sweepMoves p).setSweep p fun w => { w with phase := .sweeping }
    | .sweeping =>
      let pins := windows.map retrained
      let s := s.setPc p fun c => { c with windows := pins, windowTime := s.timebase }
      let s := s.setSweep p fun w => { w with phase := .copyingBack, todo := w.moved, moved := [] }
      (s.fillSweep p).checkWindows p pins
    | .copyingBack =>
      let s := s.sweepMoves p
      ({ s with hbm := { s.hbm with sweeps := s.hbm.sweeps.filter fun x => x.pc != p } }).dueSweeps

def execSweepPhaseDone (pc : Fin 2048) (windows : List (Int × Int × Int × Int)) (s : State) :
    Host.Outcome State Fault Refusal :=
  s.act fun c => c.sweepPhaseDone pc.val windows

/-! ### Refresh (R271) -/

/-- Each tREFI the controller refreshes the next bank group of a pseudo-channel; a stack in self-refresh refreshes
itself. -/
def Chip.refresh (s : Chip) (p : Nat) : Chip :=
  if (Tab.get Stack.reset s.hbm.hbmStacks (p / 64)).selfRefresh then s
  else s.setPc p fun c => { c with bankGroup := (c.bankGroup + 1) % (Config.bankGroups + 1) }

def execHbmRefresh (pc : Fin 2048) (s : State) : Host.Outcome State Fault Refusal := s.act fun c => c.refresh pc.val

end Sys2Proof.Machine
end

