-- ==== Sys2Proof/Machine/Csr.lean ====
section
/-! DEFINITION. The register space as reads and writes see it (R10, R143, R165, R193, R197, R213, R245), and atomics on
memory (R30, R135). -/

namespace Sys2Proof.Machine

/-- What a byte of the register and counter ranges reads; none where nothing may be read. -/
def Chip.regByte (s : Chip) (o : Nat) : Option Byte :=
  let part (bits off : Nat) : Option Byte := some (BitVec.ofNat 8 (bits / 2 ^ (8 * off)))
  match s.region o with
  | .qcb q off => part (s.queueAt q).bits off
  | .doorbell q off => some ((s.queueAt q).doorbellByte off)
  | .interleave r off => if off < 24 then some 0 else part (s.ilWord r).toNat (off - 24)
  | .window e off => part (s.windowEntry e).shown.toNat off
  | .comm n off => part (s.commBits n) off
  | .counterPage c off => some (s.counterPageByte c off)
  | .sync off => s.syncByte off
  | _ => none

/-- The control and status registers, without the chip counters. -/
def Region.isCsr : Region → Bool
  | .qcb _ _ => true | .doorbell _ _ => true | .interleave _ _ => true | .window _ _ => true | .comm _ _ => true
  | .counterPage _ _ => true | _ => false

/-- n bytes of register space; none where one of them may not be read. -/
def Chip.regBytes (s : Chip) (o n : Nat) : Option (List Byte) := ((List.range n).map fun i => s.regByte (o + i)).mapM id

/-- A write of n = 4 or 8 aligned bytes to a register. -/
def Chip.regWrite (s : Chip) (o n x : Nat) (src : AddSrc) : Chip :=
  match s.region o with
  | .qcb q off => s.qcbWrite q off n x
  | .doorbell q off => s.doorbellWrite q off x
  | .interleave r off => s.ilWrite r off n x
  | .window e off =>
    if off ≥ 24 then (if off = 24 ∧ n = 8 then s.windowCommit e (BitVec.ofNat 64 x) else s) else s.windowStage e off n x
  | .comm k off => s.commWrite k off n x
  | .counterPage c off => if n = 8 then s.counterPageWrite c off (BitVec.ofNat 64 x) src else s
  | _ => s

/-- Barrier descriptors among the counter range (R193). -/
def inBarriers (o : Nat) : Bool := 0xF0000200000 ≤ o && o < 0xF0000220000

/-- A write of 8 aligned bytes of a barrier descriptor (R203). -/
def Chip.barrierStore (s : Chip) (o : Nat) (v : Word) : Chip :=
  let off := o - 0xF0000200000
  s.barrierWord (off / 32) (off % 32 / 8) v
def Chip.barrierStoreRefused (s : Chip) (o : Nat) (v : Word) : Bool :=
  let off := o - 0xF0000200000
  s.barrierRefuses (off / 32) (off % 32 / 8) v

/-! ### Atomics (R27, R135) -/

/-- The new value of an atomic: 0 ADD, 1 SWAP, 2 CAS, 3 MIN, 4 MAX, 5 AND, 6 OR, 7 XOR, 8 FADD32. -/
def aopApply (aop w old a b : Nat) : Nat :=
  match aop with
  | 0 => (old + a) % 2 ^ w
  | 1 => a % 2 ^ w
  | 2 => if old = a % 2 ^ w then b % 2 ^ w else old
  | 3 => if signed w a < signed w old then a % 2 ^ w else old
  | 4 => if signed w old < signed w a then a % 2 ^ w else old
  | 5 => (old &&& a) % 2 ^ w
  | 6 => (old ||| a) % 2 ^ w
  | 7 => (old ^^^ a) % 2 ^ w
  | _ => fadd old (a % 2 ^ 32)

/-- n bytes of data memory are read, changed by f and written, marked where the operands were: the old value, and whether the bytes were stored poisoned
and it was not applied. -/
def Chip.memModify (s : Chip) (site : Nat) (o n : Nat) (f : Nat → Nat) (poison : Bool) (hint : BitVec 2) :
    Chip × Nat × Bool :=
  let (s, r) := s.readFrom site o n hint
  let old := leNat (readData r)
  if readPoison r then (s, old, true) else (s.writeFrom site o (leBytes n (f old)) poison hint, old, false)

/-- An atomic of a site on n bytes of data memory; operands that came poisoned leave the result marked (R30). -/
def Chip.memAtomic (s : Chip) (site : Nat) (o n aop a b : Nat) (poison : Bool) (hint : BitVec 2) : Chip × Nat × Bool :=
  s.memModify site o n (fun old => aopApply aop (8 * n) old a b) poison hint

end Sys2Proof.Machine
end

