-- ==== Sys2Proof/Machine/Operands.lean ====
section
/-! DEFINITION. The operands of control-core and unit instructions: registers and CSRs (R284), address forms (R276), what an
access or a fetch may reach (R277, R279, R296, R399). -/

namespace Sys2Proof.Machine

/-! ### Registers -/

/-- An x register; x0 reads zero. -/
def CoreSt.rx (x : CoreSt) (r : BitVec 5) : Word := if r = 0 then 0 else Tab.get 0 x.x r.toNat
/-- An f register, all 64 bits. -/
def CoreSt.rf (x : CoreSt) (r : BitVec 5) : Word := Tab.get 0 x.f r.toNat

/-- A binary32 operand: a value that is not NaN-boxed reads as the canonical NaN. -/
def unbox32 (v : Word) : Nat := if v.toNat / 2 ^ 32 = 0xFFFFFFFF then v.toNat % 2 ^ 32 else Fmt.fp32.qnan
/-- A binary32 result, NaN-boxed. -/
def box32 (b : Nat) : Word := BitVec.ofNat 64 (0xFFFFFFFF00000000 + b % 2 ^ 32)

/-- An Xdxn CSR, 0x800–0x80A. -/
def CoreSt.csr (x : CoreSt) (n : Nat) : Word := Tab.get 0 x.csrs n
/-- xhint [1:0] -/
def CoreSt.hint (x : CoreSt) : Hint := BitVec.ofNat 2 (x.csr 0x80A).toNat
/-- The counter that a signal CSR names, if its EN is set. -/
def sigOf (w : Word) : Option Nat := if w.getLsbD 6 then some (bitsOf w.toNat 5 0) else none

/-! ### Addresses (R276) -/

/-- What a 64-bit address names. -/
inductive Target where
  | chip (o : Nat)
  | rack (a : Nat)
  deriving DecidableEq, Repr

/-- Bytes of a core's own memory, and of an update engine's scratch memory. -/
def ownBytes (c : Nat) : Nat := if c < 256 then 2 ^ 24 else 2 ^ 22

/-- What an address names for core c; an update engine reaches no rack address (R399). -/
def target (c : Nat) (w : Word) : Option Target :=
  let o := w.toNat % 2 ^ 56
  match w.toNat / 2 ^ 56 with
  | 0 => if o < 2 ^ 44 then some (.chip o) else none
  | 1 => if o < 2 ^ 48 ∧ c < 256 then some (.rack o) else none
  | 2 => if o < ownBytes c then some (.chip (coreBase c + o)) else none
  | _ => none

/-- The region of an offset, the scratch memories included. -/
def Chip.coreRegion (s : Chip) (o : Nat) : Region := if o ≥ 2 ^ 44 then .coreMem else s.region o

/-- The offset lies in core c's own memory. -/
def isOwn (c o : Nat) : Bool := coreBase c ≤ o && o < coreBase c + ownBytes c

/-- An address in own core memory, form 0x02 alone, as an offset in it (R290, R291). -/
def ownOffset (c : Nat) (w : Word) : Option Nat :=
  if w.toNat / 2 ^ 56 = 2 ∧ w.toNat % 2 ^ 56 < ownBytes c then some (w.toNat % 2 ^ 56) else none

/-- The address of a byte of own core memory in form 0x02. -/
def ownForm (o : Nat) : Word := BitVec.ofNat 64 (2 ^ 57 + o)

/-- The address of an offset of the chip or of the scratch memory, in a form of R276. -/
def addrForm (c o : Nat) : Word := if isOwn c o then ownForm (o - coreBase c) else BitVec.ofNat 64 o

/-! ### Control-core accesses (R277) -/

/-- The kinds of control-core access. -/
inductive Access where
  | load | store | amo | lrsc
  deriving DecidableEq, Repr

/-- Whether a load or a store of n bytes may reach registers or counters: 4 or 8 aligned bytes of the control and status
registers, without stores to the window table (R146); every readable byte of the counter range, and stores of 8 aligned
bytes to barrier descriptors (R194). -/
def Chip.registerAccess (s : Chip) (k : Access) (o n : Nat) : Bool :=
  match k, s.region o with
  | .load, .sync _ => (s.regBytes o n).isSome
  | .store, .sync _ => inBarriers o && n == 8 && o % 8 == 0
  | .load, r => r.isCsr && (n == 4 || n == 8) && o % n == 0 && (s.regBytes o n).isSome
  | .store, .window _ _ => false
  | .store, r => r.isCsr && (n == 4 || n == 8) && o % n == 0
  | _, _ => false

/-- What an access of n bytes reaches, or the cause of its access fault (DEDUCED log 85). -/
def Chip.accessTo (s : Chip) (c : Nat) (k : Access) (w : Word) (n : Nat) : Except Cause Target :=
  let a := w.toNat
  match target c w with
  | none => .error .addr
  | some t =>
    if a % 64 + n > 64 ∨ ((k = .amo ∨ k = .lrsc) ∧ a % n ≠ 0) then .error .align
    else
      match t with
      | .rack _ => if k = .lrsc then .error .addr else .ok t
      | .chip o =>
        let r := s.coreRegion o
        if r = .withdrawn then .error .withdrawn
        else if r.isData then (if k = .lrsc && !isOwn c o then .error .addr else .ok t)
        else if s.registerAccess k o n then .ok t
        else .error .addr

/-- The access fault of an access; in the counter range it is also a refusal (R194) (DEDUCED log 77). -/
def Chip.accessFault (s : Chip) (c : Nat) (cause : Cause) (w : Word) : Chip :=
  let s := match cause, target c w with
    | .addr, some (.chip o) => if inCounterRange o then s.counterRefusal else s
    | _, _ => s
  s.fault c cause w

/-! ### Fetch (R277, R279, R296) -/

/-- The address of a line. -/
def lineOf (w : Word) : Word := w &&& ~~~(63 : Word)

/-- Why an instruction of n bytes at the pc is not fetched: outside the image, withdrawn, or from a poisoned line, which
ADDR names. -/
def Chip.fetchFault (s : Chip) (c n : Nat) : Option (Cause × Word) :=
  let x := s.core c
  match x.kernel, target c x.pc with
  | some k, some (.chip o) =>
    let bad (a : Nat) : Bool := s.cutOff (coreSite c) a || s.poisoned a
    if o < k.code + 64 ∨ o + n > k.code + 64 + k.codeLen then some (.addr, x.pc)
    else if s.rangeWithdrawn o n then some (.withdrawn, x.pc)
    else if bad o then some (.poison, lineOf x.pc)
    else if bad (o + n - 1) then some (.poison, lineOf (x.pc + BitVec.ofNat 64 (n - 1)))
    else none
  | some _, _ => some (.addr, x.pc)
  | none, _ => none

/-- An instruction of n bytes at a core's pc: the core issues, is awake, waits for nothing but (`own`) this instruction,
and its fetch is allowed (DEDUCED log 19). -/
def Chip.issue (s : Chip) (c n : Nat) (own : Stall → Bool) (f : Chip → Chip) : Chip :=
  let x := s.core c
  s.when (x.issuing && !x.fallow && (x.stall.all own)) fun s =>
    match s.fetchFault c n with
    | some (cause, a) => s.fault c cause a
    | none => f (s.setCore c fun x => { x with icache := true })

/-- An instruction that never waits for an answer of its own. -/
def plain (_ : Stall) : Bool := false

/-- The control core goes on: an x register takes a value, and the instruction of n bytes retires. -/
def Chip.retireX (s : Chip) (c rd : Nat) (v : Word) (n : Nat) : Chip := s.setCore c fun x => (x.setX rd v).retire n
def Chip.retireF (s : Chip) (c rd : Nat) (v : Word) (n : Nat) : Chip := s.setCore c fun x => (x.setF rd v).retire n
def Chip.retire (s : Chip) (c n : Nat) : Chip := s.setCore c fun x => x.retire n

/-- An illegal instruction (R300). -/
def Chip.illegal (s : Chip) (c : Nat) : Chip := s.fault c .illegal 0

end Sys2Proof.Machine
end

