-- ==== Sys2Proof/Machine/Control.lean ====
section
/-! DEFINITION. Control-core memory accesses, fences, CSRs (R277–R284) and the sync instructions (R286–R288, R298). -/

namespace Sys2Proof.Machine

/-! ### Loads and stores (R277–R279) -/

/-- Bytes, sign extension, floating-point file. -/
def loadShape : LoadKind → Nat × Bool × Bool
  | .lb => (1, true, false) | .lh => (2, true, false) | .lw => (4, true, false) | .ld => (8, true, false)
  | .lbu => (1, false, false) | .lhu => (2, false, false) | .lwu => (4, false, false)
  | .flw => (4, false, true) | .fld => (8, false, true)

/-- Bytes, and whether the f register is stored. -/
def storeShape : StoreKind → Nat × Bool
  | .sb => (1, false) | .sh => (2, false) | .sw => (4, false) | .sd => (8, false) | .fsw => (4, true) | .fsd => (8, true)

/-- A load of n bytes at w into register rd. -/
def Chip.coreLoad (s : Chip) (c : Nat) (k : LoadKind) (rd : Nat) (w : Word) (len : Nat) : Chip :=
  let (n, sg, fp) := loadShape k
  let x := s.core c
  let done (s : Chip) (v : Nat) : Chip :=
    if fp then s.retireF c rd (loadValue n sg fp v) len else s.retireX c rd (loadValue n sg fp v) len
  match s.accessTo c .load w n with
  | .error cause => s.accessFault c cause w
  | .ok (.rack a) =>
    match (s.setCore c fun x => { x with stall := some .rack }).rackRead a n x.hint (.core c) (.reg c rd n sg fp len) with
    | some s => s
    | none => s.windowMiss.fault c .addr w
  | .ok (.chip o) =>
    if (s.coreRegion o).isData then
      let (s, r) := s.readFrom (coreSite c) o n x.hint
      if readPoison r then s.fault c .poison w else done s (leNat (readData r))
    else done s (leNat ((s.regBytes o n).getD []))

/-- A store of the n low bytes of v at w. A rack store is posted: it retires at once, and its response comes later. -/
def Chip.coreStore (s : Chip) (c n : Nat) (v w : Word) (len : Nat) : Chip :=
  let x := s.core c
  match s.accessTo c .store w n with
  | .error cause => s.accessFault c cause w
  | .ok (.rack a) =>
    match ((s.setCore c fun x => { x with storesOut := x.storesOut + 1 }).retire c len).rackWrite a (leBytes n v.toNat)
        [false] false x.hint (.coreStore c) with
    | some s => s
    | none => s.windowMiss.fault c .addr w
  | .ok (.chip o) =>
    if (s.coreRegion o).isData then (s.writeFrom (coreSite c) o (leBytes n v.toNat) false x.hint).retire c len
    else if inBarriers o then
      let t := s.barrierStore o v
      if s.barrierStoreRefused o v then t.fault c .addr w else t.retire c len
    else (s.regWrite o n (v.toNat % 2 ^ (8 * n)) (.core c 0)).retire c len

/-! ### Atomics (R278) -/

/-- The new value of an AMO on w bits. -/
def amoApply (op : AmoOp) (w old a : Nat) : Nat :=
  match op with
  | .add => aopApply 0 w old a 0
  | .swap => aopApply 1 w old a 0
  | .min => aopApply 3 w old a 0
  | .max => aopApply 4 w old a 0
  | .and => aopApply 5 w old a 0
  | .or => aopApply 6 w old a 0
  | .xor => aopApply 7 w old a 0
  | .minu => min old (a % 2 ^ w)
  | .maxu => max old (a % 2 ^ w)

/-- The AOP of a rack AMO; the unsigned ones have none. -/
def amoAop : AmoOp → Option (BitVec 4)
  | .add => some 0 | .swap => some 1 | .min => some 3 | .max => some 4 | .and => some 5 | .or => some 6 | .xor => some 7
  | .minu => none | .maxu => none

/-- An atomic at w: f gives the new value, `aop` the GN operation; the old value goes to rd. -/
def Chip.coreAtomic (s : Chip) (c : Nat) (f : Nat → Nat) (aop : Option (BitVec 4)) (dbl fp : Bool) (operand : Word) (rd : Nat)
    (w : Word) : Chip :=
  let n := if dbl then 8 else 4
  let x := s.core c
  match s.accessTo c .amo w n with
  | .error cause => s.accessFault c cause w
  | .ok (.rack a) =>
    match aop with
    | none => s.fault c .addr w
    | some op =>
      match (s.setCore c fun x => { x with stall := some .rack }).rackAtomic a op dbl operand x.hint (.core c)
          (.reg c rd n true fp 4) with
      | some s => s
      | none => s.windowMiss.fault c .addr w
  | .ok (.chip o) =>
    let (s, old, bad) := s.memModify (coreSite c) o n f false x.hint
    if bad then s.fault c .poison w
    else if fp then s.retireF c rd (loadValue n true true old) 4
    else s.retireX c rd (loadValue n true false old) 4

def Chip.coreAmo (s : Chip) (c : Nat) (op : AmoOp) (dbl : Bool) (rd : Nat) (w v : Word) : Chip :=
  let n := if dbl then 64 else 32
  s.coreAtomic c (fun old => amoApply op n old (v.toNat % 2 ^ n)) (amoAop op) dbl false v rd w

/-- XAMOFADD.W, refused under DET_MODE (R278, R373). -/
def Chip.coreFadd (s : Chip) (c rd : Nat) (w v : Word) : Chip :=
  if s.objb O.detMode then (s.detRefusal 1).fault c .det w
  else s.coreAtomic c (fun old => fadd old (unbox32 v)) (some 8) false true (BitVec.ofNat 64 (unbox32 v)) rd w

/-- LR reserves its bytes; SC stores and gives 0 if its bytes are still reserved, else gives 1 (DEDUCED log 61). -/
def Chip.coreLr (s : Chip) (c : Nat) (dbl : Bool) (rd : Nat) (w : Word) : Chip :=
  let n := if dbl then 8 else 4
  match s.accessTo c .lrsc w n with
  | .ok (.chip o) =>
    let (s, r) := s.readFrom (coreSite c) o n 0
    if readPoison r then s.fault c .poison w
    else (s.setCore c fun x => { x with reservation := some (o, n) }).retireX c rd (loadValue n true false (leNat (readData r))) 4
  | .ok (.rack _) => s.fault c .addr w
  | .error cause => s.accessFault c cause w

def Chip.coreSc (s : Chip) (c : Nat) (dbl : Bool) (rd : Nat) (w v : Word) : Chip :=
  let n := if dbl then 8 else 4
  match s.accessTo c .lrsc w n with
  | .ok (.chip o) =>
    let held := match (s.core c).reservation with
      | some (a, k) => a ≤ o && o + n ≤ a + k
      | none => false
    let s := s.setCore c fun x => { x with reservation := none }
    if held then (s.writeFrom (coreSite c) o (leBytes n v.toNat) false 0).retireX c rd 0 4 else s.retireX c rd 1 4
  | .ok (.rack _) => s.fault c .addr w
  | .error cause => s.accessFault c cause w

/-! ### Fences (R281) -/

/-- FENCE: loads have returned when they retire; it waits until every rack store is answered (DEDUCED log 132). -/
def Chip.coreFence (s : Chip) (c : Nat) : Chip := s.when ((s.core c).storesOut == 0) fun s => s.retire c 4

def Chip.coreFenceI (s : Chip) (c : Nat) : Chip := s.setCore c fun x => { x.retire 4 with icache := false }

/-! ### CSRs (R280, R284) -/

/-- What user mode reads in a CSR, none where it may not (DEDUCED log 78) (DEDUCED log 79). -/
def Chip.csrRead (s : Chip) (c n : Nat) : Option Word :=
  let x := s.core c
  let fcsr := x.frm.toNat * 32 + x.fflags.toNat
  if n = 1 then some (BitVec.ofNat 64 (fcsr % 32))
  else if n = 2 then some (BitVec.ofNat 64 (fcsr / 32))
  else if n = 3 then some (BitVec.ofNat 64 fcsr)
  else if 0x800 ≤ n ∧ n ≤ 0x80A then some (x.csr n)
  else if n = 0xC00 then some x.cycle
  else if n = 0xC01 then some s.timebase
  else if n = 0xC02 then some x.instret
  else if n = 0xCC0 then some (if c < 256 then BitVec.ofNat 64 c else (Config.engineCore (c - 256)).setWidth 64)
  else if n = 0xCC1 then some (BitVec.ofNat 64 (x.arrayQ.length + x.vectorQ.length * 2 ^ 8 + x.dmaQ.length * 2 ^ 16))
  else none

/-- A write of a CSR keeps the written bits; none where user mode may not write. -/
def CoreSt.csrWrite (x : CoreSt) (n : Nat) (v : Word) : Option CoreSt :=
  if n = 1 then some { x with fflags := v.setWidth 5 }
  else if n = 2 then some { x with frm := v.setWidth 3 }
  else if n = 3 then some { x with fflags := v.setWidth 5, frm := (v >>> 5).setWidth 3 }
  else if 0x800 ≤ n ∧ n ≤ 0x80A then some { x with csrs := Tab.set 0 x.csrs n v }
  else none

def csrApply (op : CsrOp) (old v : Word) : Word :=
  match op with
  | .rw => v
  | .rs => old ||| v
  | .rc => old &&& ~~~v

/-- Cycles that have passed without an instruction retiring show at a read of cycle: how many is free, below 2^32
(DESIGN CHOICE log 169). -/
def Chip.countStalls (s : Chip) (c : Nat) : Chip :=
  let n := (Config.freeWord s.freeCtr).setWidth 32
  let s := s.setCore c fun x => { x with cycle := x.cycle + n.setWidth 64 }
  { s with freeCtr := s.freeCtr + 1 }

/-- A Zicsr instruction: CSRRW always writes, the others only with a source other than x0 or 0. -/
def Chip.coreCsr (s : Chip) (c : Nat) (op : CsrOp) (n rd : Nat) (src : CsrSrc) : Chip :=
  let s := if n = 0xC00 then s.countStalls c else s
  let x := s.core c
  let (v, some') : Word × Bool := match src with
    | .reg r => (x.rx r, r != 0)
    | .imm i => (i.setWidth 64, i != 0)
  match s.csrRead c n with
  | none => s.illegal c
  | some old =>
    if op = .rw ∨ some' then
      match x.csrWrite n (csrApply op old v) with
      | some y => (s.setCore c fun _ => y).retireX c rd old 4
      | none => s.illegal c
    else s.retireX c rd old 4

/-! ### The sync instructions (R286–R288, R298) -/

def UnitOp.isWait : UnitOp → Bool
  | .wait _ _ => true
  | _ => false

def UnitOp.isDrain : UnitOp → Bool
  | .adrain _ _ _ _ _ _ => true
  | _ => false

/-- What a signal instruction waits for: stores, core DMA writes and array drains have landed, vector instructions have
completed (R202, R287). -/
def CoreSt.released (x : CoreSt) : Bool :=
  x.storesOut == 0 && (x.dmaQ ++ x.dmaRun ++ x.vectorQ ++ x.vectorRun).all (·.op.isWait) &&
  (x.arrayQ ++ x.arrayRun).all fun u => !u.op.isDrain

def Chip.coreSigl (s : Chip) (c rd : Nat) (ctr amount : Word) : Chip :=
  if rd ≠ 0 then s.illegal c
  else s.when (s.core c).released fun s => (s.localAdd c (ctr.toNat % 64) amount (.core c 0)).retire c 4

/-- The stall of a wait whose condition is not met. -/
def Chip.stallOn (s : Chip) (c : Nat) (k : Stall) : Chip := s.setCore c fun x => { x with stall := some k }

def Chip.coreWaitl (s : Chip) (c rd : Nat) (ctr threshold : Word) : Chip :=
  let j := ctr.toNat % 64
  if rd ≠ 0 then s.illegal c
  else if threshold.toNat ≤ (s.coreCounter c j).value.toNat then s.retire c 4
  else (s.stallOn c (.waitL j threshold)).noteLocalWaits c

def Chip.coreRdl (s : Chip) (c rd : Nat) (ctr : Word) : Chip :=
  s.retireX c rd (s.coreCounter c (ctr.toNat % 64)).value 4

/-- XSIGC: it retires once its add is applied or its held arrival cancelled (R206, R287). -/
def Chip.coreSigc (s : Chip) (c rd : Nat) (ctr amount : Word) : Chip :=
  let i := ctr.toNat
  let refused (s : Chip) : Chip := s.fault c .addr (BitVec.ofNat 64 (counterOffset i))
  match (s.core c).stall with
  | some (.sigC none) => s
  | some (.sigC (some 4)) => refused s
  | some (.sigC (some st)) => s.retireX c rd (BitVec.ofNat 64 st) 4
  | _ =>
    if i ≥ 262144 then s.fault c .addr 0
    else s.when (s.core c).released fun s =>
      match s.addFrom i amount (.core c 0) with
      | (s, .applied _) => s.retireX c rd 0 4
      | (s, .refused) => refused s
      | (s, _) => s.stallOn c (.sigC none)

def Chip.coreWaitc (s : Chip) (c rd : Nat) (ctr threshold : Word) : Chip :=
  let i := ctr.toNat
  if rd ≠ 0 then s.illegal c
  else if i ≥ 262144 then s.fault c .addr 0
  else
    match s.registerWait i threshold (.core c 0) with
    | (s, true) => s.retire c 4
    | (s, false) => s.stallOn c (.waitC i threshold)

def CoreSt.setUnitQ (x : CoreSt) (u : Nat) (l : List UnitInstr) : CoreSt :=
  if u = 1 then { x with arrayQ := l } else if u = 2 then { x with vectorQ := l } else { x with dmaQ := l }
def CoreSt.setUnitRun (x : CoreSt) (u : Nat) (l : List UnitInstr) : CoreSt :=
  if u = 1 then { x with arrayRun := l } else if u = 2 then { x with vectorRun := l } else { x with dmaRun := l }

/-- A unit's queue has a free entry (R274). -/
def CoreSt.unitRoom (x : CoreSt) (u : Nat) : Bool := (x.unitQ u).length < 16

/-- An instruction enters a unit's queue. -/
def CoreSt.enqueue (x : CoreSt) (u : Nat) (op : UnitOp) (sig : Option Nat) : CoreSt :=
  { x.setUnitQ u (x.unitQ u ++ [⟨x.issued, op, sig, 0, none, 0⟩]) with issued := x.issued + 1 }

/-- A unit instruction issues, or waits for room in its queue (R292). -/
def Chip.coreEnqueue (s : Chip) (c u : Nat) (op : UnitOp) (sig : Option Nat) : Chip :=
  s.when ((s.core c).unitRoom u) fun s => s.setCore c fun x => (x.enqueue u op sig).retire 4

/-- The units that bits [2:0] name (DEDUCED log 81). -/
def unitsOf (w : Word) : List Nat := [1, 2, 3].filter fun u => w.getLsbD (u - 1)

/-- XQWAIT: a slot of each named unit's queue; bits beyond [2:0] are not listed (R300). -/
def Chip.coreQwait (s : Chip) (c : Nat) (threshold ctr units : Word) : Chip :=
  let us := unitsOf units
  if units.toNat ≥ 8 then s.illegal c
  else s.when (us.all fun u => (s.core c).unitRoom u) fun s =>
    (s.setCore c fun x => (us.foldl (fun x u => x.enqueue u (.wait (ctr.toNat % 64) threshold) none) x).retire 4).noteLocalWaits c

def Chip.coreWaitu (s : Chip) (c rd : Nat) (units : Word) : Chip :=
  let x := s.core c
  if rd ≠ 0 ∨ units.toNat ≥ 8 then s.illegal c
  else if (unitsOf units).all fun u => (x.unitQ u).isEmpty && (x.unitRun u).isEmpty then s.retire c 4
  else s.stallOn c (.waitU (units.setWidth 3))

/-- XEND: the control core stops issuing, and the core ends when its units and stores have (R298). -/
def Chip.coreXend (s : Chip) (c rd : Nat) : Chip :=
  if rd ≠ 0 then s.illegal c
  else (s.setCore c fun x => { x with
    ended := true, stall := none, state := if x.state = .draining then .draining else .ending }).coreEndIf c

/-! ### The commands -/

def execCtrlLoad (core : Fin 264) (kind : LoadKind) (rd rs1 : BitVec 5) (imm : BitVec 12) (short : Bool) (s : State) :
    Host.Outcome State Fault Refusal :=
  s.act fun c => c.issue core.val (if short then 2 else 4) plain fun c =>
    c.coreLoad core.val kind rd.toNat ((c.core core.val).rx rs1 + imm.signExtend 64) (if short then 2 else 4)

def execCtrlStore (core : Fin 264) (kind : StoreKind) (rs1 rs2 : BitVec 5) (imm : BitVec 12) (short : Bool) (s : State) :
    Host.Outcome State Fault Refusal :=
  s.act fun c => c.issue core.val (if short then 2 else 4) plain fun c =>
    let x := c.core core.val
    c.coreStore core.val (storeShape kind).1 (if (storeShape kind).2 then x.rf rs2 else x.rx rs2) (x.rx rs1 + imm.signExtend 64)
      (if short then 2 else 4)

def execCtrlAmo (core : Fin 264) (op : AmoOp) (dbl : Bool) (rd rs1 rs2 : BitVec 5) (s : State) :
    Host.Outcome State Fault Refusal :=
  s.act fun c => c.issue core.val 4 plain fun c =>
    c.coreAmo core.val op dbl rd.toNat ((c.core core.val).rx rs1) ((c.core core.val).rx rs2)

def execCtrlLrSc (core : Fin 264) (store dbl : Bool) (rd rs1 rs2 : BitVec 5) (s : State) :
    Host.Outcome State Fault Refusal :=
  s.act fun c => c.issue core.val 4 plain fun c =>
    let x := c.core core.val
    if store then c.coreSc core.val dbl rd.toNat (x.rx rs1) (x.rx rs2)
    else if rs2 = 0 then c.coreLr core.val dbl rd.toNat (x.rx rs1)
    else c.illegal core.val

def execFence (core : Fin 264) (s : State) : Host.Outcome State Fault Refusal :=
  s.act fun c => c.issue core.val 4 plain fun c => c.coreFence core.val

def execFenceI (core : Fin 264) (s : State) : Host.Outcome State Fault Refusal :=
  s.act fun c => c.issue core.val 4 plain fun c => c.coreFenceI core.val

/-- ECALL and EBREAK both take cause BREAK (R280). -/
def execEcallEbreak (core : Fin 264) (_ebreak : Bool) (s : State) : Host.Outcome State Fault Refusal :=
  s.act fun c => c.issue core.val 4 plain fun c => c.fault core.val .brk 0

def execCsrWrite (core : Fin 264) (op : CsrOp) (csr : BitVec 12) (rd : BitVec 5) (src : CsrSrc) (s : State) :
    Host.Outcome State Fault Refusal :=
  s.act fun c => c.issue core.val 4 plain fun c => c.coreCsr core.val op csr.toNat rd.toNat src

def execXsigl (core : Fin 264) (rd rs1 rs2 : BitVec 5) (s : State) : Host.Outcome State Fault Refusal :=
  s.act fun c => c.issue core.val 4 plain fun c =>
    c.coreSigl core.val rd.toNat ((c.core core.val).rx rs1) ((c.core core.val).rx rs2)

/-- The instructions that a stalled core takes up again. -/
def isWaitL : Stall → Bool
  | .waitL _ _ => true
  | _ => false
def isWaitC : Stall → Bool
  | .waitC _ _ => true
  | _ => false
def isWaitU : Stall → Bool
  | .waitU _ => true
  | _ => false
def isSigC : Stall → Bool
  | .sigC _ => true
  | _ => false

def execXwaitl (core : Fin 264) (rd rs1 rs2 : BitVec 5) (s : State) : Host.Outcome State Fault Refusal :=
  s.act fun c => c.issue core.val 4 isWaitL fun c =>
    c.coreWaitl core.val rd.toNat ((c.core core.val).rx rs1) ((c.core core.val).rx rs2)

def execXrdl (core : Fin 264) (rd rs1 _rs2 : BitVec 5) (s : State) : Host.Outcome State Fault Refusal :=
  s.act fun c => c.issue core.val 4 plain fun c => c.coreRdl core.val rd.toNat ((c.core core.val).rx rs1)

def execXsigc (core : Fin 264) (rd rs1 rs2 : BitVec 5) (s : State) : Host.Outcome State Fault Refusal :=
  s.act fun c => c.issue core.val 4 isSigC fun c =>
    c.coreSigc core.val rd.toNat ((c.core core.val).rx rs1) ((c.core core.val).rx rs2)

def execXwaitc (core : Fin 264) (rd rs1 rs2 : BitVec 5) (s : State) : Host.Outcome State Fault Refusal :=
  s.act fun c => c.issue core.val 4 isWaitC fun c =>
    c.coreWaitc core.val rd.toNat ((c.core core.val).rx rs1) ((c.core core.val).rx rs2)

def execXqwait (core : Fin 264) (rd rs1 rs2 : BitVec 5) (s : State) : Host.Outcome State Fault Refusal :=
  s.act fun c => c.issue core.val 4 plain fun c =>
    let x := c.core core.val
    c.coreQwait core.val (x.rx rd) (x.rx rs1) (x.rx rs2)

def execXwaitu (core : Fin 264) (rd rs1 _rs2 : BitVec 5) (s : State) : Host.Outcome State Fault Refusal :=
  s.act fun c => c.issue core.val 4 isWaitU fun c => c.coreWaitu core.val rd.toNat ((c.core core.val).rx rs1)

def execXend (core : Fin 264) (rd _rs1 _rs2 : BitVec 5) (s : State) : Host.Outcome State Fault Refusal :=
  s.act fun c => c.issue core.val 4 plain fun c => c.coreXend core.val rd.toNat

def execXamofaddW (core : Fin 264) (rd rs1 rs2 : BitVec 5) (s : State) : Host.Outcome State Fault Refusal :=
  s.act fun c => c.issue core.val 4 plain fun c =>
    c.coreFadd core.val rd.toNat ((c.core core.val).rx rs1) ((c.core core.val).rf rs2)

end Sys2Proof.Machine
end

