-- ==== Sys2Proof/Machine/Dma.lean ====
section
/-! DEFINITION. The core DMA (R289, R293). -/

namespace Sys2Proof.Machine

/-- n bytes of own core memory, and the first of their poisoned lines. -/
def Chip.ownBytesAt (s : Chip) (c a n : Nat) : List Byte × Option Nat :=
  let o := coreBase c + a
  (s.bytes o n, ((pieces o n).find? fun p => s.poisoned p.1).map fun p => p.1 - coreBase c)

/-! ### The checks at issue (R284, R292, R293) -/

/-- RESERVED bits of a signal CSR and of xdcfg that are not zero. -/
def badSig (w : Word) : Bool := w.toNat ≥ 2 ^ 7
def CoreSt.badDmaCsrs (x : CoreSt) : Bool := x.csr 0x806 ≥ 16 || badSig (x.csr 0x807)

/-- Every byte of a rack range passes the window table with a right. -/
def Chip.rackAll (s : Chip) (r : Right) : Nat → Nat → Nat → Bool
  | 0, _, _ => true
  | fuel + 1, a, len => len == 0 || ((s.translate a r).isSome &&
      (let n := max 1 (s.rackRun a len r); s.rackAll r fuel (a + n) (len - n)))

/-- What a range of a DMA instruction names, or the cause it is refused with: every byte is HBM, cellar or core memory, or
every byte is rack memory with the right for a load or a store (R276, R277, R293). -/
def Chip.dmaEnd (s : Chip) (c : Nat) (r : Right) (w : Word) (len : Nat) : Except Cause Target :=
  match target c w with
  | none => .error .addr
  | some (.rack a) => if a + len > 2 ^ 48 ∨ !(s.rackAll r (len / 4096 + 2) a len) then .error .addr else .ok (.rack a)
  | some (.chip o) =>
    if w.toNat / 2 ^ 56 = 2 then (if w.toNat % 2 ^ 56 + len ≤ ownBytes c then .ok (.chip o) else .error .addr)
    else if o + len > 2 ^ 44 then .error .addr
    else if s.rangeData o len then .ok (.chip o)
    else if s.rangeWithdrawn o len then .error .withdrawn
    else .error .addr

/-- A refused address faults precisely; a rack address that the window table refuses is a window miss too (R144). -/
def Chip.dmaFault (s : Chip) (c : Nat) (cause : Cause) (w : Word) : Chip :=
  let s := match cause, target c w with
    | .addr, some (.rack _) => s.windowMiss
    | _, _ => s
  s.fault c cause w

/-- Both ends of a copy are allowed, and not both of them are rack memory. -/
def Chip.dmaEnds (s : Chip) (c : Nat) (dst src : Word) (len : Nat) : Except (Cause × Word) (Target × Target) :=
  match s.dmaEnd c .rd src len, s.dmaEnd c .wr dst len with
  | .error e, _ => .error (e, src)
  | _, .error e => .error (e, dst)
  | .ok (.rack _), .ok (.rack _) => .error (.addr, 0)
  | .ok a, .ok b => .ok (b, a)

/-- A WRITE_FLAGGED: a rack destination and 1–64 bytes within one line of it. -/
def flaggedOk (c : Nat) (dst : Word) (len : Nat) : Bool :=
  match target c dst with
  | some (.rack a) => 1 ≤ len && len ≤ 64 && a % 64 + len ≤ 64
  | _ => false

def isFlagged (cfg : Word) : Bool := cfg.getLsbD 3

/-- XDCOPY at issue (DEDUCED log 83). -/
def Chip.issueDcopy (s : Chip) (c : Nat) (dst src n : Word) : Chip :=
  let x := s.core c
  let len := n.toNat
  let cfg := x.csr 0x806
  if x.badDmaCsrs then s.illegal c
  else if len ≥ 2 ^ 32 then s.fault c .addr 0
  else if isFlagged cfg && !(flaggedOk c dst len) then s.illegal c
  else match s.dmaEnds c dst src len with
    | .error e => s.dmaFault c e.1 e.2
    | .ok _ => s.coreEnqueue c 3 (.dcopy dst src len cfg) (sigOf (x.csr 0x807))

/-- The rows of an XDCOPY2: destination and source of each. -/
def dmaRows (dst src : Word) (rows sstride dstride : Nat) : List (Word × Word) :=
  (List.range rows).map fun i => (dst + BitVec.ofNat 64 (i * dstride), src + BitVec.ofNat 64 (i * sstride))

/-- XDCOPY2 at issue: every row is checked; bits above the listed fields of rs2 are illegal (R300) (DEDUCED log 82). -/
def Chip.issueDcopy2 (s : Chip) (c : Nat) (dst src n : Word) : Chip :=
  let x := s.core c
  let cfg := x.csr 0x806
  let st := (x.csr 0x808).toNat
  let bytes := bitsOf n.toNat 31 0
  let rows := bitsOf n.toNat 47 32 + 1
  if x.badDmaCsrs ∨ n.toNat ≥ 2 ^ 48 then s.illegal c
  else
    let bad := (dmaRows dst src rows (st % 2 ^ 32) (st / 2 ^ 32)).findSome? fun r => match s.dmaEnds c r.1 r.2 bytes with
      | .error e => some e
      | .ok _ => none
    match bad with
    | some e => s.dmaFault c e.1 e.2
    | none => s.coreEnqueue c 3 (.dcopy2 dst src bytes rows (st % 2 ^ 32) (st / 2 ^ 32) cfg) (sigOf (x.csr 0x807))

/-- XDFILL at issue. -/
def Chip.issueDfill (s : Chip) (c : Nat) (dst pattern n : Word) : Chip :=
  let x := s.core c
  let len := n.toNat
  let cfg := x.csr 0x806
  if x.badDmaCsrs then s.illegal c
  else if len ≥ 2 ^ 32 then s.fault c .addr 0
  else if isFlagged cfg && !(flaggedOk c dst len) then s.illegal c
  else match s.dmaEnd c .wr dst len with
    | .error e => s.dmaFault c e dst
    | .ok _ => s.coreEnqueue c 3 (.dfill dst pattern len cfg) (sigOf (x.csr 0x807))

/-! ### A DMA instruction at work (R293) -/

/-- The started instruction `id` of a unit changes. -/
def Chip.setRun (s : Chip) (c u id : Nat) (f : UnitInstr → UnitInstr) : Chip :=
  s.setCore c fun x => x.setUnitRun u ((x.unitRun u).map fun i => if i.id = id then f i else i)

/-- The first failure of an instruction is its fault's. -/
def Chip.unitFail (s : Chip) (c u id sub : Nat) (st : Status) (addr : Word) : Chip :=
  s.setRun c u id fun i => if i.fault.isNone then { i with fault := some (BitVec.ofNat 8 sub, st), faultAddr := addr } else i

/-- Bytes of a range with the mark of the line each was read from; poison and withdrawn HBM fail the instruction. -/
def Chip.dmaRead (s : Chip) (c id o len : Nat) (hint : Hint) : Chip × List (Byte × Bool) :=
  let s := if s.rangeWithdrawn o len then s.unitFail c 3 id 0 .mappedOut (addrForm c o) else s
  let (s, bs) := s.readMarked (coreSite c) o len hint
  (match bs.findIdx? (·.2) with
   | some i => s.unitFail c 3 id 0 .poisoned (addrForm c (o + i))
   | none => s, bs)

/-- Marked bytes land at an offset; what cannot land fails the instruction (DEDUCED log 84). -/
def Chip.dmaWrite (s : Chip) (c id o : Nat) (bs : List (Byte × Bool)) (hint : Hint) : Chip :=
  let s := s.storeMarked (coreSite c) o bs hint
  let s := if s.rangeWithdrawn o bs.length then s.unitFail c 3 id 0 .mappedOut (addrForm c o) else s
  match (pieces o bs.length).find? fun p => s.cutOff (coreSite c) p.1 with
  | some p => s.unitFail c 3 id 0 .timeout (addrForm c p.1)
  | none => s

/-- One more request of the instruction is outstanding; a window miss fails it. -/
def Chip.dmaRack (s : Chip) (c id a : Nat) (send : Chip → Option Chip) : Chip :=
  match send (s.setRun c 3 id fun i => { i with outstanding := i.outstanding + 1 }) with
  | some s => s
  | none => s.windowMiss.unitFail c 3 id 0 .refused (rackForm a)

/-- The marks of the lines of a payload. -/
def byteMarks (bs : List (Byte × Bool)) : List Bool :=
  (List.range ((bs.length + 63) / 64)).map fun i => ((bs.drop (64 * i)).take 64).any (·.2)

/-- Marked bytes go to rack memory, packet by packet. -/
def Chip.dmaRackWrite (s : Chip) (c id a : Nat) (bs : List (Byte × Bool)) (flagged : Bool) (hint : Hint) : Chip :=
  s.each (cutRange (fun o r => s.rackRun (a + o) r .wr) (2 ^ 48) bs.length 0 bs.length) fun s p =>
    let l := (bs.drop p.1).take p.2
    s.dmaRack c id (a + p.1) fun s => s.rackWrite (a + p.1) (l.map (·.1)) (byteMarks l) flagged hint (.dma c id)

/-- One row of a copy. A row that ordinary memory gives is read whole before it is written. -/
def Chip.dmaCopy (s : Chip) (c id : Nat) (dst src : Word) (len : Nat) (cfg : Word) (flagged : Bool) : Chip :=
  let hint : Hint := cfg.setWidth 2
  match target c dst, target c src with
  | some (.chip d), some (.chip o) =>
    let (s, bs) := s.dmaRead c id o len hint
    s.dmaWrite c id d bs hint
  | some (.rack d), some (.chip o) =>
    let (s, bs) := s.dmaRead c id o len hint
    s.dmaRackWrite c id d bs flagged hint
  | some (.chip d), some (.rack a) =>
    s.each (cutRange (fun o r => s.rackRun (a + o) r .rd) (2 ^ 48) len 0 len) fun s p =>
      if s.rangeWithdrawn (d + p.1) p.2 then s.unitFail c 3 id 0 .mappedOut (addrForm c (d + p.1))
      else if s.cutOff (coreSite c) (d + p.1) then s.unitFail c 3 id 0 .timeout (addrForm c (d + p.1))
      else s.dmaRack c id (a + p.1) fun s => s.rackRead (a + p.1) p.2 hint (.dma c id) (.mem (d + p.1) hint)
  | _, _ => s.unitFail c 3 id 0 .refused dst

/-- The bytes of a fill: byte j takes pattern byte j mod 8. -/
def fillBytes (pattern : Word) (len : Nat) : List (Byte × Bool) :=
  (List.range len).map fun j => (BitVec.ofNat 8 (pattern.toNat / 2 ^ (8 * (j % 8))), false)

/-- A DMA instruction issues its reads and writes. -/
def Chip.dmaRun (s : Chip) (c : Nat) (i : UnitInstr) : Chip :=
  match i.op with
  | .dcopy dst src len cfg => s.dmaCopy c i.id dst src len cfg (isFlagged cfg)
  | .dcopy2 dst src bytes rows ss ds cfg =>
    s.each (dmaRows dst src rows ss ds) fun s r => s.dmaCopy c i.id r.1 r.2 bytes cfg false
  | .dfill dst pattern len cfg =>
    let bs := fillBytes pattern len
    match target c dst with
    | some (.chip d) => s.dmaWrite c i.id d bs (cfg.setWidth 2)
    | some (.rack a) => s.dmaRackWrite c i.id a bs (isFlagged cfg) (cfg.setWidth 2)
    | none => s.unitFail c 3 i.id 0 .refused dst
  | _ => s

/-- A unit's queue without the met waits at its head (R288). -/
def Chip.pastWaits (s : Chip) (c : Nat) : List UnitInstr → List UnitInstr
  | [] => []
  | i :: r =>
    match i.op with
    | .wait ctr threshold => if threshold.toNat ≤ (s.coreCounter c ctr).value.toNat then s.pastWaits c r else i :: r
    | _ => i :: r

/-- The head of a unit's queue starts, if it is an instruction and `ok` allows it. Where only met waits stood in the queue, an ended
core whose units have run out ends (R298). -/
def Chip.unitStart (s : Chip) (c u : Nat) (ok : UnitInstr → Bool) (run : Chip → UnitInstr → Chip) : Chip :=
  let x := s.core c
  let s := s.setCore c fun x => x.setUnitQ u (s.pastWaits c (x.unitQ u))
  match s.pastWaits c (x.unitQ u) with
  | [] => s.coreEndIf c
  | i :: r =>
    if !i.op.isWait && ok i then
      run ((s.setCore c fun x => (x.setUnitQ u r).setUnitRun u (x.unitRun u ++ [i])).noteLocalWaits c) i
    else s.noteLocalWaits c

/-- A unit's instruction ends: its signal, or its unit fault (R284, R293, R300) (DESIGN CHOICE log 93). -/
def Chip.unitEnd (s : Chip) (c u : Nat) (i : UnitInstr) (sub : Nat) (st : Status) (addr : Word) : Chip :=
  let s := s.setCore c fun x => x.setUnitRun u ((x.unitRun u).filter (·.id != i.id))
  if st = .ok then
    let s := if c < 256 && u = 1 then s.bump (O.arrayInstrs + 256 * c) 1
      else if c < 256 && u = 2 then s.bump (O.vecInstrs + 256 * c) 1 else s
    (match i.sig with
     | some j => s.localAdd c j 1 (.core c u)
     | none => s).coreEndIf c
  else (s.coreFault c .unit st addr u sub).coreEndIf c

/-- A DMA instruction whose requests are all answered completes. -/
def Chip.dmaComplete (s : Chip) (c : Nat) (i : UnitInstr) : Chip :=
  s.when (i.outstanding == 0) fun s =>
    match i.fault with
    | none => s.unitEnd c 3 i 0 .ok 0
    | some (sub, st) => s.unitEnd c 3 i sub.toNat st i.faultAddr

/-! ### The commands -/

def execXdcopy (core : Fin 264) (rd rs1 rs2 : BitVec 5) (s : State) : Host.Outcome State Fault Refusal :=
  s.act fun c => c.issue core.val 4 plain fun c =>
    let x := c.core core.val
    c.issueDcopy core.val (x.rx rd) (x.rx rs1) (x.rx rs2)

def execXdcopy2 (core : Fin 264) (rd rs1 rs2 : BitVec 5) (s : State) : Host.Outcome State Fault Refusal :=
  s.act fun c => c.issue core.val 4 plain fun c =>
    let x := c.core core.val
    c.issueDcopy2 core.val (x.rx rd) (x.rx rs1) (x.rx rs2)

def execXdfill (core : Fin 264) (rd rs1 rs2 : BitVec 5) (s : State) : Host.Outcome State Fault Refusal :=
  s.act fun c => c.issue core.val 4 plain fun c =>
    let x := c.core core.val
    c.issueDfill core.val (x.rx rd) (x.rx rs1) (x.rx rs2)

/-- The started instructions of a core's units go on after a fault; those not started are gone (R301). -/
def execDmaInstrStart (core : Fin 264) (s : State) : Host.Outcome State Fault Refusal :=
  s.act fun c => c.when (!((c.core core.val).unitFallow.getLsbD 3)) fun c => c.unitStart core.val 3 (fun _ => true) fun c i => c.dmaRun core.val i

end Sys2Proof.Machine
end

