-- ==== Sys2Proof/Machine/Flags.lean ====
section
/-! DEFINITION. Floating-point exception flags and the results that are decided by comparison, class or range: the F and D
extensions' compares, minimum and maximum, classes and integer conversions, which the vector engine shares (R280, R338,
R339, R357). -/

namespace Sys2Proof.Machine

/-- Flags accrue in fflags. -/
def CoreSt.accrue (x : CoreSt) (f : FFlags) : CoreSt := { x with fflags := x.fflags ||| f.bits }

/-! ### Compares (R338) -/

/-- The compares: equal, less, less or equal. -/
inductive Cmp where
  | eq | lt | le
  deriving DecidableEq, Repr

/-- a < b and a = b as numbers; zeros of both signs are equal. Neither is NaN. -/
def FVal.less (a b : FVal) : Bool :=
  match a, b with
  | .fin n m e, .fin n' m' e' => dyLt (FVal.int (.fin n m e)) (FVal.int (.fin n' m' e'))
  | x, y => x.below y

/-- A compare: EQ raises NV for a signalling NaN, LT and LE for any NaN; with a NaN the result is false. -/
def fcompare (k : Cmp) (a b : FVal) : Bool × FFlags :=
  if a.isNan || b.isNan then
    (false, if k != .eq || a.isSnan || b.isSnan then FFlags.invalid else FFlags.none)
  else
    let r := match k with
      | .eq => !(a.less b) && !(b.less a)
      | .lt => a.less b
      | .le => !(b.less a)
    (r, FFlags.none)

/-! ### Minimum and maximum (R357) -/

/-- minimumNumber or maximumNumber of two encodings of an IEEE format. -/
def Fmt.minMax (f : Fmt) (max : Bool) (a b : Nat) : Nat × FFlags :=
  let va := f.decode a
  let vb := f.decode b
  let r :=
    if va.isNan && vb.isNan then f.qnan
    else if va.isNan then b
    else if vb.isNan then a
    else if max then (if va.below vb then b else a)
    else (if vb.below va then b else a)
  (r, if va.isSnan || vb.isSnan then FFlags.invalid else FFlags.none)

/-! ### Classes -/

/-- FCLASS: one bit of ten. -/
def Fmt.classOf (f : Fmt) (a : Nat) : Nat :=
  let ex := a / 2 ^ f.mbits % 2 ^ f.ebits
  match f.decode a with
  | .inf n => if n then 1 else 128
  | .nan s => if s then 256 else 512
  | .fin n m _ =>
    if m = 0 then (if n then 8 else 16)
    else if ex = 0 then (if n then 4 else 32)
    else if n then 2 else 64

/-! ### Integers -/

/-- The range of an integer format of w bits. -/
def intMin (sg : Bool) (w : Nat) : Int := if sg then -(2 ^ (w - 1) : Int) else 0
def intMax (sg : Bool) (w : Nat) : Int := if sg then 2 ^ (w - 1) - 1 else 2 ^ w - 1

/-- A floating value as an integer of w bits: out of range it saturates with NV, and NaN gives the largest value with NV
(R339). -/
def fpToInt (rm : RMode) (sg : Bool) (w : Nat) (v : FVal) : Int × FFlags :=
  match v with
  | .nan _ => (intMax sg w, FFlags.invalid)
  | .inf n => (if n then intMin sg w else intMax sg w, FFlags.invalid)
  | .fin n m e =>
    let (i, inexact) := roundInt rm n m e
    if i < intMin sg w then (intMin sg w, FFlags.invalid)
    else if i > intMax sg w then (intMax sg w, FFlags.invalid)
    else (i, ⟨false, false, false, false, inexact⟩)

/-- An integer as a floating value. -/
def intVal (i : Int) : FVal := .fin (decide (i < 0)) i.natAbs 0

/-- Sign injection: the sign of b, its inverse, or the exclusive or of both signs, on a's magnitude (F extension). -/
def signInject (w k a b : Nat) : Nat :=
  let top := 2 ^ (w - 1)
  let sa := a / top % 2
  let sb := b / top % 2
  let sg := if k = 0 then sb else if k = 1 then 1 - sb else (sa + sb) % 2
  a % top + sg * top

end Sys2Proof.Machine
end

