-- ==== Sys2Proof/Machine/Array.lean ====
section
/-! DEFINITION. The matrix array (10_matrix_array, R363–R366): format pairs, the checks at issue, tiles, products,
accumulation and drains. -/

namespace Sys2Proof.Machine

/-! ### Format pairs (R312) -/

/-- What a pair of formats decides. -/
structure ArrayPair where
  kind : AccKind
  integer : Bool
  /-- cycles per activation row -/
  cycles : Nat
  sparse : Bool
  deriving DecidableEq, Repr

def isFp8 (f : Nat) : Bool := f == 3 || f == 4
/-- The 8- and 6-bit floating formats, MX or not. -/
def isByteFloat (f : Nat) : Bool := 3 ≤ f && f ≤ 8

/-- The pair of a weight and an activation format, if the array accepts it (DEDUCED log 86). -/
def arrayPair (w a : Nat) : Option ArrayPair :=
  if isFp8 w && isFp8 a then some ⟨.fixed, false, 1, true⟩
  else if w = 0xB ∧ (a = 0xB ∨ a = 0xC) then some ⟨.fixed, true, 1, a == 0xB⟩
  else if w = 0xC ∧ a = 0xC then some ⟨.fixed, true, 1, false⟩
  else if w = 0xC ∧ a = 0xB then some ⟨.fixed, true, 2, false⟩
  else if isByteFloat w && isByteFloat a then some ⟨.mxf32, false, 1, false⟩
  else if w = 9 ∧ a = 9 then some ⟨.mxf32, false, 1, false⟩
  else if w = 9 && isByteFloat a then some ⟨.mxf32, false, 2, false⟩
  else if isByteFloat w && a = 9 then some ⟨.mxf32, false, 1, false⟩
  else if (w = 0xA ∧ (a = 0xA ∨ a = 0xB)) ∨ (w = 0xB ∧ a = 0xA) then some ⟨.mxf32, false, 1, false⟩
  else if w = a ∧ w ≤ 2 then some ⟨.xf32, false, 1, false⟩
  else none

/-- K of a tile of D cell rows. -/
def tileK (w d : Nat) : Nat :=
  if w = 9 ∨ w = 0xC then 2 * d else if w = 1 ∨ w = 2 then d / 4 else if w = 0 then d / 32 else d

/-- D suits the formats: multiples of 4 and of 32 for wide weights, K a multiple of 32 under MX. -/
def tileOk (p : ArrayPair) (w d : Nat) : Bool :=
  if w = 1 ∨ w = 2 then d % 4 == 0
  else if w = 0 then d % 32 == 0
  else if p.kind = .mxf32 then tileK w d % 32 == 0
  else true

/-- Fields of xatype. -/
def wfmtOf (t : Word) : Nat := bitsOf t.toNat 3 0
def afmtOf (t : Word) : Nat := bitsOf t.toNat 7 4
def ofmtOf (t : Word) : Nat := bitsOf t.toNat 11 8

/-- The drain formats (R321). -/
def drainFormat (f : Nat) : Bool := f ≤ 4 || f == 0xB || f == 0xD

/-! ### Footprints (R323) -/

/-- Bytes of a packed row of n elements. -/
def rowBytes (f n : Nat) : Nat := (fmtBits f * n + 7) / 8

/-- Bytes of an activation row, its scales included (R316). -/
def activationBytes (f k : Nat) : Nat := rowBytes f k + if fmtMx f then k / 32 else 0

/-- Logical K of an XAMM: a sparse one covers 2D. -/
def ammK (w d : Nat) (sparse : Bool) : Nat := if sparse then 2 * d else tileK w d

/-- The offsets in own core memory, first and past the last, that an array instruction reads or writes. -/
def UnitOp.footprint : UnitOp → Option (Nat × Nat)
  | .aldw stride addr _ d n t =>
    let w := wfmtOf t
    let k := tileK w d
    let e := addr + (k - 1) * stride + rowBytes w n
    some (addr, if fmtMx w then max e (addr + (k + k / 32 - 1) * stride + n) else e)
  | .amm stride addr _ m _ _ sparse t d _ =>
    some (addr, addr + (m - 1) * stride + activationBytes (afmtOf t) (ammK (wfmtOf t) d sparse))
  | .adrain dst _ rows _ stride t => some (dst, dst + (rows - 1) * stride + rowBytes (ofmtOf t) 256)
  | _ => none

def overlap (a b : Option (Nat × Nat)) : Bool :=
  match a, b with
  | some (a, a'), some (b, b') => a < b' && b < a'
  | _, _ => false

/-! ### The checks at issue (R290, R326) -/

/-- RESERVED bits of xatype and xasig that are not zero. -/
def CoreSt.badArrayCsrs (x : CoreSt) : Bool := (x.csr 0x804).toNat ≥ 2 ^ 12 || badSig (x.csr 0x805)

/-- The offset in own core memory that an array operand names, in any form; past its end where it names none. -/
def arrayAddr (c : Nat) (w : Word) : Nat :=
  match target c w with
  | some (.chip o) => if isOwn c o then o - coreBase c else ownBytes c
  | _ => ownBytes c

/-- An instruction whose footprint leaves own core memory takes ADDR; any other one is queued. -/
def Chip.arrayIssue (s : Chip) (c : Nat) (op : UnitOp) (w : Word) : Chip :=
  match op.footprint with
  | some (a, e) =>
    if a ≥ ownBytes c ∨ e > ownBytes c then s.fault c .addr w else s.coreEnqueue c 1 op (sigOf ((s.core c).csr 0x805))
  | none => s.coreEnqueue c 1 op (sigOf ((s.core c).csr 0x805))

def ArraySt.shadowOf (a : ArraySt) (b : Nat) : Bool × BitVec 4 × Nat × Nat := Tab.get (false, 0, 0, 0) a.shadow b

/-- XALDW at issue. -/
def Chip.issueAldw (s : Chip) (c : Nat) (stride addr r : Word) : Chip :=
  let x := s.core c
  let t := x.csr 0x804
  let w := wfmtOf t
  let b := bitsOf r.toNat 1 0
  let d := bitsOf r.toNat 8 2 + 1
  let n := bitsOf r.toNat 16 9 + 1
  if c ≥ 256 ∨ x.badArrayCsrs ∨ r.toNat ≥ 2 ^ 17 then s.illegal c
  else match arrayPair w (afmtOf t) with
    | none => s.illegal c
    | some p =>
      if !(tileOk p w d) || (fmtMx w && stride.toNat < n) then s.illegal c
      else
        let op : UnitOp := .aldw stride.toNat (arrayAddr c addr) b d n t
        let room := x.unitRoom 1
        let s := s.arrayIssue c op addr
        s.when (room && (s.core c).kernel.isSome && !(s.core c).ended) fun s =>
          s.setCore c fun x => { x with array := { x.array with
            shadow := Tab.set (false, 0, 0, 0) x.array.shadow b (true, BitVec.ofNat 4 w, d, n) } }

/-- XAMM at issue. -/
def Chip.issueAmm (s : Chip) (c : Nat) (stride addr r : Word) : Chip :=
  let x := s.core c
  let t := x.csr 0x804
  let w := wfmtOf t
  let b := bitsOf r.toNat 1 0
  let m := bitsOf r.toNat 11 2 + 1
  let row := bitsOf r.toNat 21 12
  let accum := r.getLsbD 22
  let sparse := r.getLsbD 23
  let tag := x.array.shadowOf b
  let (d, n) := tag.2.2
  if c ≥ 256 ∨ x.badArrayCsrs ∨ r.toNat ≥ 2 ^ 24 then s.illegal c
  else match arrayPair w (afmtOf t) with
    | none => s.illegal c
    | some p =>
      let badSparse := sparse && (b % 2 == 1 || !p.sparse || d % 2 == 1 || x.array.shadowOf (b + 1) != tag)
      if !tag.1 || tag.2.1.toNat != w || !(tileOk p w d) || badSparse then s.illegal c
      else if row + m > 1024 then s.fault c .addr 0
      else s.arrayIssue c (.amm stride.toNat (arrayAddr c addr) b m row accum sparse t d n) addr

/-- XADRAIN at issue. -/
def Chip.issueAdrain (s : Chip) (c : Nat) (dst r stride : Word) : Chip :=
  let x := s.core c
  let t := x.csr 0x804
  let row := bitsOf r.toNat 9 0
  let rows := bitsOf r.toNat 19 10 + 1
  if c ≥ 256 ∨ x.badArrayCsrs ∨ r.toNat ≥ 2 ^ 21 ∨ !(drainFormat (ofmtOf t)) then s.illegal c
  else if row + rows > 1024 then s.fault c .addr 0
  else s.arrayIssue c (.adrain (arrayAddr c dst) row rows (r.getLsbD 20) stride.toNat t) dst

/-- XACLR at issue. -/
def Chip.issueAclr (s : Chip) (c rd : Nat) (r : Word) : Chip :=
  let x := s.core c
  let row := bitsOf r.toNat 9 0
  let rows := bitsOf r.toNat 19 10 + 1
  if c ≥ 256 ∨ rd ≠ 0 ∨ x.badArrayCsrs ∨ r.toNat ≥ 2 ^ 20 then s.illegal c
  else if row + rows > 1024 then s.fault c .addr 0
  else s.arrayIssue c (.aclr row rows) 0

/-! ### Start order (R323) -/

/-- The accumulator rows an instruction touches: first and past the last. -/
def UnitOp.accRows : UnitOp → Option (Nat × Nat)
  | .amm _ _ _ m row _ _ _ _ _ => some (row, row + m)
  | .adrain _ row rows _ _ _ => some (row, row + rows)
  | .aclr row rows => some (row, row + rows)
  | _ => none

/-- The banks an XAMM reads, or the one an XALDW loads. -/
def UnitOp.banksOf : UnitOp → List Nat
  | .aldw _ _ b _ _ _ => [b]
  | .amm _ _ b _ _ _ sparse _ _ _ => if sparse then [b, b + 1] else [b]
  | _ => []

/-- The engine of an instruction: 0 load, 1 compute, 2 drain. -/
def UnitOp.engine : UnitOp → Nat
  | .aldw _ _ _ _ _ _ => 0
  | .amm _ _ _ _ _ _ _ _ _ _ => 1
  | _ => 2

def UnitOp.sharesBank (a b : UnitOp) : Bool := a.banksOf.any (b.banksOf.contains ·)

/-- Whether an instruction has to wait until an earlier, uncompleted one completes. -/
def mustWait (i e : UnitOp) : Bool :=
  let drain := match e with
    | .adrain _ _ _ _ _ _ => true
    | _ => false
  match i.engine, e.engine with
  | 0, 0 => true
  | 0, 1 => i.sharesBank e
  | 0, _ => drain && overlap i.footprint e.footprint
  | 1, 0 => i.sharesBank e
  | 1, 1 => false
  | 1, _ => overlap i.accRows e.accRows || (drain && overlap i.footprint e.footprint)
  | _, 0 => overlap i.footprint e.footprint
  | _, 1 => overlap i.accRows e.accRows || overlap i.footprint e.footprint
  | _, _ => true

def execArrayInstrStart (core : Fin 264) (s : State) : Host.Outcome State Fault Refusal :=
  s.act fun c => c.when (!((c.core core.val).unitFallow.getLsbD 1)) fun c =>
    c.unitStart core.val 1 (fun i => (c.core core.val).arrayRun.all fun e => !(mustWait i.op e.op)) fun c _ => c

/-! ### Loading (R313–R315) -/

/-- The n element codes of b bits that bytes hold. -/
def elementsOf (b n : Nat) (bs : List Byte) : List Nat :=
  let v := leNat bs
  (List.range n).map fun i => v / 2 ^ (b * i) % 2 ^ b

/-- Rows of own core memory at a stride, and the first poisoned line met. -/
def Chip.ownRows (s : Chip) (c a stride n rows : Nat) : List (List Byte) × Option Nat :=
  let r := (List.range rows).map fun i => s.ownBytesAt c (a + i * stride) n
  (r.map (·.1), r.findSome? (·.2))

def Chip.setArray (s : Chip) (c : Nat) (f : ArraySt → ArraySt) : Chip := s.setCore c fun x => { x with array := f x.array }

/-- An XALDW completes: its bank and tag, or, with a poisoned line, a bank that is not loaded. -/
def Chip.aldwDone (s : Chip) (c : Nat) (i : UnitInstr) (stride addr b d n : Nat) (t : Word) : Chip :=
  let w := wfmtOf t
  let k := tileK w d
  let (rows, p) := s.ownRows c addr stride (rowBytes w n) k
  let (scales, p') := if fmtMx w then s.ownRows c (addr + k * stride) stride n (k / 32) else ([], none)
  match p, p' with
  | none, none =>
    let bank : Bank := ⟨true, BitVec.ofNat 4 w, d, n, rows.map (elementsOf (fmtBits w) n), scales.map (·.map (·.toNat))⟩
    (s.setArray c fun a => { a with banks := Tab.set Bank.empty a.banks b bank }).unitEnd c 1 i 0 .ok 0
  | q, q' =>
    (s.setArray c fun a => { a with banks := Tab.set Bank.empty a.banks b Bank.empty }).unitEnd c 1 i 2 .poisoned
      (ownForm (((q.orElse fun _ => q').getD 0)))

/-! ### Multiplying (R316–R320, R363–R365) -/

/-- The binary point of a FIXED pair (R317). -/
def fixedPoint (w a : Nat) : Nat :=
  let f (x : Nat) : Nat := if x = 3 then 9 else if x = 4 then 16 else 0
  f w + f a

/-- The pairs of weight and activation codes that meet in a column. -/
def columnPairs (bank index : Bank) (sparse : Bool) (a : List Nat) (n : Nat) : List (Nat × Nat) :=
  if sparse then
    (bank.rows.zip index.rows).zipIdx.map fun r =>
      (r.1.1.getD n 0, a.getD (4 * (r.2 / 2) + r.1.2.getD n 0 % 4) 0)
  else (bank.rows.zip a).map fun r => (r.1.getD n 0, r.2)

/-- The class of a FIXED entry after terms of a sum (R358, R363). -/
def classJoin (a b : AccClass) : AccClass :=
  match a, b with
  | .finite, x => x
  | x, .finite => x
  | .posInf, .posInf => .posInf
  | .negInf, .negInf => .negInf
  | _, _ => .nan

def classOfVal : FVal → AccClass
  | .fin _ _ _ => .finite
  | .inf n => if n then .negInf else .posInf
  | .nan _ => .nan

/-- The bound of a FIXED entry (R320). -/
def accBound : Int := 2 ^ 87 - 1

/-- A FIXED entry with the products of one activation row added, and whether it was clamped. A goes on
whatever the class (R363). -/
def fixedAdd (w a f : Nat) (old : AccEntry) (ps : List (Nat × Nat)) : AccEntry × Bool :=
  let vs := ps.map fun p => (FVal.mul (elemValue w p.1) (elemValue a p.2)).1
  let sum : Int := vs.foldl (fun n v => match v with
    | .fin neg m e => n + (if neg then -1 else 1) * (shiftInt m (e + f) : Int)
    | _ => n) (signed 88 old.bits.toNat)
  let r := min (max sum (-accBound)) accBound
  (⟨BitVec.ofInt 88 r, vs.foldl (fun c v => classJoin c (classOfVal v)) old.cls⟩, r != sum)

/-- An MXF32 entry with the blocks of one activation row added, one rounding for each (R364). -/
def mxAdd (w a : Nat) : List (List (Nat × Nat)) → List (Nat × Nat) → Nat → Nat
  | [], _, e => e
  | b :: bs, scales, e =>
    let (sw, sa) := scales.headD (127, 127)
    let dot := (exactSum .rne (b.map fun p => (FVal.mul (elemValue w p.1) (elemValue a p.2)).1)).1
    let term := if sw = 0xFF ∨ sa = 0xFF then FVal.nan false else dot.scale ((sw + sa : Int) - 254)
    mxAdd w a bs (scales.drop 1) (f32r (exactSum .rne [f32v e, term]).1)

/-- An XF32 entry with the tree sum of one activation row added, one rounding (R365). -/
def xfEntry (w a : Nat) (old : Nat) (ps : List (Nat × Nat)) : Nat :=
  match xfTree (if w = 0 then 2 else 5) (ps.map fun p => (elemValue w p.1, elemValue a p.2)) with
  | some t => (Fmt.xf40.round .rne (exactSum .rne [Fmt.xf40.decode old, t]).1).1
  | none => old

/-- What an XAMM does to a row: the row's tag, and whether it first starts from zero. -/
structure AmmRow where
  kind : AccKind
  integer : Bool
  fpos : Nat
  fresh : Bool

/-- One activation row in one column: the entry, and whether it was clamped. -/
def ammEntry (p : ArrayPair) (w a : Nat) (bank : Bank) (act : List Nat) (scales : List Nat) (pairs : List (Nat × Nat)) (n : Nat)
    (old : AccEntry) : AccEntry × Bool :=
  match p.kind with
  | .fixed => fixedAdd w a (fixedPoint w a) old pairs
  | .mxf32 =>
    let blocks := (List.range (act.length / 32)).map fun j => (pairs.drop (32 * j)).take 32
    let sc := (List.range blocks.length).map fun j =>
      (if fmtMx w then (bank.scales.getD j []).getD n 127 else 127, if fmtMx a then scales.getD j 127 else 127)
    (⟨BitVec.ofNat 88 (mxAdd w a blocks sc (old.bits.toNat % 2 ^ 32)), .finite⟩, false)
  | _ => (⟨BitVec.ofNat 88 (xfEntry w a (old.bits.toNat % 2 ^ 49) pairs), .finite⟩, false)

def ArraySt.row (a : ArraySt) (r : Nat) : AccRow := Tab.get AccRow.empty a.acc r
def ArraySt.setRow (a : ArraySt) (r : Nat) (v : AccRow) : ArraySt := { a with acc := Tab.set AccRow.empty a.acc r v }

/-- One activation row updates an accumulator row: the row, and how many entries were clamped. -/
def ammRow (p : ArrayPair) (w a : Nat) (bank index : Bank) (sparse accum : Bool) (act scales : List Nat) (old : AccRow) :
    AccRow × Nat :=
  let fresh := !accum || old.kind = .empty
  let es := (List.range bank.n).map fun n =>
    (n, ammEntry p w a bank act scales (columnPairs bank index sparse act n) n
      (if fresh then AccEntry.zero else Tab.get AccEntry.zero old.entries n))
  ({ kind := p.kind, poison := old.poison && !(fresh && bank.n == 256), integer := p.integer
     fpos := if p.kind = .fixed then fixedPoint w a else 0
     entries := es.foldl (fun t e => Tab.set AccEntry.zero t e.1 e.2.1) old.entries },
   (es.filter (·.2.2)).length)

/-- The rows of an XAMM in order: the array, the rows clamped with their counts, the rows done, and the fault that stopped it
(SUB, address). -/
def Chip.ammRows (s : Chip) (c : Nat) (p : ArrayPair) (stride addr b row : Nat) (accum sparse : Bool) (t : Word) (k : Nat) :
    Nat → Nat → ArraySt → List (Nat × Nat) → ArraySt × List (Nat × Nat) × Nat × Option (Nat × Nat)
  | 0, m, a, cl => (a, cl, m, none)
  | fuel + 1, m, a, cl =>
    let w := wfmtOf t
    let f := afmtOf t
    let (bs, bad) := s.ownBytesAt c (addr + m * stride) (activationBytes f k)
    let old := a.row (row + m)
    match bad with
    | some q => (a, cl, m, some (2, q))
    | none =>
      if accum ∧ old.kind ≠ .empty ∧ (old.kind ≠ p.kind ∨ old.integer ≠ p.integer ∨
          old.fpos ≠ (if p.kind = .fixed then fixedPoint w f else 0)) then (a, cl, m, some (1, addr + m * stride))
      else
        let act := elementsOf (fmtBits f) k bs
        let scales := (bs.drop (rowBytes f k)).map (·.toNat)
        let bank := Tab.get Bank.empty a.banks b
        let (r, n) := ammRow p w f bank (Tab.get Bank.empty a.banks (b + 1)) sparse accum act scales old
        Chip.ammRows s c p stride addr b row accum sparse t k fuel (m + 1) (a.setRow (row + m) r)
          (if n = 0 then cl else cl ++ [(row + m, n)])

/-- An XAMM completes, or stops at the row where it faulted; poison marks every row it was to write (R327, R328). -/
def Chip.ammDone (s : Chip) (c : Nat) (i : UnitInstr) (stride addr b m row : Nat) (accum sparse : Bool) (t : Word) (d : Nat) :
    Chip :=
  match arrayPair (wfmtOf t) (afmtOf t) with
  | none => s
  | some p =>
    let k := ammK (wfmtOf t) d sparse
    let (a, cl, n, bad) := s.ammRows c p stride addr b row accum sparse t k m 0 (s.core c).array []
    let s := s.setArray c fun _ => match bad with
      | some (2, _) => (List.range m).foldl (fun a j => a.setRow (row + j) { a.row (row + j) with poison := true }) a
      | _ => a
    let s := s.bump (O.arrayBusy + 256 * c) (n * p.cycles)
    let s := s.each cl fun s r =>
      (List.range r.2).foldl (fun s _ => (s.bump (O.accSaturations + 256 * c) 1).raiseLimited 0x4911 c [.u16 c, .u16 r.1]) s
    match bad with
    | none => s.unitEnd c 1 i 0 .ok 0
    | some (1, q) => s.unitEnd c 1 i 1 .refused (ownForm q)
    | some (_, q) => s.unitEnd c 1 i 2 .poisoned (ownForm q)

/-! ### Draining (R321, R322) -/

/-- An entry of a floating row as FP32. -/
def drainF32 (r : AccRow) (e : AccEntry) : Nat :=
  match r.kind with
  | .empty => 0
  | .fixed =>
    (match e.cls with
     | .finite =>
       let a := signed 88 e.bits.toNat
       f32r (.fin (decide (a < 0)) a.natAbs (-(r.fpos : Int)))
     | .posInf => Fmt.fp32.infBits false
     | .negInf => Fmt.fp32.infBits true
     | .nan => Fmt.fp32.qnan)
  | .mxf32 => e.bits.toNat % 2 ^ 32
  | .xf32 => f32r (Fmt.xf40.decode (e.bits.toNat % 2 ^ 49))

/-- An entry in the drain's format; none where its row cannot be drained so. -/
def drainEntry (f : Nat) (r : AccRow) (e : AccEntry) : Option Nat :=
  if f = 0xB ∨ f = 0xD then
    if r.kind = .empty then some 0
    else if r.kind = .fixed ∧ r.integer then
      let w := fmtBits f
      some (toTwos w (min (max (signed 88 e.bits.toNat) (intMin true w)) (intMax true w)))
    else none
  else if f = 0 then some (drainF32 r e)
  else some (roundTo f .rne (f32v (drainF32 r e))).1

/-- Element codes of b bits, packed. -/
def packCodes (b : Nat) (l : List Nat) : List Byte :=
  leBytes ((b * l.length + 7) / 8) (l.zipIdx.foldl (fun n e => n + e.1 % 2 ^ b * 2 ^ (b * e.2)) 0)

/-- The rows of an XADRAIN in order; the fault that stopped it, and whether a poisoned row was read (DEDUCED log 87). -/
def Chip.drainRows (c dst row : Nat) (clear : Bool) (stride f : Nat) : Nat → Nat → Bool → Chip → Chip × Option Nat × Bool
  | 0, _, p, s => (s, none, p)
  | fuel + 1, i, p, s =>
    let r := (s.core c).array.row (row + i)
    match (List.range 256).mapM fun n => drainEntry f r (Tab.get AccEntry.zero r.entries n) with
    | none => (s, some (dst + i * stride), p)
    | some codes =>
      let s := s.write (coreBase c + dst + i * stride) (packCodes (fmtBits f) codes) r.poison 0
      let s := if clear then s.setArray c fun a => a.setRow (row + i) AccRow.empty else s
      Chip.drainRows c dst row clear stride f fuel (i + 1) (p || r.poison) s

def Chip.drainDone (s : Chip) (c : Nat) (i : UnitInstr) (dst row rows : Nat) (clear : Bool) (stride : Nat) (t : Word) : Chip :=
  match Chip.drainRows c dst row clear stride (ofmtOf t) rows 0 false s with
  | (s, some q, _) => s.unitEnd c 1 i 1 .refused (ownForm q)
  | (s, none, true) => s.unitEnd c 1 i 2 .poisoned (ownForm dst)
  | (s, none, false) => s.unitEnd c 1 i 0 .ok 0

def Chip.aclrDone (s : Chip) (c : Nat) (i : UnitInstr) (row rows : Nat) : Chip :=
  (s.setArray c fun a => (List.range rows).foldl (fun a j => a.setRow (row + j) AccRow.empty) a).unitEnd c 1 i 0 .ok 0

/-- An array instruction completes: the oldest of its engine (R323, R324). -/
def Chip.arrayComplete (s : Chip) (c : Nat) (i : UnitInstr) : Chip :=
  let first := (s.core c).arrayRun.find? (·.op.engine == i.op.engine)
  s.when (first.any (·.id == i.id)) fun s =>
    match i.op with
    | .aldw stride addr b d n t => s.aldwDone c i stride addr b d n t
    | .amm stride addr b m row accum sparse t d _ => s.ammDone c i stride addr b m row accum sparse t d
    | .adrain dst row rows clear stride t => s.drainDone c i dst row rows clear stride t
    | .aclr row rows => s.aclrDone c i row rows
    | _ => s

/-! ### The commands -/

def execXaldw (core : Fin 264) (rd rs1 rs2 : BitVec 5) (s : State) : Host.Outcome State Fault Refusal :=
  s.act fun c => c.issue core.val 4 plain fun c =>
    let x := c.core core.val
    c.issueAldw core.val (x.rx rd) (x.rx rs1) (x.rx rs2)

def execXamm (core : Fin 264) (rd rs1 rs2 : BitVec 5) (s : State) : Host.Outcome State Fault Refusal :=
  s.act fun c => c.issue core.val 4 plain fun c =>
    let x := c.core core.val
    c.issueAmm core.val (x.rx rd) (x.rx rs1) (x.rx rs2)

def execXadrain (core : Fin 264) (rd rs1 rs2 : BitVec 5) (s : State) : Host.Outcome State Fault Refusal :=
  s.act fun c => c.issue core.val 4 plain fun c =>
    let x := c.core core.val
    c.issueAdrain core.val (x.rx rd) (x.rx rs1) (x.rx rs2)

def execXaclr (core : Fin 264) (rd rs1 _rs2 : BitVec 5) (s : State) : Host.Outcome State Fault Refusal :=
  s.act fun c => c.issue core.val 4 plain fun c => c.issueAclr core.val rd.toNat ((c.core core.val).rx rs1)

end Sys2Proof.Machine
end

