-- ==== Sys2Proof/Machine/Trans.lean ====
section
/-! DEFINITION. The transcendental functions of the vector engine (R340): special cases as the rule lists them, and every other
result any FP32 value within the rule's error bound of the exact one, which is computed here to 256 fraction bits. -/

namespace Sys2Proof.Machine

/-! ### Fixed point with 256 fraction bits -/

def fxOne : Int := 2 ^ 256
def fxMul (a b : Int) : Int := a * b / fxOne
def fxDiv (a b : Int) : Int := a * fxOne / b

/-- 1 + r/i · (1 + r/(i+1) · …) -/
def expSeries (r : Int) : Nat → Nat → Int
  | 0, _ => fxOne
  | fuel + 1, i => fxOne + fxMul r (expSeries r fuel (i + 1)) / i

/-- p/(2n+1) ± p·z²/(2n+3) + …: the series of artanh, or of arctan. -/
def arcSeries (alt : Bool) (z2 : Int) : Nat → Nat → Int → Int
  | 0, _, _ => 0
  | fuel + 1, n, p => p / (2 * n + 1) + arcSeries alt z2 fuel (n + 1) (if alt then -(fxMul p z2) else fxMul p z2)

def fxArtanh (z : Int) : Int := arcSeries false (fxMul z z) 90 0 z
def fxArctan (z : Int) : Int := arcSeries true (fxMul z z) 90 0 z
def fxLn2 : Int := 2 * fxArtanh (fxOne / 3)
def fxPi : Int := 16 * fxArctan (fxOne / 5) - 4 * fxArctan (fxOne / 239)

/-- e^x for |x| ≤ 300. -/
def fxExp (x : Int) : Int :=
  let k := x / fxLn2
  let t := expSeries (x - k * fxLn2) 64 1
  if k ≥ 0 then t * 2 ^ k.toNat else t / 2 ^ (-k).toNat

/-- ln (m × 2^e) for m > 0. -/
def fxLog (m : Nat) (e : Int) : Int :=
  let l := Nat.log2 m
  let y := (m : Int) * fxOne / 2 ^ l
  let (y, l) : Int × Int := if 2 * y ≥ 3 * fxOne then (y / 2, l + 1) else (y, l)
  (e + l) * fxLn2 + 2 * fxArtanh (fxDiv (y - fxOne) (y + fxOne))

/-- 1 − r²/(k(k+1)) · (1 − …) -/
def trigSeries (r2 : Int) : Nat → Nat → Int
  | 0, _ => fxOne
  | fuel + 1, k => fxOne - fxMul r2 (trigSeries r2 fuel (k + 2)) / (k * (k + 1) : Nat)

/-- The sine of x plus `turns` right angles. -/
def fxSin (x : Int) (turns : Int) : Int :=
  let half := fxPi / 2
  let q := (x + half / 2) / half
  let r := x - q * half
  let r2 := fxMul r r
  let sin := fxMul r (trigSeries r2 32 2)
  let cos := trigSeries r2 32 1
  match ((q + turns) % 4).toNat with
  | 0 => sin
  | 1 => cos
  | 2 => -sin
  | _ => -cos

/-- A finite value in fixed point, kept within ±300. -/
def fxOf (v : FVal) : Int :=
  let x := match v with
    | .fin n m e => (if n then -1 else 1) * (if e > 64 then 300 * fxOne else (shiftInt m (e + 256) : Int))
    | _ => 0
  min (max x (-300 * fxOne)) (300 * fxOne)

/-- A finite value in fixed point, however large. -/
def fxExact (v : FVal) : Int :=
  match v with
  | .fin n m e => (if n then -1 else 1) * (shiftInt m (e + 256) : Int)
  | _ => 0

/-- The exact value of a function at a finite operand, as mantissa and exponent; the operand is one that no special case
takes. -/
def transExact (op : Nat) (v : FVal) : Int × Int :=
  match op with
  | 0x20 => (fxExp (fxOf v), -256)
  | 0x21 =>
    (match v with
     | .fin _ m e => (fxLog m e, -256)
     | _ => (0, 0))
  | 0x23 =>
    (match v with
     | .fin _ m e =>
       let (m, e) := if e % 2 = 0 then (m, e) else (2 * m, e - 1)
       ((isqrt (2 ^ 400 / m) : Int), -200 - e / 2)
     | _ => (0, 0))
  | 0x25 => (fxSin (fxExact v) 0, -256)
  | 0x26 => (fxSin (fxExact v) 1, -256)
  | 0x27 =>
    let x := fxOf v
    let t := fxExp (2 * (if x < 0 then -(max x (-64 * fxOne)) else min x (64 * fxOne)))
    let r := fxDiv (t - fxOne) (t + fxOne)
    (if x < 0 then -r else r, -256)
  | _ =>
    let x := fxOf v
    let t := fxExp (if x < 0 then x else -x)
    (if x < 0 then fxDiv t (fxOne + t) else fxDiv fxOne (fxOne + t), -256)

/-! ### Results within an error bound -/

/-- The value of an FP32 magnitude; infinity counts as 2^128. -/
def magValue (mag : Nat) : Int × Int :=
  if mag = 0x7F800000 then (1, 128)
  else match f32v mag with
    | .fin _ m e => (m, e)
    | _ => (1, 1000)

/-- A dyadic's magnitude is within err units in the last place of |v|. -/
def withinUlps (err : Nat) (v : Int × Int) (mag : Nat) : Bool :=
  let a : Int × Int := (v.1.natAbs, v.2)
  let d := dyAdd (magValue mag) (-a.1, a.2)
  let ulp : Int := if v.1 = 0 then -149 else max ((Nat.log2 v.1.natAbs : Int) + v.2 - 23) (-149)
  !(dyLt (err, ulp) (d.1.natAbs, d.2))

/-- The FP32 value that a function gives where its exact value is v: the nearest one, or another within the bound. -/
def pickWithin (err : Nat) (v : Int × Int) (choice : Nat) : Nat :=
  let neg := v.1 < 0
  let near := f32r (FVal.ofDy false (v.1.natAbs, v.2))
  let mag := ((near : Int) + (choice % 5 : Nat) - 2).toNat
  let r := if mag ≤ 0x7F800000 && withinUlps err v mag then mag else near
  r + if neg then 2 ^ 31 else 0

/-- A transcendental other than VRCP and VSQRT on an FP32 operand: bits and flags (R340) (DESIGN CHOICE log 90). -/
def transcendental (op : Nat) (bits : Nat) : Nat × FFlags :=
  let v := f32v bits
  let nan : Nat × FFlags := (Fmt.fp32.qnan, FFlags.invalid)
  let free : FFlags :=
    let f := Config.transcendentalFlags op bits
    ⟨false, false, false, f / 2 % 2 == 1, f % 2 == 1⟩
  let within (err : Nat) : Nat × FFlags := (pickWithin err (transExact op v) (Config.transcendental op bits), free)
  match v with
  | .nan s => (Fmt.fp32.qnan, if s then FFlags.invalid else FFlags.none)
  | .inf n =>
    (match op with
     | 0x20 => (if n then 0 else Fmt.fp32.infBits false, FFlags.none)
     | 0x21 => if n then nan else (Fmt.fp32.infBits false, FFlags.none)
     | 0x23 => if n then nan else (0, FFlags.none)
     | 0x25 => nan
     | 0x26 => nan
     | 0x27 => (fone + if n then 2 ^ 31 else 0, FFlags.none)
     | _ => (if n then 0 else fone, FFlags.none))
  | .fin n m _ =>
    match op with
    | 0x20 =>
      if f32v (f32r (FVal.ofDy false (transExact op v))) = .inf false then
        (Fmt.fp32.infBits false, ⟨false, false, true, false, true⟩)
      else within 2
    | 0x21 =>
      if m = 0 then (Fmt.fp32.infBits true, ⟨false, true, false, false, false⟩) else if n then nan else within 2
    | 0x23 =>
      if m = 0 then (Fmt.fp32.infBits n, ⟨false, true, false, false, false⟩) else if n then nan else within 1
    | 0x25 =>
      if m = 0 then (bits, FFlags.none)
      else if dyLt (65536, 0) ((v.int.1.natAbs : Int), v.int.2) then (Config.transcendental op bits % 2 ^ 32, free)
      else within 2
    | 0x26 =>
      if dyLt (65536, 0) ((v.int.1.natAbs : Int), v.int.2) then (Config.transcendental op bits % 2 ^ 32, free) else within 2
    | 0x27 => if m = 0 then (bits, FFlags.none) else within 2
    | _ => within 2

end Sys2Proof.Machine
end

