-- ==== Sys2Proof/Machine/Vector.lean ====
section
/-! DEFINITION. The vector engine (11_vector_engine): the checks at issue, operands, element operations, conversions,
reductions, and execution in chunks with masks, traps and poison. -/

namespace Sys2Proof.Machine

/-! ### Instructions (R291, R336, R337) -/

def isF (f : Nat) : Bool := f ≤ 2
def isI (f : Nat) : Bool := f == 0xD || f == 0xE
def isM (f : Nat) : Bool := f ≤ 4 || f == 0xB || isI f

/-- The integer formats: sign and width. -/
def intFormat (f : Nat) : Option (Bool × Nat) :=
  match f with
  | 0xB => some (true, 8) | 0xC => some (true, 4) | 0xD => some (true, 32) | 0xE => some (false, 32) | _ => none

/-- Whether R337 lists a form for an operation: 0 VV, 1 VX, 2 VF, 3 V. -/
def vecForm (op form : Nat) : Bool :=
  if op = 0 then form == 1 || form == 2 || form == 3
  else if op ≤ 6 then form ≤ 2
  else if op ≤ 8 then form == 3
  else if op ≤ 0xD then form ≤ 1
  else if 0x10 ≤ op ∧ op ≤ 0x13 then form ≤ 2
  else if op = 0x18 then form == 3
  else if 0x20 ≤ op ∧ op ≤ 0x28 then form == 3
  else if 0x30 ≤ op ∧ op ≤ 0x32 then form == 3
  else if op = 0x38 then form == 1
  else if op = 0x3C ∨ op = 0x3D then form == 0
  else false

/-- The pairs of VCVT (R339). -/
def vcvtPair (a d : Nat) : Bool :=
  let fl (f : Nat) : Bool := f ≤ 4
  let it (f : Nat) : Bool := (intFormat f).isSome
  (fl a && fl d) || (isF a && it d) || (it a && isF d) || (it a && it d) || (a == 0 && fmtMx d) || (fmtMx a && d == 0)

/-- The formats an operation takes: element format and destination format. -/
def vecFormats (op form f d : Nat) : Bool :=
  if op = 0x18 then vcvtPair f d
  else if op = 0x38 then isF f && (d == 0 || d == 1)
  else
    let cls :=
      if op = 0 ∨ (9 ≤ op ∧ op ≤ 0xB) ∨ op = 0x13 ∨ op = 0x3C ∨ op = 0x3D then isM f
      else if op = 4 ∨ (0x20 ≤ op ∧ op ≤ 0x28) then isF f
      else if op = 0xC ∨ op = 0xD then isI f
      else isF f || isI f
    cls && (form != 2 || isF f)

/-- Operations that round by frm (R338–R340) (DEDUCED log 88). -/
def vecRounds (op f : Nat) : Bool :=
  (isF f && ((1 ≤ op && op ≤ 4) || op == 0x22 || op == 0x24)) || op == 0x18

def isCompare (op : Nat) : Bool := 0x10 ≤ op && op ≤ 0x12
def isReduction (op : Nat) : Bool := 0x30 ≤ op && op ≤ 0x32

/-- Fields of xvtype and xvcount. -/
def vfmt (t : Word) : Nat := bitsOf t.toNat 3 0
def vdfmt (t : Word) : Nat := bitsOf t.toNat 7 4
def vmasked (t : Word) : Bool := t.getLsbD 8
def vlen (n : Word) : Nat := if bitsOf n.toNat 15 0 = 0 then 65536 else bitsOf n.toNat 15 0

/-- Where an instruction's results go: the format of an element, or single bits of a compare. -/
def destBits (op f d : Nat) : Nat :=
  if isCompare op then 1
  else if op = 0x18 ∨ op = 0x38 then fmtBits d
  else if isReduction op then 32
  else fmtBits f

/-- The format of what is written, for its alignment. -/
def destFormat (op f d : Nat) : Nat :=
  if op = 0x18 ∨ op = 0x38 then d else if isReduction op ∧ isF f then 0 else f

/-! ### Footprints and the checks at issue (R333, R334, R348) -/

/-- Bytes of a vector of n elements. -/
def vectorBytes (f n : Nat) : Nat := rowLen f n + if fmtMx f then n / 32 else 0
where rowLen (f n : Nat) : Nat := (fmtBits f * n + 7) / 8

/-- A vector that an instruction names: its address, its bytes, the alignment it must have, and whether it is written. The
bases of VGATHER and VSCATTER are checked as one element here. -/
structure VecRange where
  addr : Word
  len : Nat
  align : Nat
  written : Bool

/-- The alignment of a plain vector. -/
def vecAlign (f : Nat) : Nat := if fmtMx f then 1 else if fmtBits f = 32 then 4 else if fmtBits f = 16 then 2 else 1

/-- The vectors of an instruction. -/
def vecRanges (op form : Nat) (rd rs1 b : Word) (n f d : Nat) (masked : Bool) (mask : Word) : List VecRange :=
  let esz := fmtBits f / 8
  let src : List VecRange :=
    if op = 0 ∧ form ≠ 3 then []
    else if op = 0x3C then [⟨rs1, esz, vecAlign f, false⟩]
    else [⟨rs1, vectorBytes f n, vecAlign f, false⟩]
  let second : List VecRange :=
    if form ≠ 0 then []
    else if op = 0x3C ∨ op = 0x3D then [⟨b, 4 * n, 4, false⟩]
    else [⟨b, vectorBytes f n, vecAlign f, false⟩]
  let dst : List VecRange :=
    if isCompare op then [⟨rd, (n + 7) / 8, 1, true⟩]
    else if isReduction op then [⟨rd, if isF f then 4 else fmtBits f / 8, vecAlign (destFormat op f d), true⟩]
    else if op = 0x3D then [⟨rd, esz, vecAlign f, true⟩]
    else [⟨rd, vectorBytes (destFormat op f d) n, vecAlign (destFormat op f d), true⟩]
  let msk : List VecRange := if masked ∨ op = 0x13 then [⟨mask, (n + 7) / 8, 1, false⟩] else []
  src ++ second ++ dst ++ msk

/-- A vector instruction at issue: its checks, then its queue. -/
def Chip.issueVec (s : Chip) (c op form : Nat) (rd rs1 rs2 : BitVec 5) : Chip :=
  let x := s.core c
  let t := x.csr 0x801
  let f := vfmt t
  let d := vdfmt t
  let n := vlen (x.csr 0x800)
  let b := if form = 2 then x.rf rs2 else x.rx rs2
  let mx := op == 0x18 && (fmtMx f || fmtMx d)
  let illegal := form > 3 || !(vecForm op form) || (form == 3 && rs2 != 0) || (op == 0 && form != 3 && rs1 != 0) ||
    !(vecFormats op form f d) || t.toNat ≥ 2 ^ 9 || (x.csr 0x800).toNat ≥ 2 ^ 16 || badSig (x.csr 0x803) ||
    (mx && n % 32 != 0) || (vecRounds op f && x.frm.toNat > 4)
  if illegal then s.illegal c
  else
    let ranges := vecRanges op form (x.rx rd) (x.rx rs1) b n f d (vmasked t) (x.csr 0x802)
    let out (r : VecRange) : Bool := match ownOffset c r.addr with
      | some o => o + r.len > ownBytes c
      | none => true
    match ranges.find? out with
    | some r => s.fault c .addr r.addr
    | none =>
      match ranges.find? fun r => r.addr.toNat % r.align != 0 with
      | some r => s.fault c .align r.addr
      | none =>
        s.coreEnqueue c 2 (.vec op form (x.rx rd) (x.rx rs1) b (x.csr 0x800) t (x.csr 0x802) x.frm (x.csr 0x809)
          (BitVec.ofNat 8 (s.obj O.vecTrapEn))) (sigOf (x.csr 0x803))

/-- Offsets in own core memory that a vector instruction touches; the targets of a gather or a scatter may lie anywhere
above their base. -/
def UnitOp.vecTouches : UnitOp → List (Nat × Nat × Bool)
  | .vec op form rd rs1 b vc t m _ _ _ =>
    (vecRanges op form rd rs1 b (vlen vc) (vfmt t) (vdfmt t) (vmasked t) m).map fun r =>
      let o := r.addr.toNat % 2 ^ 24
      let far := (op = 0x3C ∧ r.addr = rs1 ∧ !r.written) ∨ (op = 0x3D ∧ r.written)
      (o, if far then 2 ^ 24 else o + r.len, r.written)
  | _ => []

/-- An instruction overlaps what an earlier, uncompleted one writes (R350). -/
def vecWaits (i e : UnitOp) : Bool :=
  e.vecTouches.any fun w => w.2.2 && i.vecTouches.any fun r => r.1 < w.2.1 && w.1 < r.2.1

def execVectorInstrStart (core : Fin 264) (s : State) : Host.Outcome State Fault Refusal :=
  s.act fun c => c.when (!((c.core core.val).unitFallow.getLsbD 2)) fun c =>
    c.unitStart core.val 2 (fun i => (c.core core.val).vectorRun.all fun e => !(vecWaits i.op e.op)) fun c _ => c

/-! ### Element operations (R337–R340) -/

/-- A rounded result with its flags and those of the exact operation. -/
def finish (f : Nat) (rm : RMode) (v : FVal × FFlags) : Nat × FFlags :=
  let (r, fl) := roundTo f rm v.1
  (r, fl.join v.2)

def flip (f a : Nat) : Nat := a ^^^ 2 ^ (fmtBits f - 1)

/-- The transcendentals on an element of class F: computed in FP32, rounded once more for a narrow element. -/
def vecTrans (op f : Nat) (rm : RMode) (a : Nat) : Nat × FFlags :=
  let v := elemValue f a
  let (r, fl) : Nat × FFlags :=
    if op = 0x22 then Fmt.fp32.div rm (f32v fone) v
    else if op = 0x24 then Fmt.fp32.sqrt rm v
    else transcendental op (match v with
      | .nan s => if s then Fmt.fp32.qnan - 2 ^ 21 else Fmt.fp32.qnan
      | v => f32r v)
  if f = 0 then (r, fl)
  else
    let (q, fl') := roundTo f .rne (f32v r)
    (q, fl.join fl')

/-- One element of an arithmetic, logical or compare operation; `d` is the old destination element. A compare gives 1 or 0. -/
def vecElem (op f : Nat) (rm : RMode) (a b d : Nat) : Nat × FFlags :=
  let w := fmtBits f
  let va := elemValue f a
  let vb := elemValue f b
  let none := FFlags.none
  let less (x y : Nat) : Bool := if f = 0xD then signed 32 x < signed 32 y else x < y
  match op with
  | 0x00 => (a, none)
  | 0x01 => if isF f then finish f rm (FVal.add rm va vb) else ((a + b) % 2 ^ 32, none)
  | 0x02 => if isF f then finish f rm (FVal.add rm va vb.negate) else ((a + (2 ^ 32 - b % 2 ^ 32)) % 2 ^ 32, none)
  | 0x03 => if isF f then finish f rm (FVal.mul va vb) else (a * b % 2 ^ 32, none)
  | 0x04 => finish f rm (FVal.fma rm va vb (elemValue f d))
  | 0x05 => if isF f then minMax f false a b else (if less b a then b else a, none)
  | 0x06 => if isF f then minMax f true a b else (if less a b then b else a, none)
  | 0x07 =>
    if isF f then (a % 2 ^ (w - 1), none)
    else if f = 0xD ∧ signed 32 a < 0 then ((2 ^ 32 - a % 2 ^ 32) % 2 ^ 32, none) else (a, none)
  | 0x08 => if isF f then (flip f a, none) else ((2 ^ 32 - a % 2 ^ 32) % 2 ^ 32, none)
  | 0x09 => (a &&& b, none)
  | 0x0A => (a ||| b, none)
  | 0x0B => (a ^^^ b, none)
  | 0x0C => (if b ≥ 32 then 0 else a * 2 ^ b % 2 ^ 32, none)
  | 0x0D =>
    if f = 0xD then (toTwos 32 (signed 32 a / 2 ^ (min b 32)), none) else (if b ≥ 32 then 0 else a / 2 ^ b, none)
  | 0x10 => if isF f then let r := fcompare .eq va vb; (r.1.toNat, r.2) else ((a == b).toNat, none)
  | 0x11 => if isF f then let r := fcompare .lt va vb; (r.1.toNat, r.2) else ((less a b).toNat, none)
  | 0x12 => if isF f then let r := fcompare .le va vb; (r.1.toNat, r.2) else ((!(less b a)).toNat, none)
  | _ => vecTrans op f rm a

/-- VCVT between plain formats (R339). -/
def vecConvert (f d : Nat) (rm : RMode) (a : Nat) : Nat × FFlags :=
  match intFormat f, intFormat d with
  | some _, some (sg, w) =>
    let i := match elemValue f a with
      | .fin n m _ => if n then -(m : Int) else m
      | _ => 0
    (toTwos w (min (max i (intMin sg w)) (intMax sg w)), FFlags.none)
  | some _, none => roundTo d rm (elemValue f a)
  | none, some (sg, w) =>
    let (i, fl) := fpToInt rm sg w (elemValue f a)
    (toTwos w i, fl)
  | none, none => roundTo d rm (elemValue f a)

/-- VACCSR: the exact sum rounded once by the random bits (R342, R368). -/
def vecAccSr (f d : Nat) (u : Nat) (a old : Nat) : Nat × FFlags :=
  let (v, fl) := exactSum .rne [elemValue f a, elemValue d old]
  let fm := if d = 0 then Fmt.fp32 else Fmt.bf16
  match v with
  | .fin n m e =>
    let (r, fl') := fm.roundSr u n m e
    (r, fl.join fl')
  | v =>
    let (r, fl') := fm.round .rne v
    (r, fl.join fl')

/-- A partial of a reduction with the flags raised on the way to it. -/
abbrev Partial := Nat × FFlags

/-- The step of a reduction: FP32 for class F, the source format for class I (R341). -/
def reduceStep (op f : Nat) (a b : Partial) : Partial :=
  let fl := a.2.join b.2
  if isF f then
    let (r, g) := if op = 0x30 then finish 0 .rne (FVal.add .rne (f32v a.1) (f32v b.1)) else minMax 0 (op == 0x31) a.1 b.1
    (r, fl.join g)
  else
    let less (x y : Nat) : Bool := if f = 0xD then signed 32 x < signed 32 y else x < y
    let r := if op = 0x30 then (a.1 + b.1) % 2 ^ 32
      else if op = 0x31 then (if less a.1 b.1 then b.1 else a.1)
      else if less b.1 a.1 then b.1 else a.1
    (r, fl)

/-- What a reduction of no element gives. -/
def reduceEmpty (op f : Nat) : Nat :=
  if op = 0x30 then 0
  else if isF f then Fmt.fp32.infBits (op == 0x31)
  else if f = 0xD then (if op = 0x31 then 2 ^ 31 else 2 ^ 31 - 1)
  else if op = 0x31 then 0 else 2 ^ 32 - 1

/-- An element of class F as FP32, exactly; a NaN keeps whether it signals. -/
def widen (f a : Nat) : Nat :=
  if f = 0 then a
  else match elemValue f a with
    | .nan s => if s then Fmt.fp32.qnan - 2 ^ 21 else Fmt.fp32.qnan
    | v => f32r v

/-! ### Reading and writing vectors -/

/-- The element at bit `pos` of own core memory, with its width: its code, and the first poisoned line it lies in. -/
def Chip.vecRead (s : Chip) (c pos w : Nat) : Nat × Option Nat :=
  let a := pos / 8
  let n := (pos + w - 1) / 8 - a + 1
  let (bs, p) := s.ownBytesAt c a n
  (leNat bs / 2 ^ (pos % 8) % 2 ^ w, p)

/-- A result: its place in bits, its width, its code, and whether it comes from a poisoned source. -/
structure VecResult where
  pos : Nat
  width : Nat
  code : Nat
  poison : Bool

/-- The bytes that results leave, by own offset, over the bytes that are there. -/
def resultBytes (old : Nat → Byte) (rs : List VecResult) : Tab (Byte × Bool) :=
  rs.foldl (fun t r =>
    let a := r.pos / 8
    let n := (r.pos + r.width - 1) / 8 - a + 1
    let now := (List.range n).map fun i => Tab.get (old (a + i), false) t (a + i)
    let v := setBits (leNat (now.map (·.1))) (r.pos % 8 + r.width - 1) (r.pos % 8) r.code
    (leBytes n v).zipIdx.foldl (fun t b => Tab.insert t (a + b.2) (b.1, r.poison || (now.getD b.2 (0, false)).2)) t) []

/-- Results are written: a line written whole takes their mark, a line written in part is poisoned by one that is. -/
def Chip.vecWrite (s : Chip) (c : Nat) (rs : List VecResult) : Chip :=
  let base := coreBase c
  let bytes := resultBytes (fun a => s.byte (base + a)) rs
  let lines := (bytes.map (·.1 / 64)).eraseDups
  s.each lines fun s l =>
    let here := bytes.filter fun b => b.1 / 64 == l
    let p := here.any (·.2.2)
    if here.length = 64 then s.putLine (base + 64 * l) (here.map (·.2.1)) p
    else s.each here fun s b => s.putLine (base + b.1) [b.2.1] p

/-! ### Execution in chunks (R343–R347) -/

/-- A vector instruction at work: its operands decoded. -/
structure VecRun where
  op : Nat
  form : Nat
  /-- own offsets of d, a, and of the second vector -/
  d : Nat
  a : Nat
  b : Nat
  /-- the second operand as a scalar code -/
  scalar : Nat
  /-- VACCSR: the element index of element 0 -/
  index : Word
  n : Nat
  f : Nat
  df : Nat
  masked : Bool
  mask : Nat
  rm : RMode
  srtp : Word
  seed : Word
  trap : Nat

/-- The scalar of VX and VF (R335). -/
def scalarOf (form f : Nat) (b : Word) : Nat :=
  if form = 2 then (if f = 0 then unbox32 b else (roundTo f .rne (f32v (unbox32 b))).1) else b.toNat % 2 ^ fmtBits f

def UnitOp.vecRun (s : Chip) : UnitOp → Option VecRun
  | .vec op form rd rs1 b vc t m rm srtp trap =>
    some { op := op, form := form, d := rd.toNat % 2 ^ 24, a := rs1.toNat % 2 ^ 24, b := b.toNat % 2 ^ 24
           scalar := scalarOf form (vfmt t) b, index := b, n := vlen vc, f := vfmt t, df := vdfmt t
           masked := vmasked t && op != 0x13, mask := m.toNat % 2 ^ 24, rm := (RMode.ofCode rm.toNat).getD .rne, srtp := srtp
           seed := BitVec.ofNat 64 (s.obj O.srSeed), trap := trap.toNat }
  | _ => none

/-- How an active element comes out. -/
structure ElemOut where
  i : Nat
  results : List VecResult
  flags : FFlags
  /-- a NaN operand, in an instruction that traps on one -/
  nan : Bool
  /-- the index element, where it is out of bounds -/
  bounds : Option Nat
  /-- the first poisoned source line read -/
  poison : Option Nat
  /-- for a reduction: the element's partial -/
  part : Option Partial

/-- The instructions that no NaN operand traps (R345). -/
def copies (op : Nat) : Bool :=
  op == 0 || (7 ≤ op && op ≤ 0xB) || op == 0x13 || op == 0x3C || op == 0x3D

/-- Bit i of the mask at an own offset. -/
def Chip.maskBit (s : Chip) (c mask i : Nat) : Bool × Option Nat :=
  let (v, p) := s.vecRead c (8 * mask + i) 1
  (v == 1, p)

/-- One active element of an instruction other than an MX conversion. -/
def Chip.vecElemOut (s : Chip) (c : Nat) (v : VecRun) (maskPoison : Option Nat) (i : Nat) : ElemOut :=
  let w := fmtBits v.f
  let isNan (f x : Nat) : Bool := (intFormat f).isNone && (elemValue f x).isNan
  let (a, pa) := if v.op = 0 ∧ v.form ≠ 3 then (v.scalar, none) else s.vecRead c (8 * v.a + w * i) w
  if v.op = 0x3C ∨ v.op = 0x3D then
    let (k, pk) := s.vecRead c (8 * v.b + 32 * i) 32
    let base := if v.op = 0x3C then v.a else v.d
    if base + (k + 1) * (w / 8) > ownBytes c then ⟨i, [], FFlags.none, false, some (v.b + 4 * i), none, none⟩
    else
      let (x, px) := if v.op = 0x3C then s.vecRead c (8 * v.a + w * k) w else (a, pa)
      let p := maskPoison.orElse fun _ => if v.op = 0x3C then px.orElse fun _ => pk else px.orElse fun _ => pk
      ⟨i, [⟨8 * v.d + w * (if v.op = 0x3C then i else k), w, x, p.isSome⟩], FFlags.none, false, none, p, none⟩
  else
    let (b, pb) := if v.form = 0 then s.vecRead c (8 * v.b + w * i) w else (v.scalar, none)
    let dw := destBits v.op v.f v.df
    let reads := v.op = 4 ∨ v.op = 0x38
    let (d, pd) := if reads then s.vecRead c (8 * v.d + dw * i) dw else (0, none)
    let p := maskPoison.orElse fun _ => pa.orElse fun _ => pb.orElse fun _ => pd
    let nan := !(copies v.op) && (isNan v.f a || (v.form != 3 && v.op != 0x38 && isNan v.f b) ||
      (reads && isNan (if v.op = 4 then v.f else v.df) d))
    if isReduction v.op then
      ⟨i, [], FFlags.none, nan, none, p, some (if isF v.f then widen v.f a else a, FFlags.none)⟩
    else
      let (r, fl) : Nat × FFlags :=
        if v.op = 0 ∧ v.form ≠ 3 then (v.scalar, FFlags.none)
        else if v.op = 0x13 then (if (s.maskBit c v.mask i).1 then a else b, FFlags.none)
        else if v.op = 0x18 then vecConvert v.f v.df v.rm a
        else if v.op = 0x38 then
          vecAccSr v.f v.df (srBits v.seed (v.srtp.setWidth 32) (v.index + BitVec.ofNat 64 i) ((v.srtp >>> 32).setWidth 32)).toNat
            a d
        else vecElem v.op v.f v.rm a b d
      ⟨i, [⟨8 * v.d + dw * i, dw, r, p.isSome⟩], fl, nan, none, p, none⟩

/-- The bytes of a vector's elements, where its scales begin. -/
def elemBytes (f n : Nat) : Nat := (fmtBits f * n + 7) / 8

/-- The first poisoned line among reads. -/
def firstPoison (l : List (Nat × Option Nat)) : Option Nat := l.findSome? (·.2)

/-- A block of 32 elements of a conversion from FP32 to an MX format; `act` are its active elements (R339, R361). The scale
counts as part of the lowest active element's result (DEDUCED log 91). -/
def Chip.vecToMx (s : Chip) (c : Nat) (v : VecRun) (j : Nat) (act : List (Nat × Option Nat)) : List ElemOut :=
  let w := fmtBits v.df
  let src := act.map fun e => (e.1, s.vecRead c (8 * v.a + 32 * e.1) 32)
  let (x, codes, _) := mxEncode v.df v.rm (src.map fun e => some (f32v e.2.1))
  let bad := firstPoison ((act.map fun e => (0, e.2)) ++ src.map (·.2))
  (src.zip (codes.zip act)).zipIdx.map fun q =>
    let e := q.1.1
    let val := f32v e.2.1
    let (_, fl) := if x = 0xFF then (0, if val.isSnan then FFlags.invalid else FFlags.none)
      else mxElem v.df v.rm ((x : Int) - 127) val
    let scale : List VecResult :=
      if q.2 = 0 then [⟨8 * (v.d + elemBytes v.df v.n + j), 8, x, bad.isSome⟩] else []
    ⟨e.1, ⟨8 * v.d + w * e.1, w, q.1.2.1.getD 0, bad.isSome⟩ :: scale, fl, val.isNan, none,
     (q.1.2.2.2.orElse fun _ => e.2.2), none⟩

/-- One element of a conversion from an MX format to FP32; a block under scale 0xFF raises NV once, on its lowest active
element (R362). -/
def Chip.vecFromMx (s : Chip) (c : Nat) (v : VecRun) (first : Bool) (maskPoison : Option Nat) (i : Nat) : ElemOut :=
  let w := fmtBits v.f
  let (a, pa) := s.vecRead c (8 * v.a + w * i) w
  let (x, px) := s.vecRead c (8 * (v.a + elemBytes v.f v.n + i / 32)) 8
  let (r, fl) := mxDecode v.f v.rm x a
  let p := maskPoison.orElse fun _ => pa.orElse fun _ => px
  ⟨i, [⟨8 * v.d + 32 * i, 32, r, p.isSome⟩], if x = 0xFF && !first then FFlags.none else fl, (mxValue v.f x a).isNan, none, p,
   none⟩

/-- The active elements of a chunk as they come out; VSEL's selector counts as a source. -/
def Chip.vecChunk (s : Chip) (c : Nat) (v : VecRun) (j : Nat) : List ElemOut :=
  let els := (List.range (min 256 (v.n - 256 * j))).map (256 * j + ·)
  let act : List (Nat × Option Nat) :=
    if v.masked then els.filterMap fun i =>
      let (b, p) := s.maskBit c v.mask i
      if b then some (i, p) else none
    else els.map fun i => (i, if v.op = 0x13 then (s.maskBit c v.mask i).2 else none)
  if v.op = 0x18 && fmtMx v.df then
    (List.range 8).flatMap fun k => s.vecToMx c v (8 * j + k) (act.filter fun e => e.1 / 32 == 8 * j + k)
  else if v.op = 0x18 && fmtMx v.f then
    act.map fun e => s.vecFromMx c v ((act.find? fun o => o.1 / 32 == e.1 / 32).any (·.1 == e.1)) e.2 e.1
  else act.map fun e => s.vecElemOut c v e.2 e.1

/-- How an instruction has gone so far. -/
structure VecState where
  chip : Chip
  flags : FFlags
  lanes : List (Option Partial)
  poison : Option Nat
  /-- SUB and address of the fault that stopped it -/
  fault : Option (Nat × Nat)

/-- The trap an element takes, if any: NAN_TRAP before FP_TRAP (DEDUCED log 63). -/
def trapOf (trap : Nat) (nan : Bool) (f : FFlags) : Option Nat :=
  if trap / 32 % 2 = 1 ∧ nan then some 2
  else if (trap % 32) &&& f.bits.toNat ≠ 0 then some 1
  else none

/-- A partial whose flags so far are forgotten. -/
def clearPart (p : Option Partial) : Option Partial := p.map fun q => (q.1, FFlags.none)

/-- The address that a trap names: the destination element, or d for a reduction. -/
def VecRun.trapAddr (v : VecRun) (i : Nat) : Nat :=
  if isReduction v.op then v.d else (8 * v.d + destBits v.op v.f v.df * i) / 8

/-- The elements of a chunk enter the lanes; element e of lane e mod 256. The flags its combination raises are the
element's. -/
def enterLanes (v : VecRun) (lanes : List (Option Partial)) (outs : List ElemOut) :
    List (Option Partial) × List (Nat × FFlags) :=
  outs.foldl (fun (r : List (Option Partial) × List (Nat × FFlags)) o =>
    let lane := o.i % 256
    let m := meet (reduceStep v.op v.f) (clearPart (nth none r.1 lane)) o.part
    (setAt r.1 lane m, r.2 ++ [(o.i, match m with
      | some p => p.2
      | none => FFlags.none)])) (lanes, [])

/-- One chunk. A reduction's last chunk also combines the lanes and writes the result. -/
def VecRun.chunk (c : Nat) (v : VecRun) (st : VecState) (j : Nat) : VecState :=
  if st.fault.isSome then st
  else
    let outs := st.chip.vecChunk c v j
    let last := 256 * (j + 1) ≥ v.n
    let red := isReduction v.op
    let (lanes, laneFlags) := if red then enterLanes v st.lanes outs else (st.lanes, [])
    let root := if red && last then treeRoot (reduceStep v.op v.f) 8 (lanes.map clearPart) else none
    let flagsOf (o : ElemOut) : FFlags := if red then ((laneFlags.find? (·.1 == o.i)).map (·.2)).getD FFlags.none else o.flags
    let bad := (outs.mergeSort fun a b => a.i ≤ b.i).findSome? fun o =>
      match o.bounds with
      | some q => some (3, q)
      | none => (trapOf v.trap o.nan (flagsOf o)).map fun sub => (sub, v.trapAddr o.i)
    let rootFlags := match root with
      | some p => p.2
      | none => FFlags.none
    let bad := match bad with
      | some b => some b
      | none => (trapOf v.trap false rootFlags).map fun sub => (sub, v.d)
    match bad with
    | some b => { st with fault := some b }
    | none =>
      let poison := st.poison.orElse fun _ => outs.findSome? (·.poison)
      let results :=
        if red then
          (if last then
            [(⟨8 * v.d, 32, (match root with
              | some p => p.1
              | none => reduceEmpty v.op v.f), poison.isSome⟩ : VecResult)]
           else [])
        else outs.flatMap (·.results)
      { chip := st.chip.vecWrite c results, lanes := lanes, poison := poison, fault := none
        flags := (outs.foldl (fun f o => f.join (flagsOf o)) st.flags).join rootFlags }

/-- Elements per cycle (R349). -/
def VecRun.rate (v : VecRun) : Nat :=
  if (0x20 ≤ v.op && v.op ≤ 0x28) || v.op = 0x3C || v.op = 0x3D then 64
  else if fmtBits v.f > 16 || v.op = 0x38 || (v.op = 0x18 && (fmtBits v.df > 16 || fmtMx v.f || fmtMx v.df)) then 256
  else 512

/-- A vector instruction completes: the oldest of the engine. Its chunks run in order, its flags accrue, and poison that an
active element read faults it at its end (DEDUCED log 89) (DESIGN CHOICE log 92). -/
def Chip.vecComplete (s : Chip) (c : Nat) (i : UnitInstr) : Chip :=
  s.when ((s.core c).vectorRun.head?.any (·.id == i.id)) fun s =>
    match i.op.vecRun s with
    | none => s
    | some v =>
      let st := (List.range ((v.n + 255) / 256)).foldl (VecRun.chunk c v)
        ⟨s, FFlags.none, List.replicate 256 none, none, none⟩
      let s := st.chip.setCore c fun x => x.accrue st.flags
      let s := if c < 256 then s.bump (O.vecBusy + 256 * c) ((v.n + v.rate - 1) / v.rate) else s
      match st.fault, st.poison with
      | some (sub, a), _ =>
        let s := if c < 256 ∧ sub ≠ 3 then s.bump (O.vecTraps + 256 * c) 1 else s
        s.unitEnd c 2 i sub .refused (ownForm a)
      | none, some a => s.unitEnd c 2 i 4 .poisoned (ownForm (a / 64 * 64))
      | none, none => s.unitEnd c 2 i 0 .ok 0

end Sys2Proof.Machine
end

