-- ==== Sys2Proof/Machine/VectorOps.lean ====
section
/-! DEFINITION. The vector instructions, each by its FUNCT7 of R337. -/

namespace Sys2Proof.Machine

/-- A vector instruction of a core: it issues by R334 and enters the vector engine's queue. -/
def vecAttempt (core : Fin 264) (op : Nat) (form : BitVec 3) (rd rs1 rs2 : BitVec 5) (s : State) :
    Host.Outcome State Fault Refusal :=
  s.act fun c => c.issue core.val 4 plain fun c => c.issueVec core.val op form.toNat rd rs1 rs2

def execVcopy (core : Fin 264) (form : BitVec 3) (rd rs1 rs2 : BitVec 5) (s : State) : Host.Outcome State Fault Refusal :=
  vecAttempt core 0x00 form rd rs1 rs2 s

def execVadd (core : Fin 264) (form : BitVec 3) (rd rs1 rs2 : BitVec 5) (s : State) : Host.Outcome State Fault Refusal :=
  vecAttempt core 0x01 form rd rs1 rs2 s

def execVsub (core : Fin 264) (form : BitVec 3) (rd rs1 rs2 : BitVec 5) (s : State) : Host.Outcome State Fault Refusal :=
  vecAttempt core 0x02 form rd rs1 rs2 s

def execVmul (core : Fin 264) (form : BitVec 3) (rd rs1 rs2 : BitVec 5) (s : State) : Host.Outcome State Fault Refusal :=
  vecAttempt core 0x03 form rd rs1 rs2 s

def execVfma (core : Fin 264) (form : BitVec 3) (rd rs1 rs2 : BitVec 5) (s : State) : Host.Outcome State Fault Refusal :=
  vecAttempt core 0x04 form rd rs1 rs2 s

def execVmin (core : Fin 264) (form : BitVec 3) (rd rs1 rs2 : BitVec 5) (s : State) : Host.Outcome State Fault Refusal :=
  vecAttempt core 0x05 form rd rs1 rs2 s

def execVmax (core : Fin 264) (form : BitVec 3) (rd rs1 rs2 : BitVec 5) (s : State) : Host.Outcome State Fault Refusal :=
  vecAttempt core 0x06 form rd rs1 rs2 s

def execVabs (core : Fin 264) (form : BitVec 3) (rd rs1 rs2 : BitVec 5) (s : State) : Host.Outcome State Fault Refusal :=
  vecAttempt core 0x07 form rd rs1 rs2 s

def execVneg (core : Fin 264) (form : BitVec 3) (rd rs1 rs2 : BitVec 5) (s : State) : Host.Outcome State Fault Refusal :=
  vecAttempt core 0x08 form rd rs1 rs2 s

def execVand (core : Fin 264) (form : BitVec 3) (rd rs1 rs2 : BitVec 5) (s : State) : Host.Outcome State Fault Refusal :=
  vecAttempt core 0x09 form rd rs1 rs2 s

def execVor (core : Fin 264) (form : BitVec 3) (rd rs1 rs2 : BitVec 5) (s : State) : Host.Outcome State Fault Refusal :=
  vecAttempt core 0x0A form rd rs1 rs2 s

def execVxor (core : Fin 264) (form : BitVec 3) (rd rs1 rs2 : BitVec 5) (s : State) : Host.Outcome State Fault Refusal :=
  vecAttempt core 0x0B form rd rs1 rs2 s

def execVshl (core : Fin 264) (form : BitVec 3) (rd rs1 rs2 : BitVec 5) (s : State) : Host.Outcome State Fault Refusal :=
  vecAttempt core 0x0C form rd rs1 rs2 s

def execVshr (core : Fin 264) (form : BitVec 3) (rd rs1 rs2 : BitVec 5) (s : State) : Host.Outcome State Fault Refusal :=
  vecAttempt core 0x0D form rd rs1 rs2 s

def execVcmpeq (core : Fin 264) (form : BitVec 3) (rd rs1 rs2 : BitVec 5) (s : State) : Host.Outcome State Fault Refusal :=
  vecAttempt core 0x10 form rd rs1 rs2 s

def execVcmplt (core : Fin 264) (form : BitVec 3) (rd rs1 rs2 : BitVec 5) (s : State) : Host.Outcome State Fault Refusal :=
  vecAttempt core 0x11 form rd rs1 rs2 s

def execVcmple (core : Fin 264) (form : BitVec 3) (rd rs1 rs2 : BitVec 5) (s : State) : Host.Outcome State Fault Refusal :=
  vecAttempt core 0x12 form rd rs1 rs2 s

def execVsel (core : Fin 264) (form : BitVec 3) (rd rs1 rs2 : BitVec 5) (s : State) : Host.Outcome State Fault Refusal :=
  vecAttempt core 0x13 form rd rs1 rs2 s

def execVcvt (core : Fin 264) (form : BitVec 3) (rd rs1 rs2 : BitVec 5) (s : State) : Host.Outcome State Fault Refusal :=
  vecAttempt core 0x18 form rd rs1 rs2 s

def execVexp (core : Fin 264) (form : BitVec 3) (rd rs1 rs2 : BitVec 5) (s : State) : Host.Outcome State Fault Refusal :=
  vecAttempt core 0x20 form rd rs1 rs2 s

def execVlog (core : Fin 264) (form : BitVec 3) (rd rs1 rs2 : BitVec 5) (s : State) : Host.Outcome State Fault Refusal :=
  vecAttempt core 0x21 form rd rs1 rs2 s

def execVrcp (core : Fin 264) (form : BitVec 3) (rd rs1 rs2 : BitVec 5) (s : State) : Host.Outcome State Fault Refusal :=
  vecAttempt core 0x22 form rd rs1 rs2 s

def execVrsqrt (core : Fin 264) (form : BitVec 3) (rd rs1 rs2 : BitVec 5) (s : State) : Host.Outcome State Fault Refusal :=
  vecAttempt core 0x23 form rd rs1 rs2 s

def execVsqrt (core : Fin 264) (form : BitVec 3) (rd rs1 rs2 : BitVec 5) (s : State) : Host.Outcome State Fault Refusal :=
  vecAttempt core 0x24 form rd rs1 rs2 s

def execVsin (core : Fin 264) (form : BitVec 3) (rd rs1 rs2 : BitVec 5) (s : State) : Host.Outcome State Fault Refusal :=
  vecAttempt core 0x25 form rd rs1 rs2 s

def execVcos (core : Fin 264) (form : BitVec 3) (rd rs1 rs2 : BitVec 5) (s : State) : Host.Outcome State Fault Refusal :=
  vecAttempt core 0x26 form rd rs1 rs2 s

def execVtanh (core : Fin 264) (form : BitVec 3) (rd rs1 rs2 : BitVec 5) (s : State) : Host.Outcome State Fault Refusal :=
  vecAttempt core 0x27 form rd rs1 rs2 s

def execVsigmoid (core : Fin 264) (form : BitVec 3) (rd rs1 rs2 : BitVec 5) (s : State) : Host.Outcome State Fault Refusal :=
  vecAttempt core 0x28 form rd rs1 rs2 s

def execVrsum (core : Fin 264) (form : BitVec 3) (rd rs1 rs2 : BitVec 5) (s : State) : Host.Outcome State Fault Refusal :=
  vecAttempt core 0x30 form rd rs1 rs2 s

def execVrmax (core : Fin 264) (form : BitVec 3) (rd rs1 rs2 : BitVec 5) (s : State) : Host.Outcome State Fault Refusal :=
  vecAttempt core 0x31 form rd rs1 rs2 s

def execVrmin (core : Fin 264) (form : BitVec 3) (rd rs1 rs2 : BitVec 5) (s : State) : Host.Outcome State Fault Refusal :=
  vecAttempt core 0x32 form rd rs1 rs2 s

def execVaccsr (core : Fin 264) (form : BitVec 3) (rd rs1 rs2 : BitVec 5) (s : State) : Host.Outcome State Fault Refusal :=
  vecAttempt core 0x38 form rd rs1 rs2 s

def execVgather (core : Fin 264) (form : BitVec 3) (rd rs1 rs2 : BitVec 5) (s : State) : Host.Outcome State Fault Refusal :=
  vecAttempt core 0x3C form rd rs1 rs2 s

def execVscatter (core : Fin 264) (form : BitVec 3) (rd rs1 rs2 : BitVec 5) (s : State) : Host.Outcome State Fault Refusal :=
  vecAttempt core 0x3D form rd rs1 rs2 s

end Sys2Proof.Machine
end

