-- ==== Sys2Proof/Machine/Rv.lean ====
section
/-! DEFINITION. RV64GC as a kernel's control core runs it (R280) and the encoding of Xdxn (R283, R286–R291): what each
instruction word stands for, and what it does. An encoding that neither defines takes cause ILLEGAL (R283, R300). -/

namespace Sys2Proof.Machine

/-! ### Instructions -/

/-- Integer operations of the base ISA and M. -/
inductive AluOp where
  | add | sub | sll | slt | sltu | xor | srl | sra | or | and
  | mul | mulh | mulhsu | mulhu | div | divu | rem | remu
  deriving DecidableEq, Repr

/-- The conditions of the branches. -/
inductive BranchOp where
  | beq | bne | blt | bge | bltu | bgeu
  deriving DecidableEq, Repr

/-- The second operand of an integer operation. -/
inductive AluSrc where
  | reg (r : BitVec 5) | imm (v : Word)
  deriving DecidableEq, Repr

/-- Floating-point operations of F and D. -/
inductive FpOp where
  | add | sub | mul | div | sqrt
  /-- a × b + c with the product or c negated -/
  | fma (negProd negAdd : Bool) (rs3 : BitVec 5)
  /-- FSGNJ, FSGNJN, FSGNJX -/
  | sign (k : Nat)
  | min | max
  | cmp (k : Cmp)
  | classify
  /-- to and from an integer of w bits -/
  | toInt (sg : Bool) (w : Nat)
  | ofInt (sg : Bool) (w : Nat)
  /-- from the other of the two formats -/
  | convert
  /-- FMV.X and FMV from X -/
  | moveX | moveF
  deriving DecidableEq, Repr

/-- An RV64GC or Xdxn instruction. -/
inductive Rv where
  | lui (rd : BitVec 5) (v : Word)
  | auipc (rd : BitVec 5) (v : Word)
  | jal (rd : BitVec 5) (off : Word)
  | jalr (rd rs1 : BitVec 5) (off : Word)
  | branch (op : BranchOp) (rs1 rs2 : BitVec 5) (off : Word)
  | load (k : LoadKind) (rd rs1 : BitVec 5) (off : Word)
  | store (k : StoreKind) (rs1 rs2 : BitVec 5) (off : Word)
  | alu (op : AluOp) (half : Bool) (rd rs1 : BitVec 5) (b : AluSrc)
  | fence
  | fenceI
  | brk
  | csr (op : CsrOp) (n : BitVec 12) (rd : BitVec 5) (src : CsrSrc)
  | amo (op : AmoOp) (dbl : Bool) (rd rs1 rs2 : BitVec 5)
  | lr (dbl : Bool) (rd rs1 : BitVec 5)
  | sc (dbl : Bool) (rd rs1 rs2 : BitVec 5)
  | fp (op : FpOp) (dbl : Bool) (rd rs1 rs2 : BitVec 5) (rm : BitVec 3)
  /-- Xdxn: sync, memory and DMA, array, by FUNCT3; vector by FUNCT7 and form -/
  | sync (f3 : Nat) (rd rs1 rs2 : BitVec 5)
  | dma (f3 : Nat) (rd rs1 rs2 : BitVec 5)
  | array (f3 : Nat) (rd rs1 rs2 : BitVec 5)
  | vec (op form : Nat) (rd rs1 rs2 : BitVec 5)
  deriving DecidableEq, Repr

/-! ### 32-bit encodings -/

def rvRd (w : Nat) : BitVec 5 := BitVec.ofNat 5 (w / 2 ^ 7)
def rvRs1 (w : Nat) : BitVec 5 := BitVec.ofNat 5 (w / 2 ^ 15)
def rvRs2 (w : Nat) : BitVec 5 := BitVec.ofNat 5 (w / 2 ^ 20)
def rvF3 (w : Nat) : Nat := bitsOf w 14 12
def rvF7 (w : Nat) : Nat := bitsOf w 31 25

/-- A signed immediate of n bits. -/
def rvImm (n x : Nat) : Word := BitVec.ofNat 64 (toTwos 64 (signed n x))
def immI (w : Nat) : Word := rvImm 12 (bitsOf w 31 20)
def immS (w : Nat) : Word := rvImm 12 (bitsOf w 31 25 * 32 + bitsOf w 11 7)
def immB (w : Nat) : Word :=
  rvImm 13 (bitsOf w 31 31 * 4096 + bitsOf w 7 7 * 2048 + bitsOf w 30 25 * 32 + bitsOf w 11 8 * 2)
def immU (w : Nat) : Word := rvImm 32 (bitsOf w 31 12 * 4096)
def immJ (w : Nat) : Word :=
  rvImm 21 (bitsOf w 31 31 * 2 ^ 20 + bitsOf w 19 12 * 4096 + bitsOf w 20 20 * 2048 + bitsOf w 30 21 * 2)

def decodeBranch (w : Nat) : Option Rv :=
  let go (op : BranchOp) : Option Rv := some (.branch op (rvRs1 w) (rvRs2 w) (immB w))
  match rvF3 w with
  | 0 => go .beq | 1 => go .bne | 4 => go .blt | 5 => go .bge | 6 => go .bltu | 7 => go .bgeu | _ => none

def decodeLoad (w : Nat) : Option Rv :=
  let go (k : LoadKind) : Option Rv := some (.load k (rvRd w) (rvRs1 w) (immI w))
  match rvF3 w with
  | 0 => go .lb | 1 => go .lh | 2 => go .lw | 3 => go .ld | 4 => go .lbu | 5 => go .lhu | 6 => go .lwu | _ => none

def decodeStore (w : Nat) : Option Rv :=
  let go (k : StoreKind) : Option Rv := some (.store k (rvRs1 w) (rvRs2 w) (immS w))
  match rvF3 w with
  | 0 => go .sb | 1 => go .sh | 2 => go .sw | 3 => go .sd | _ => none

/-- OP-IMM and OP-IMM-32. -/
def decodeOpImm (half : Bool) (w : Nat) : Option Rv :=
  let go (op : AluOp) (v : Word) : Option Rv := some (.alu op half (rvRd w) (rvRs1 w) (.imm v))
  -- the bits above a shift amount
  let hi := if half then rvF7 w else bitsOf w 31 26 * 2
  let sh := BitVec.ofNat 64 (if half then bitsOf w 24 20 else bitsOf w 25 20)
  match rvF3 w with
  | 0 => go .add (immI w)
  | 1 => if hi = 0 then go .sll sh else none
  | 5 => if hi = 0 then go .srl sh else if hi = 0x20 then go .sra sh else none
  | f =>
    if half then none
    else match f with
      | 2 => go .slt (immI w) | 3 => go .sltu (immI w) | 4 => go .xor (immI w) | 6 => go .or (immI w) | _ => go .and (immI w)

/-- OP and OP-32. -/
def decodeOp (half : Bool) (w : Nat) : Option Rv :=
  let go (op : AluOp) : Option Rv := some (.alu op half (rvRd w) (rvRs1 w) (.reg (rvRs2 w)))
  match rvF7 w, rvF3 w with
  | 0, 0 => go .add | 0, 1 => go .sll | 0, 5 => go .srl
  | 0, 2 => if half then none else go .slt
  | 0, 3 => if half then none else go .sltu
  | 0, 4 => if half then none else go .xor
  | 0, 6 => if half then none else go .or
  | 0, 7 => if half then none else go .and
  | 0x20, 0 => go .sub | 0x20, 5 => go .sra
  | 1, 0 => go .mul
  | 1, 1 => if half then none else go .mulh
  | 1, 2 => if half then none else go .mulhsu
  | 1, 3 => if half then none else go .mulhu
  | 1, 4 => go .div | 1, 5 => go .divu | 1, 6 => go .rem | 1, 7 => go .remu
  | _, _ => none

def decodeAmo (w : Nat) : Option Rv :=
  let dbl := rvF3 w == 3
  let go (op : AmoOp) : Option Rv := some (.amo op dbl (rvRd w) (rvRs1 w) (rvRs2 w))
  if rvF3 w ≠ 2 ∧ rvF3 w ≠ 3 then none
  else match bitsOf w 31 27 with
    | 0 => go .add | 1 => go .swap
    | 2 => if rvRs2 w = 0 then some (.lr dbl (rvRd w) (rvRs1 w)) else none
    | 3 => some (.sc dbl (rvRd w) (rvRs1 w) (rvRs2 w))
    | 4 => go .xor | 8 => go .or | 0xC => go .and | 0x10 => go .min | 0x14 => go .max | 0x18 => go .minu | 0x1C => go .maxu
    | _ => none

/-- SYSTEM: of the privileged instructions only ECALL and EBREAK are user mode's (R280). -/
def decodeSystem (w : Nat) : Option Rv :=
  let csr (op : CsrOp) (imm : Bool) : Option Rv :=
    some (.csr op (BitVec.ofNat 12 (w / 2 ^ 20)) (rvRd w) (if imm then .imm (rvRs1 w) else .reg (rvRs1 w)))
  match rvF3 w with
  | 0 => if w = 0x00000073 ∨ w = 0x00100073 then some .brk else none
  | 1 => csr .rw false | 2 => csr .rs false | 3 => csr .rc false
  | 5 => csr .rw true | 6 => csr .rs true | 7 => csr .rc true
  | _ => none

/-- OP-FP. -/
def decodeFp (w : Nat) : Option Rv :=
  let dbl := rvF7 w % 2 == 1
  let go (op : FpOp) : Option Rv := some (.fp op dbl (rvRd w) (rvRs1 w) (rvRs2 w) (BitVec.ofNat 3 (rvF3 w)))
  let f3 := rvF3 w
  let r2 := (rvRs2 w).toNat
  -- the integer formats by rs2
  let int (f : Bool → Nat → FpOp) : Option Rv :=
    if r2 < 4 then go (f (r2 % 2 == 0) (if r2 < 2 then 32 else 64)) else none
  if rvF7 w % 4 ≥ 2 then none
  else match rvF7 w / 4 with
    | 0x00 => go .add | 0x01 => go .sub | 0x02 => go .mul | 0x03 => go .div
    | 0x0B => if r2 = 0 then go .sqrt else none
    | 0x04 => if f3 < 3 then go (.sign f3) else none
    | 0x05 => if f3 = 0 then go .min else if f3 = 1 then go .max else none
    | 0x08 => if r2 = 1 - dbl.toNat then go .convert else none
    | 0x14 => match f3 with
      | 0 => go (.cmp .le) | 1 => go (.cmp .lt) | 2 => go (.cmp .eq) | _ => none
    | 0x18 => int .toInt
    | 0x1A => int .ofInt
    | 0x1C => if r2 ≠ 0 then none else if f3 = 0 then go .moveX else if f3 = 1 then go .classify else none
    | 0x1E => if r2 = 0 ∧ f3 = 0 then go .moveF else none
    | _ => none

/-- FMADD, FMSUB, FNMSUB, FNMADD. -/
def decodeFma (negProd negAdd : Bool) (w : Nat) : Option Rv :=
  if bitsOf w 26 25 < 2 then
    some (.fp (.fma negProd negAdd (BitVec.ofNat 5 (w / 2 ^ 27))) (bitsOf w 26 25 == 1) (rvRd w) (rvRs1 w) (rvRs2 w)
      (BitVec.ofNat 3 (rvF3 w)))
  else none

/-- What a 32-bit word stands for. -/
def decode32 (w : Nat) : Option Rv :=
  match w % 128 with
  | 0x37 => some (.lui (rvRd w) (immU w))
  | 0x17 => some (.auipc (rvRd w) (immU w))
  | 0x6F => some (.jal (rvRd w) (immJ w))
  | 0x67 => if rvF3 w = 0 then some (.jalr (rvRd w) (rvRs1 w) (immI w)) else none
  | 0x63 => decodeBranch w
  | 0x03 => decodeLoad w
  | 0x23 => decodeStore w
  | 0x13 => decodeOpImm false w
  | 0x1B => decodeOpImm true w
  | 0x33 => decodeOp false w
  | 0x3B => decodeOp true w
  | 0x0F => if rvF3 w = 0 then some .fence else if rvF3 w = 1 then some .fenceI else none
  | 0x73 => decodeSystem w
  | 0x2F => decodeAmo w
  | 0x07 => match rvF3 w with
    | 2 => some (.load .flw (rvRd w) (rvRs1 w) (immI w))
    | 3 => some (.load .fld (rvRd w) (rvRs1 w) (immI w))
    | _ => none
  | 0x27 => match rvF3 w with
    | 2 => some (.store .fsw (rvRs1 w) (rvRs2 w) (immS w))
    | 3 => some (.store .fsd (rvRs1 w) (rvRs2 w) (immS w))
    | _ => none
  | 0x53 => decodeFp w
  | 0x43 => decodeFma false false w
  | 0x47 => decodeFma false true w
  | 0x4B => decodeFma true false w
  | 0x4F => decodeFma true true w
  | 0x0B => if rvF7 w = 0 then some (.sync (rvF3 w) (rvRd w) (rvRs1 w) (rvRs2 w)) else none
  | 0x2B => if rvF7 w = 0 ∧ rvF3 w < 4 then some (.dma (rvF3 w) (rvRd w) (rvRs1 w) (rvRs2 w)) else none
  | 0x5B => if rvF7 w = 0 ∧ rvF3 w < 4 then some (.array (rvF3 w) (rvRd w) (rvRs1 w) (rvRs2 w)) else none
  | 0x7B => some (.vec (rvF7 w) (rvF3 w) (rvRd w) (rvRs1 w) (rvRs2 w))
  | _ => none

/-! ### Compressed encodings -/

/-- A register x8–x15 or f8–f15 from three bits. -/
def cReg (x : Nat) : BitVec 5 := BitVec.ofNat 5 (8 + x % 8)

/-- An offset that is not sign-extended. -/
def cOff (x : Nat) : Word := BitVec.ofNat 64 x

def decodeC0 (w : Nat) : Option Rv :=
  let rd := cReg (bitsOf w 4 2)
  let rs := cReg (bitsOf w 9 7)
  let o4 := cOff (bitsOf w 12 10 * 8 + bitsOf w 6 6 * 4 + bitsOf w 5 5 * 64)
  let o8 := cOff (bitsOf w 12 10 * 8 + bitsOf w 6 5 * 64)
  match bitsOf w 15 13 with
  | 0 =>
    let v := bitsOf w 12 11 * 16 + bitsOf w 10 7 * 64 + bitsOf w 6 6 * 4 + bitsOf w 5 5 * 8
    if v = 0 then none else some (.alu .add false rd 2 (.imm (cOff v)))
  | 1 => some (.load .fld rd rs o8)
  | 2 => some (.load .lw rd rs o4)
  | 3 => some (.load .ld rd rs o8)
  | 5 => some (.store .fsd rs rd o8)
  | 6 => some (.store .sw rs rd o4)
  | 7 => some (.store .sd rs rd o8)
  | _ => none

/-- The operations on x8–x15 of quadrant 1. -/
def decodeC1Alu (w : Nat) : Option Rv :=
  let rd := cReg (bitsOf w 9 7)
  let six := bitsOf w 12 12 * 32 + bitsOf w 6 2
  let rr (op : AluOp) (half : Bool) : Option Rv := some (.alu op half rd rd (.reg (cReg (bitsOf w 4 2))))
  match bitsOf w 11 10 with
  | 0 => some (.alu .srl false rd rd (.imm (cOff six)))
  | 1 => some (.alu .sra false rd rd (.imm (cOff six)))
  | 2 => some (.alu .and false rd rd (.imm (rvImm 6 six)))
  | _ => match bitsOf w 12 12, bitsOf w 6 5 with
    | 0, 0 => rr .sub false | 0, 1 => rr .xor false | 0, 2 => rr .or false | 0, 3 => rr .and false
    | 1, 0 => rr .sub true | 1, 1 => rr .add true | _, _ => none

def decodeC1 (w : Nat) : Option Rv :=
  let rd : BitVec 5 := BitVec.ofNat 5 (w / 2 ^ 7)
  let six := bitsOf w 12 12 * 32 + bitsOf w 6 2
  let bOff := rvImm 9 (bitsOf w 12 12 * 256 + bitsOf w 11 10 * 8 + bitsOf w 6 5 * 64 + bitsOf w 4 3 * 2 + bitsOf w 2 2 * 32)
  match bitsOf w 15 13 with
  | 0 => some (.alu .add false rd rd (.imm (rvImm 6 six)))
  | 1 => if rd = 0 then none else some (.alu .add true rd rd (.imm (rvImm 6 six)))
  | 2 => some (.alu .add false rd 0 (.imm (rvImm 6 six)))
  | 3 =>
    if six = 0 then none
    else if rd = 2 then
      some (.alu .add false 2 2 (.imm (rvImm 10 (bitsOf w 12 12 * 512 + bitsOf w 6 6 * 16 + bitsOf w 5 5 * 64 +
        bitsOf w 4 3 * 128 + bitsOf w 2 2 * 32))))
    else some (.lui rd (rvImm 18 (six * 4096)))
  | 4 => decodeC1Alu w
  | 5 =>
    some (.jal 0 (rvImm 12 (bitsOf w 12 12 * 2048 + bitsOf w 11 11 * 16 + bitsOf w 10 9 * 256 + bitsOf w 8 8 * 1024 +
      bitsOf w 7 7 * 64 + bitsOf w 6 6 * 128 + bitsOf w 5 3 * 2 + bitsOf w 2 2 * 32)))
  | 6 => some (.branch .beq (cReg (bitsOf w 9 7)) 0 bOff)
  | _ => some (.branch .bne (cReg (bitsOf w 9 7)) 0 bOff)

def decodeC2 (w : Nat) : Option Rv :=
  let rd : BitVec 5 := BitVec.ofNat 5 (w / 2 ^ 7)
  let rs2 : BitVec 5 := BitVec.ofNat 5 (w / 2 ^ 2)
  let l4 := cOff (bitsOf w 12 12 * 32 + bitsOf w 6 4 * 4 + bitsOf w 3 2 * 64)
  let l8 := cOff (bitsOf w 12 12 * 32 + bitsOf w 6 5 * 8 + bitsOf w 4 2 * 64)
  let s4 := cOff (bitsOf w 12 9 * 4 + bitsOf w 8 7 * 64)
  let s8 := cOff (bitsOf w 12 10 * 8 + bitsOf w 9 7 * 64)
  match bitsOf w 15 13 with
  | 0 => some (.alu .sll false rd rd (.imm (cOff (bitsOf w 12 12 * 32 + bitsOf w 6 2))))
  | 1 => some (.load .fld rd 2 l8)
  | 2 => if rd = 0 then none else some (.load .lw rd 2 l4)
  | 3 => if rd = 0 then none else some (.load .ld rd 2 l8)
  | 4 =>
    if bitsOf w 12 12 = 0 then
      if rs2 ≠ 0 then some (.alu .add false rd 0 (.reg rs2))
      else if rd = 0 then none else some (.jalr 0 rd 0)
    else if rs2 ≠ 0 then some (.alu .add false rd rd (.reg rs2))
    else if rd = 0 then some .brk else some (.jalr 1 rd 0)
  | 5 => some (.store .fsd 2 rs2 s8)
  | 6 => some (.store .sw 2 rs2 s4)
  | _ => some (.store .sd 2 rs2 s8)

/-- What a word stands for, and its length: 2 bytes where its low bits are not 11 (PRESUMED log 18). -/
def decodeRv (w : Nat) : Option Rv :=
  match w % 4 with
  | 0 => decodeC0 w
  | 1 => decodeC1 w
  | 2 => decodeC2 w
  | _ => decode32 w

def rvLen (w : Nat) : Nat := if w % 4 = 3 then 4 else 2

/-! ### Integer operations -/

/-- The quotient and remainder of M: division by zero gives all ones and the dividend. -/
def rvDiv (sg : Bool) (n a b : Nat) : Nat :=
  if b % 2 ^ n = 0 then 2 ^ n - 1
  else if sg then toTwos n ((signed n a).tdiv (signed n b)) else a % 2 ^ n / (b % 2 ^ n)
def rvRem (sg : Bool) (n a b : Nat) : Nat :=
  if b % 2 ^ n = 0 then a % 2 ^ n
  else if sg then toTwos n ((signed n a).tmod (signed n b)) else a % 2 ^ n % (b % 2 ^ n)

/-- An integer operation on n bits, n = 32 or 64. -/
def aluOn (op : AluOp) (n a b : Nat) : Nat :=
  let ua := a % 2 ^ n
  let ub := b % 2 ^ n
  let sh := b % n
  match op with
  | .add => (ua + ub) % 2 ^ n
  | .sub => (ua + (2 ^ n - ub)) % 2 ^ n
  | .sll => ua * 2 ^ sh % 2 ^ n
  | .slt => if signed n a < signed n b then 1 else 0
  | .sltu => if ua < ub then 1 else 0
  | .xor => ua ^^^ ub
  | .srl => ua / 2 ^ sh
  | .sra => toTwos n (signed n a / 2 ^ sh)
  | .or => ua ||| ub
  | .and => ua &&& ub
  | .mul => ua * ub % 2 ^ n
  | .mulh => toTwos n (signed n a * signed n b / 2 ^ n)
  | .mulhsu => toTwos n (signed n a * ub / 2 ^ n)
  | .mulhu => ua * ub / 2 ^ n
  | .div => rvDiv true n a b
  | .divu => rvDiv false n a b
  | .rem => rvRem true n a b
  | .remu => rvRem false n a b

/-- An integer operation; its 32-bit form sign-extends its result. -/
def aluResult (op : AluOp) (half : Bool) (a b : Word) : Word :=
  if half then rvImm 32 (aluOn op 32 a.toNat b.toNat) else BitVec.ofNat 64 (aluOn op 64 a.toNat b.toNat)

def branchTaken (op : BranchOp) (a b : Word) : Bool :=
  match op with
  | .beq => a == b
  | .bne => a != b
  | .blt => a.slt b
  | .bge => !(a.slt b)
  | .bltu => a.ult b
  | .bgeu => !(a.ult b)

/-! ### Floating-point operations -/

/-- The result of a floating-point instruction: its register's new value, whether that is an f register, and its flags. -/
structure FpResult where
  value : Word
  toF : Bool
  flags : FFlags

/-- The formats, their operands and results. -/
def fpFmt (dbl : Bool) : Fmt := if dbl then Fmt.fp64 else Fmt.fp32
def fpIn (dbl : Bool) (v : Word) : Nat := if dbl then v.toNat else unbox32 v
def fpOut (dbl : Bool) (b : Nat) : Word := if dbl then BitVec.ofNat 64 b else box32 b

/-- Whether an operation has a rounding-mode field. -/
def FpOp.rounds : FpOp → Bool
  | .add => true | .sub => true | .mul => true | .div => true | .sqrt => true | .fma _ _ _ => true
  | .toInt _ _ => true | .ofInt _ _ => true | .convert => true
  | .sign _ => false | .min => false | .max => false | .cmp _ => false | .classify => false | .moveX => false | .moveF => false

/-- A floating-point operation on register values: f registers a, b, c, and the x register of rs1. -/
def fpResult (op : FpOp) (dbl : Bool) (rm : RMode) (a b c x : Word) : FpResult :=
  let f := fpFmt dbl
  let va := f.decode (fpIn dbl a)
  let vb := f.decode (fpIn dbl b)
  let out (r : Nat × FFlags) : FpResult := ⟨fpOut dbl r.1, true, r.2⟩
  let exact (r : FVal × FFlags) : FpResult :=
    let (q, g) := f.round rm r.1
    out (q, g.join r.2)
  match op with
  | .add => exact (FVal.add rm va vb)
  | .sub => exact (FVal.add rm va vb.negate)
  | .mul => exact (FVal.mul va vb)
  | .div => out (f.div rm va vb)
  | .sqrt => out (f.sqrt rm va)
  | .fma np na _ =>
    let vc := f.decode (fpIn dbl c)
    exact (FVal.fma rm (if np then va.negate else va) vb (if na then vc.negate else vc))
  | .sign k => out (signInject f.width k (fpIn dbl a) (fpIn dbl b), FFlags.none)
  | .min => out (f.minMax false (fpIn dbl a) (fpIn dbl b))
  | .max => out (f.minMax true (fpIn dbl a) (fpIn dbl b))
  | .cmp k =>
    let r := fcompare k va vb
    ⟨if r.1 then 1 else 0, false, r.2⟩
  | .classify => ⟨BitVec.ofNat 64 (f.classOf (fpIn dbl a)), false, FFlags.none⟩
  | .toInt sg w =>
    let (i, fl) := fpToInt rm sg w va
    ⟨rvImm w (toTwos w i), false, fl⟩
  | .ofInt sg w =>
    out (f.round rm (intVal (if sg then signed w x.toNat else (x.toNat % 2 ^ w : Int))))
  | .convert => out (f.round rm ((fpFmt (!dbl)).decode (fpIn (!dbl) a)))
  | .moveX => ⟨if dbl then a else rvImm 32 a.toNat, false, FFlags.none⟩
  | .moveF => ⟨if dbl then x else box32 x.toNat, true, FFlags.none⟩

/-- The rounding mode of an instruction: 7 takes frm, and a reserved one is illegal. -/
def CoreSt.roundingOf (x : CoreSt) (rm : BitVec 3) : Option RMode := RMode.ofCode (if rm = 7 then x.frm.toNat else rm.toNat)

def Chip.coreFp (s : Chip) (c : Nat) (op : FpOp) (dbl : Bool) (rd rs1 rs2 : BitVec 5) (rm : BitVec 3) : Chip :=
  let x := s.core c
  let rs3 : BitVec 5 := match op with
    | .fma _ _ r => r
    | _ => 0
  match (if op.rounds then x.roundingOf rm else some .rne) with
  | none => s.illegal c
  | some m =>
    let r := fpResult op dbl m (x.rf rs1) (x.rf rs2) (x.rf rs3) (x.rx rs1)
    let s := s.setCore c fun x => x.accrue r.flags
    if r.toF then s.retireF c rd.toNat r.value 4 else s.retireX c rd.toNat r.value 4

/-! ### Execution -/

/-- The control core goes on at another address. -/
def Chip.coreJump (s : Chip) (c : Nat) (pc : Word) : Chip :=
  s.setCore c fun x => { x.retire 0 with pc := pc }

/-- An Xdxn sync instruction (R286) (DEDUCED log 80). -/
def Chip.runSync (s : Chip) (c f3 : Nat) (rd rs1 rs2 : BitVec 5) : Chip :=
  let x := s.core c
  match f3 with
  | 0 => s.coreSigl c rd.toNat (x.rx rs1) (x.rx rs2)
  | 1 => s.coreWaitl c rd.toNat (x.rx rs1) (x.rx rs2)
  | 2 => s.coreRdl c rd.toNat (x.rx rs1)
  | 3 => s.coreSigc c rd.toNat (x.rx rs1) (x.rx rs2)
  | 4 => s.coreWaitc c rd.toNat (x.rx rs1) (x.rx rs2)
  | 5 => s.coreQwait c (x.rx rd) (x.rx rs1) (x.rx rs2)
  | 6 => s.coreWaitu c rd.toNat (x.rx rs1)
  | _ => s.coreXend c rd.toNat

/-- A memory or DMA instruction (R289). -/
def Chip.runDma (s : Chip) (c f3 : Nat) (rd rs1 rs2 : BitVec 5) : Chip :=
  let x := s.core c
  match f3 with
  | 0 => s.issueDcopy c (x.rx rd) (x.rx rs1) (x.rx rs2)
  | 1 => s.issueDcopy2 c (x.rx rd) (x.rx rs1) (x.rx rs2)
  | 2 => s.issueDfill c (x.rx rd) (x.rx rs1) (x.rx rs2)
  | _ => s.coreFadd c rd.toNat (x.rx rs1) (x.rf rs2)

/-- An array instruction (R290). -/
def Chip.runArray (s : Chip) (c f3 : Nat) (rd rs1 rs2 : BitVec 5) : Chip :=
  let x := s.core c
  match f3 with
  | 0 => s.issueAldw c (x.rx rd) (x.rx rs1) (x.rx rs2)
  | 1 => s.issueAmm c (x.rx rd) (x.rx rs1) (x.rx rs2)
  | 2 => s.issueAdrain c (x.rx rd) (x.rx rs1) (x.rx rs2)
  | _ => s.issueAclr c rd.toNat (x.rx rs1)

/-- An instruction of n bytes at the pc. -/
def Chip.runRv (s : Chip) (c n : Nat) (i : Rv) : Chip :=
  let x := s.core c
  match i with
  | .lui rd v => s.retireX c rd.toNat v n
  | .auipc rd v => s.retireX c rd.toNat (x.pc + v) n
  | .jal rd off => (s.setCore c fun x => x.setX rd.toNat (x.pc + BitVec.ofNat 64 n)).coreJump c (x.pc + off)
  | .jalr rd rs1 off =>
    (s.setCore c fun x => x.setX rd.toNat (x.pc + BitVec.ofNat 64 n)).coreJump c ((x.rx rs1 + off) &&& ~~~(1 : Word))
  | .branch op rs1 rs2 off => if branchTaken op (x.rx rs1) (x.rx rs2) then s.coreJump c (x.pc + off) else s.retire c n
  | .load k rd rs1 off => s.coreLoad c k rd.toNat (x.rx rs1 + off) n
  | .store k rs1 rs2 off =>
    s.coreStore c (storeShape k).1 (if (storeShape k).2 then x.rf rs2 else x.rx rs2) (x.rx rs1 + off) n
  | .alu op half rd rs1 b =>
    let v := match b with
      | .reg r => x.rx r
      | .imm v => v
    s.retireX c rd.toNat (aluResult op half (x.rx rs1) v) n
  | .fence => s.coreFence c
  | .fenceI => s.coreFenceI c
  | .brk => s.fault c .brk 0
  | .csr op k rd src => s.coreCsr c op k.toNat rd.toNat src
  | .amo op dbl rd rs1 rs2 => s.coreAmo c op dbl rd.toNat (x.rx rs1) (x.rx rs2)
  | .lr dbl rd rs1 => s.coreLr c dbl rd.toNat (x.rx rs1)
  | .sc dbl rd rs1 rs2 => s.coreSc c dbl rd.toNat (x.rx rs1) (x.rx rs2)
  | .fp op dbl rd rs1 rs2 rm => s.coreFp c op dbl rd rs1 rs2 rm
  | .sync f3 rd rs1 rs2 => s.runSync c f3 rd rs1 rs2
  | .dma f3 rd rs1 rs2 => s.runDma c f3 rd rs1 rs2
  | .array f3 rd rs1 rs2 => s.runArray c f3 rd rs1 rs2
  | .vec op form rd rs1 rs2 => s.issueVec c op form rd rs1 rs2

/-- The stalls that an instruction takes up again. -/
def Rv.own (i : Option Rv) : Stall → Bool :=
  match i with
  | some (.sync 1 _ _ _) => isWaitL
  | some (.sync 3 _ _ _) => isSigC
  | some (.sync 4 _ _ _) => isWaitC
  | some (.sync 6 _ _ _) => isWaitU
  | _ => plain

def execRv64Instruction (core : Fin 264) (word : Word32) (s : State) : Host.Outcome State Fault Refusal :=
  s.act fun c => c.issue core.val (rvLen word.toNat) (Rv.own (decodeRv word.toNat)) fun c =>
    match decodeRv word.toNat with
    | some i => c.runRv core.val (rvLen word.toNat) i
    | none => c.illegal core.val

end Sys2Proof.Machine
end

