-- ==== Sys2Proof/Machine/CoreAdmin.lean ====
section
/-! DEFINITION. Completion of unit instructions, a kernel's time limit, taking cores and update engines offline and
online, their self-tests (R294, R301, R305–R307, R324, R379, R380, R406). -/

namespace Sys2Proof.Machine

/-! ### Completions and limits -/

/-- A HW fault of a unit (R300, R307). -/
def Chip.hwFault (s : Chip) (c u : Nat) : Chip := s.coreFault c .hw Cause.hw.status 0 u 0

/-- The started instruction at a place in a unit's list completes, or meets a HW fault. Unit 0 is the control core, which
only a HW fault concerns. -/
def Chip.unitComplete (s : Chip) (c u index : Nat) (hw : Bool) : Chip :=
  if u = 0 then s.when (hw && (s.core c).issuing) fun s => s.hwFault c 0
  else
    match ((s.core c).unitRun u)[index]? with
    | none => s
    | some i =>
      if hw then
        let s := s.setCore c fun x => x.setUnitRun u ((x.unitRun u).filter (·.id != i.id))
        (s.hwFault c u).coreEndIf c
      else if u = 1 then s.arrayComplete c i
      else if u = 2 then s.vecComplete c i
      else s.dmaComplete c i

def execUnitInstrComplete (core : Fin 264) (unit : Fin 4) (index : Nat) (hw : Bool) (s : State) :
    Host.Outcome State Fault Refusal :=
  s.act fun c => c.unitComplete core.val unit.val index hw

/-- A kernel at its time limit faults with cause TIME (R300). -/
def execKernelTimeLimitExpiry (core : Fin 264) (s : State) : Host.Outcome State Fault Refusal :=
  s.act fun c => c.fault core.val .time 0

/-- QUEUE_DRAIN_DEADLINE on a core: a draining core's kernel is cancelled (R306), and a faulted core's started unit work is
abandoned without signalling (R301). -/
def Chip.coreDeadline (s : Chip) (c : Nat) : Chip :=
  let x := s.core c
  if x.state = .draining then s.coreCancel c
  else if x.faulted.isSome then
    (s.setCore c fun x => { x with arrayRun := [], vectorRun := [], dmaRun := [] }).coreEndIf c
  else s

def execCoreDrainDeadline (core : Fin 264) (s : State) : Host.Outcome State Fault Refusal :=
  s.act fun c => c.coreDeadline core.val

/-! ### Offline and online -/

/-- CORE_ADMIN of a core, ENGINE_ADMIN of an update engine. -/
def adminKey (c : Nat) : Nat := if c < 256 then O.coreAdmin + 256 * c else O.engineAdmin + 256 * (c - 256)

/-- A core is stopped and reset; it ends in Idle unless it is on its way to Offline (R306). -/
def Chip.coreStop (s : Chip) (c : Nat) : Chip :=
  match (s.core c).state with
  | .idle => s.setCore c fun x => x.cleared
  | .starting => s.setCore c fun x => { x with state := .draining }
  | .running => s.setCore c fun x => { x with state := .draining }
  | .ending => s.setCore c fun x => { x with state := .draining }
  | .draining => s
  | .offline => s
  | .testing => s

/-- A write of 0: the core drains, is reset and goes to Offline. A core in a self-test goes there when the test ends. -/
def Chip.coreOffline (s : Chip) (c : Nat) : Chip :=
  let s := s.setObj (adminKey c) 0
  match (s.core c).state with
  | .offline => s
  | .testing => s
  | .idle =>
    let s := s.setCore c fun x => { x.cleared with state := .offline }
    if c < 256 then s.raise 0x0902 [.u16 c] else s
  | _ => (s.coreStop c).setCore c fun x => { x with drainOffline := true }

/-- A write of 1: an Offline core runs its self-test; a draining one is no longer on its way to Offline (DEDUCED log 94). -/
def Chip.coreOnline (s : Chip) (c : Nat) : Chip :=
  match (s.core c).state with
  | .offline => (s.setObj (adminKey c) 1).setCore c fun x => { x with state := .testing, adminTest := true }
  | .draining =>
    s.when (s.core c).drainOffline fun s => (s.setObj (adminKey c) 1).setCore c fun x => { x with drainOffline := false }
  | _ => s

/-- A write of CORE_ADMIN or ENGINE_ADMIN; none for a value out of range. -/
def Chip.adminWrite (s : Chip) (c v : Nat) : Option Chip :=
  if v = 0 then some (s.coreOffline c) else if v = 1 then some (s.coreOnline c) else none

def execCoreAdminOffline (core : Fin 256) (s : State) : Host.Outcome State Fault Refusal :=
  s.act fun c => c.coreOffline core.val

def execCoreAdminOnline (core : Fin 256) (s : State) : Host.Outcome State Fault Refusal :=
  s.act fun c => c.coreOnline core.val

def execEngineAdminWrite (engine : Fin 8) (value : Byte) (s : State) : Host.Outcome State Fault Refusal :=
  s.act fun c => (c.adminWrite (256 + engine.val) value.toNat).getD c

/-! ### Self-tests -/

/-- NV_FIRST_FAIL: the first difference of a run; `unit` is a core, or 0xFF00 + s (R381) (DEDUCED log 95). -/
def Chip.firstFail (s : Chip) (unit record byte expected got : Nat) : Chip :=
  let b := leBytes 2 unit ++ leBytes 6 0 ++ leBytes 8 record ++ leBytes 4 byte ++ leBytes 4 0 ++ leBytes 16 expected ++
    leBytes 16 got ++ leBytes 8 s.timebase.toNat
  { s with mgmt := { s.mgmt with nvFirstFail := b } }

/-- A self-test fails: the core is Offline, with its admin object 0. -/
def Chip.testFailed (s : Chip) (c : Nat) : Chip :=
  (s.setObj (adminKey c) 0).setCore c fun x => { x.cleared with state := .offline }

/-- A core that differs from a record is taken offline (R379). -/
def Chip.coreDiffers (s : Chip) (c record byte expected got : Nat) : Chip :=
  ((s.testFailed c).firstFail c record byte expected got).raise 0x8A01 [.u16 c, .u64 record]

/-- A self-test passes: the core is free, unless 0 was written meanwhile. -/
def Chip.testPassed (s : Chip) (c online : Nat) (arg : Arg) : Chip :=
  let test := (s.core c).adminTest
  if s.obj (adminKey c) = 0 then
    let s := s.setCore c fun x => { x.cleared with state := .offline }
    if c < 256 then s.raise 0x0902 [.u16 c] else s
  else
    let s := s.setCore c fun x => { x with state := .idle, adminTest := false }
    if test then s.raise online [arg] else s

/-- A core's self-test ends (R307, R379, R380). -/
def Chip.selfTestDone (s : Chip) (c : Nat) (r : SelfTest) : Chip :=
  let x := s.core c
  s.when (x.state == .testing) fun s =>
    match r with
    | .pass => s.testPassed c 0x0901 (.u16 c)
    | .unit u => (s.testFailed c).raise 0x8902 [.u16 c, .u8 u.val]
    | .differs u record byte expected got =>
      let s := s.coreDiffers c record.toNat byte.toNat expected.toNat got.toNat
      if x.adminTest then s.raise 0x8902 [.u16 c, .u8 u.val] else s

/-- Cores whose run of the boot subset passed: those free, or at work, when the last run ends. -/
def Chip.coresPassed (s : Chip) : BitVec 256 :=
  BitVec.ofNat 256 ((List.range 256).foldl (fun m c => if (s.core c).state = .offline then m else m + 2 ^ c) 0)

/-- The boot's runs end with the last core's: NV_BOOT_RESULT and NV_BOOT_TIME, and event 0x0A01 if every core and every
reduction unit passed (R379, R381). -/
def Chip.bootTestsEnd (s : Chip) : Chip :=
  s.when (s.mgmt.booting && !((List.range 256).any fun c => (s.core c).state == .testing)) fun s =>
    let ms := (s.aon - s.mgmt.bootOrigin) / 1000000
    let s := { s with mgmt := { s.mgmt with booting := false, nvCores := s.coresPassed, nvBootTime := ms } }
    if s.mgmt.nvCores = BitVec.allOnes 256 ∧ s.mgmt.nvSites = BitVec.allOnes 8 then s.raise 0x0A01 [.u32 ms] else s

def execCoreSelfTestDone (core : Fin 256) (result : SelfTest) (s : State) : Host.Outcome State Fault Refusal :=
  s.act fun c => (c.selfTestDone core.val result).bootTestsEnd

/-- NV_RUN: an Idle core runs the boot subset; any other is refused (R380). -/
def Chip.nvRunWrite (s : Chip) (c : Nat) : Option Chip :=
  if c < 256 ∧ (s.core c).state = .idle then some (s.setCore c fun x => { x with state := .testing, adminTest := false })
  else none

def execNvRun (core : Half) (s : State) : Host.Outcome State Fault Refusal :=
  s.act fun c => (c.nvRunWrite core.toNat).getD c

/-- An update engine's self-test ends (R406). -/
def execEngineSelfTestDone (engine : Fin 8) (pass : Bool) (s : State) : Host.Outcome State Fault Refusal :=
  s.act fun c =>
    let e := 256 + engine.val
    c.when ((c.core e).state == .testing) fun c =>
      if pass then c.testPassed e 0x0B01 (.u8 engine.val) else c.testFailed e

end Sys2Proof.Machine
end

