-- ==== Sys2Proof/Machine/Crypto.lean ====
section
/-! DEFINITION. SHA-384 (FIPS 180-4) and the verification of ECDSA signatures on P-384 (FIPS 186-5), which images,
attestation and debug rest on (R3, R458, R459, R464, R466). The spec names the standards' algorithms and does not give
them; they are taken from the standards (PRESUMED log 65). -/

namespace Sys2Proof.Machine

/-! ### SHA-384 -/

/-- The integer k-th root of n, bit by bit from bit i downwards. -/
def rootBits (k n : Nat) : Nat → Nat → Nat
  | 0, r => r
  | i + 1, r => rootBits k n i (if (r + 2 ^ i) ^ k ≤ n then r + 2 ^ i else r)

/-- The first 64 bits of the fraction of the k-th root of p, for a root below 32. -/
def rootFraction (k p : Nat) : Word := BitVec.ofNat 64 (rootBits k (p * 2 ^ (64 * k)) 69 0)

/-- The primes below 410, of which there are eighty: no number from 2 to 20 divides them but themselves. -/
def smallPrimes : List Nat :=
  (List.range 410).filter fun n => 2 ≤ n && (List.range 21).all fun d => d < 2 || d == n || n % d != 0

/-- The round constants, from the cube roots of the first eighty primes. -/
def shaConstants : List Word := smallPrimes.map (rootFraction 3)

/-- The eight working words as two histories, newest first: four values of the standard's a and four of its e. -/
structure ShaState where
  as : List Word
  es : List Word
  deriving DecidableEq, Repr

/-- The initial hash value, from the square roots of the ninth to the sixteenth prime. -/
def ShaState.init : ShaState :=
  let l := ((smallPrimes.drop 8).take 8).map (rootFraction 2)
  ⟨l.take 4, l.drop 4⟩

/-- The exclusive or of a word turned right by each of some distances. -/
def turned (x : Word) (by' : List Nat) : Word := by'.foldl (fun r n => r ^^^ x.rotateRight n) 0

/-- One round, with the sum of its constant and its schedule word. -/
def ShaState.round (x : ShaState) (kw : Word) : ShaState :=
  match x.as, x.es with
  | [a, b, c, d], [e, f, g, h] =>
    let pick := g ^^^ (e &&& (f ^^^ g))
    let most := (b &&& c) ||| (a &&& (b ||| c))
    let t := kw + h + turned e [14, 18, 41] + pick
    ⟨[most + turned a [28, 34, 39] + t, a, b, c], [t + d, e, f, g]⟩
  | _, _ => x

/-- The message schedule, newest word first: n more words, each from those 2, 7, 15 and 16 before it. -/
def shaExtend : Nat → List Word → List Word
  | 0, w => w
  | n + 1, w =>
    let far := w.getD 14 0
    let near := w.getD 1 0
    let next := w.getD 15 0 + (turned far [1, 8] ^^^ (far >>> 7)) + w.getD 6 0 + (turned near [19, 61] ^^^ (near >>> 6))
    shaExtend n (next :: w)

/-- One block of 128 bytes. -/
def ShaState.block (x : ShaState) (b : List Byte) : ShaState :=
  let first := ((List.range 16).map fun i => BitVec.ofNat 64 (beNat ((b.drop (8 * i)).take 8))).reverse
  let y := (List.zipWith (· + ·) shaConstants (shaExtend 64 first).reverse).foldl ShaState.round x
  ⟨List.zipWith (· + ·) x.as y.as, List.zipWith (· + ·) x.es y.es⟩

def shaBlocks : Nat → ShaState → List Byte → ShaState
  | 0, x, _ => x
  | n + 1, x, l => shaBlocks n (x.block (l.take 128)) (l.drop 128)

/-- SHA-384: 48 bytes, the last two of the eight words left out. -/
def sha384 (m : List Byte) : List Byte :=
  let zeros := (239 - m.length % 128) % 128
  let l := m ++ [0x80] ++ List.replicate zeros 0 ++ beBytes 16 (8 * m.length)
  let x := shaBlocks (l.length / 128) ShaState.init l
  ((x.as ++ x.es).take 6).flatMap fun w => beBytes 8 w.toNat

/-! ### ECDSA on P-384 -/

/-- The field's prime, the curve's b, its base point and that point's order. -/
def p384 : Nat := 2 ^ 384 - 2 ^ 128 - 2 ^ 96 + 2 ^ 32 - 1
def p384b : Nat := 0xb3312fa7e23ee7e4988e056be3f82d19181d9c6efe8141120314088f5013875ac656398d8a2ed19d2a85c8edd3ec2aef
def p384g : Nat × Nat :=
  (0xaa87ca22be8b05378eb1c71ef320ad746e1d3b628ba79b9859f741e082542a385502f25dbf55296c3a545e3872760ab7,
   0x3617de4a96262c6f5d9e98bf9292dc29f8f41dbd289a147ce9da3113b5f0b8c00a60b1ce1d7e819d7a431d7c90ea0e5f)
def p384n : Nat := 0xffffffffffffffffffffffffffffffffffffffffffffffffc7634d81f4372ddf581a0db248b0a77aecec196accc52973

/-- b ^ e mod m, over the low n bits of e. -/
def powMod (m : Nat) : Nat → Nat → Nat → Nat
  | 0, _, _ => 1
  | n + 1, b, e =>
    let r := powMod m n (b * b % m) (e / 2)
    if e % 2 = 1 then r * b % m else r

/-- The inverse modulo a prime below 2^384. -/
def invMod (m a : Nat) : Nat := powMod m 384 (a % m) (m - 2)

/-- A point of the curve; none is the point at infinity. -/
abbrev ECPoint := Option (Nat × Nat)

/-- The sum of two points. -/
def ecAdd (s t : ECPoint) : ECPoint :=
  match s, t with
  | none, q => q
  | q, none => q
  | some (x1, y1), some (x2, y2) =>
    if x1 = x2 ∧ (y1 + y2) % p384 = 0 then none
    else
      let l := if x1 = x2 then (3 * x1 * x1 + (p384 - 3)) * invMod p384 (2 * y1) % p384
        else (y2 + (p384 - y1)) * invMod p384 (x2 + (p384 - x1)) % p384
      let x := (l * l + (p384 - x1) + (p384 - x2)) % p384
      some (x, (l * (x1 + (p384 - x)) + (p384 - y1)) % p384)

/-- k times a point, over the low n bits of k. -/
def ecMul : Nat → Nat → ECPoint → ECPoint
  | 0, _, _ => none
  | n + 1, k, q =>
    let r := ecMul n (k / 2) (ecAdd q q)
    if k % 2 = 1 then ecAdd r q else r

/-- Whether a pair of numbers is a point of the curve. -/
def ecOn (q : Nat × Nat) : Bool :=
  q.1 < p384 && q.2 < p384 && q.2 * q.2 % p384 == (q.1 * q.1 * q.1 + (p384 - 3) * q.1 + p384b) % p384

/-- A signature (r, s) over the SHA-384 of a message verifies under a public key. -/
def ecdsaVerify (key : Nat × Nat) (message : List Byte) (r s : Nat) : Bool :=
  if ecOn key && 0 < r && r < p384n && 0 < s && s < p384n then
    let z := beNat (sha384 message)
    let w := invMod p384n s
    match ecAdd (ecMul 384 (z * w % p384n) (some p384g)) (ecMul 384 (r * w % p384n) (some key)) with
    | some (x, _) => x % p384n == r
    | none => false
  else false

/-- The point that an uncompressed encoding of 97 bytes spells. -/
def ecPoint (b : List Byte) : Option (Nat × Nat) :=
  if b.length = 97 ∧ b.head? = some 4 then some (beNat ((b.drop 1).take 48), beNat (b.drop 49)) else none

end Sys2Proof.Machine
end

