-- ==== Sys2Proof/Machine/Image.lean ====
section
/-! DEFINITION. Component images: their header, the checks of R459, measurements and floors (R458–R461). -/

namespace Sys2Proof.Machine

/-- COMP_ID of a key revocation. -/
def compRevoke : Nat := 0x0F

/-- A component's slot in the 4 MiB of MRAM: its first byte and the one past its last (R461). Before the slots lie the identity
and owner data from 0x000000, the dictionary values from 0x010000 and the shutdown ring from 0x050000; what follows 0x380000
is reserved. -/
def slotRange : Nat → Option (Nat × Nat)
  | 1 => some (0x060000, 0x0E0000) | 2 => some (0x0E0000, 0x120000) | 3 => some (0x120000, 0x2A0000)
  | 4 => some (0x2A0000, 0x2E0000) | 5 => some (0x2E0000, 0x300000) | 6 => some (0x300000, 0x360000)
  | 7 => some (0x360000, 0x380000) | _ => none

/-- Bytes of a component's slot. A revocation image takes no slot; the staging buffer bounds it (R468). -/
def slotSize (k : Nat) : Nat :=
  match slotRange k with
  | some (a, b) => b - a
  | none => 2 * 2 ^ 20

/-- A field of an image's header. -/
def imageField (b : List Byte) (off len : Nat) : Nat := leNat (slice b off len)

/-- An image, the 256 bytes of its header with its payload (R458). -/
abbrev Image := List Byte

def imageVersion (b : Image) : Nat := imageField b 8 4
def imageSvn (b : Image) : Nat := imageField b 12 4
def payloadLen (b : Image) : Nat := imageField b 16 4
def imageKey (b : Image) : Nat := imageField b 80 1
def imagePayload (b : Image) : List Byte := slice b 256 (payloadLen b)

/-- The header with the payload it names: what the slot holds and what is measured. -/
def imageWhole (b : Image) : Image := b.take (256 + payloadLen b)

/-- An image's measurement. -/
def measurement (b : Image) : List Byte := sha384 (imageWhole b)

/-- MAGIC, HDR_VERSION, COMP_ID, COMPAT and the RESERVED fields (R458); an SVN lies in 0–32. -/
def headerOk (k : Nat) (b : Image) : Bool :=
  imageField b 0 4 == 0x4D495844 && imageField b 4 2 == 1 && imageField b 6 1 == k && imageField b 7 1 == 0 &&
  imageSvn b ≤ 32 && imageField b 20 4 == 3 && imageField b 24 8 == 0 && imageField b 81 79 == 0

/-- The signature of an image under its ROM key, over bytes 0–159. -/
def signatureOk (b : Image) : Bool :=
  ecdsaVerify (Config.romKey (imageKey b)) (slice b 0 160) (imageField b 160 48) (imageField b 208 48)

/-- The key that signed an image is one of the four and not revoked. -/
def Mgmt.keyLives (m : Mgmt) (b : Image) : Bool := imageKey b < 4 && !(m.keysRevoked.getLsbD (imageKey b))

def Mgmt.component (m : Mgmt) (k : Nat) : Component := Tab.get Component.reset m.components k

/-- SVN_FLOOR: the fuses blown at manufacture and in service (R460). -/
def Mgmt.svnFloor (m : Mgmt) (k : Nat) : Nat := max (Config.svnFuses k) (m.component k).floor

/-- The checks of R459 on an image for component k: OK, IMAGE_INVALID or ROLLBACK. A revocation has no floor. -/
def Mgmt.checkImage (m : Mgmt) (k : Nat) (b : Image) : EStatus :=
  if 256 ≤ b.length && headerOk k b && payloadLen b + 256 ≤ slotSize k && payloadLen b + 256 ≤ b.length &&
      (k != compRevoke || 1 ≤ payloadLen b) && sha384 (imagePayload b) == slice b 32 48 && m.keyLives b && signatureOk b then
    if k ≠ compRevoke ∧ imageSvn b < m.svnFloor k then .rollback else .ok
  else .imageInvalid

/-- The image in a component's slot; 0 is the ROM recovery loader. -/
def Mgmt.image (m : Mgmt) (k : Nat) : Image := (m.component k).image.getD (Config.factoryImage k)

/-- A component's slot passes at boot. An image as manufactured is sound; its key and its floor are checked (R459, DESIGN CHOICE log 66). -/
def Mgmt.slotOk (m : Mgmt) (k : Nat) : Bool :=
  match (m.component k).image with
  | some b => m.checkImage k b == .ok
  | none => m.keyLives (Config.factoryImage k) && (m.component k).floor ≤ imageSvn (Config.factoryImage k)

def Chip.setComponent (s : Chip) (k : Nat) (f : Component → Component) : Chip :=
  { s with mgmt := { s.mgmt with components := Tab.modify Component.reset s.mgmt.components k f } }

/-- A revocation image blows the fuses it names, but for the one of the key that signed it (R460). -/
def Chip.revokeKeys (s : Chip) (b : Image) : Chip :=
  let named := BitVec.ofNat 4 ((imagePayload b).headD 0).toNat
  { s with mgmt := { s.mgmt with keysRevoked := s.mgmt.keysRevoked ||| (named &&& ~~~(1#4 <<< imageKey b)) } }

end Sys2Proof.Machine
end

