-- ==== Sys2Proof/Machine/GnServe.lean ====
section
/-! DEFINITION. The target side of the general network (R133–R136, R147): READ, WRITE, WRITE_FLAGGED and ATOMIC requests of
other nodes. -/

namespace Sys2Proof.Machine

/-- The memory of a chip whose job ends is not served (R147, R190). -/
def Chip.gnClosed (s : Chip) : Bool := s.job.state ≥ 2

/-- 4 or 8 aligned bytes of a control or status register. -/
def Chip.gnReg (s : Chip) (o n : Nat) : Bool := (s.region o).isCsr && (n == 4 || n == 8) && o % n == 0

/-- A READ. -/
def Chip.gnServeRead (s : Chip) (port : Nat) (p : GnPacket) : Chip :=
  let o := p.addr.toNat
  let n := p.len.toNat
  if s.gnClosed then s.gnAnswer p 3 0 [] []
  else if o % 4096 + n > 4096 then s.gnAnswer p 4 0 [] []
  else if s.rangeData o n then
    if s.cutOff (portSite port) o then s.gnAnswer p 5 0 [] []
    else
      let (s, r) := s.readFrom (portSite port) o n p.hint
      s.gnAnswer p (if readPoison r then 1 else 0) 0 (readData r) (lineMarks r)
  else if s.gnReg o n || inCounterRange o then
    match s.regBytes o n with
    | some bs => s.gnAnswer p 0 0 bs ((List.range ((n + 63) / 64)).map fun _ => false)
    | none => (if inCounterRange o then s.counterRefusal else s).gnAnswer p 4 0 [] []
  else s.gnAnswer p 4 0 [] []

/-- The marks of a packet's payload lines; a bad DCRC marks them all (R136). -/
def gnMarks (p : GnPacket) : List Bool :=
  let bad := gnCarriesData p && p.dcrc != gnDcrc p
  (List.range ((p.len.toNat + 63) / 64)).map fun i => bad || (p.poison && p.poisonMap == 0) || gnLinePoison p i

/-- A WRITE or a WRITE_FLAGGED. -/
def Chip.gnServeWrite (s : Chip) (port : Nat) (p : GnPacket) : Chip :=
  let o := p.addr.toNat
  let n := p.len.toNat
  let bs := fit n p.payload
  let bad := gnCarriesData p && p.dcrc != gnDcrc p
  if s.gnClosed then s.gnAnswer p 3 0 [] []
  else if p.ptype = 3 ∧ n > 64 then s.gnAnswer p 2 0 [] []
  else if o % 4096 + n > 4096 then s.gnAnswer p 4 0 [] []
  else if s.rangeData o n then
    let t := s.landBytes (portSite port) o bs (gnMarks p) p.hint
    t.gnAnswer p (if s.cutOff (portSite port) o then 5 else if bad then 1 else 0) 0 [] []
  else if s.gnReg o n && p.ptype = 2 then
    if bad then s.gnAnswer p 1 0 [] []
    else (s.regWrite o n (leNat bs) (.gn p.src p.tag port)).gnAnswer p 0 0 [] []
  else (if inCounterRange o then s.counterRefusal else s).gnAnswer p 4 0 [] []

/-- An ATOMIC: ADD of 64 bits signals a counter, any operation acts on memory. -/
def Chip.gnServeAtomic (s : Chip) (port : Nat) (p : GnPacket) : Chip :=
  let o := p.addr.toNat
  let aop := p.aop.toNat
  let n := if p.size then 8 else 4
  if s.gnClosed then s.gnAnswer p 3 0 [] []
  else if aop > 8 || (aop == 8 && p.size) then s.gnAnswer p 2 0 [] []
  else if aop == 8 && s.objb O.detMode then (s.detRefusal 3).gnAnswer p 2 0 [] []
  else if o % n ≠ 0 then (if inCounterRange o then s.counterRefusal else s).gnAnswer p 4 0 [] []
  else if s.rangeData o n then
    if s.cutOff (portSite port) o then s.gnAnswer p 5 0 [] []
    else
      let (s, old, bad) := s.memAtomic (portSite port) o n aop p.opA.toNat p.opB.toNat false p.hint
      let s := if bad then s else s.noteMirror (.atomic o p.aop p.size p.opA p.opB)
      s.gnAnswer p (if bad then 1 else 0) (BitVec.ofNat 64 old) [] []
  else if namesCounter o && p.size && aop == 0 then
    match s.addFrom (counterOfOffset o) p.opA (.gn p.src p.tag port) with
    | (s, .refused) => s
    | (s, .noRoom) => s
    | (s, _) =>
      let own := match s.service.pair with
        | some pr => pr.peer == p.src && pr.counter == counterOfOffset o
        | none => false
      if own then s else s.noteMirror (.atomic o 0 true p.opA 0)
  else if inCounterRange o then s.counterRefusal.gnAnswer p 4 0 [] []
  else s.gnAnswer p 4 0 [] []

def execGnRead (port : Fin 160) (packet : GnPacket) (s : State) : Host.Outcome State Fault Refusal :=
  s.act fun c => c.gnArrival port.val packet [0] fun c => c.gnServeRead port.val packet

def execGnWrite (port : Fin 160) (packet : GnPacket) (s : State) : Host.Outcome State Fault Refusal :=
  s.act fun c => c.gnArrival port.val packet [2] fun c => c.gnServeWrite port.val packet

def execGnWriteFlagged (port : Fin 160) (packet : GnPacket) (s : State) : Host.Outcome State Fault Refusal :=
  s.act fun c => c.gnArrival port.val packet [3] fun c => c.gnServeWrite port.val packet

def execGnAtomic (port : Fin 160) (packet : GnPacket) (s : State) : Host.Outcome State Fault Refusal :=
  s.act fun c => c.gnArrival port.val packet [5] fun c => c.gnServeAtomic port.val packet

end Sys2Proof.Machine
end

