-- ==== Sys2Proof/Machine/Links.lean ====
section
/-! DEFINITION. The die-to-die links (01_package_dies): descriptors and settlement, bring-up, module swaps and lane repair,
and the messages of the Grethasen Die Protocol. -/

namespace Sys2Proof.Machine

def Chip.setLink (s : Chip) (l : Nat) (f : Link → Link) : Chip :=
  { s with links := Tab.set none s.links l (some (f (s.link l))) }

/-- FEATURES the D3 sets (R35). -/
def linkFeatures (l : Nat) : Nat := if l < 10 then 0x3DF else if l < 14 then 0x347 else 0x3E7

/-! ### Capability descriptors (R34) -/

def descSite (site : Nat) : Nat := 0x80 + site
def descOrient (site : Nat) : Nat := if site < 4 then 0 else 2

/-- A credit grant of this die: P0 always receives at least four (R31). -/
def gdpGrant (l k : Nat) : Nat :=
  if k = 0 then max 4 (Config.gdpCredits l k).toNat else (Config.gdpCredits l k).toNat

/-- LOCAL_DESC (R34). -/
def Chip.localDesc (s : Chip) (l : Nat) : List Byte :=
  let x := s.link l
  let (site, port) := linkEnd l
  let lanes := (if l < 14 then 64 else 16) * (Link.modulesOf l).1
  let head := leBytes 2 0x4744 ++ [1, BitVec.ofNat 8 (linkRole l)] ++ leBytes 2 0x0100 ++ leBytes 2 1 ++ leBytes 2 1 ++
    [3, BitVec.ofNat 8 (descSite site), BitVec.ofNat 8 (descOrient site), BitVec.ofNat 8 port, 3, 2] ++ leBytes 2 lanes ++
    [BitVec.ofNat 8 x.offered, BitVec.ofNat 8 x.sparesLeft, 5, 0, 0x2C, 0] ++ leBytes 8 (Config.dieUid site).toNat ++
    (List.range 4).flatMap (fun k => leBytes 2 (gdpGrant l k)) ++ leBytes 8 (linkFeatures l)
  let body := fit 252 head
  body ++ leBytes 4 (crc32c body)

/-- n bytes of a descriptor as a number. -/
def descField (d : List Byte) (off n : Nat) : Nat := leNat (slice d off n)

/-- MAGIC, DESC_VERSION and CRC hold. -/
def descValid (d : List Byte) : Bool :=
  descField d 0 2 == 0x4744 && descField d 2 1 == 1 && descField d 252 4 == crc32c (fit 252 d)

/-- What a pair of descriptors leads to (R36). -/
inductive Settlement where
  | settled (s : Settle)
  | quarantined
  | failed
  deriving DecidableEq, Repr

/-- ROLE, SITE or ORIENT differ from what the link's place demands; sites are compared between D3 base dies alone. -/
def descMisplaced (l : Nat) (peer : List Byte) : Bool :=
  descField peer 3 1 != linkRole l ||
  (l < 10 && (descField peer 11 1 != descSite ((farEnd l).1) || descField peer 12 1 != descOrient ((farEnd l).1)))

/-- The settled set of two valid descriptors (R36). -/
def settleOf (own peer : List Byte) : Settle :=
  let least (off n : Nat) : Nat := min (descField own off n) (descField peer off n)
  let uids := (descField own 24 8, descField peer 24 8)
  let both := if uids.1 ≤ uids.2 then own ++ fit 256 peer else fit 256 peer ++ own
  { proto := BitVec.ofNat 16 (descField own 5 1 * 256 + least 4 1)
    features := BitVec.ofNat 64 (descField own 40 8 &&& descField peer 40 8)
    addressOrder := bitOf (descField own 14 1 &&& descField peer 14 1) 1
    maxPayload := BitVec.ofNat 8 (least 15 1), rate := BitVec.ofNat 8 (least 20 1), modules := BitVec.ofNat 8 (least 18 1)
    crc := BitVec.ofNat 32 (crc32c both) }

/-- What the two descriptors of a link lead to; a die in the wrong place is quarantined whatever else differs
(DESIGN CHOICE log 138). -/
def settlement (l : Nat) (own peer : List Byte) : Settlement :=
  let v := settleOf own peer
  if descMisplaced l peer then .quarantined
  else if descField own 5 1 ≠ descField peer 5 1 || !(v.features.getLsbD 2) ||
      !(bitOf (descField own 14 1) 0 && bitOf (descField peer 14 1) 0) ||
      v.rate.toNat < max (descField own 21 1) (descField peer 21 1) || v.modules.toNat < Link.minModules l ||
      min (descField own 22 1) (descField peer 22 1) < 44 || descField peer 32 2 < 4 || descField own 32 2 < 4 then .failed
  else .settled v

/-! ### Bring-up (R36–R40) -/

/-- A link carries nothing any more and is in a state. -/
def Chip.linkDrop (s : Chip) (l : Nat) (st : LinkState) : Chip :=
  s.setLink l fun x => { x with
    state := st, modules := 0, rate := 0, peerDesc := [], settled := none, agreed := false, swap := none, queued := [], unit := none }

/-- A link is Failed; a cellar die both of whose links are Failed is unavailable (R386). -/
def Chip.linkFail (s : Chip) (l : Nat) : Chip :=
  let s := s.linkDrop l .failed
  let d := (l - 10) / 2
  if 10 ≤ l && l < 14 && (s.link (10 + 2 * d)).state = .failed && (s.link (11 + 2 * d)).state = .failed then
    s.raise 0x8B02 [.u8 d]
  else s

def Chip.sendDescriptor (s : Chip) (l : Nat) : Chip := s.emit (.linkCtrl l (.descriptor (s.localDesc l)))

/-- Bring-up runs: the link is neither up nor out of use. -/
def LinkState.bringUp : LinkState → Bool
  | .down => true | .training => true | .exchange => true | _ => false

/-- Training of a link that is Down begins where its dies run (DESIGN CHOICE log 139). -/
def Chip.beginTraining (s : Chip) (l : Nat) : Chip :=
  s.when ((s.link l).state == .down) fun s => s.setLink l fun x => { x with state := .training }

/-- A module count and a rate code that R25 allows. -/
def trainable (l modules : Nat) (rate : Byte) : Bool :=
  1 ≤ modules && modules ≤ (Link.modulesOf l).1 && rate.toNat ≤ 5

/-- Training has reached the settled module count and rate (R38). -/
def Link.trainedAsSettled (x : Link) : Bool :=
  match x.settled with
  | some v => x.trainedModules == v.modules.toNat && x.trainedRate == v.rate
  | none => false

/-- UCIe's adapter is Active: the link is in Exchange and the descriptor goes out. A link that both sides settled and that
trained otherwise has retrained; it goes on once training reaches the settled values (R38). -/
def Chip.adapterActive (s : Chip) (l modules : Nat) (rate : Byte) : Chip :=
  let s := s.beginTraining l
  s.when ((s.link l).state == .training && trainable l modules rate) fun s =>
    let s := s.setLink l fun x => { x with trainedModules := modules, trainedRate := rate }
    let x := s.link l
    if x.agreed then (if x.trainedAsSettled then s.setLink l fun x => { x with state := .exchange } else s)
    else (s.setLink l fun x => { x with state := .exchange }).sendDescriptor l

def execGdpAdapterActive (link : Fin 34) (modules : Nat) (rate : Byte) (s : State) : Host.Outcome State Fault Refusal :=
  s.act fun c => c.adapterActive link.val modules rate

/-- A unit number for a peer that is no die of the D3's own: the lowest of 0x80–0xBF that no link has given out (R26,
DESIGN CHOICE log 140). -/
def Chip.newUnit (s : Chip) (l : Nat) (peer : List Byte) : Option Byte :=
  if l < 10 || descField peer 6 2 == 1 then none
  else ((List.range 64).map fun k => BitVec.ofNat 8 (0x80 + k)).find? fun u =>
    !((List.range 34).any fun k => k != l && (s.link k).unit == some u)

/-- The unit number of the die at a link (R26). -/
def Chip.peerUnit (s : Chip) (l : Nat) : Byte :=
  (s.link l).unit.getD (BitVec.ofNat 8 (if l < 10 then (farEnd l).1 else if l < 14 then 0x40 + (l - 10) / 2 else 0x20 + (l - 14)))

/-- The peer's descriptor: it settles, or the link is Quarantined or Failed. -/
def Chip.takeDescriptor (s : Chip) (l : Nat) (d : List Byte) : Chip :=
  s.when ((s.link l).state == .exchange) fun s =>
    let own := s.localDesc l
    let d := fit 256 d
    let s := s.setLink l fun x => { x with peerDesc := d }
    if !(descValid d) then
      let s := s.setLink l fun x => { x with badDescs := x.badDescs + 1 }
      if (s.link l).badDescs ≥ 3 then s.linkFail l else s
    else match settlement l own d with
      | .quarantined =>
        let f (x : List Byte) : List Arg := [.u8 (descField x 11 1), .u8 (descField x 12 1), .u8 (descField x 3 1)]
        (s.setLink l fun x => { x with state := .quarantined }).raise 0x8103 (.u8 l :: (f own ++ f d))
      | .failed => s.linkFail l
      | .settled v =>
        let u := s.newUnit l d
        (s.setLink l fun x => { x with settled := some v, agreed := false, unit := u }).emit (.linkCtrl l (.settle v))

def execGdpDescriptorReceived (link : Fin 34) (desc : List Byte) (s : State) : Host.Outcome State Fault Refusal :=
  s.act fun c => c.takeDescriptor link.val desc

/-- The peer's SETTLE: equal to the own one, both dies retrain where training reached other values (R38); otherwise the
exchange starts again, and three differing rounds fail the link. -/
def Chip.takeSettle (s : Chip) (l : Nat) (v : Settle) : Chip :=
  match (s.link l).state, (s.link l).settled with
  | .exchange, some own =>
    if v = own then s.setLink l fun x => { x with
      agreed := true, state := if x.trainedAsSettled then .exchange else .training }
    else
      let s := s.setLink l fun x => { x with rounds := x.rounds + 1, settled := none, agreed := false }
      if (s.link l).rounds ≥ 3 then s.linkFail l else s.sendDescriptor l
  | _, _ => s

def execGdpSettleReceived (link : Fin 34) (settle : Settle) (s : State) : Host.Outcome State Fault Refusal :=
  s.act fun c => c.takeSettle link.val settle

/-- Fewer modules than offered at bring-up: Degraded (R40, DEDUCED log 113). -/
def Link.upState (x : Link) (modules : Nat) : LinkState := if modules < x.firstOffer then .degraded else .active

/-! ### Credits (R31) -/

/-- The flit slots of 256 bytes that a message takes. -/
def gdpSlots (m : GdpMsg) : Nat := (16 + m.payload.length + 255) / 256

/-- A message goes out where the peer's grant of its class has room for it, and waits otherwise; the peer has its credits
back once it has taken the message (DESIGN CHOICE log 141). -/
def Chip.gdpSend (s : Chip) (l : Nat) (m : GdpMsg) : Chip :=
  if gdpSlots m ≤ nth 0 (s.link l).credits m.prio.toNat then s.emit (.gdp l m)
  else s.setLink l fun x => { x with waiting := x.waiting ++ [m] }

/-- Training at the settled values is done: the peer's credits are granted and the link carries traffic, what waited for
credits first. The lanes that were due are repaired by this training (R43). -/
def Chip.linkActive (s : Chip) (l : Nat) : Chip :=
  match (s.link l).settled with
  | some v =>
    s.when ((s.link l).state == .exchange && (s.link l).agreed && (s.link l).trainedAsSettled) fun s =>
      let held := (s.link l).waiting
      let s := s.setLink l fun x => { x with
        state := x.upState v.modules.toNat, modules := v.modules.toNat, rate := v.rate, waiting := []
        credits := (List.range 4).map fun k => descField x.peerDesc (32 + 2 * k) 2
        laneRepairs := x.laneRepairs + x.lanesDue.length, lanesDue := [], attempts := 0, rounds := 0, badDescs := 0 }
      s.each held fun s m => s.gdpSend l m
  | none => s

def execGdpLinkActive (link : Fin 34) (s : State) : Host.Outcome State Fault Refusal := s.act fun c => c.linkActive link.val

/-- A link is not Active in time: training starts again, and after three attempts it is Failed. While the peer is in reset
nothing is counted until 100 ms after the own reset. -/
def Chip.bringupTimeout (s : Chip) (l : Nat) (peerInReset : Bool) : Chip :=
  s.when (s.link l).state.bringUp fun s =>
    let s := s.linkDrop l .training
    if peerInReset && s.aon < s.mgmt.bootOrigin + 100000000 then s
    else
      let s := s.setLink l fun x => { x with attempts := x.attempts + 1 }
      if (s.link l).attempts ≥ 3 then (s.linkFail l).raise 0x8104 [.u8 l] else s

def execGdpBringupTimeout (link : Fin 34) (peerInReset : Bool) (s : State) : Host.Outcome State Fault Refusal :=
  s.act fun c => c.bringupTimeout link.val peerInReset

/-- A link that carried traffic is lost: Down, and bring-up starts again. -/
def Chip.linkLost (s : Chip) (l : Nat) : Chip := s.when (s.link l).state.carries fun s => s.linkDrop l .down

def execGdpLinkLost (link : Fin 34) (s : State) : Host.Outcome State Fault Refusal := s.act fun c => c.linkLost link.val

/-! ### Modules and lanes (R42–R44) -/

/-- A feature of the settled set. -/
def Link.feature (x : Link) (k : Nat) : Bool :=
  match x.settled with
  | some v => v.features.getLsbD k
  | none => false

/-- A link loses a module for good: it runs on Degraded, retrains at the smaller width where the peer cannot spare live
(R44), or is Failed below the minimum. -/
def Chip.narrow (s : Chip) (l : Nat) : Chip :=
  let x := s.link l
  let n := x.modules - 1
  let s := (s.setLink l fun x => { x with offered := min x.offered n }).raise 0x4102 [.u8 l, .u8 n]
  if n < Link.minModules l then s.linkFail l
  else if x.feature 7 then s.setLink l fun x => { x with modules := n, state := .degraded }
  else s.linkDrop l .down

/-- A swap starts for a failed module, or waits for the one that runs. The side that decided sends SPARE_REQ, its peer
acknowledges. -/
def Chip.startSwap (s : Chip) (l m : Nat) (own : Bool) : Chip :=
  let x := s.link l
  if x.swap.isSome then s.setLink l fun x => { x with queued := x.queued ++ [(m, own)] }
  else if x.feature 7 && x.sparesLeft > 0 then
    (s.setLink l fun x => { x with state := .sparing, swap := some ⟨m, own, false, none⟩ }).emit
      (.linkCtrl l (if own then .spareReq m else .spareAck m))
  else s.narrow l

/-- A module is beyond repair. -/
def Chip.moduleFailure (s : Chip) (l m : Nat) : Chip :=
  let all := (Link.modulesOf l).1 + (Link.modulesOf l).2
  s.when ((s.link l).state.carries && m < all) fun s => s.startSwap l m true

def execGdpModuleFailure (link : Fin 34) (module : Fin 26) (s : State) : Host.Outcome State Fault Refusal :=
  s.act fun c => c.moduleFailure link.val module.val

/-- The peer asks for a swap: this side acknowledges and trains its half of the spare. -/
def Chip.spareReq (s : Chip) (l m : Nat) : Chip :=
  s.when ((s.link l).state.carries && (s.link l).feature 7) fun s => s.startSwap l m false

def execSpareReq (link : Fin 34) (module : Fin 26) (s : State) : Host.Outcome State Fault Refusal :=
  s.act fun c => c.spareReq link.val module.val

/-- The spare is trained and passes its pattern at flit n: the side that decided sends SWITCH for flit n + 64; its peer
waits for it. -/
def Chip.spareTrained (s : Chip) (l n : Nat) : Chip :=
  match (s.link l).swap with
  | some w =>
    if w.trained then s
    else if w.own then
      (s.setLink l fun x => { x with swap := some { w with trained := true, switchAt := some (n + 64) } }).emit
        (.linkCtrl l (.switch (n + 64)))
    else s.setLink l fun x => { x with swap := some { w with trained := true } }
  | none => s

def execGdpSpareTrained (link : Fin 34) (flit : Nat) (s : State) : Host.Outcome State Fault Refusal :=
  s.act fun c => c.spareTrained link.val flit

/-- The switch flit is reached: the old module is retired and the spare is in use. The side that was told the flit
confirms it. A module that waited is swapped next. -/
def Chip.switchFlit (s : Chip) (l n : Nat) : Chip :=
  match (s.link l).swap with
  | some w =>
    if !w.trained || (w.own && w.switchAt != some n) then s
    else
      let s := if w.own then s else s.emit (.linkCtrl l (.switchConfirm n))
      let s := s.setLink l fun x => { x with swap := none, sparesLeft := x.sparesLeft - 1, state := x.upState x.modules }
      let s := s.raise 0x0101 [.u8 l, .u8 w.module]
      match (s.link l).queued with
      | m :: r => (s.setLink l fun x => { x with queued := r }).startSwap l m.1 m.2
      | [] => s
  | none => s

def execGdpSwitch (link : Fin 34) (flit : Nat) (s : State) : Host.Outcome State Fault Refusal :=
  s.act fun c => c.switchFlit link.val flit

/-- A lane's CRC retries of the last second. -/
def Link.laneCount (x : Link) (m lane : Nat) : Nat :=
  x.laneHits.foldl (fun k e => if e.1 = m ∧ e.2.1 = lane then k + e.2.2.2 else k) 0

/-- CRC retries of a lane are counted; one with more than the limit in any 1 s is due for repair (R43). -/
def Chip.laneRetries (s : Chip) (l m lane n : Nat) : Chip :=
  s.when (s.link l).state.carries fun s =>
    let s := s.setLink l fun x => { x with
      crcRetries := x.crcRetries + BitVec.ofNat 64 n
      laneHits := (x.laneHits.filter fun e => s.aon < e.2.2.1 + 1000000000) ++ [(m, lane, s.aon, n)] }
    s.when ((s.link l).laneCount m lane > s.obj O.laneRetryLimit && !((s.link l).lanesDue.contains (m, lane))) fun s =>
      s.setLink l fun x => { x with lanesDue := x.lanesDue ++ [(m, lane)] }

def execLaneRetryLimitExceeded (link : Fin 34) (module : Fin 26) (lane : Fin 64) (retries : Nat) (s : State) :
    Host.Outcome State Fault Refusal :=
  s.act fun c => c.laneRetries link.val module.val lane.val retries

/-! ### Messages (R26–R30) -/

/-- The opcodes and their codes (R27). -/
def gdpCodes : List (Nat × GdpOp) :=
  [(0, .nop), (1, .read), (2, .readResp), (3, .write), (4, .writeAck), (5, .atomic), (6, .atomicResp), (7, .counterSignal),
   (8, .cell), (9, .mgmt), (10, .telemetry), (11, .linkCtrl)]
def gdpCode : GdpOp → BitVec 6
  | .reserved c => c
  | op => BitVec.ofNat 6 ((gdpCodes.find? fun e => e.2 == op).map (·.1) |>.getD 0)
def gdpOpOf (code : BitVec 6) : GdpOp := ((gdpCodes.find? fun e => e.1 == code.toNat).map (·.2)).getD (.reserved code)

/-- The 16-byte header (R26). -/
def gdpHeader (m : GdpMsg) : BitVec 128 :=
  gdpCode m.op ++ m.prio ++ m.hint ++ BitVec.ofBool m.poison ++ 0#1 ++ m.len ++ m.tag ++ m.src ++ m.dst ++ m.status ++ m.aop ++
    0#27 ++ m.addr
/-- A message on a link: its header, least significant byte first, and its payload. -/
def gdpBytes (m : GdpMsg) : List Byte := leBytes 16 (gdpHeader m).toNat ++ m.payload
/-- The message that bytes hold. -/
def gdpOfBytes (bs : List Byte) : GdpMsg :=
  let h := BitVec.ofNat 128 (leNat (bs.take 16))
  { op := gdpOpOf (h.extractLsb' 122 6), prio := h.extractLsb' 120 2, hint := h.extractLsb' 118 2, poison := h.getLsbD 117
    len := h.extractLsb' 107 9, tag := h.extractLsb' 95 12, src := h.extractLsb' 87 8, dst := h.extractLsb' 79 8
    status := h.extractLsb' 75 4, aop := h.extractLsb' 71 4, addr := h.extractLsb' 0 44, payload := bs.drop 16 }

/-- The priority classes an opcode may come in (R27). -/
def gdpPrioOk (m : GdpMsg) : Bool :=
  match m.op with
  | .read | .write | .cell => m.prio != 0
  | .atomic => m.prio == 1 || m.prio == 2
  | .counterSignal => m.prio == 1
  | .mgmt | .telemetry | .linkCtrl => m.prio == 0
  | _ => true

/-- A unit number that stands for a die of the package; 0xFF is for MGMT alone (R26). -/
def Chip.unitKnown (s : Chip) (m : GdpMsg) : Bool :=
  let u := m.dst.toNat
  u < 8 || (0x10 ≤ u && u < 0x18) || (0x20 ≤ u && u < 0x34) || u == 0x40 || u == 0x41 || (u == 0xFF && m.op == .mgmt) ||
  (List.range 34).any fun l => (s.link l).unit == some m.dst

/-- A message to which a response goes back. -/
def gdpResponseOp : GdpOp → Option GdpOp
  | .read => some .readResp | .write => some .writeAck | .counterSignal => some .writeAck | .atomic => some .atomicResp
  | _ => none

/-- The answer to a request: the tag, the units exchanged, the class kept. -/
def Chip.gdpAnswer (s : Chip) (l : Nat) (m : GdpMsg) (status : Nat) (data : List Byte) (poison : Bool) : Chip :=
  match gdpResponseOp m.op with
  | some op => s.gdpSend l { m with
      op := op, hint := 0, poison := poison, src := m.dst, dst := m.src, status := BitVec.ofNat 4 status, aop := 0
      len := BitVec.ofNat 9 data.length, payload := data }
  | none => s

/-- A message the settled set has no room for: its payload is discarded, a request is answered UNSUPPORTED (R28). -/
def Chip.gdpUnsupported (s : Chip) (l : Nat) (m : GdpMsg) : Chip := (s.gdpAnswer l m 2 [] false).raiseLimited 0x4108 l [.u8 l]

/-- The feature an opcode needs (R27). -/
def gdpSettled (m : GdpMsg) (x : Link) : Bool :=
  match m.op with
  | .atomic => m.aop ≤ 8 && x.feature (if m.aop = 8 then 1 else 0)
  | .counterSignal => x.feature 4
  | .cell => x.feature 5
  | .telemetry => x.feature 6
  | .reserved _ => false
  | _ => true

/-- A message of the row's opcode does f; a reserved opcode, one that is not settled, or one in a class it may not come in,
is refused; one for no unit of the package is answered ADDR_ERROR (DEDUCED log 112, DESIGN CHOICE log 142). -/
def Chip.gdpArrival (s : Chip) (l : Nat) (m : GdpMsg) (mine : GdpOp) (f : Chip → Chip) : Chip :=
  s.when (s.link l).state.carries fun s =>
    match m.op with
    | .reserved _ => s.gdpUnsupported l m
    | op =>
      if op ≠ mine then s
      else if !(gdpSettled m (s.link l)) || !(gdpPrioOk m) then s.gdpUnsupported l m
      else if !(s.unitKnown m) then s.gdpAnswer l m 4 [] false
      else f s

/-- 4 or 8 aligned bytes. -/
def wordSized (o n : Nat) : Bool := (n == 4 || n == 8) && o % n == 0

/-- READ: served at its address (R11, R30). -/
def Chip.gdpRead (s : Chip) (l : Nat) (m : GdpMsg) : Chip :=
  let o := m.addr.toNat
  let n := m.len.toNat
  let site := (linkEnd l).1
  if n > 256 then s.gdpAnswer l m 4 [] false
  else if s.rangeData o n then
    if s.cutOff site o then s.gdpAnswer l m 5 (List.replicate n 0xFF) true
    else
      let (s, r) := s.readFrom site o n m.hint
      s.gdpAnswer l m (if readPoison r then 1 else 0) (readData r) (readPoison r)
  else if ((s.region o).isCsr && wordSized o n) || inCounterRange o then
    match s.regBytes o n with
    | some bs => s.gdpAnswer l m 0 bs false
    | none => (if inCounterRange o then s.counterRefusal else s).gdpAnswer l m 4 [] false
  else s.gdpAnswer l m 4 [] false

def execGdpRead (link : Fin 34) (msg : GdpMsg) (s : State) : Host.Outcome State Fault Refusal :=
  s.act fun c => c.gdpArrival link.val msg .read fun c => c.gdpRead link.val msg

/-- WRITE: poisoned data is stored marked (R30). -/
def Chip.gdpWrite (s : Chip) (l : Nat) (m : GdpMsg) : Chip :=
  let o := m.addr.toNat
  let n := m.len.toNat
  let bs := fit n m.payload
  let site := (linkEnd l).1
  if n > 256 then s.gdpAnswer l m 4 [] false
  else if s.rangeData o n then
    let t := s.writeFrom site o bs m.poison m.hint
    if s.cutOff site o then t.gdpAnswer l m 5 [] false else t.gdpAnswer l m 0 [] false
  else if (s.region o).isCsr && wordSized o n then
    (s.regWrite o n (leNat bs) (.gdp l m.tag)).gdpAnswer l m 0 [] false
  else if inBarriers o && n == 8 && o % 8 == 0 then
    (s.barrierStore o (BitVec.ofNat 64 (leNat bs))).gdpAnswer l m 0 [] false
  else (if inCounterRange o then s.counterRefusal else s).gdpAnswer l m 4 [] false

def execGdpWrite (link : Fin 34) (msg : GdpMsg) (s : State) : Host.Outcome State Fault Refusal :=
  s.act fun c => c.gdpArrival link.val msg .write fun c => c.gdpWrite link.val msg

/-- ATOMIC: on 64-bit integers, or FADD32; the operands are the first words of the payload (DESIGN CHOICE log 49). -/
def Chip.gdpAtomic (s : Chip) (l : Nat) (m : GdpMsg) : Chip :=
  let o := m.addr.toNat
  let n := if m.aop = 8 then 4 else 8
  let a := leNat (slice m.payload 0 n)
  let b := leNat (slice m.payload n n)
  let site := (linkEnd l).1
  if m.aop = 8 && s.objb O.detMode then (s.detRefusal 4).gdpAnswer l m 2 [] false
  else if s.rangeData o n && o % n == 0 then
    if s.cutOff site o then s.gdpAnswer l m 5 (List.replicate n 0xFF) true
    else
      let (s, old, bad) := s.memAtomic site o n m.aop.toNat a b m.poison m.hint
      s.gdpAnswer l m (if bad then 1 else 0) (leBytes n old) bad
  else (if inCounterRange o then s.counterRefusal else s).gdpAnswer l m 4 [] false

def execGdpAtomic (link : Fin 34) (msg : GdpMsg) (s : State) : Host.Outcome State Fault Refusal :=
  s.act fun c => c.gdpArrival link.val msg .atomic fun c => c.gdpAtomic link.val msg

/-- COUNTER_SIGNAL: the payload's first word is added to the counter at ADDR; one refused is answered (DESIGN CHOICE log 49).
A counter holds no mark, so a poisoned amount is not added and is answered POISONED (R30, DESIGN CHOICE log 143). -/
def Chip.gdpSignal (s : Chip) (l : Nat) (m : GdpMsg) : Chip :=
  let o := m.addr.toNat
  if namesCounter o then
    if m.poison then s.gdpAnswer l m 1 [] false
    else match s.addFrom (counterOfOffset o) (BitVec.ofNat 64 (leNat (slice m.payload 0 8))) (.gdp l m.tag) with
    | (s, .refused) => s.gdpAnswer l m 4 [] false
    | (s, .noRoom) => s.gdpAnswer l m 3 [] false
    | (s, _) => s
  else (if inCounterRange o then s.counterRefusal else s).gdpAnswer l m 4 [] false

def execGdpCounterSignal (link : Fin 34) (msg : GdpMsg) (s : State) : Host.Outcome State Fault Refusal :=
  s.act fun c => c.gdpArrival link.val msg .counterSignal fun c => c.gdpSignal link.val msg

/-- The cell a 64-byte payload holds, most significant byte first (R94). -/
def cellOfBytes (bs : List Byte) : Cell :=
  let x := beNat (fit 64 bs)
  let f (hi lo w : Nat) : BitVec w := BitVec.ofNat w (bitsOf x hi lo)
  { type := f 511 508 4, flags := f 507 504 4, dest := f 503 488 16, src := f 487 472 16, age := f 471 466 6
    defl := f 465 462 4, stream := f 461 448 14, seq := f 447 432 16, len := f 431 426 6, offset := f 425 384 42
    payload := f 383 0 384 }

/-- CELL: a cell from an engine reaches the router. A cell has no mark to carry, so a poisoned one goes no further (R30,
DESIGN CHOICE log 143). -/
def Chip.gdpCell (s : Chip) (m : GdpMsg) : Chip :=
  s.when (!m.poison) fun s => { s with tn := { s.tn with arrivals := s.tn.arrivals ++ [cellOfBytes m.payload] } }

def execGdpCell (link : Fin 34) (msg : GdpMsg) (s : State) : Host.Outcome State Fault Refusal :=
  s.act fun c => c.gdpArrival link.val msg .cell fun c => c.gdpCell msg

/-- MGMT: accepted and answered, OK and without a body (DESIGN CHOICE log 49). -/
def Chip.gdpMgmt (s : Chip) (l : Nat) (m : GdpMsg) : Chip :=
  s.gdpSend l { m with hint := 0, src := m.dst, dst := m.src, status := 0, len := 0, payload := [] }

def execGdpMgmt (link : Fin 34) (msg : GdpMsg) (s : State) : Host.Outcome State Fault Refusal :=
  s.act fun c => c.gdpArrival link.val msg .mgmt fun c => c.gdpMgmt link.val msg

/-! ### Requests of this chip (R33, R41) -/

/-- A request of this chip goes out and waits for its response. -/
def Chip.gdpRequest (s : Chip) (l : Nat) (m : GdpMsg) : Chip :=
  (s.setLink l fun x => { x with outstanding := x.outstanding ++ [m] }).gdpSend l m

/-- A response completes its request with its status; one without a request is discarded. -/
def Chip.gdpResponse (s : Chip) (l : Nat) (m : GdpMsg) : Chip :=
  match (s.link l).outstanding.find? (fun r => r.tag == m.tag && gdpResponseOp r.op == some m.op) with
  | none => s
  | some r =>
    let s := s.setLink l fun x => { x with outstanding := x.outstanding.erase r }
    if r.op = .write then s.emit (.gdpDone l r.tag m.status.toNat [] false)
    else if m.status = 0 ∨ m.status = 1 then
      s.emit (.gdpDone l r.tag m.status.toNat (if r.op = .read then fit r.len.toNat m.payload else m.payload)
        (m.poison || m.status == 1))
    else s.emit (.gdpDone l r.tag m.status.toNat (if r.op = .read then List.replicate r.len.toNat 0xFF else []) true)

def execGdpResponse (link : Fin 34) (msg : GdpMsg) (s : State) : Host.Outcome State Fault Refusal :=
  s.act fun c => c.when (c.link link.val).state.carries fun c => c.gdpResponse link.val msg

/-- The culvert by which a request that a down culvert lost goes out again: the first of the path that is left from the near
end of the old one to its far end (R41). -/
def Chip.newWay (s : Chip) (l : Nat) : Option Nat :=
  if 10 ≤ l || (s.link l).state.carries then none
  else match s.path (linkEnd l).1 (farEnd l).1 with
    | some (k :: _) => some k
    | _ => none

/-- No response in time: the request completes TIMEOUT. A READ returns all ones marked poisoned, a WRITE is reported. A
request that went by a culvert that is down is sent again on the new path, under the same tag where it is free there. -/
def Chip.gdpTimeout (s : Chip) (l : Nat) (tag : BitVec 12) : Chip :=
  match (s.link l).outstanding.find? (fun r => r.tag == tag) with
  | none => s
  | some r =>
    let s := s.setLink l fun x => { x with outstanding := x.outstanding.erase r, waiting := x.waiting.erase r }
    let s := if r.op = .write then (s.raise 0x8109 [.u8 l, .u16 tag.toNat]).emit (.gdpDone l tag 5 [] false)
      else s.emit (.gdpDone l tag 5 (if r.op = .read then List.replicate r.len.toNat 0xFF else []) (r.op == .read))
    match s.newWay l with
    | some k => if (s.link k).outstanding.any (·.tag == r.tag) then s else s.gdpRequest k r
    | none => s

def execGdpRequestTimeout (link : Fin 34) (tag : BitVec 12) (s : State) : Host.Outcome State Fault Refusal :=
  s.act fun c => c.gdpTimeout link.val tag

end Sys2Proof.Machine
end

