-- ==== Sys2Proof/Machine/Ports.lean ====
section
/-! DEFINITION. The states of optical ports: how a port closes, retrains and comes up, its replay, its lane procedures
and its lasers (R51, R52, R60–R62, R66, R74–R80, R86). -/

namespace Sys2Proof.Machine

/-! ### Engines and lasers (R52, R63) -/

def Chip.engine (s : Chip) (e : Nat) : Engine := Tab.get Engine.reset s.engines e
def Chip.setEngine (s : Chip) (e : Nat) (f : Engine → Engine) : Chip :=
  { s with engines := Tab.modify Engine.reset s.engines e f }

/-- The ports of an engine. -/
def enginePorts (e : Nat) : List Nat := (List.range 8).map (8 * e + ·)

def Chip.laser (s : Chip) (e c : Nat) : LaserState := nth .cold (s.engine e).lasers c
def Chip.setLaser (s : Chip) (e c : Nat) (v : LaserState) : Chip :=
  s.setEngine e fun x => { x with lasers := setAt x.lasers c v }

/-- A laser that can carry a lane. -/
def LaserState.sound : LaserState → Bool
  | .cold => true | .warming => true | .locked => true | _ => false

/-- A port uses a channel, in its map or for the procedure that runs. -/
def Port.uses (x : Port) (c : Nat) : Bool :=
  x.txMap.contains c || (match x.proc with
    | some w => w.channel == c
    | none => false)

/-- Lasers of a bank that no port of its engine uses any more, of the given ones, in state v. -/
def Chip.idleLasers (s : Chip) (e : Nat) (l : List Nat) (v : LaserState) : Chip :=
  s.each l fun s c => if (enginePorts e).any (fun p => (s.port p).uses c) then s else s.setLaser e c v

/-- Once every port of the engine has left Circuit, its two spare lasers go cold again where nothing uses them (R52, R71). -/
def Chip.coolSpares (s : Chip) (was : PortState) (e : Nat) : Chip :=
  if was = .circuit && !((enginePorts e).any fun q => (s.port q).state == .circuit) then
    s.idleLasers e ([0, 17].filter fun c => s.laser e c = .locked) .cold
  else s

/-! ### Roles, modes and link-control arguments -/

/-- SPM applies: it is selected, Configure has ended and the peer's mode is the same (R81, R84, R454). -/
def Chip.spm (s : Chip) (p : Nat) : Bool :=
  s.obj O.safetyMode == 1 && s.mgmt.configEnded && !(s.port p).modeMismatch

/-- The causes of event 0x8201, as the model numbers them (DESIGN CHOICE log 51). -/
def failTraining : Nat := 1
def failRetrain : Nat := 2
def failWidth : Nat := 3
def failThermal : Nat := 4
def failTransmit : Nat := 5

/-- A lane map as 16 bytes, lane 0 first, at the more significant end (R59) (DESIGN CHOICE log 148). -/
def mapBytes (m : List Nat) : Nat := beNat (m.map (BitVec.ofNat 8 ·))

/-- The lane map of 16 bytes. -/
def mapOf (n : Nat) : List Nat := (beBytes 16 n).map (·.toNat)

/-- A field of an ARG. -/
def argField (c : CtrlSlot) (hi lo : Nat) : Nat := bitsOf c.arg.toNat hi lo

/-- The ARG of a LANE_MAP that announces the transmit map (R51, R59). -/
def Port.mapArg (x : Port) : Nat := mapWidth x.txMap * 2 ^ 440 + x.txEpoch.toNat * 2 ^ 424 + mapBytes x.txMap * 2 ^ 280

/-- LANE_MAP before the superframes are numbered (R69, R78). -/
def Chip.announceMap (s : Chip) (p : Nat) : Chip := s.sendUnnumbered p (s.ctrlSlot p 0x17 (s.port p).mapArg)

/-! ### Retry (R60, R61) -/

/-- A superframe for w lanes: cells that no longer fit go into one of their own after it (R77) (DESIGN CHOICE log 149). -/
def TxFrame.split (w : Nat) (e : TxFrame) : List TxFrame :=
  let room := w - e.ctrl.toList.length
  if e.cells.length ≤ room then [e]
  else [{ e with cells := e.cells.take room }, { e with ctrl := none, cells := e.cells.drop room }]

/-- A superframe under a number. -/
def TxFrame.number (e : TxFrame) (q : Half) : TxFrame :=
  { e with seq := q, ctrl := e.ctrl.map fun c => { c with txSeq := q }, fill := { e.fill with txSeq := q } }

/-- The superframes that a replay from f on sends, under the map of now, with their numbers. -/
def Port.again (x : Port) (f : Half) : Half × List TxFrame :=
  let l := x.replay.filter fun r => seqCovers r.seq f
  let first := match l with
    | r :: _ => r.seq
    | [] => x.txSeq
  (first, (l.flatMap (·.split (mapWidth x.txMap))).zipIdx.map fun e => e.1.number (first + BitVec.ofNat 16 e.2))

/-- REPLAY, then the buffer again from superframe f on (go-back-N). REPLAY travels in a superframe of its own, which has the
number of the first that is sent again and is not kept (DESIGN CHOICE log 149). -/
def Chip.sendReplay (s : Chip) (p : Nat) (f : Half) : Chip :=
  let x := s.port p
  if x.looping || x.bertTx then s
  else
    let (first, l) := x.again f
    let s := s.setPort p fun x => { x with
      linkRetries := x.linkRetries + 1, txSeq := first + BitVec.ofNat 16 l.length
      replay := (x.replay.filter fun r => !(seqCovers r.seq f)) ++ l }
    let s := s.sendUnnumbered p { s.ctrlSlot p 0x02 (first.toNat * 2 ^ 432) with txSeq := first }
    s.each l fun s e => s.sendFrame p e

/-- The oldest superframe without an acknowledgement. -/
def Port.oldest (x : Port) : Half :=
  match x.replay with
  | r :: _ => r.seq
  | [] => x.txSeq

/-! ### Leaving the states that carry traffic (R62, R66, R78, R86, R138) -/

/-- A lane procedure in progress is abandoned; the epoch last confirmed stands, with its map (R78). -/
def Port.abandon (x : Port) : Port :=
  { x with
    proc := none, needs := [], rxChange := none, txWidth := 0, rxWidth := 0, looping := false, bertRx := 0, bertTx := false
    peerDark := false
    txMap := match x.proc with
      | some w => w.oldMap
      | none => x.txMap }

/-- The set of usable ports changes as a GN port stops carrying traffic; its replay buffer is kept. -/
def Chip.gnDark (s : Chip) (p : Nat) (lit : Bool) : Chip :=
  if s.isGnPort p then
    let s := if lit then s else s.setGnCredits p fun _ => GnCredits.none
    (s.rebuildPortMap p).gnReroute p
  else s

/-- A port closes its shutter and ends its link: what it had not got acknowledged goes back to the router or to the
general-network layer. -/
def Chip.closePort (s : Chip) (p : Nat) (st : PortState) : Chip :=
  let x := s.port p
  let slots := x.replay.flatMap (·.cells) ++ x.txPending
  let s := s.setPort p fun x => { x.abandon with
    state := st, shutterOpen := false, replay := [], txPending := [], slotsOut := 0, retraining := false, attempts := 0
    awaitingReplay := false, retryOf := none, failedReplays := 0, peerReady := false, drains := false, peerDraining := false
    lightLost := none, probeAt := none, probeSeen := false, bootTest := false, rxDead := [], failTimes := [], sinceCtrl := 0 }
  let s := s.coolSpares x.state (p / 8)
  if s.isGnPort p then s.gnPortDown p else s.takeBack slots

/-- A port fails for a cause (R66). -/
def Chip.failPort (s : Chip) (p cause : Nat) : Chip := (s.closePort p .failed).raise 0x8201 [.u8 p, .u8 cause]

/-- A port that was up goes back to Tuning with its shutter open; its replay buffer is kept (R62) (DEDUCED log 59). -/
def Chip.retune (s : Chip) (p : Nat) : Chip :=
  ((s.setPort p fun x => { x.abandon with
    state := .tuning, shutterOpen := true, retraining := true, awaitingReplay := false, retryOf := none, failedReplays := 0
    failTimes := [], aloneFails := none, rxDead := [], receivers := [], lightLost := none }).coolSpares (s.port p).state (p / 8)).gnDark
    p true

/-- A port closes its shutter and probes again; its replay buffer is kept (R82, R83). -/
def Chip.reprobe (s : Chip) (p : Nat) : Chip :=
  ((s.setPort p fun x => { x.abandon with
    state := .probing, shutterOpen := false, retraining := true, attempts := 0, awaitingReplay := false, retryOf := none
    failedReplays := 0, failTimes := [], aloneFails := none, rxDead := [], lightLost := none, probeAt := none
    probeSeen := false, peerReady := false }).coolSpares (s.port p).state (p / 8)).gnDark p false

/-- A Disabled or Failed port is enabled: it probes with nothing left of an earlier link. A spare port, or one whose
engine is dark, stays as it is, and without optical-engine firmware every port does (R457). -/
def Chip.startPort (s : Chip) (p : Nat) : Chip :=
  if s.obju O.portRole p = 0 ∨ !(s.engine (p / 8)).powered ∨ (Tab.get Component.reset s.mgmt.components 4).state = .invalid then s
  else s.setPort p fun x => { x with
    state := .probing, retraining := false, attempts := 0, probeAt := none, probeSeen := false, modeMismatch := false
    peerMonitor := none, bursts := [] }

/-! ### Lane procedures (R74–R80) -/

/-- Active at full width in both directions, Degraded below (R66). -/
def Port.upState (x : Port) : PortState := if mapWidth x.txMap = 16 ∧ mapWidth x.rxMap = 16 then .active else .degraded

/-- Sparing while a procedure runs in either direction; otherwise Active or Degraded. -/
def Port.settle (x : Port) : Port :=
  if x.state.carries then
    { x with state := if x.proc.isSome || x.rxChange.isSome then .sparing else x.upState
             txWidth := mapWidth x.txMap, rxWidth := mapWidth x.rxMap }
  else x

/-- A map without a lane: the lanes above it move down by one (DEDUCED log 52). -/
def dropLane (m : List Nat) (lane : Nat) : List Nat := (m.eraseIdx lane) ++ [255]

/-- WIDTH_CHANGE to a new map, from superframe TX_SEQ + 1,024 on (R79). -/
def Chip.startWidth (s : Chip) (p lane : Nat) (m : List Nat) (dead : Bool) : Chip :=
  let x := s.port p
  let epoch := x.txEpoch + 1
  let q := x.txSeq + 1024
  let s := s.setPort p fun x => { x with proc := some {
    kind := if dead then .deadWidth else .width, step := .switchSent, lane := lane, oldChannel := nth 255 x.txMap lane
    channel := 255, epoch := epoch, switchSeq := q, newMap := m, oldMap := x.txMap, oldWidth := mapWidth x.txMap, retried := false } }
  (s.setPort p Port.settle).sendCtrl p 0x16
    (mapWidth m * 2 ^ 440 + epoch.toNat * 2 ^ 424 + q.toNat * 2 ^ 408 + mapBytes m * 2 ^ 280)

/-- A lane is dropped; below MIN_WIDTH the port fails (R79). -/
def Chip.dropOrFail (s : Chip) (p lane : Nat) (dead : Bool) : Chip :=
  let m := dropLane (s.port p).txMap lane
  if mapWidth m < s.obj O.minWidth then s.failPort p failWidth else s.startWidth p lane m dead

/-- The spare channel that serves next: 0 before 17, unused on this fibre, with a laser that can carry it (R74) (DEDUCED log 72). -/
def Chip.nextSpare (s : Chip) (p : Nat) : Option Nat :=
  let x := s.port p
  x.spares.find? fun c => !(x.txMap.contains c) && (s.laser (p / 8) c).sound

/-- A lane moves to a spare channel, whose laser warms if it is cold; without one it is dropped, unless its laser is only
fading (R75, R76, R80). -/
def Chip.startLane (s : Chip) (p lane : Nat) (k : LaneNeed) : Chip :=
  match s.nextSpare p with
  | some c =>
    let s := if s.laser (p / 8) c = .cold then s.setLaser (p / 8) c .warming else s
    let s := s.setPort p fun x => { x with proc := some {
      kind := if k = .dead then .moveDead else .move, step := .warming, lane := lane, oldChannel := nth 255 x.txMap lane
      channel := c, epoch := x.txEpoch + 1, switchSeq := 0, newMap := setAt x.txMap lane c, oldMap := x.txMap
      oldWidth := mapWidth x.txMap, retried := false } }
    s.setPort p Port.settle
  | none => if k = .fading then s else s.dropOrFail p lane (k == .dead)

/-- A procedure whose lane has died goes on without duplication, and ends in a replay (R80). -/
def ProcKind.died : ProcKind → ProcKind
  | .move => .moveDead | .width => .deadWidth | k => k

/-- A channel waits for the procedure that runs; a lane that has died meanwhile waits as a dead one. -/
def addNeed (l : List (Nat × LaneNeed)) (c : Nat) (k : LaneNeed) : List (Nat × LaneNeed) :=
  if l.any (·.1 == c) then l.map fun n => if n.1 = c ∧ k = .dead then (c, k) else n else l ++ [(c, k)]

/-- The engine of a port restarts for new firmware, or waits for its procedures to end so that it can: no new procedure or
training starts on it (R470). -/
def Chip.engineRestarts (s : Chip) (p : Nat) : Bool :=
  match s.mgmt.activation with
  | some a => a.component == 4 && a.units.head? == some (p / 8)
  | none => false

/-- A lane of the transmit direction needs a spare: at once, or after the procedure that runs (R78) or its engine's restart. -/
def Chip.needLane (s : Chip) (p lane : Nat) (k : LaneNeed) : Chip :=
  let x := s.port p
  let c := nth 255 x.txMap lane
  if !x.state.carries || c = 255 then s
  else match x.proc with
    | none => if s.engineRestarts p then s.setPort p fun x => { x with needs := addNeed x.needs c k } else s.startLane p lane k
    | some w => s.setPort p fun x =>
      if w.oldChannel = c then { x with proc := some { w with kind := if k = .dead then w.kind.died else w.kind } }
      else { x with needs := addNeed x.needs c k }

/-- Needs are served until a procedure runs. -/
def Chip.serveNeeds (p : Nat) : Nat → Chip → Chip
  | 0, s => s
  | fuel + 1, s =>
    let x := s.port p
    match x.needs with
    | [] => s
    | (c, k) :: rest =>
      if x.proc.isSome || !x.state.carries || s.engineRestarts p then s
      else
        let s := s.setPort p fun x => { x with needs := rest }
        Chip.serveNeeds p fuel (if x.txMap.contains c then s.startLane p (x.txMap.findIdx (· == c)) k else s)

/-- The procedure is over; the next need is served. -/
def Chip.endProc (s : Chip) (p : Nat) : Chip :=
  Chip.serveNeeds p (s.port p).needs.length (s.setPort p fun x => Port.settle { x with proc := none })

/-- Lanes whose laser is fading or has failed need a spare as the port comes up (R74, R75). -/
def Chip.spareLanes (s : Chip) (p : Nat) : Chip :=
  s.each (List.range 16) fun s i =>
    let c := nth 255 (s.port p).txMap i
    match s.laser (p / 8) c with
    | .fading => s.needLane p i .fading
    | .failed => s.needLane p i .dead
    | _ => s

/-- LANE_OFFER names the lane, the spare channel and the new epoch (R59). -/
def Chip.sendOffer (s : Chip) (p : Nat) (w : LaneProc) : Chip :=
  s.sendCtrl p 0x10 (w.lane * 2 ^ 440 + w.channel * 2 ^ 432 + w.epoch.toNat * 2 ^ 424)

/-! ### Coming up (R70, R91, R138) -/

/-- A TN port that reaches a chip outside its own row, column or domain is reported when it comes up (R91). -/
def Chip.checkCabling (s : Chip) (p : Nat) : Chip :=
  match s.isTnPort p, (s.port p).peerChip with
  | true, some n =>
    if s.objb O.chipAssigned && !(s.cabledTo n) then s.raise 0x8304 [.u8 p, .u16 n] else s
  | _, _ => s

/-- RETRY names the superframe that comes next (R61). -/
def Chip.askReplay (s : Chip) (p : Nat) : Chip := s.sendCtrl p 0x01 ((s.port p).rxNext.toNat * 2 ^ 432)

/-- The port is up again with the superframes it kept, or asks for those it turned away. -/
def Chip.resumeLink (s : Chip) (p : Nat) : Chip :=
  let x := s.port p
  let s := s.setPort p fun x => { x with
    attempts := 0, retraining := false, bootTest := false, looping := false, bertRx := 0, bertTx := false
    awaitingReplay := x.awaitingReplay || x.retraining }
  if x.retraining then s.sendReplay p x.oldest else if x.awaitingReplay then s.askReplay p else s

/-- The port is Active or Degraded; one that drains goes on draining (R70, R85). -/
def Chip.portActive (s : Chip) (p : Nat) : Chip :=
  let x := s.port p
  if x.drains then ((s.setPort p fun x => { x with state := .draining }).resumeLink p).flushPort p
  else
    let s := s.setPort p fun x => { x with state := x.upState, txWidth := mapWidth x.txMap, rxWidth := mapWidth x.rxMap }
    let s := ((s.resumeLink p).raise 0x0202 []).checkCabling p
    let s := if s.isGnPort p then s.gnPortUp p else s
    ((s.flushPort p).spareLanes p).coolSpares x.state (p / 8)

/-- The lasers of both spare channels are lit for the boot test (R52, R71). -/
def Chip.lightSpares (s : Chip) (e : Nat) : Chip :=
  s.each [0, 17] fun s c => if (s.laser e c).sound then s.setLaser e c .locked else s

/-- A port enters Circuit, by request or for the boot test, which tests every lane with PRBS31 (R71, R72). -/
def Chip.enterCircuit (s : Chip) (p : Nat) (boot : Bool) : Chip :=
  let s := s.setPort p fun x => { x with state := .circuit, bootTest := boot, attempts := 0 }
  if boot then
    let s := (s.lightSpares (p / 8)).sendCtrl p 0x21 (2 ^ 440 + 0xFFFF * 2 ^ 424)
    (s.setPort p fun x => { x with bertTx := true, prbsTx := [] }).sendPrbs p
  else s

end Sys2Proof.Machine
end

