-- ==== Sys2Proof/Machine/Optical.lean ====
section
/-! DEFINITION. The optical engines and ports (02_optical_ports): superframes and link-control slots as they arrive,
bring-up and probes, lane procedures, eye safety, draining, and the writes of their objects. -/

namespace Sys2Proof.Machine

/-! ### The bit-error test (R72) -/

/-- A superframe under a bit-error test: the errors of the named lanes are counted over the 512 data bits of each frame
(DESIGN CHOICE log 150). -/
def Chip.countBits (s : Chip) (p : Nat) (frames : List (Nat × LaneFrame)) : Chip :=
  let s := s.each frames fun s f =>
    let lane := (mapChannels (s.port p).rxMap).findIdx (· == f.1)
    if (s.port p).bertRx.getLsbD lane then
      let (reg, n) := prbsLane (Tab.get 0 (s.port p).prbs lane) f.2.words
      s.setPort p fun x => { x with
        prbs := Tab.set 0 x.prbs lane reg
        berErrors := Tab.set 0 x.berErrors f.1 (Tab.get 0 x.berErrors f.1 + BitVec.ofNat 64 n) }
    else s
  s.setPort p fun x => { x with berBits := x.berBits + 512 }

/-! ### Superframes (R56, R61, R62, R74, R80) -/

/-- The map of the receive direction changes at its switch superframe, and the change is confirmed (R76, R79). -/
def Chip.adoptRx (s : Chip) (p : Nat) : Chip :=
  match (s.port p).rxChange with
  | some c =>
    let s := s.setPort p fun x => Port.settle { x with
      rxMap := (match c.newMap with | some m => m | none => setAt x.rxMap c.lane c.channel)
      rxEpoch := c.epoch, rxChange := none, rxDead := if c.newMap.isSome then [] else x.rxDead.filter (· != c.lane)
      laneFails := [], aloneFails := none }
    s.sendCtrl p 0x13 (c.epoch.toNat * 2 ^ 424)
  | none => s

/-- The change of the receive map that superframe q, or one before it, brings. -/
def Chip.switchRx (s : Chip) (p : Nat) (q : Half) : Chip :=
  match (s.port p).rxChange with
  | some c => match c.switchSeq with
    | some w => if seqCovers q w then s.adoptRx p else s
    | none => s
  | none => s

/-- LANE_READY names the lane and the new epoch (R59). -/
def Chip.sendReady (s : Chip) (p lane : Nat) (epoch : Byte) : Chip :=
  s.sendCtrl p 0x11 (lane * 2 ^ 440 + epoch.toNat * 2 ^ 424)

/-- A receive lane is dead: LANE_DOWN, once until the map changes; a move of the lane that is under comparison is ready (R80)
(DEDUCED log 55). -/
def Chip.laneDead (s : Chip) (p lane : Nat) : Chip :=
  if (s.port p).rxDead.contains lane then s
  else
    let s := (s.setPort p fun x => { x with rxDead := x.rxDead ++ [lane] }).sendCtrl p 0x15 (lane * 2 ^ 440)
    match (s.port p).rxChange with
    | some c =>
      if c.newMap.isNone && c.lane == lane && c.equal < 16384 then
        (s.setPort p fun x => { x with rxChange := some { c with equal := 16384 } }).sendReady p lane c.epoch
      else s
    | none => s

/-- A failing lane is counted against its channel; above 100 failures in any 1 s it is asked to be moved (R56, R74). -/
def Chip.laneFailed (s : Chip) (p lane : Nat) : Chip :=
  let old := (Tab.get [] (s.port p).laneFails lane).filter fun t => s.now < t + 1000000000
  let s := s.setPort p fun x =>
    let c := nth 255 (mapChannels x.rxMap) lane
    { x with checkFails := Tab.set 0 x.checkFails c (Tab.get 0 x.checkFails c + 1)
             laneFails := Tab.set [] x.laneFails lane ((s.now :: old).take 101) }
  if old.length = 100 then s.sendCtrl p 0x14 (lane * 2 ^ 440) else s

/-- The lane on which alone superframes fail, and how many in a row. -/
def aloneNext (bad : List Nat) (was : Option (Nat × Nat)) : Option (Nat × Nat) :=
  match bad, was with
  | [l], some (l', n) => if l = l' then some (l, n + 1) else some (l, 1)
  | [l], none => some (l, 1)
  | _, _ => none

/-- A superframe with failing lanes is discarded whole; RETRY names it, and nothing is accepted until REPLAY. -/
def Chip.discardFrame (s : Chip) (p : Nat) (bad : List Nat) : Chip :=
  let s := s.each bad fun s l => s.laneFailed p l
  let s := s.setPort p fun x => { x with
    aloneFails := aloneNext bad x.aloneFails
    failTimes := (s.now :: x.failTimes.filter fun t => s.now < t + 1000000).take 10001 }
  let s := match (s.port p).aloneFails with
    | some (l, n) => if n = 8 then s.laneDead p l else s
    | none => s
  if (s.port p).awaitingReplay then s
  else
    (s.setPort p fun x => { x with
      awaitingReplay := true
      failedReplays := if x.retryOf = some x.rxNext then x.failedReplays + 1 else 0
      retryOf := some x.rxNext }).askReplay p

/-- While a lane moves, the spare channel's frame follows the others; after 16,384 equal ones LANE_READY goes out (R76). -/
def Chip.compareSpare (s : Chip) (p : Nat) (frames : List (Nat × LaneFrame)) : Chip :=
  let frame (c : Nat) := (frames.find? (·.1 == c)).map (·.2)
  match (s.port p).rxChange with
  | some c =>
    match frame c.channel with
    | some spare =>
      if c.newMap.isSome || c.equal ≥ 16384 then s
      else
        let n := if frame (nth 255 (s.port p).rxMap c.lane) = some spare then c.equal + 1 else 0
        let s := s.setPort p fun x => { x with rxChange := some { c with equal := n } }
        if n = 16384 then s.sendReady p c.lane c.epoch else s
    | none => s
  | none => s

/-- A port takes the cells of a superframe only where it carries traffic: in Aligning and Circuit a superframe that holds one
is turned away, to be asked for once the port is up (R61, R66, R72) (DESIGN CHOICE log 151). -/
def Chip.acceptFrame (s : Chip) (p : Nat) (slots : List (Bool × BitVec 512)) : Chip :=
  let x := s.port p
  let cells := (slots.filter (·.1)).map fun b => cellOfBits b.2
  let takes := x.state.carries || x.state == .draining
  if !takes && !cells.isEmpty then s.setPort p fun x => { x with awaitingReplay := true }
  else
    let fresh := !(seqCovers x.rxLast x.rxNext)
    let s := s.setPort p fun x => { x with
      rxLast := if fresh then x.rxNext else x.rxLast, rxNext := x.rxNext + 1, aloneFails := none
      retryOf := none, failedReplays := 0 }
    let cabled := match x.peerChip with
      | some n => s.objb O.chipAssigned && s.cabledTo n
      | none => false
    if fresh && s.isTnPort p && cabled && takes then { s with tn := { s.tn with arrivals := s.tn.arrivals ++ cells } }
    else s

/-- The frames of a map's lanes, an empty one for a channel without. -/
def lanesOf (m : List Nat) (frames : List (Nat × LaneFrame)) : List LaneFrame :=
  (mapChannels m).map fun c => ((frames.find? (·.1 == c)).map (·.2)).getD ⟨[], 0⟩

/-- The map the peer has announced for a lane that died: until REPLAY every superframe is decoded under both (R80). -/
def Port.announced (x : Port) : List (List Nat) :=
  match x.rxChange with
  | some c => if x.rxDead.isEmpty then [] else [c.newMap.getD (setAt x.rxMap c.lane c.channel)]
  | none => []

/-- A superframe without a number: one with REPLAY, and in Aligning the alignment pattern and the first LANE_MAP. -/
def unnumbered (aligning : Bool) (lanes : List LaneFrame) (slots : List (Bool × BitVec 512)) : Bool :=
  slots.any (fun b => !b.1 && (b.2.toNat / 2 ^ 504 == 2 || (aligning && b.2.toNat / 2 ^ 504 == 0x17))) ||
  (aligning && lanes.zipIdx.all fun f => isAligning f.2 f.1)

/-- What a superframe brings, once its lanes' boundaries are found: slots under the map of the receive direction or, after a
lane's death, under the announced one; a failing lane discards it. -/
def Chip.takeFrames (s : Chip) (p : Nat) (frames : List (Nat × LaneFrame)) : Chip :=
  let awaiting := (s.port p).awaitingReplay
  let s := if awaiting then s else s.switchRx p (s.port p).rxNext
  let x := s.port p
  if mapWidth x.rxMap = 0 then s
  else
    match (x.rxMap :: x.announced).findSome? fun m => (slotsOfFrames (lanesOf m frames)).map (m, ·) with
    | none =>
      s.discardFrame p ((lanesOf x.rxMap frames).zipIdx.filterMap fun f => if (laneKind f.1).isNone then some f.2 else none)
    | some (m, slots) =>
      let s := s.compareSpare p frames
      if awaiting || unnumbered (x.state == .aligning) (lanesOf m frames) slots then s else s.acceptFrame p slots

/-- A set of lane frames arrives, by channel: each receiver descrambles its own and finds its boundary. A loop sends them back
lane by lane, a bit-error test counts them, and otherwise they are a superframe; in Aligning one only once every mapped lane's
boundary is found (R56, R72). -/
def Chip.superframe (s : Chip) (p : Nat) (raw : List (Nat × LaneFrame)) : Chip :=
  let r := receiveAll (s.port p).receivers raw
  let x := s.port p
  let s := s.setPort p fun x => { x with receivers := r.1 }
  let frames := r.2
  if x.looping then
    s.transmit p (.loop p) (((mapChannels x.txMap).zip (mapChannels x.rxMap)).filterMap fun c =>
      (frames.find? (·.1 == c.2)).map fun f => (c.1, f.2))
  else if x.state = .circuit ∧ x.bertRx ≠ 0 then s.countBits p frames
  else s.when (x.lightLost.isNone && x.state.linked && (x.state != .aligning ||
      (mapChannels x.rxMap).all fun c => (Tab.get RxChannel.reset x.receivers c).found)) fun s => s.takeFrames p frames

/-- SUPERFRAME_RECEIVED (R56, R61). -/
def execSuperframeReceived (port : Fin 160) (frames : List (Nat × LaneFrame)) (s : State) : Host.Outcome State Fault Refusal :=
  s.act fun c => c.superframe port.val frames

/-! ### Link-control slots (R57–R61) -/

/-- What every slot carries: EPOCH, TNREADY and ACK_SEQ, which frees the replay buffer (R58, R60, R92). -/
def Chip.takeSlot (s : Chip) (p : Nat) (c : CtrlSlot) : Chip :=
  let s := s.switchRx p c.txSeq
  let s := s.setPort p fun x => { x with
    rxEpoch := c.epoch, peerReady := c.tnready, replay := x.replay.filter fun r => !(seqCovers c.ackSeq r.seq) }
  let s : Chip := { s with tn := { s.tn with stale := Tab.set false s.tn.stale p false } }
  let s := if s.isGnPort p then s.gnAcked p else s
  s.flushPort p

/-- A slot of code k arrives on a linked port: what every slot carries, then f. -/
def Chip.ctrlRow (s : Chip) (p : Nat) (c : CtrlSlot) (k : Nat) (f : Chip → Chip) : Chip :=
  s.when ((s.port p).state.linked && c.ctrl.toNat == k) fun s => f (s.takeSlot p c)

/-- LINK_CONTROL_TICK (R57). -/
def execLinkControlTick (port : Fin 160) (s : State) : Host.Outcome State Fault Refusal :=
  s.act fun c => c.when (c.port port.val).state.linked fun c => c.sendCtrl port.val 0 0

/-- IDLE (R58, R59). -/
def execIdle (port : Fin 160) (slot : CtrlSlot) (s : State) : Host.Outcome State Fault Refusal :=
  s.act fun c => c.ctrlRow port.val slot 0x00 id

/-- RETRY (R61): what the transmitter has sent is sent again from the named superframe on. -/
def execRetry (port : Fin 160) (slot : CtrlSlot) (s : State) : Host.Outcome State Fault Refusal :=
  s.act fun c => c.ctrlRow port.val slot 0x01 fun c =>
    let f := BitVec.ofNat 16 (argField slot 447 432)
    c.when (seqCovers (c.port port.val).txSeq f) fun c => c.sendReplay port.val f

/-- REPLAY (R61): superframes are accepted again, from the named one on; after a lane's death under the announced map alone
(R80). -/
def execReplay (port : Fin 160) (slot : CtrlSlot) (s : State) : Host.Outcome State Fault Refusal :=
  s.act fun c => c.ctrlRow port.val slot 0x02 fun c =>
    let c := if (c.port port.val).announced.isEmpty then c else c.adoptRx port.val
    c.setPort port.val fun x => { x with rxNext := BitVec.ofNat 16 (argField slot 447 432), awaitingReplay := false }

/-- A slot of a reserved code (R59). -/
def execReservedCtrlSlot (port : Fin 160) (slot : CtrlSlot) (s : State) : Host.Outcome State Fault Refusal :=
  s.act fun c =>
    let k := slot.ctrl.toNat
    let known := k ≤ 2 || (0x10 ≤ k && k ≤ 0x17) || (0x20 ≤ k && k ≤ 0x23)
    c.when ((c.port port.val).state.linked && !known) fun c =>
      let c := (c.setPort port.val fun x => { x with
        rxEpoch := slot.epoch, linkRetries := x.linkRetries + 1
        replay := x.replay.filter fun r => !(seqCovers slot.ackSeq r.seq) })
      (if c.isGnPort port.val then c.gnAcked port.val else c).flushPort port.val

/-- LINK_RETRAIN (R62): 16 failed replays of one superframe, or more than 10,000 failed superframes within 1 ms. While the
engine restarts no training starts (R470, DEDUCED log 122). -/
def execLinkRetrain (port : Fin 160) (s : State) : Host.Outcome State Fault Refusal :=
  s.act fun c =>
    let x := c.port port.val
    c.when (x.state.linked && !(c.engineRestarts port.val) && (x.failedReplays ≥ 16 || x.failTimes.length > 10000)) fun c => c.retune port.val

/-! ### Lane procedures (R74–R80) -/

/-- SPARE_LASER_LOCKED (R76). -/
def execSpareLaserLocked (port : Fin 160) (s : State) : Host.Outcome State Fault Refusal :=
  s.act fun c =>
    match (c.port port.val).proc with
    | some w => c.when (w.step == .warming) fun c =>
      let e := port.val / 8
      let c := if c.laser e w.channel = .warming then c.setLaser e w.channel .locked else c
      (c.setPort port.val fun x => { x with proc := some { w with step := .offered } }).sendOffer port.val w
    | none => c

/-- LANE_OFFER (R76): the receiver compares the spare channel; for a lane it has reported dead there is nothing to compare
and LANE_READY goes out at once (DEDUCED log 55). -/
def execLaneOffer (port : Fin 160) (slot : CtrlSlot) (s : State) : Host.Outcome State Fault Refusal :=
  s.act fun c => c.ctrlRow port.val slot 0x10 fun c =>
    let lane := argField slot 447 440
    let epoch := BitVec.ofNat 8 (argField slot 431 424)
    c.when ((c.port port.val).state.carries && lane < 16) fun c =>
      let dead := (c.port port.val).rxDead.contains lane
      let c := c.setPort port.val fun x => Port.settle { x with rxChange := some {
        epoch := epoch, lane := lane, channel := argField slot 439 432, newMap := none, switchSeq := none
        equal := if dead then 16384 else 0 } }
      let c := c.setPort port.val fun x => { x with
        receivers := Tab.set RxChannel.reset x.receivers (argField slot 439 432) RxChannel.reset }
      if dead then c.sendReady port.val lane epoch else c

/-- LANE_READY (R76): LANE_SWITCH names the superframe 1,024 ahead. -/
def execLaneReady (port : Fin 160) (slot : CtrlSlot) (s : State) : Host.Outcome State Fault Refusal :=
  s.act fun c => c.ctrlRow port.val slot 0x11 fun c =>
    match (c.port port.val).proc with
    | some w => c.when (w.step == .offered && w.lane == argField slot 447 440 && w.epoch.toNat == argField slot 431 424) fun c =>
      let q := (c.port port.val).txSeq + 1024
      (c.setPort port.val fun x => { x with proc := some { w with step := .switchSent, switchSeq := q } }).sendCtrl port.val 0x12
        (w.epoch.toNat * 2 ^ 424 + q.toNat * 2 ^ 408)
    | none => c

/-- LANE_SWITCH (R76): the superframe from which the receiver reads the lane from the spare channel. -/
def execLaneSwitch (port : Fin 160) (slot : CtrlSlot) (s : State) : Host.Outcome State Fault Refusal :=
  s.act fun c => c.ctrlRow port.val slot 0x12 fun c =>
    match (c.port port.val).rxChange with
    | some w => c.when (w.epoch.toNat == argField slot 431 424) fun c => c.setPort port.val fun x => { x with
        rxChange := some { w with switchSeq := some (BitVec.ofNat 16 (argField slot 423 408)) } }
    | none => c

/-- The move is confirmed: the old channel stops and the spare is used up; a fading laser that no port needs is retired. A
dead lane's superframes are sent again. A width that shrank is an event (R76, R79, R80). -/
def Chip.confirmProc (s : Chip) (p : Nat) (w : LaneProc) : Chip :=
  let s := s.setPort p fun x => { x with
    txEpoch := w.epoch, txMap := w.newMap
    spares := if w.kind = .move ∨ w.kind = .moveDead then x.spares.erase w.channel else x.spares }
  let e := p / 8
  let s := if s.laser e w.oldChannel = .fading then s.idleLasers e [w.oldChannel] .retired else s
  let s := if w.kind = .moveDead ∨ w.kind = .deadWidth then s.sendReplay p (s.port p).oldest else s
  let s := if w.kind = .move ∨ w.kind = .moveDead then s.raise 0x0201 [.u8 p, .u8 w.lane, .u8 w.oldChannel, .u8 w.channel]
    else if mapWidth w.newMap < w.oldWidth then s.raise 0x4202 [.u8 p, .u8 (mapWidth w.newMap)]
    else s
  s.endProc p

/-- LANE_SWITCH_ACK (R76). -/
def execLaneSwitchAck (port : Fin 160) (slot : CtrlSlot) (s : State) : Host.Outcome State Fault Refusal :=
  s.act fun c => c.ctrlRow port.val slot 0x13 fun c =>
    match (c.port port.val).proc with
    | some w => c.when (w.step == .switchSent && w.epoch.toNat == argField slot 431 424) fun c => c.confirmProc port.val w
    | none => c

/-- LANE_REQUEST (R74). -/
def execLaneRequest (port : Fin 160) (slot : CtrlSlot) (s : State) : Host.Outcome State Fault Refusal :=
  s.act fun c => c.ctrlRow port.val slot 0x14 fun c => c.needLane port.val (argField slot 447 440) .planned

/-- LANE_DOWN (R80). -/
def execLaneDown (port : Fin 160) (slot : CtrlSlot) (s : State) : Host.Outcome State Fault Refusal :=
  s.act fun c => c.ctrlRow port.val slot 0x15 fun c => c.needLane port.val (argField slot 447 440) .dead

/-- WIDTH_CHANGE (R79): the receive direction changes its map at the switch superframe; below MIN_WIDTH the port fails. -/
def execWidthChange (port : Fin 160) (slot : CtrlSlot) (s : State) : Host.Outcome State Fault Refusal :=
  s.act fun c => c.ctrlRow port.val slot 0x16 fun c => c.when (c.port port.val).state.carries fun c =>
    if argField slot 447 440 < c.obj O.minWidth then c.failPort port.val failWidth
    else c.setPort port.val fun x => Port.settle { x with rxChange := some {
      epoch := BitVec.ofNat 8 (argField slot 431 424), lane := 0, channel := 255, newMap := some (mapOf (argField slot 407 280))
      switchSeq := some (BitVec.ofNat 16 (argField slot 423 408)), equal := 0 } }

/-- LANE_MAP (R51): the receiver adopts the transmitter's map. -/
def execLaneMap (port : Fin 160) (slot : CtrlSlot) (s : State) : Host.Outcome State Fault Refusal :=
  s.act fun c => c.ctrlRow port.val slot 0x17 fun c => c.setPort port.val fun x =>
    Port.settle { x with rxMap := mapOf (argField slot 407 280), rxEpoch := BitVec.ofNat 8 (argField slot 431 424) }

/-- LANE_READY_TIMEOUT (R77): the offer is made once more, then the move is abandoned and the lane stays. -/
def execLaneReadyTimeout (port : Fin 160) (s : State) : Host.Outcome State Fault Refusal :=
  s.act fun c =>
    match (c.port port.val).proc with
    | some w => c.when (w.step == .offered) fun c =>
      if w.retried then (c.raise 0x4206 []).endProc port.val
      else (c.setPort port.val fun x => { x with proc := some { w with retried := true } }).sendOffer port.val w
    | none => c

/-! ### Monitors (R48, R73, R74, R80) -/

/-- A quarantined chip lets its TN and GN ports carry no traffic; a shadow may use its GN ports (R484). -/
def Chip.portBarred (s : Chip) (p : Nat) : Bool :=
  s.service.quarantined && (s.obju O.portRole p == 1 ||
    (s.obju O.portRole p == 2 && s.service.state != .shadowing && s.service.state != .verified))

/-- ENGINE_POWER_UP (R52): the data lasers lock, and the enabled ports begin Probing (R455). -/
def Chip.enginePowerUp (s : Chip) (e : Nat) : Chip :=
  s.when (!(s.engine e).powered && !(s.power.enginesDown.getLsbD e)) fun s =>
    let s := s.setEngine e fun x => { x with
      powered := true, lasers := x.lasers.zipIdx.map fun v =>
        if v.1 = .cold ∧ 1 ≤ v.2 ∧ v.2 ≤ 16 then .locked else v.1 }
    s.each (enginePorts e) fun s p =>
      if s.obju O.portAdmin p != 0 && !(s.portBarred p) && (s.port p).state == .disabled then s.startPort p else s

def execEnginePowerUp (engine : Fin 20) (s : State) : Host.Outcome State Fault Refusal :=
  s.act fun c => c.enginePowerUp engine.val

/-- One laser at a sample: failed at 6.0 dB below nominal or at its maximum bias, fading past its limits (R73, R75). -/
def Chip.judgeLaser (s : Chip) (e c : Nat) : Chip :=
  let x := (s.engine e).sample
  let bias := nth 0 x.bias c
  let tap := nth 0 x.m1 c
  let st := s.laser e c
  let lit := st == .warming || st == .locked || st == .fading
  let users := (enginePorts e).filter fun p => (s.port p).txMap.contains c
  let need (k : LaneNeed) (s : Chip) : Chip := s.each users fun s p => s.needLane p ((s.port p).txMap.findIdx (· == c)) k
  if lit && (tap ≤ Config.tapNominal e c - 600 || bias ≥ Config.biasMax e c) then
    need .dead ((s.setLaser e c .failed).raise 0x4205 [])
  else if st == .locked && (bias * 100 ≥ Config.biasMax e c * s.obj O.fadeBiasPct ||
      decide ((tap : Rat) ≤ Config.tapNominal e c - 100 * s.objRat O.fadeTapDb)) then
    need .fading ((s.setLaser e c .fading).raise 0x4201 [.u8 e, .u8 c, .u16 bias, .u16 (toTwos 16 tap)])
  else s

/-- One port at a sample: its readings, modulator rings out of lock, and receive lanes gone dark while there is light. -/
def Chip.judgePort (s : Chip) (e k : Nat) : Chip :=
  let p := 8 * e + k
  let v := (s.engine e).sample
  let s := s.setPort p fun x => { x with rxPower := nth [] v.m5 k, txTap := nth 0 v.m4 k }
  let dark (r : Int) : Bool := decide ((r : Rat) < 100 * s.objRat O.rxLos)
  let lanes := (List.range 16)
  let s := s.each lanes fun s i =>
    let c := nth 255 (s.port p).txMap i
    if c < 18 && Config.ringLost (nth 0 v.m3 (18 * k + c)) then s.needLane p i .planned else s
  if (s.port p).state.carries && !(dark (nth 0 (s.port p).rxPower 18)) then
    s.each lanes fun s i =>
      let c := nth 255 (s.port p).rxMap i
      if c < 18 && dark (nth 0 (s.port p).rxPower c) then s.laneDead p i else s
  else s

/-- ENGINE_MONITOR_SAMPLE (R48, R73). -/
def Chip.monitorSample (s : Chip) (e : Nat) (v : EngineSample) : Chip :=
  s.when (s.engine e).powered fun s =>
    let s := s.setEngine e fun x => { x with sample := v }
    let s := s.each (List.range 18) fun s c => s.judgeLaser e c
    s.each (List.range 8) fun s k => s.judgePort e k

def execEngineMonitorSample (engine : Fin 20) (sample : EngineSample) (s : State) : Host.Outcome State Fault Refusal :=
  s.act fun c => c.monitorSample engine.val sample

/-! ### Probes and bring-up (R67–R71) -/

/-- CRC-16, polynomial 0x1021, initial all ones, most significant bit first (R67). -/
def crc16 (bs : List Byte) : Nat :=
  bs.foldl (fun c b => (List.range 8).foldl (fun c _ => if c ≥ 0x8000 then (2 * c) % 65536 ^^^ 0x1021 else 2 * c)
    (c ^^^ (b.toNat * 256))) 0xFFFF

/-- A probe was received within the last 50 ms. -/
def Chip.probedLately (s : Chip) (p : Nat) : Bool :=
  match (s.port p).probeAt with
  | some t => s.now ≤ t + 50000000
  | none => false

/-- The probe word of a port (R67). -/
def Chip.probeWord (s : Chip) (p : Nat) (seen : Bool) : BitVec 128 :=
  let assigned := s.objb O.chipAssigned
  let high := 0xD3B0 * 2 ^ 96 + (if assigned then s.chipNumber else 0) * 2 ^ 80 + p * 2 ^ 72 + seen.toNat * 2 ^ 71 +
    s.obj O.safetyMode * 2 ^ 70 + assigned.toNat * 2 ^ 69 + (Config.dieUid 0).toNat
  BitVec.ofNat 128 (high * 2 ^ 16 + crc16 (beBytes 14 high))

/-- A burst goes out, at most two in any 50 ms: the shutter opens for 20 µs, and the channel of logical lane 0 carries 12 µs of
clock pattern and then the probe word (R67, R68). -/
def Chip.burst (s : Chip) (p : Nat) (seen : Bool) : Chip :=
  let recent := (s.port p).bursts.filter fun t => s.now < t + 50000000
  if recent.length ≥ 2 then s
  else (s.setPort p fun x => { x with bursts := s.now :: recent, burstEnd := s.now + 20000 }).emit
    (.probe p (nth 255 (s.port p).txMap 0) 12000 20000 (s.probeWord p seen))

/-- The port's transmit shutter is open: in every lit state, and for a probe burst (R66, R67). -/
def Chip.shutterLit (s : Chip) (p : Nat) : Bool := (s.port p).shutterOpen || s.now < (s.port p).burstEnd

/-- PROBE_BURST_TIMER (R67). -/
def execProbeBurstTimer (port : Fin 160) (s : State) : Host.Outcome State Fault Refusal :=
  s.act fun c => c.when ((c.port port.val).state == .probing) fun c => c.burst port.val (c.probedLately port.val)

/-- A valid probe word: identity, safety mode, the answer, and the way to Tuning or to Failed (R68, R69, R84). A mispatch is
reported as 0x8202 alone (DESIGN CHOICE log 152). -/
def Chip.probeReceived (s : Chip) (p : Nat) (word : BitVec 128) : Chip :=
  let n := word.toNat
  s.when ((s.port p).state == .probing && bitsOf n 127 112 == 0xD3B0 && bitsOf n 15 0 == crc16 (beBytes 14 (bitsOf n 127 16))) fun s =>
    let assigned := bitOf n 85
    let ident := bitsOf n 111 96 * 65536 + bitsOf n 95 88 * 256
    let expected := s.obju O.expectedPeer p
    let s := s.setPort p fun x => { x with peerIdent := BitVec.ofNat 32 (ident + assigned.toNat), probeAt := some s.now }
    if expected ≠ 0xFFFFFFFF ∧ !(assigned && expected == ident) then
      (s.closePort p .failed).raise 0x8202 [.u32 expected, .u32 (ident + assigned.toNat)]
    else
      let differs := bitsOf n 86 86 != s.obj O.safetyMode
      let s := if differs && !(s.port p).modeMismatch then s.raise 0x4204 [] else s
      let s := s.setPort p fun x => { x with modeMismatch := differs, probeSeen := x.probeSeen || bitOf n 87 }
      let s := s.burst p true
      if (s.port p).probeSeen && !(s.engineRestarts p) then
        s.setPort p fun x => { x with state := .tuning, shutterOpen := true, receivers := [] }
      else s

/-- PROBE_WORD_RECEIVED (R68). -/
def execProbeWordReceived (port : Fin 160) (word : BitVec 128) (s : State) : Host.Outcome State Fault Refusal :=
  s.act fun c => c.probeReceived port.val word

/-- RECEIVE_RINGS_LOCKED (R66): Aligning; a new link numbers its superframes from 0. The alignment pattern goes out, and then
the map is announced. -/
def Chip.ringsLocked (s : Chip) (p : Nat) : Chip :=
  s.when ((s.port p).state == .tuning) fun s =>
    let s := s.setPort p fun x =>
      if x.retraining then { x with state := .aligning }
      else { x with state := .aligning, txSeq := 0, rxNext := 0, rxLast := 0xFFFF, replay := [], txPending := [], slotsOut := 0 }
    (s.sendAlignment p).announceMap p

def execReceiveRingsLocked (port : Fin 160) (s : State) : Host.Outcome State Fault Refusal :=
  s.act fun c => c.ringsLocked port.val

/-- The boundaries of all mapped lanes count as found. -/
def Port.allFound (x : Port) : Port :=
  { x with receivers := (mapChannels x.rxMap).foldl (fun t c =>
      let r := Tab.get RxChannel.reset t c
      Tab.set RxChannel.reset t c { r with run := max 64 r.run }) x.receivers }

/-- PORT_VERIFIED (R70–R72): at most one discarded superframe verifies; three failures in a row fail the port. A port that drains
goes back to Draining (R85). -/
def Chip.portVerified (s : Chip) (p discarded : Nat) : Chip :=
  s.when ((s.port p).state == .aligning) fun s =>
    let x := s.port p
    if discarded ≤ 1 then
      let boot := s.objb O.circuitAtBoot && s.mgmt.coldBoot && !x.bootTested
      let s := s.setPort p Port.allFound
      if x.drains then s.portActive p
      else if s.obju O.portAdmin p = 2 then s.enterCircuit p false
      else if boot then s.enterCircuit p true
      else s.portActive p
    else if x.attempts + 1 ≥ 3 then s.failPort p (if x.retraining then failRetrain else failTraining)
    else s.setPort p fun x => { x with state := .tuning, attempts := x.attempts + 1 }

def execPortVerified (port : Fin 160) (discarded : Nat) (s : State) : Host.Outcome State Fault Refusal :=
  s.act fun c => c.portVerified port.val discarded

/-- The transmit map after the boot test: lanes that counted errors take a spare channel that counted none, or leave the
map (R71). -/
def cleanMap (m spares : List Nat) (bad : Nat → Bool) : List Nat × List Nat :=
  let r := m.foldl (fun (r : List Nat × List Nat) c =>
    if c = 255 then r
    else if bad c then match r.2 with
      | x :: rest => (r.1 ++ [x], rest)
      | [] => r
    else (r.1 ++ [c], r.2)) ([], spares.filter fun c => !(m.contains c) && !(bad c))
  (r.1 ++ List.replicate (16 - r.1.length) 255, r.2)

/-- CIRCUIT_BER_TIME_EXPIRY (R71): the errors this end counted on each channel, and those the peer counted on this
transmit fibre (DESIGN CHOICE log 56). Lanes that the test removes raise no event 0x4202 (DESIGN CHOICE log 152). -/
def Chip.berExpiry (s : Chip) (p : Nat) (rx tx : List Nat) (bits : Nat) : Chip :=
  s.when ((s.port p).state == .circuit && (s.port p).bootTest) fun s =>
    let bad (c : Nat) : Bool := nth 0 tx c != 0
    let (m, left) := cleanMap (s.port p).txMap (s.port p).spares bad
    let s := (s.setPort p fun x => { x with bertTx := false }).sendCtrl p 0x21 (0xFFFF * 2 ^ 424)
    let s := s.setPort p fun x => { x with
      bootTested := true, txMap := m, spares := left
      berErrors := (rx.take 18).zipIdx.foldl (fun t v => Tab.set 0 t v.2 (BitVec.ofNat 64 v.1)) x.berErrors
      berBits := BitVec.ofNat 64 bits }
    let s := s.sendCtrl p 0x17 (s.port p).mapArg
    if mapWidth m < s.obj O.minWidth then s.failPort p failWidth else s.portActive p

def execCircuitBerTimeExpiry (port : Fin 160) (rx tx : List Nat) (bits : Nat) (s : State) : Host.Outcome State Fault Refusal :=
  s.act fun c => c.berExpiry port.val rx tx bits

/-- BERT (R72): the named lanes carry PRBS31 from the peer, until it stops. -/
def execBert (port : Fin 160) (slot : CtrlSlot) (s : State) : Host.Outcome State Fault Refusal :=
  s.act fun c => c.ctrlRow port.val slot 0x21 fun c => c.when ((c.port port.val).state == .circuit) fun c =>
    let lanes := BitVec.ofNat 16 (argField slot 431 424 * 256 + argField slot 439 432)
    c.setPort port.val fun x =>
      if argField slot 447 440 = 1 then
        if x.bootTest then x else { x with bertRx := lanes, prbs := [], berErrors := [], berBits := 0 }
      else { x with bertRx := x.bertRx &&& ~~~lanes }

/-- LOOP_REQ (R72): received words go back for up to 10 s; a longer duration starts no loop (DESIGN CHOICE log 150). -/
def execLoopReq (port : Fin 160) (slot : CtrlSlot) (s : State) : Host.Outcome State Fault Refusal :=
  s.act fun c => c.ctrlRow port.val slot 0x22 fun c => c.when ((c.port port.val).state == .circuit) fun c =>
    c.setPort port.val fun x => { x with looping := argField slot 447 440 == 1 && argField slot 439 408 ≤ 10000 }

/-- LOOPBACK_DURATION_EXPIRY (R72). -/
def execLoopbackDurationExpiry (port : Fin 160) (s : State) : Host.Outcome State Fault Refusal :=
  s.act fun c => c.setPort port.val fun x => { x with looping := false }

/-! ### Eye safety (R81–R84) -/

/-- MONITOR: M4, the M5 total and M5 per channel, channel 0 at the more significant end (R59) (DESIGN CHOICE log 148). -/
def Chip.sendMonitor (s : Chip) (p : Nat) : Chip :=
  let x := s.port p
  let v (i : Int) : Nat := toTwos 16 i
  let per := (List.range 18).foldl (fun n c => n * 2 ^ 16 + v (nth 0 x.rxPower c)) 0
  s.sendCtrl p 0x20 (v x.txTap * 2 ^ 432 + v (nth 0 x.rxPower 18) * 2 ^ 416 + per * 2 ^ 128)

/-- A port is under SPM: in a hold-off by the mode it had when light was lost, else by the mode of now (R81). -/
def Chip.underSpm (s : Chip) (p : Nat) : Bool := (s.port p).lightLost.isSome || s.spm p

/-- SPM_MONITOR_TIMER (R84). -/
def execSpmMonitorTimer (port : Fin 160) (s : State) : Host.Outcome State Fault Refusal :=
  s.act fun c => c.when (c.underSpm port.val && (c.port port.val).state.linked) fun c => c.sendMonitor port.val

/-- A received total below RX_LOS (R82). -/
def Chip.darkReading (s : Chip) (r : Int) : Bool := decide ((r : Rat) < 100 * s.objRat O.rxLos)

/-- MONITOR (R82, R84): the peer's M4, M5 total and M5 per channel; cells stop while it shows no light, and go on after. -/
def execMonitor (port : Fin 160) (slot : CtrlSlot) (s : State) : Host.Outcome State Fault Refusal :=
  s.act fun c => c.ctrlRow port.val slot 0x20 fun c =>
    let l := (List.range 20).map fun i => signed 16 (argField slot (447 - 16 * i) (432 - 16 * i))
    (c.setPort port.val fun x => { x with peerMonitor := some l, peerDark := c.darkReading (nth 0 l 1) }).flushPort port.val

/-- LOSS_OF_LIGHT (R82–R85): in SPM the port holds off with its shutter open; in OFC it closes it and probes. A draining port
is done where it would probe (DEDUCED log 57). -/
def Chip.lossOfLight (s : Chip) (p : Nat) : Chip :=
  let x := s.port p
  s.when (x.state.lit && x.lightLost.isNone) fun s =>
    if s.spm p then (s.setPort p fun x => { x with lightLost := some s.now }).sendMonitor p
    else
      let s := if x.drains then s.closePort p .disabled else s.reprobe p
      if x.peerDraining then s else s.raise 0x4203 [.u8 p]

def execLossOfLight (port : Fin 160) (s : State) : Host.Outcome State Fault Refusal := s.act fun c => c.lossOfLight port.val

/-- LIGHT_RETURN (R84). -/
def execLightReturn (port : Fin 160) (s : State) : Host.Outcome State Fault Refusal :=
  s.act fun c => c.when ((c.port port.val).lightLost.isSome && !(c.engineRestarts port.val)) fun c => c.retune port.val

/-- A loss in the fibre plant: the shutter closes and the port probes, or ends where it drains. The event carries this end's M4
and M5 total, then the peer's, 0.0 where it sent none (DESIGN CHOICE log 152). -/
def Chip.plantLoss (s : Chip) (p : Nat) : Chip :=
  let x := s.port p
  let peer := x.peerMonitor.getD []
  let f (v : Int) : Arg := .f32 (ratToF32 ((v : Rat) / 100))
  (if x.drains then s.closePort p .disabled else s.reprobe p).raise 0x8203
    [.u8 p, f x.txTap, f (nth 0 x.rxPower 18), f (nth 0 peer 0), f (nth 0 peer 1)]

/-- What this end's own stages show for a fibre (R84): a laser of its map fading or failed at M1, the splitter low at M2, a
modulator ring lost at M3. -/
def Chip.laserLow (s : Chip) (p : Nat) : Bool :=
  (mapChannels (s.port p).txMap).any fun c => s.laser (p / 8) c == .fading || s.laser (p / 8) c == .failed
def Chip.splitterLow (s : Chip) (p : Nat) : Bool := Config.splitLow (nth 0 (s.engine (p / 8)).sample.m2 (p % 8))
def Chip.ringLow (s : Chip) (p : Nat) : Bool :=
  (mapChannels (s.port p).txMap).any fun c => Config.ringLost (nth 0 (s.engine (p / 8)).sample.m3 (18 * (p % 8) + c))

/-- SPM_HOLD_OFF_EXPIRY (R84): the port acts on the segment that the MONITOR slots and its own stages locate. The end whose
light the peer has lost looks at its own stages: a splitter that is low fails the port, lasers and rings go by R74–R80, and
with these sound a low M4 is the path to its socket (DEDUCED log 153). -/
def Chip.holdOff (s : Chip) (p : Nat) : Chip :=
  let x := s.port p
  if x.lightLost.isSome then
    match x.peerMonitor with
    | none => s.plantLoss p
    | some peer =>
      if !(s.darkReading (nth 0 x.rxPower 18)) then
        let s := s.each (List.range 16) fun s i =>
          let c := nth 255 x.rxMap i
          if c < 18 && s.darkReading (nth 0 x.rxPower c) then s.laneDead p i else s
        (s.setPort p fun x => { x with lightLost := none }).flushPort p
      else if Config.tapLow (nth 0 peer 0) then s.when (!(s.engineRestarts p)) fun s => s.retune p
      else s.plantLoss p
  else if x.state.lit && x.peerDark then
    if s.splitterLow p then s.failPort p failTransmit
    else if s.laserLow p || s.ringLow p then s
    else if Config.tapLow x.txTap then s.failPort p failTransmit
    else s.plantLoss p
  else s

def execSpmHoldOffExpiry (port : Fin 160) (s : State) : Host.Outcome State Fault Refusal :=
  s.act fun c => c.when (c.underSpm port.val) fun c => c.holdOff port.val

/-! ### Draining and the objects (R65, R72, R81, R85, R86) -/

/-- A port drains: a notice with the deadline, and no new cell (DEDUCED log 62). -/
def Chip.drainPort (s : Chip) (p : Nat) : Chip :=
  let was := (s.port p).state
  let s := s.setPort p fun x => { x with state := .draining, drains := true, needs := [], bertTx := false, looping := false }
  let s := s.coolSpares was (p / 8)
  (s.sendCtrl p 0x23 ((s.obj O.portDrainDeadline / 100) % 65536 * 2 ^ 432)).gnDark p true |>.flushPort p

/-- PORT_ADMIN 0: a lit port drains; a dark one is Disabled. -/
def Chip.portDisable (s : Chip) (p : Nat) : Chip :=
  let s := s.setObj (O.portAdmin + 256 * p) 0
  let st := (s.port p).state
  if st = .draining ∨ st = .disabled then s
  else if st.lit then s.drainPort p
  else s.closePort p .disabled

/-- PORT_ADMIN 1: a dark port probes; a port in Circuit carries traffic without a new verification (R72). A port that drains
goes on to Disabled (DESIGN CHOICE log 154). -/
def Chip.portEnable (s : Chip) (p : Nat) : Option Chip :=
  if s.portBarred p then none
  else
    let s := s.setObj (O.portAdmin + 256 * p) 1
    let st := (s.port p).state
    some (if st = .circuit then s.portActive p
      else if st = .disabled ∨ st = .failed then s.startPort p
      else s)

/-- PORT_ADMIN 2: a dark port probes and a port that is up trains again, and each then enters Circuit (R66, R72) (DEDUCED log 58) (DESIGN CHOICE log 154). -/
def Chip.portCircuit (s : Chip) (p : Nat) : Chip :=
  let s := s.setObj (O.portAdmin + 256 * p) 2
  let st := (s.port p).state
  if st = .disabled ∨ st = .failed then s.startPort p
  else if st.carries && !(s.engineRestarts p) then s.retune p
  else s

def execPortAdminDisable (port : Fin 160) (s : State) : Host.Outcome State Fault Refusal :=
  s.act fun c => c.portDisable port.val
def execPortAdminEnable (port : Fin 160) (s : State) : Host.Outcome State Fault Refusal :=
  s.act fun c => (c.portEnable port.val).getD c
def execPortAdminCircuit (port : Fin 160) (s : State) : Host.Outcome State Fault Refusal :=
  s.act fun c => c.portCircuit port.val

/-- DRAIN_NOTICE (R85): this side drains likewise, and the coming loss of light is expected. -/
def execDrainNotice (port : Fin 160) (slot : CtrlSlot) (s : State) : Host.Outcome State Fault Refusal :=
  s.act fun c => c.ctrlRow port.val slot 0x23 fun c =>
    let c := c.setPort port.val fun x => { x with peerDraining := true }
    if (c.port port.val).state = .draining then c else c.drainPort port.val

/-- PORT_DRAIN_COMPLETE (R85): everything queued is sent and acknowledged. -/
def execPortDrainComplete (port : Fin 160) (s : State) : Host.Outcome State Fault Refusal :=
  s.act fun c =>
    let x := c.port port.val
    c.when (x.state == .draining && x.txPending.isEmpty && x.replay.isEmpty && x.proc.isNone) fun c =>
      c.closePort port.val .disabled

/-- PORT_DRAIN_DEADLINE (R86), also where the draining port is retraining. -/
def execPortDrainDeadline (port : Fin 160) (s : State) : Host.Outcome State Fault Refusal :=
  s.act fun c => c.when (c.port port.val).drains fun c => c.closePort port.val .disabled

/-- A write of PORT_ROLE: only while the port is Disabled, with at most 126 TN ports and 32 GN ports; none is a refusal. -/
def Chip.portRoleWrite (s : Chip) (p role : Nat) : Option Chip :=
  let others (r : Nat) : Nat := ((List.range 160).filter fun q => q != p && s.obju O.portRole q == r).length
  if role > 2 ∨ (s.port p).state ≠ .disabled ∨ (role = 1 ∧ others 1 ≥ 126) ∨ (role = 2 ∧ others 2 ≥ 32) then none
  else some ((s.setObj (O.portRole + 256 * p) role).rebuildPortMap p)

def execPortRoleWrite (port : Fin 160) (role : Byte) (s : State) : Host.Outcome State Fault Refusal :=
  s.act fun c => (c.portRoleWrite port.val role.toNat).getD c

/-- A write of SAFETY_MODE: SPM only under ENCLOSED_DECL (R81). -/
def Chip.safetyModeWrite (s : Chip) (mode : Nat) : Option Chip :=
  if mode > 1 ∨ (mode = 1 ∧ !(s.objb O.enclosedDecl)) then none else some (s.setObj O.safetyMode mode)

def execSafetyModeWrite (mode : Byte) (s : State) : Host.Outcome State Fault Refusal :=
  s.act fun c => (c.safetyModeWrite mode.toNat).getD c

end Sys2Proof.Machine
end

