-- ==== Sys2Proof/Machine/Sensors.lean ====
section
/-! DEFINITION. The sensors (R412), their samples, failures and rate estimates (R413, R423), the temperature groups'
readings (R420), and the package's input power (R418). -/

namespace Sys2Proof.Machine

/-! ### Numbering (R412) -/

/-- Temperatures of the compute die and of the base die of a site. -/
def computeSensors (site : Nat) : List Nat := (List.range 64).map (64 * site + ·)
def baseSensors (site : Nat) : List Nat := (List.range 32).map (512 + 32 * site + ·)
/-- Phases a domain of a site has, and needs: VDD_CMP, VDD_MEM, VDD_BASE, VDD_LINK (R20). -/
def phasesOf (d : Nat) : Nat := if d = 0 then 56 else if d = 3 then 8 else 16
def phasesNeeded (d : Nat) : Nat := phasesOf d - 1
/-- Currents of the phases of a domain, and its voltage. -/
def phaseSensors (site d : Nat) : List Nat :=
  let first := if d = 0 then 0 else if d = 1 then 56 else if d = 2 then 72 else 88
  (List.range (phasesOf d)).map (768 + 96 * site + first + ·)
def domainVolt (site d : Nat) : Nat := 1536 + 4 * site + d
/-- The input rails as pairs of a voltage and a current sensor: VIN_CORE by site, the HBM core and I/O rails by site,
VIN_CEL, VIN_OPT, VAON. -/
def inputRails : List (Nat × Nat) :=
  ((List.range 8).map fun s => (1568 + 2 * s, 1569 + 2 * s)) ++ ((List.range 16).map fun k => (1616 + 2 * k, 1617 + 2 * k)) ++
  [(2792, 2793), (2794, 2795), (2796, 2797)]
/-- The sensors of an engine: its die, its lasers, M1, and per fibre M4 and M5. -/
def engineSensor (e n : Nat) : Bool :=
  (1648 + 4 * e ≤ n && n < 1652 + 4 * e) || (1728 + 18 * e ≤ n && n < 1746 + 18 * e) ||
  (2088 + 18 * e ≤ n && n < 2106 + 18 * e) || (2448 + 8 * e ≤ n && n < 2456 + 8 * e) ||
  (2608 + 8 * e ≤ n && n < 2616 + 8 * e)
/-- The sensors of a cellar die: the die and its LPDDR6 stacks. -/
def cellarSensor (d n : Nat) : Bool :=
  (2768 + 8 * d ≤ n && n < 2776 + 8 * d) || (2784 + 4 * d ≤ n && n < 2788 + 4 * d)
/-- Sensors whose readings come by TELEMETRY (R409) (DEDUCED log 98). -/
def remoteSensor (n : Nat) : Bool := (1648 ≤ n && n < 2792)

/-- The temperature group of a sensor (R420). -/
def groupOf (n : Nat) : Option Nat :=
  if n < 512 then some (n / 64)
  else if n < 768 then some ((n - 512) / 32)
  else if 1584 ≤ n ∧ n < 1616 then some (8 + (n - 1584) / 4)
  else if 1648 ≤ n ∧ n < 1728 then some (16 + (n - 1648) / 4)
  else if 1728 ≤ n ∧ n < 2088 then some (36 + (n - 1728) / 18)
  else if 2768 ≤ n ∧ n < 2784 then some (56 + (n - 2768) / 8)
  else if 2784 ≤ n ∧ n < 2792 then some (58 + (n - 2784) / 4)
  else if n = 2798 ∨ n = 2799 then some 60
  else none

/-- The sensors of a group, ascending. -/
def groupSensors (g : Nat) : List Nat :=
  if g < 8 then computeSensors g ++ baseSensors g
  else if g < 16 then (List.range 4).map (1584 + 4 * (g - 8) + ·)
  else if g < 36 then (List.range 4).map (1648 + 4 * (g - 16) + ·)
  else if g < 56 then (List.range 18).map (1728 + 18 * (g - 36) + ·)
  else if g < 58 then (List.range 8).map (2768 + 8 * (g - 56) + ·)
  else if g < 60 then (List.range 4).map (2784 + 4 * (g - 58) + ·)
  else [2798, 2799]

/-- A temperature sensor; those of the coolant outlet belong to no group. -/
def isTemp (n : Nat) : Bool := (groupOf n).isSome || n == 2800 || n == 2801

/-! ### One sensor (R413, R423) -/

/-- The last sample, zero before the first. -/
def Sensor.last (x : Sensor) : Rat := x.samples.headD 0

/-- F: the mean of four samples, k frames back. -/
def Sensor.filtered (x : Sensor) (k : Nat) : Option Rat :=
  match (x.samples.drop k).take 4 with
  | [a, b, c, d] => some ((a + b + c + d) / 4)
  | _ => none

/-- The rate estimate over a window of w µs, °C/ms; none before there are samples enough. -/
def Sensor.rate (x : Sensor) (w : Nat) : Option Rat :=
  match x.filtered 0, x.filtered (w / 10) with
  | some a, some b => if w = 0 then none else some ((a - b) * 1000 / (w : Rat))
  | _, _ => none

/-- A level is reached: two samples in a row at or above it. -/
def Sensor.reaches (x : Sensor) (level : Rat) : Bool :=
  match x.samples with
  | a :: b :: _ => !x.failed && decide (level ≤ a) && decide (level ≤ b)
  | _ => false

/-- A sample widens the ranges of the other sensors, or starts them. -/
def widenRanges (old now : List (Nat × Rat × Rat)) : List (Nat × Rat × Rat) :=
  now.map fun e => match old.find? (·.1 == e.1) with
    | some o => (e.1, min o.2.1 e.2.1, max o.2.2 e.2.2)
    | none => e

/-- Sensor n of group limits (rate limit, window) takes a frame: a sample or none. `peers` are this frame's samples of the
other sensors of its group, each as a range. -/
def Sensor.take (n : Nat) (limit : Rat) (window : Nat) (peers : List (Nat × Rat × Rat)) (x : Sensor) : Option Rat → Sensor
  | none => { x with missing := x.missing + 1, failed := x.failed || 10 ≤ x.missing + 1, valid := 0 }
  | some v =>
    let again := x.samples.head? == some v
    let same := if again then x.same + 1 else 1
    let others := if again then widenRanges x.others peers else peers
    let stuck := 100000 ≤ same && others.any fun o => decide (o.2.2 - o.2.1 > 2)
    let out := if isTemp n then decide (v < -40) || decide (v > 200) else Config.sensorOut n v
    let ok := !stuck && !out
    let valid := if ok && x.failed then x.valid + 1 else 0
    let y := { x with samples := (v :: x.samples).take 105, missing := 0, same := same, others := others
                      failed := if x.failed then valid < 100000 else !ok, valid := valid }
    match y.rate window with
    | some r => { y with above := if limit < r then x.above + 1 else 0, calm := if r < limit / 2 then x.calm + 1 else 0 }
    | none => { y with above := 0, calm := 0 }

/-! ### Groups (R420–R423) -/

def Chip.sensor (s : Chip) (n : Nat) : Sensor := Tab.get Sensor.reset s.power.sensors n
def Chip.group (s : Chip) (g : Nat) : Group := Tab.get Group.reset s.power.groups g
def Chip.setGroup (s : Chip) (g : Nat) (f : Group → Group) : Chip :=
  { s with power := { s.power with groups := Tab.modify Group.reset s.power.groups g f } }

/-- The greatest of some numbers. -/
def maxRat : List Rat → Option Rat
  | [] => none
  | x :: r => match maxRat r with
    | some y => some (max x y)
    | none => some x

/-- The highest reading among sensors that have been sampled and have not failed. -/
def Chip.hottest (s : Chip) (l : List Nat) : Option Rat :=
  maxRat (l.filterMap fun n => let x := s.sensor n; if x.failed then none else x.samples.head?)

/-- A group's reading and its rate estimate. -/
def Chip.groupReading (s : Chip) (g : Nat) : Option Rat := s.hottest (groupSensors g)
def Chip.groupRate (s : Chip) (g : Nat) : Option Rat :=
  maxRat ((groupSensors g).filterMap fun n =>
    let x := s.sensor n; if x.failed then none else x.rate (s.obju O.rateWindow g))

/-- The first sensor of a list that has reached a level. -/
def Chip.reaching (s : Chip) (l : List Nat) (level : Rat) : Option Nat := l.find? fun n => (s.sensor n).reaches level

/-- Every sensor of a list has failed. -/
def Chip.allLost (s : Chip) (l : List Nat) : Bool := l.all fun n => (s.sensor n).failed

/-- A group's F32 object as a number. -/
def Chip.groupRat (s : Chip) (key g : Nat) : Rat := s.objRat (key + 256 * g)

/-! ### Power (R417–R419) -/

/-- V × I of a pair of sensors. -/
def Chip.railPower (s : Chip) (r : Nat × Nat) : Rat := (s.sensor r.1).last * (s.sensor r.2).last

/-- Package input power. -/
def Chip.inputPower (s : Chip) : Rat := inputRails.foldl (fun p r => p + s.railPower r) 0

/-- The current of a rail domain, and its power. -/
def Chip.domainCurrent (s : Chip) (site d : Nat) : Rat := (phaseSensors site d).foldl (fun c n => c + (s.sensor n).last) 0
def Chip.domainPower (s : Chip) (site d : Nat) : Rat := (s.sensor (domainVolt site d)).last * s.domainCurrent site d

/-- The power of a site's compute die and of its base die (R20). -/
def Chip.computePower (s : Chip) (site : Nat) : Rat := s.domainPower site 0 + s.domainPower site 1
def Chip.basePower (s : Chip) (site : Nat) : Rat := s.domainPower site 2 + s.domainPower site 3

end Sys2Proof.Machine
end

