-- ==== Sys2Proof/Machine/Weir.lean ====
section
/-! DEFINITION. The weir: the causes that slow a site, the steps they demand, and frequency steps (R415, R416, R425, R426). -/

namespace Sys2Proof.Machine

def Chip.site (s : Chip) (i : Nat) : Site := Tab.get Site.reset s.power.sites i
def Chip.setSite (s : Chip) (i : Nat) (f : Site → Site) : Chip :=
  { s with power := { s.power with sites := Tab.modify Site.reset s.power.sites i f } }

/-- The causes of R426. -/
def causeThreshold : Nat := 0
def causeRate : Nat := 1
def causeBase : Nat := 2
def causePower : Nat := 3
def causeRegulator : Nat := 4
def causeCoolant : Nat := 5
def causeSensor : Nat := 6
def causeSoftware : Nat := 7

/-! ### Steps -/

/-- The core clock of a step, MHz (R415). -/
def stepMhz (f : Nat) : Nat := if f < 5 then 2000 - 200 * f else 1000 - 200 * (f - 5)

/-- The part's top step, and the fastest a site may run at (R415, R426). -/
def Part.topStep : Part → Nat
  | .a => 0 | .b => 1
def Chip.topStep (s : Chip) (i : Nat) : Nat := max (s.obju O.siteTopStep i) s.part.topStep

/-- The fastest step at no more than half the frequency of a step; F7 if none is. -/
def halfStep (f : Nat) : Nat := ((List.range 8).find? fun k => 2 * stepMhz k ≤ stepMhz f).getD 7

/-- The step that the top step and the demands ask for: the slowest. -/
def Chip.target (s : Chip) (i : Nat) : Nat := (s.site i).demands.foldl (fun m d => max m d.step) (s.topStep i)

/-- A slower step than the present one is taken at once; VDD_CMP follows at FREQUENCY_STEP_DONE. -/
def Chip.stepDown (s : Chip) (i : Nat) : Chip :=
  if (s.site i).step < s.target i then
    let t := s.target i
    s.setSite i fun x => { x with step := t, rising := false }
  else s

/-- One step up begins, if nothing demands the present one: VDD_CMP rises first. -/
def Chip.stepUp (s : Chip) (i : Nat) : Chip :=
  let x := s.site i
  if s.target i < x.step ∧ !x.rising then s.setSite i fun x => { x with vstep := x.step - 1, rising := true } else s

/-- A site at its top step with no demand left ends its episode. -/
def Chip.endEpisode (s : Chip) (i : Nat) : Chip :=
  let x := s.site i
  if x.episode && x.demands.isEmpty && x.step == s.topStep i then
    (s.setSite i fun x => { x with episode := false }).raise 0x0C01 [.u8 i]
  else s

/-! ### Causes -/

/-- A cause takes its place among a site's demands. -/
def Site.demand (x : Site) (k f : Nat) : Site :=
  { x with demands := x.demands.filter (·.cause != k) ++ [⟨k, f, true⟩] }

/-- The step a cause demands so far, if it still demands one. -/
def Site.demanded (x : Site) (k : Nat) : Option Nat := (x.demands.find? (·.cause == k)).map (·.step)

/-- A cause demands a step: an episode starts with the first, and the site slows down. -/
def Chip.demand (s : Chip) (i k f : Nat) : Chip :=
  let s := if (s.site i).episode then s
    else
      let s := (s.setSite i fun x => { x with episode := true }).raise 0x4C02 [.u8 i, .u8 k]
      { s with power := { s.power with throttles := s.power.throttles + 1 } }
  (s.setSite i fun x => x.demand k f).stepDown i

/-- The clock is stretched at STRETCH_RATIO until the step that follows (DEDUCED log 100). -/
def Chip.stretch (s : Chip) (i : Nat) : Chip := s.setSite i fun x => { x with stretch := s.obj O.stretchRatio }

/-- A cause starts: the clock is stretched and stepped to at most half of what the cause demanded so far. Lost sensors hold
the lowest step; the coolant steps a site down one step at a time, to F5 (R414, R424). -/
def Chip.causeStart (s : Chip) (i k : Nat) : Chip :=
  let now := ((s.site i).demanded k).getD (s.topStep i)
  if k = causeCoolant then s.demand i k (max now (min 5 ((s.site i).step + 1)))
  else (s.stretch i).demand i k (if k = causeSensor then 7 else halfStep now)

/-- The demands of causes that have ended go one step faster, those that `ok` names; one that reaches the top step is over. -/
def Chip.relax (s : Chip) (i : Nat) (ok : Nat → Bool) : Chip :=
  let top := s.topStep i
  let one (d : Demand) : Option Demand :=
    if d.active || !(ok d.cause) then some d
    else if d.step ≤ top + 1 then none
    else some { d with step := d.step - 1 }
  let s := s.setSite i fun x => { x with demands := x.demands.filterMap one }
  (s.stepUp i).endEpisode i

/-- A cause ends: its demand goes one step faster at once, and the rest by WEIR_STEP_UP_INTERVAL. -/
def Chip.causeEnd (s : Chip) (i k : Nat) : Chip :=
  (s.setSite i fun x => { x with demands := x.demands.map fun d => if d.cause = k then { d with active := false } else d }).relax
    i (· == k)

/-- Whether a cause holds at a site now (DEDUCED log 99). -/
def Chip.setCause (s : Chip) (i k : Nat) (on : Bool) : Chip :=
  let was := (s.site i).demands.any fun d => d.cause == k && d.active
  if on && !was then s.causeStart i k else if !on && was then s.causeEnd i k else s

/-- THROTTLE_CAUSE (R426). -/
def Chip.throttleCause (s : Chip) (i : Nat) : Nat :=
  ((s.site i).demands.filter (·.active)).foldl (fun m d => m ||| 2 ^ d.cause)
    (if s.obju O.siteTopStep i > s.part.topStep then 2 ^ causeSoftware else 0)

/-- One step slower for a power rule (R418, R419). -/
def Chip.powerDown (s : Chip) (i : Nat) : Chip := s.demand i causePower (min 7 ((s.site i).step + 1))

/-! ### The commands -/

/-- While a cause holds, its demand goes one step slower. Power has its own timer. -/
def Chip.slower (s : Chip) (i : Nat) : Chip :=
  let one (d : Demand) : Demand :=
    if !d.active || d.cause = causePower then d
    else if d.cause = causeCoolant then { d with step := max d.step (min 5 (d.step + 1)) }
    else { d with step := min 7 (d.step + 1) }
  (s.setSite i fun x => { x with demands := x.demands.map one }).stepDown i

def execWeirStepDownInterval (site : Fin 8) (s : State) : Host.Outcome State Fault Refusal :=
  s.act fun c => c.slower site.val

/-- The samples of the last 1 ms are all below POWER_LIMIT − 100 W (R419). -/
def Chip.powerCalm (s : Chip) : Bool :=
  let l := s.power.samples.take 100
  l.length == 100 && l.all fun p => decide (p < (s.obj O.powerLimit : Rat) - 100)

/-- Of the sites held down for power alone by rules that act no more, the slowest is restored first (R419). -/
def Chip.powerTurn (s : Chip) (i : Nat) : Bool :=
  let held (j : Nat) : Bool := (s.site j).demands.any fun d => d.cause == causePower && !d.active
  held i && (List.range 8).all fun j => !(held j) || (s.site j).step < (s.site i).step || ((s.site j).step == (s.site i).step && i ≤ j)

def execWeirStepUpInterval (site : Fin 8) (s : State) : Host.Outcome State Fault Refusal :=
  s.act fun c =>
    let power := c.powerCalm && c.powerTurn site.val
    c.relax site.val fun k => k != causePower || power

/-- A frequency step completes: up, the frequency follows the voltage; down, the voltage follows and the stretch ends. -/
def Chip.stepDone (s : Chip) (i : Nat) : Chip :=
  let x := s.site i
  if x.rising then (s.setSite i fun x => { x with step := x.vstep, rising := false, stretch := 1 }).endEpisode i
  else s.setSite i fun x => { x with vstep := x.step, stretch := 1 }

def execFrequencyStepDone (site : Fin 8) (s : State) : Host.Outcome State Fault Refusal :=
  s.act fun c => c.stepDone site.val

/-- SITE_TOP_STEP: a step faster than the part's top step is refused; none is a refusal (R437). -/
def Chip.topStepWrite (s : Chip) (i v : Nat) : Option Chip :=
  if s.part.topStep ≤ v ∧ v ≤ 7 then some (((s.setObj (O.siteTopStep + 256 * i) v).stepDown i).stepUp i) else none

def execSiteTopStepWrite (site : Fin 8) (value : Byte) (s : State) : Host.Outcome State Fault Refusal :=
  s.act fun c => (c.topStepWrite site.val value.toNat).getD c

end Sys2Proof.Machine
end

