-- ==== Sys2Proof/Machine/Shutdown.lean ====
section
/-! DEFINITION. Shutdowns and their records (R427, R428), the regulators (R20, R21, R417), the Ditchrider's units
(R410, R411), REFCLK (R435) and compensation (R430). -/

namespace Sys2Proof.Machine

/-! ### The record (R428) -/

/-- What a shutdown names: its cause, and the group, sensor, reading, limit and rate that led to it, where there are any. -/
structure ShutdownCause where
  cause : Nat
  group : Nat
  sensor : Nat
  reading : Rat
  limit : Rat
  rate : Rat

/-- A cause without group or sensor. -/
def ShutdownCause.plain (cause : Nat) : ShutdownCause := ⟨cause, 0xFFFF, 0xFFFF, 0, 0, 0⟩

def f32Bytes (r : Rat) : List Byte := leBytes 4 (ratToF32 r)

/-- A reading as an I16 of 0.01 °C, zero where there is none. -/
def i16Bytes (r : Option Rat) : List Byte :=
  let v := ((r.getD 0) * 100).floor
  leBytes 2 (toTwos 16 (min (max v (-32768)) 32767))

/-- The hotter of two groups. -/
def hotter (a b : Option Rat) : Option Rat := maxRat (a.toList ++ b.toList)

/-- The mean input power of the last 1 s, and its highest sample (R418, R437). -/
def Chip.power1s (s : Chip) : Rat := s.power.samples.foldl (fun e p => e + p) 0 / 100000
def Chip.powerMax (s : Chip) : Rat := (maxRat s.power.samples).getD 0

/-- The 256 bytes of a record; scope 0 package, 1 engine. -/
def Chip.shutdownRecord (s : Chip) (scope : Nat) (c : ShutdownCause) : List Byte :=
  let sites := List.range 8
  let history := ((s.sensor c.sensor).samples.take 8).reverse
  let body :=
    leBytes 4 0x53485554 ++ leBytes 2 1 ++ leBytes 2 256 ++ leBytes 8 (s.power.recSeq + 1) ++ leBytes 1 c.cause ++
    leBytes 1 scope ++ leBytes 2 c.group ++ leBytes 2 c.sensor ++ leBytes 2 0 ++ f32Bytes c.reading ++ f32Bytes c.limit ++
    f32Bytes c.rate ++ f32Bytes (s.power.samples.headD 0) ++ leBytes 8 s.shownTime.toNat ++ leBytes 8 s.aon ++
    leBytes 2 (s.obj O.chipNumber) ++ leBytes 1 s.job.state ++ leBytes 1 s.tn.tbState.code ++ leBytes 4 0 ++
    (List.replicate (8 - history.length) (f32Bytes 0) ++ history.map f32Bytes).flatten ++
    sites.flatMap (fun i => leBytes 1 (s.site i).step) ++ sites.flatMap (fun i => leBytes 1 (s.throttleCause i)) ++
    sites.flatMap (fun i => i16Bytes (s.groupReading i)) ++ sites.flatMap (fun i => i16Bytes (s.groupReading (8 + i))) ++
    (List.range 20).flatMap (fun e => i16Bytes (hotter (s.groupReading (16 + e)) (s.groupReading (36 + e)))) ++
    leBytes 8 s.power.throttles ++ leBytes 8 s.log.seq.toNat ++ f32Bytes s.power1s ++ f32Bytes s.powerMax ++
    f32Bytes (-((maxRat (sites.map fun i => -(s.sensor (1568 + 2 * i)).last)).getD 0)) ++ f32Bytes (s.sensor 2796).last ++
    List.replicate 36 0
  body ++ leBytes 4 (crc32c body)

/-- The master writes the next slot of the ring (DEDUCED log 101). -/
def Chip.writeRecord (s : Chip) (scope : Nat) (c : ShutdownCause) : Chip :=
  let r := s.shutdownRecord scope c
  { s with power := { s.power with
      ring := Tab.set [] s.power.ring s.power.ringNext r
      ringNext := (s.power.ringNext + 1) % 256, recSeq := s.power.recSeq + 1 } }

/-! ### Shutdowns (R427) -/

/-- Service state after a loss of power or a reset: a quarantined chip stays quarantined (R484). -/
def Chip.serviceKept (s : Chip) : Service :=
  let q := s.service.quarantined
  { Service.reset with quarantined := q, state := if q then .quarantined else .serving }

/-- A channel after a reset: MappedOut and Retained last until the next cold boot (R261). -/
def Channel.kept (c : Channel) : Channel :=
  match c.state with
  | .mappedOut => { c with silent := 0 }
  | .retained => { c with silent := 0 }
  | _ => Channel.reset

/-- HBM after a loss of power or a reset: row repairs are fused, V is set at a cold boot, and until then channels stay mapped
out, with their units at their donors (R258, R259, R261). -/
def Chip.hbmKept (s : Chip) : Hbm :=
  let pcs := s.hbm.pcs.filterMap fun p =>
    if p.2.repairs.isEmpty then none else some (p.1, { PseudoChannel.reset with repairs := p.2.repairs })
  let channels := s.hbm.channels.foldl (fun t e => Tab.set Channel.reset t e.1 e.2.kept) []
  { Hbm.reset with
    v := s.hbm.v, vBoot := s.hbm.vBoot, interleave := [(0, Hbm.entry0 s.hbm.v)], pcs := pcs, channels := channels
    remap := Tab.keep (fun u => (s.channel (unitChannel u)).state == .mappedOut) s.hbm.remap }

/-- The regulators are off: everything but the always-on domain is as after power-on. -/
def Chip.diesOff (s : Chip) : Chip :=
  { Chip.reset with
    part := s.part, now := s.now, pins := s.pins, objs := s.objs, gn := { Gn.reset with members := s.gn.members }
    hbm := s.hbmKept, power := s.power, mgmt := s.mgmt, log := s.log, service := s.serviceKept, out := s.out
    freeCtr := s.freeCtr }

/-- A package shutdown: the event, every site stretched to 1/4, the record, SHUTDOWN_N, and every regulator off. The first
cause decides. -/
def Chip.packageShutdown (s : Chip) (c : ShutdownCause) (written : Bool) : Chip :=
  s.when s.live fun s =>
    let s := if written then s.raise 0xCC01 [.u8 c.cause, .u16 c.sensor, .f32 (ratToF32 c.reading)] else s
    let s := s.each (List.range 8) fun s i => s.setSite i fun x => { x with stretch := 4 }
    let s := if written then s.writeRecord 0 c else s
    let s := { s with power := { s.power with shutdown := some c.cause }, pins := { s.pins with shutdownHigh := false } }
    s.diesOff

/-- A laser without power: its marks stay. -/
def LaserState.darkened : LaserState → LaserState
  | .warming => .cold | .locked => .cold | v => v

/-- An engine shutdown: shutters closed, lasers dark, its ports Failed, the event and the record. -/
def Chip.engineShutdown (s : Chip) (e : Nat) (c : ShutdownCause) : Chip :=
  s.when (s.live && !(s.power.enginesDown.getLsbD e)) fun s =>
    let s := s.each (enginePorts e) fun s p => if (s.port p).state = .disabled then s else s.failPort p failThermal
    let s := s.setEngine e fun x => { x with powered := false, lasers := x.lasers.map LaserState.darkened }
    let s := { s with power := { s.power with enginesDown := s.power.enginesDown ||| (1#20 <<< e) } }
    (s.raise 0x8C01 [.u8 e, .u8 c.group, .f32 (ratToF32 c.reading)]).writeRecord 1 c

/-! ### Rails and regulators -/

/-- The operating range of an input rail's voltage (R501): VIN_CORE at the eight sites, the HBM core and I/O rails of the
sites, VIN_CEL, VIN_OPT, VAON. -/
def railRange (k : Nat) : Rat × Rat :=
  if k < 8 then (171/100, 189/100)
  else if k < 24 then (if k % 2 = 0 then (1018/1000, 1082/1000) else (728/1000, 773/1000))
  else if k = 25 then (3135/1000, 3465/1000)
  else (171/100, 189/100)

/-- The voltage sensor of an input rail. -/
def railVolt (k : Nat) : Nat := ((inputRails[k]?).getD (0, 0)).1

/-- A rail whose last ten samples, 100 µs, all lie outside its range shuts the package down. -/
def execRailOutOfRangeTimeout (rail : Fin 27) (s : State) : Host.Outcome State Fault Refusal :=
  s.act fun c =>
    let x := c.sensor (railVolt rail.val)
    let r := railRange rail.val
    let l := x.samples.take 10
    c.when (l.length == 10 && l.all fun v => decide (v < r.1) || decide (v > r.2)) fun c =>
      c.packageShutdown ⟨4, 0xFFFF, railVolt rail.val, x.last, if x.last < r.1 then r.1 else r.2, 0⟩ true

/-- A domain has failed phases beyond its spare, and its current is above 95 % of 12 A for each phase left (R417). -/
def Chip.overCap (s : Chip) (site : Nat) : Bool :=
  (List.range 4).any fun d =>
    let lost := nth 0 (s.site site).phases d
    lost ≥ 2 && decide (s.domainCurrent site d > (12 * (phasesOf d - lost) : Nat) * (95/100 : Rat))

/-- A phase fails: the spare takes its share, a second one caps the domain, and fewer than half the phases needed shut the
package down (R21, R417). A third one is reported as the second is (DESIGN CHOICE log 144). -/
def Chip.phaseFail (s : Chip) (site d : Nat) : Chip :=
  let lost := nth 0 (s.site site).phases d
  s.when (lost < phasesOf d) fun s =>
    let s := s.setSite site fun x => { x with phases := setAt x.phases d (lost + 1) }
    let s := if lost = 0 then s.raise 0x0106 [.u8 site, .u8 d] else s.raise 0x4106 [.u8 site, .u8 d]
    if 2 * (phasesOf d - (lost + 1)) < phasesNeeded d then s.packageShutdown (ShutdownCause.plain 3) true
    else s.setCause site causeRegulator (s.overCap site)

def execRegulatorPhaseFail (site : Fin 8) (domain : Fin 4) (s : State) : Host.Outcome State Fault Refusal :=
  s.act fun c => c.phaseFail site.val domain.val

/-- Every sample of the last 10 ms above POWER_PEAK although every site is at F7 (R427). -/
def execPowerExcursionShutdown (s : State) : Host.Outcome State Fault Refusal :=
  s.act fun c =>
    let l := c.power.samples.take 1000
    c.when (l.length == 1000 && (l.all fun p => decide (p > (c.obj O.powerPeak : Rat))) &&
        (List.range 8).all fun i => (c.site i).step == 7) fun c => c.packageShutdown (ShutdownCause.plain 2) true

def execShutdownNow (value : Bool) (s : State) : Host.Outcome State Fault Refusal :=
  s.act fun c => c.when value fun c => c.packageShutdown (ShutdownCause.plain 7) true

/-! ### REFCLK (R435) -/

/-- The always-on domain goes over to the RC backup, and the package shuts down (DEDUCED log 108). -/
def Chip.refclkLost (s : Chip) : Chip :=
  s.when (!s.power.aonRc) fun s =>
    let s := { s with power := { s.power with aonRc := true } }
    s.when s.live fun s => ((s.raise 0x4C06 []).raise 0xCC02 []).packageShutdown (ShutdownCause.plain 5) true

def execRefclkLoss (s : State) : Host.Outcome State Fault Refusal := s.actAwake Chip.refclkLost

/-! ### Ditchrider units (R410, R411) -/

def execDitchriderHeartbeat (s : State) : Host.Outcome State Fault Refusal :=
  s.actAwake fun c => c.when (c.site c.power.master).unitPresent fun c => c.emit .heartbeat

/-- The standby takes over, and none is left behind it; sessions must reconnect, since certificate and signer change (R410,
R463, R470; DEDUCED log 102). -/
def Chip.takeover (s : Chip) : Chip :=
  s.when (s.power.master == 0 && s.power.standbyOk) fun s =>
    (({ s with power := { s.power with master := 7, standbyOk := false } } : Chip).closeSessions).raise 0x4C05 []

def execStandbyTakeover (s : State) : Host.Outcome State Fault Refusal := s.actAwake Chip.takeover

def Chip.unitGone (s : Chip) (i : Nat) : Chip := s.setSite i fun x => { x with unitPresent := false }

/-- Other units fall silent: the standby's loss is an event; a worker's, or that of both masters, shuts the package down (DEDUCED log 102). -/
def Chip.unitLoss (s : Chip) (l : UnitLoss) : Chip :=
  match l with
  | .standby => s.when (s.power.master == 0 && s.power.standbyOk) fun s =>
    let s := (s.unitGone 7).raise 0x8C02 []
    { s with power := { s.power with standbyOk := false } }
  | .worker i => s.when (i.val != 0 && i.val != 7) fun s => (s.unitGone i.val).packageShutdown (ShutdownCause.plain 6) true
  | .bothMasters => ((s.unitGone 0).unitGone 7).packageShutdown (ShutdownCause.plain 6) false

def execDitchriderUnitLoss (loss : UnitLoss) (s : State) : Host.Outcome State Fault Refusal :=
  s.actAwake fun c => c.unitLoss loss

/-! ### Compensation (R430) -/

/-- A fused table of 16 points from −10 °C to 140 °C, interpolated linearly. -/
def interpolate (point : Nat → Rat) (t : Rat) : Rat :=
  let x := min (max ((t + 10) / 10) 0) 15
  let k := min x.floor.toNat 14
  point k + (point (k + 1) - point k) * (x - (k : Rat))

def execCompensationTick (site : Fin 8) (s : State) : Host.Outcome State Fault Refusal :=
  s.actAwake fun c =>
    match c.hottest (baseSensors site.val) with
    | some t => c.setSite site.val fun x => { x with
        trims := (List.range 4).map fun k => interpolate (Config.trimPoint site.val k) t }
    | none => c

end Sys2Proof.Machine
end

