-- ==== Sys2Proof/Machine/Boot.lean ====
section
/-! DEFINITION. Reset, power-up, boot and Configure, and leaving a shutdown (R4, R379, R429, R453–R457, R472,
R500–R506). -/

namespace Sys2Proof.Machine

/-! ### Reset (R453, R504) -/

/-- Objects that MRAM or fuses hold: RWP ones, and counts since manufacture. -/
def persistentKey (key : Nat) : Bool :=
  let k := key % 2 ^ 24
  match dictRow k with
  | some r => r.acc == .rwp || r.key == O.sanitiseCount || r.key == O.hwFaults || r.key == O.chRowRepairs
  | none => false

/-- What of management lies in MRAM and fuses. -/
def Mgmt.kept (m : Mgmt) : Mgmt :=
  { Mgmt.reset with
    nextSession := m.nextSession, claimed := m.claimed, ownerRoot := m.ownerRoot, ownerDebugKey := m.ownerDebugKey
    mgmtAddr := m.mgmtAddr, bootCount := m.bootCount, recoveryRequest := m.recoveryRequest, components := m.components
    keysRevoked := m.keysRevoked, coldBoot := false }

/-- What of the Ditchrider outlives a reset: MRAM, the shutdown latch, and which unit is master (R410). -/
def Power.kept (p : Power) : Power :=
  { Power.reset with
    master := p.master, shutdown := p.shutdown, ring := p.ring, ringNext := p.ringNext, recSeq := p.recSeq }

/-- PORT_ADMIN after a reset: 0 for a port whose role is spare, else 1 (R87). -/
def adminDefaults (s : Chip) : Chip :=
  s.each (s.objs.filter fun e => O.portRole ≤ e.1 && e.1 < O.portRole + 256 * 160 && e.1 % 256 == O.portRole % 256) fun s e =>
    s.setObj (O.portAdmin + (e.1 - O.portRole)) (if e.2 = 0 then 0 else 1)

/-- Every die of the package is reset. -/
def Chip.resetAll (s : Chip) : Chip :=
  adminDefaults { Chip.reset with
    part := s.part, now := s.now, pins := { s.pins with testEn := false }, objs := Tab.keep persistentKey s.objs
    gn := { Gn.reset with members := s.gn.members }, hbm := s.hbmKept, power := s.power.kept, mgmt := s.mgmt.kept
    service := s.serviceKept, out := s.out, freeCtr := s.freeCtr }

/-- Whether a pulse of that many ns on RESET_N resets. -/
def pulseResets (width : Nat) : Bool := 10000 ≤ width || (1000 ≤ width && Config.shortPulseResets width)

/-- RESET_N goes low for `width` ns so far. While a shutdown is latched this changes nothing but the pin (R503). -/
def Chip.resetAssert (s : Chip) (width : Nat) : Chip :=
  s.when (s.pins.vaon && pulseResets width) fun s =>
    let s := if s.power.shutdown.isSome then s else s.resetAll
    { s with pins := { s.pins with resetLow := true } }

def execResetNAssert (width : Nat) (s : State) : Host.Outcome State Fault Refusal :=
  s.always fun c => c.resetAssert width

/-! ### Boot (R455, R457) -/

/-- The components 1–7 are verified: one that fails is Invalid, with its event; the others are loaded. -/
def Chip.verifyComponent (s : Chip) (k : Nat) : Chip :=
  if s.mgmt.slotOk k then s.setComponent k fun x => { x with state := .active }
  else (s.setComponent k fun x => { x with state := .invalid }).raise 0x8D01 [.u8 k]

/-- V at a cold boot, from HEADLAND_DIV (R259). -/
def headlandV (div : Nat) : Nat := 1024 - 1024 / div

/-- HBM comes up: V is set at a cold boot, which ends every map-out, and entry 0 maps what is visible (R259, R261; DEDUCED
log 106). -/
def Chip.bootHbm (s : Chip) : Chip :=
  let cold := s.mgmt.coldBoot
  let v := if cold then headlandV (s.obj O.headlandDiv) else s.hbm.v
  { s with hbm := { s.hbm with
      v := v, vBoot := v, interleave := [(0, Hbm.entry0 v)]
      channels := if cold then [] else s.hbm.channels, remap := if cold then [] else s.hbm.remap } }

/-- Every pseudo-channel is trained and its pins are checked at half the minimum windows (R268): what silicon finds is free
(DESIGN CHOICE log 168). Three failures to train judge the channel bad (R260); a pin that fails its check has a window below
a minimum (R270). With MARGIN_AT_BOOT every pseudo-channel is due for a full sweep. -/
def Chip.trainHbm (s : Chip) : Chip :=
  let boot := s.mgmt.bootCount.toNat
  let s := s.each (Config.untrained boot) fun s p => if p < 2048 then s.judge (p / 2) .unresponsive else s
  let s := s.each (Config.narrowPins boot (s.obj O.marginTimeMin) (s.obj O.marginVrefMin)) fun s x =>
    s.when (x.1 < 2048 && x.2.1 < 36) fun s =>
      (s.setPc x.1 fun c => { c with bootNarrow := c.bootNarrow ++ [(x.2.2.1, x.2.2.2)] }).raise 0x4803
        [.u16 x.1, .u8 x.2.1, .u8 x.2.2.2]
  if s.objb O.marginAtBoot then
    (s.each (List.range 2048) fun s p => s.setPc p fun c => { c with sweepDue := true }).dueSweeps
  else s

/-- A core that is online runs the boot subset; one whose admin object is 0 is Offline, as is such an update engine. -/
def Chip.bootCore (s : Chip) (c : Nat) : Chip :=
  if s.obj (adminKey c) = 0 then s.setCore c fun x => { x with state := .offline }
  else if c < 256 then s.setCore c fun x => { x with state := .testing } else s

/-- A site's reduction unit runs the boot subset (R379). -/
def Chip.bootReduction (s : Chip) (i : Nat) : Chip :=
  match Config.reductionTest i s.mgmt.bootCount.toNat with
  | none => { s with mgmt := { s.mgmt with nvSites := s.mgmt.nvSites ||| (1#8 <<< i) } }
  | some (record, byte, expected, got) =>
    let s := if s.mgmt.nvFirstFail.isEmpty then s.firstFail (0xFF00 + i) record byte expected got else s
    ({ s with mgmt := { s.mgmt with withheld := true } } : Chip).raise 0xCA01 [.u8 i, .u64 record]

/-- The Ditchrider's firmware runs: the other components are verified, and the dies, memory and cores come up. Memory is
zeroed, and JOB_STATE is not Idle before job-ready (DEDUCED log 67). -/
def Chip.bootDies (s : Chip) : Chip :=
  let s := { s with mgmt := { s.mgmt with stage := 2, booting := true } }
  let s := s.each [1, 2, 3, 4, 5, 6, 7] Chip.verifyComponent
  let s := s.bootHbm.trainHbm
  let s := s.each (List.range 8) fun s i => s.setSite i fun x => { x with step := s.topStep i, vstep := s.topStep i }
  let s := s.each (List.range 264) Chip.bootCore
  let s := s.each (List.range 8) Chip.bootReduction
  ({ s with job := { s.job with state := 3 } } : Chip).bootTestsEnd

/-- A boot begins. The ROM runs the recovery loader where the Ditchrider's firmware fails, where it was asked to, and where
UART_RX is held low (R472). -/
def Chip.boot (s : Chip) (uartLow : Bool) : Chip :=
  let asked := s.mgmt.recoveryRequest || uartLow
  let sound := s.mgmt.slotOk 1
  let s := { s with mgmt := { s.mgmt with
    bootOrigin := s.aon, bootCount := s.mgmt.bootCount + 1, recoveryRequest := false } }
  if sound && !asked then s.bootDies
  else
    let s := { s with mgmt := { s.mgmt with loader := true, loaderRan := true } }
    if sound then s else (s.setComponent 1 fun x => { x with state := .invalid }).raise 0xCD01 []

/-- RESET_N goes high. With TEST_EN high the package stays in reset; a latched shutdown, or SHUTDOWN_N still low, lets no
boot begin (R500, R502, R503). -/
def Chip.resetRelease (s : Chip) (testEn uartLow : Bool) : Chip :=
  s.when (s.pins.vaon && s.pins.resetLow) fun s =>
    let s := { s with pins := { s.pins with resetLow := false, testEn := testEn } }
    if !testEn && s.pins.shutdownHigh && s.power.shutdown.isNone then s.boot uartLow else s

def execResetNRelease (testEn uartLow : Bool) (s : State) : Host.Outcome State Fault Refusal :=
  s.always fun c => c.resetRelease testEn uartLow

/-! ### Supplies and the latch (R502, R503) -/

def Chip.vaonUp (s : Chip) : Chip :=
  s.when (!s.pins.vaon) fun s =>
    { s with pins := { s.pins with vaon := true, vaonSince := s.now, shutdownHigh := false } }

def execVaonUp (s : State) : Host.Outcome State Fault Refusal := s.always Chip.vaonUp

def Chip.shutdownNRelease (s : Chip) : Chip :=
  s.when (s.pins.vaon && s.pins.vaonSince + 5000000 ≤ s.now && s.power.shutdown.isNone) fun s =>
    { s with pins := { s.pins with shutdownHigh := true } }

def execShutdownNReleaseTimer (s : State) : Host.Outcome State Fault Refusal := s.always Chip.shutdownNRelease

/-- VAON is gone: nothing runs, no record is written, and the latch and the choice of the master are forgotten. -/
def Chip.vaonLoss (s : Chip) : Chip :=
  s.when s.pins.vaon fun s =>
    let s := s.resetAll
    { s with
      pins := { s.pins with vaon := false, shutdownHigh := false, alertLow := false }
      power := { s.power with shutdown := none, master := 0 }
      mgmt := { s.mgmt with coldBoot := true } }

def execVaonLoss (s : State) : Host.Outcome State Fault Refusal := s.always Chip.vaonLoss

/-- ALERT_N, 10 ms after the last error or fatal event, unless a shutdown is latched. -/
def Chip.alertRelease (s : Chip) : Chip :=
  s.when (s.pins.alertSince + 10000000 ≤ s.now && s.power.shutdown.isNone) fun s =>
    { s with pins := { s.pins with alertLow := false } }

def execAlertNRelease (s : State) : Host.Outcome State Fault Refusal := s.always Chip.alertRelease

/-! ### Leaving a shutdown (R429) -/

/-- Every temperature sensor that reads is at least 20 °C below its group's shutdown level (DEDUCED log 104). -/
def Chip.coolEnough (s : Chip) : Bool :=
  s.power.sensors.all fun e =>
    match groupOf e.1, e.2.samples.head? with
    | some g, some v => e.2.failed || decide (v + 20 ≤ s.groupRat O.thermShutdown g)
    | _, _ => true

/-- An engine that was shut down powers up, and its ports start in Probing. -/
def Chip.rearmEngine (s : Chip) (e : Nat) : Chip :=
  s.when (s.power.enginesDown.getLsbD e) fun s =>
    let s := { s with power := { s.power with enginesDown := s.power.enginesDown &&& ~~~(1#20 <<< e) } }
    let s := (s.setEngine e fun x => { x with newFirmware := true }).enginePowerUp e
    s.each (enginePorts e) fun s p => if (s.port p).state = .failed then s.startPort p else s

/-- RE_ARM: refused while a sensor reads too hot. After a package shutdown the device boots as from cold, at once if RESET_N
is high; after engine shutdowns the engines come back. -/
def Chip.rearm (s : Chip) (value : Bool) : Option Chip :=
  if !value then some s
  else if !s.coolEnough then none
  else if s.power.shutdown.isSome then
    let s := { s with power := { s.power with shutdown := none } }
    let s := s.resetAll
    let s := { s with pins := { s.pins with shutdownHigh := true }, mgmt := { s.mgmt with coldBoot := true } }
    some (if s.pins.resetLow then s else s.boot false)
  else some (s.each (List.range 20) Chip.rearmEngine)

def execReArm (value : Bool) (s : State) : Host.Outcome State Fault Refusal :=
  s.actAwake fun c => (c.rearm value).getD c

/-! ### Configure and job-ready (R453–R456) -/

/-- The management port serves: its link is up, and firmware or the recovery loader runs. -/
def Chip.serving (s : Chip) : Bool := s.mgmt.linkUp && (s.awake || s.mgmt.loader)

/-- The link comes up; Configure begins with it, unless the loader runs. -/
def Chip.mgmtLinkUp (s : Chip) : Chip :=
  s.when ((s.awake || s.mgmt.loader) && !s.mgmt.linkUp) fun s =>
    if s.awake then
      { s with mgmt := { s.mgmt with linkUp := true, configOpen := true, configSince := s.aon, stage := max 3 s.mgmt.stage } }
    else { s with mgmt := { s.mgmt with linkUp := true } }

def execMgmtLinkUp (s : State) : Host.Outcome State Fault Refusal := s.always Chip.mgmtLinkUp

/-- Configure ends: RWL objects lock, and SPM without an enclosure declared becomes OFC (R453, R454). -/
def Chip.configEnd (s : Chip) : Chip :=
  s.when s.mgmt.configOpen fun s =>
    let s := { s with mgmt := { s.mgmt with configOpen := false, configEnded := true } }
    if s.obj O.safetyMode = 1 ∧ !s.objb O.enclosedDecl then (s.setObj O.safetyMode 0).raise 0x4D03 [] else s

def execConfigDone (value : Bool) (s : State) : Host.Outcome State Fault Refusal :=
  s.actAwake fun c => c.when value Chip.configEnd

def Chip.configExpiry (s : Chip) : Chip :=
  s.when (s.mgmt.configSince + 1000000 * s.obj O.configWindow ≤ s.aon) Chip.configEnd

def execConfigWindowExpiry (s : State) : Host.Outcome State Fault Refusal := s.actAwake Chip.configExpiry

/-- Every pseudo-channel has been swept, where MARGIN_AT_BOOT asks for it (R268). -/
def Chip.bootSwept (s : Chip) : Bool :=
  !s.objb O.marginAtBoot || (List.range 2048).all fun p => !(s.pcOf p).windows.isEmpty

/-- Nothing withholds job-ready (R379, R455, R457). -/
def Chip.mayBeReady (s : Chip) : Bool :=
  s.mgmt.stage != 6 && s.mgmt.configEnded && !s.mgmt.booting && !s.mgmt.withheld && s.bootSwept &&
  [1, 2, 3, 4, 5, 6, 7].all fun k => (s.mgmt.component k).state != .invalid

/-- JOB_STATE becomes Idle and job-ready is reported. -/
def Chip.jobReady (s : Chip) : Chip :=
  s.when s.mayBeReady fun s =>
    let ms := (s.aon - s.mgmt.bootOrigin) / 1000000
    let s := { s with mgmt := { s.mgmt with stage := 6 }, job := { s.job with state := 0 } }
    (s.setObj O.bootTime ms).raise 0x0D01 [.u32 ms]

def execJobReady (s : State) : Host.Outcome State Fault Refusal := s.act Chip.jobReady

/-- BOOT_STAGE: 3 until Configure ends, then the later of Training and Sanitise, then Ready (R455). -/
def Chip.bootStage (s : Chip) : Nat :=
  if s.mgmt.stage = 6 then 6
  else if s.mgmt.configEnded then (if s.mgmt.booting || !s.bootSwept then 4 else 5)
  else s.mgmt.stage

end Sys2Proof.Machine
end

