-- ==== Sys2Proof/Machine/Activation.lean ====
section
/-! DEFINITION. Image transfers and activation (R460, R468–R472). -/

namespace Sys2Proof.Machine

/-! ### Transfers (R468)

`who` is the session that sends, or none for the UART. -/

/-- The transfer that a sender holds. -/
def Chip.transferOf (s : Chip) (who : Option Nat) : Option Transfer :=
  match s.mgmt.transfer with
  | some t => if t.session = who then some t else none
  | none => none

def Chip.setTransfer (s : Chip) (t : Option Transfer) : Chip :=
  { s with mgmt := { s.mgmt with transfer := t, transferAt := s.aon } }

/-- IMAGE_BEGIN: one of the components 1–7 or a key revocation, of at most 2 MiB. -/
def Chip.imageBegin (s : Chip) (who : Option Nat) (component total : Nat) : EStatus × Chip :=
  if s.mgmt.transfer.isSome || s.mgmt.activation.isSome then (.busy, s)
  else if !((1 ≤ component && component ≤ 7) || component == compRevoke) || total > 2 * 2 ^ 20 then (.access, s)
  else (.ok, s.setTransfer (some ⟨who, component, total, []⟩))

/-- IMAGE_DATA: 1 to 1,024 bytes within the total. -/
def Chip.imageData (s : Chip) (who : Option Nat) (offset : Nat) (data : List Byte) : EStatus × Chip :=
  if data.isEmpty || data.length > 1024 then (.badMessage, s)
  else match s.transferOf who with
    | none => (.access, s)
    | some t =>
      if offset + data.length > t.total then (.access, s)
      else (.ok, s.setTransfer (some { t with
        data := data.zipIdx.foldl (fun d b => Tab.set none d (offset + b.2) (some b.1)) t.data }))

/-- The staged bytes, if all of them have arrived. -/
def Transfer.whole (t : Transfer) : Option (List Byte) :=
  ((List.range t.total).map fun i => Tab.get none t.data i).mapM id

/-- The staged image is discarded. -/
def Chip.imageDrop (s : Chip) : Chip := { s with mgmt := { s.mgmt with transfer := none } }

def Chip.imageAbort (s : Chip) (who : Option Nat) : EStatus × Chip :=
  match s.transferOf who with
  | some _ => (.ok, s.imageDrop)
  | none => (.access, s)

/-! ### Activation (R470, R471) -/

/-- The units of a component in the order they activate: Ditchrider units, sites, cores that are not Offline, engines that
are not shut down, pseudo-channels in service, cellar dies. -/
def Chip.activationUnits (s : Chip) (k : Nat) : List Nat :=
  match k with
  | 1 => [1, 2, 3, 4, 5, 6, 7, 0]
  | 2 => List.range 8
  | 3 => (List.range 256).filter fun c => (s.core c).state != .offline
  | 4 => (List.range 20).filter fun e => !(s.power.enginesDown.getLsbD e)
  | 5 => (List.range 2048).filter fun p => (s.channel (p / 2)).state != .mappedOut && (s.channel (p / 2)).state != .retained
  | _ => [0, 1]

/-- Idle cores that run the old runtime enter their test, at most four of a site at once. -/
def Chip.testCores (s : Chip) (units : List Nat) : Chip :=
  s.each units fun s c =>
    let busy := (units.filter fun d => d / 32 == c / 32 && (s.core d).state == .testing).length
    if (s.core c).state = .idle ∧ busy < 4 then s.setCore c fun x => { x with state := .testing, adminTest := false } else s

/-- What the next units do: cores begin their test, the next pseudo-channel begins its sweep, and before the master at
site 0 restarts site 7 takes over. -/
def Chip.activationNext (s : Chip) : Chip :=
  match s.mgmt.activation with
  | some a =>
    if a.component = 3 then s.testCores a.units
    else if a.component = 5 then (match a.units with
      | p :: _ => s.askSweep p
      | [] => s)
    else if a.component = 1 && a.units == [0] then s.takeover
    else s
  | none => s

/-- An activation whose units all run the new image: it is Active, and its floor rises to its SVN (R460). -/
def Chip.activationEnd (s : Chip) : Chip :=
  match s.mgmt.activation with
  | some a =>
    if a.units.isEmpty then
      let k := a.component
      let b := s.mgmt.image k
      let s := s.setComponent k fun x => { x with state := .active, floor := max x.floor (imageSvn b) }
      ({ s with mgmt := { s.mgmt with activation := none } } : Chip).raise 0x0D02
        [.u8 k, .u32 (imageVersion b), .u32 (imageSvn b)]
    else s
  | none => s

/-- At an activation's start no unit runs the new image. -/
def Chip.unitsOld (s : Chip) (k : Nat) : Chip :=
  if k = 4 then s.each (List.range 20) fun s e => s.setEngine e fun x => { x with newFirmware := false }
  else if k = 5 then s.each (s.hbm.pcs.map (·.1)) fun s p => s.setPc p fun x => { x with newTable := false }
  else s

def Chip.activate (s : Chip) (k : Nat) (fresh : Bool) : Chip :=
  let s := (s.unitsOld k).setComponent k fun x => { x with state := .activating }
  ({ s with mgmt := { s.mgmt with activation := some ⟨k, s.activationUnits k, fresh⟩ } } : Chip).activationNext.activationEnd

/-- IMAGE_END: the checks of R459; an image that passes is written to its slot and activates at once, a revocation is
applied. In the recovery loader, and for a die held down, the slot is written only (R469, R472). -/
def Chip.imageEnd (s : Chip) (who : Option Nat) : EStatus × Chip :=
  match s.transferOf who with
  | none => (.access, s)
  | some t =>
    let k := t.component
    let s := s.imageDrop
    let bytes := t.whole.getD []
    match s.mgmt.checkImage k bytes with
    | .ok =>
      if k = compRevoke then (.ok, s.revokeKeys bytes)
      else
        let fresh := (s.mgmt.component k).state == .invalid
        let s := s.setComponent k fun x => { x with image := some (imageWhole bytes), state := .staged }
        (.ok, if s.live || (s.awake && k == 1) then s.activate k fresh else s)
    | st => (st, s.raise 0x4D02 [.u8 k, .u8 st.code.toNat])

/-- IMAGE_IDLE_TIMEOUT: 10 s without an IMAGE message. -/
def Chip.imageIdle (s : Chip) : Chip :=
  s.when (s.mgmt.transferAt + 10000000000 ≤ s.aon) Chip.imageDrop

def execImageIdleTimeout (s : State) : Host.Outcome State Fault Refusal := s.always Chip.imageIdle

/-- A unit's number as its kind has it (R515). -/
def unitArg (k u : Nat) : Arg := if k = 3 ∨ k = 5 then .u16 u else .u8 u

/-- An engine that no longer restarts serves the lanes that waited for it, and trains the ports that were to become
circuits (R470). -/
def Chip.engineResumes (s : Chip) (e : Nat) : Chip :=
  s.each (enginePorts e) fun s p =>
    let s := Chip.serveNeeds p (s.port p).needs.length s
    s.when (s.obju O.portAdmin p == 2 && (s.port p).state.carries && !(s.engineRestarts p)) fun s => s.retune p

/-- An activation fails: the units not restarted keep their image, and cores in their test are free again. -/
def Chip.activationFail (s : Chip) (u : Nat) : Chip :=
  match s.mgmt.activation with
  | some a =>
    let s := if a.component = 3 then s.each a.units fun s c =>
      if (s.core c).state = .testing then s.setCore c fun x => { x with state := .idle } else s else s
    let s := s.setComponent a.component fun x => { x with state := .activationFailed }
    let s := ({ s with mgmt := { s.mgmt with activation := none } } : Chip).raise 0x8D02 [.u8 a.component, unitArg a.component u]
    if a.component = 4 then s.each (List.range 20) Chip.engineResumes else s
  | none => s

/-- A unit's turn has come, while its die runs: sites, engines and Ditchrider units go one at a time, a core as it is Idle, a
pseudo-channel while it is drained for its sweep, a die between UPDATEs, and an engine without a lane procedure. -/
def Chip.unitTurn (s : Chip) (a : Activation) (u : Nat) : Bool :=
  (s.live || a.component == 1) && a.units.contains u &&
  match a.component with
  | 3 => (s.core u).state == .idle || (s.core u).state == .testing
  | 4 => a.units.head? == some u && (enginePorts u).all fun p => (s.port p).proc.isNone
  | 5 => s.hbm.sweeps.any fun w => w.pc == u && w.phase != .draining
  | 6 => !(s.die u).midUpdate
  | 7 => !(s.die u).midUpdate
  | _ => a.units.head? == some u

/-- A unit runs its new image. -/
def Chip.unitLoaded (s : Chip) (a : Activation) (u : Nat) : Chip :=
  match a.component with
  | 3 => if (s.core u).state = .testing then s.setCore u fun x => { x with state := .idle } else s
  | 4 =>
    let s := s.setEngine u fun x => { x with newFirmware := true }
    if a.fresh then s.each (enginePorts u) fun s p =>
      if s.obju O.portAdmin p != 0 && !(s.portBarred p) && (s.port p).state == .disabled then s.startPort p else s
    else s
  | 5 => s.setPc u fun x => { x with newTable := true }
  | _ => s

/-- DEDUCED log 122. -/
def Chip.activationUnit (s : Chip) (u : Nat) (differs : Bool) : Chip :=
  match s.mgmt.activation with
  | some a =>
    if !(s.unitTurn a u) then s
    else if differs && a.component == 3 then s.activationFail u
    else
      let s := s.unitLoaded a u
      let s := ({ s with mgmt := { s.mgmt with activation := some { a with units := a.units.erase u } } } :
        Chip).activationNext.activationEnd
      if a.component = 4 then s.engineResumes u else s
  | none => s

def execActivationUnitDone (unit : Nat) (differs : Bool) (s : State) : Host.Outcome State Fault Refusal :=
  s.actAwake fun c => c.activationUnit unit differs

/-- ACTIVATION_TIMEOUT: a unit that does not run within twice its time; a command processor that does not has failed
(DEDUCED log 162). -/
def Chip.activationLate (s : Chip) (u : Nat) : Chip :=
  match s.mgmt.activation with
  | some a =>
    if !(a.units.contains u) then s
    else if a.component = 2 then (s.activationFail u).cpFault u
    else s.activationFail u
  | none => s

def execActivationTimeout (unit : Nat) (s : State) : Host.Outcome State Fault Refusal :=
  s.actAwake fun c => c.activationLate unit

end Sys2Proof.Machine
end

