-- ==== Sys2Proof/Machine/CellarAccess.lean ====
section
/-! DEFINITION. Accesses of the sites to the cellar dies' memory (R385, R386). -/

namespace Sys2Proof.Machine

/-- The LPDDR6 stack of its die that holds the 256-byte granule of a cellar offset (R384). -/
def cellarStack (a : Nat) : Nat :=
  let o := a % 2 ^ 39
  (o / 2 ^ 8 ^^^ o / 2 ^ 16 ^^^ o / 2 ^ 24 ^^^ o / 2 ^ 32) % 4

/-- A die that a request reached by its other link reports that it runs on one link, once until both carry again. -/
def Chip.oneLink (s : Chip) (die : Nat) (link : Nat) : Chip :=
  let both := (s.link (10 + 2 * die)).state.carries && (s.link (11 + 2 * die)).state.carries
  if both then s.setDie die fun x => { x with oneLinkSeen := false }
  else if (s.die die).oneLinkSeen then s
  else (s.setDie die fun x => { x with oneLinkSeen := true }).raise 0x4B03 [.u8 die, .u8 link]

/-- The smallest tag no request of a link uses. -/
def Chip.freeTag (s : Chip) (l : Nat) : Option Nat :=
  (List.range 4096).find? fun k => !((s.link l).outstanding.any fun r => r.tag == BitVec.ofNat 12 k)

/-- The links a request of a site to a cellar die crosses: the culverts on the way, and the die's link. -/
def Chip.cellarWay (s : Chip) (site die : Nat) : Option (List Nat) :=
  let l := s.cellarLink site die
  (s.path site (linkEnd l).1).map (· ++ [l])

/-- A request goes out under a tag and crosses the links of its way, the first of which waits for the response; the die's
answer comes back the same way. It is demand traffic, class P2, and a cellar link carries no hints (R26, R29, R33, R436,
DESIGN CHOICE log 50). -/
def Chip.cellarExchange (s : Chip) (way : List Nat) (site die tag : Nat) (x : HbmAccess) (errors : List (Nat × Nat)) : Chip :=
  let l := s.cellarLink site die
  let ask : GdpMsg :=
    { op := if x.write.isSome then .write else .read, prio := 2, hint := 0
      poison := (match x.write with | some (_, m) => m | none => false)
      tag := BitVec.ofNat 12 tag, src := BitVec.ofNat 8 site, dst := s.peerUnit l, status := 0, aop := 0
      addr := BitVec.ofNat 44 x.addr, len := BitVec.ofNat 9 x.len
      payload := (match x.write with | some (bs, _) => bs | none => []) }
  let s := match way with
    | k :: rest => rest.foldl (fun (s : Chip) l => s.gdpSend l ask) ((s.wakeCellar x.addr).gdpRequest k ask)
    | [] => s
  let back : GdpMsg := { ask with src := ask.dst, dst := ask.src, poison := false, payload := [] }
  let answer (s : Chip) (m : GdpMsg) : Chip := s.each way.reverse fun s l => s.emit (.gdp l m)
  match x.write with
  | none =>
    let (s, d, m) := s.readCellar (x.addr / 64) errors
    answer s { back with op := .readResp, poison := m, status := if m then 1 else 0
                         payload := (d.drop (x.addr % 64)).take x.len }
  | some (bs, m) =>
    let s := if bs.length = 64 then s else (s.readCellar (x.addr / 64) errors).1
    answer (s.putLine x.addr bs m) { back with op := .writeAck, len := 0 }

/-- An access that no message carries to the die completes as a request that timed out (R33, R386). -/
def Chip.cellarAccess (s : Chip) (site : Nat) (x : HbmAccess) : Chip :=
  let errors := x.errors.map fun e => (e.1.val, e.2.toNat)
  let die := x.addr / 2 ^ 39 % 2
  let ok := match x.write with
    | some (bs, _) => bs.length == x.len
    | none => true
  if x.addr / 2 ^ 40 ≠ 4 ∨ x.len = 0 ∨ x.addr % 64 + x.len > 64 ∨ !ok then s
  else match s.cutOff site x.addr, s.cellarWay site die with
    | false, some way =>
      match s.freeTag (way.headD 0) with
      | none => s
      | some tag => (s.oneLink die (s.cellarLink site die)).cellarExchange way site die tag x errors
    | _, _ =>
      match x.write with
      | none => s.emit (.data (List.replicate x.len 0xFF) true)
      | some (bs, m) => s.writePieceFrom site x.addr bs m x.hint

def execCellarAccess (req : CellarReq) (s : State) : Host.Outcome State Fault Refusal :=
  s.act fun c => c.cellarAccess req.site.val req.access

end Sys2Proof.Machine
end

