-- ==== Sys2Proof/Machine/Fallow.lean ====
section
/-! DEFINITION. Fallow and self-refresh (R201, R431–R433). -/

namespace Sys2Proof.Machine

/-- The control core does nothing but wait: it runs no kernel, or a wait on a counter is all that it has outstanding. -/
def CoreSt.onlyWaits (x : CoreSt) : Bool :=
  match x.state with
  | .idle => true
  | .running => !x.ended && (match x.stall with
    | some (.waitL ..) => true
    | some (.waitC ..) => true
    | _ => false)
  | _ => false

/-- A unit of a core has an empty queue and no work. -/
def CoreSt.unitIdle (x : CoreSt) (u : Nat) : Bool := (x.unitQ u).isEmpty && (x.unitRun u).isEmpty

/-- No queue of a site is Active. -/
def Chip.cpIdle (s : Chip) (site : Nat) : Bool :=
  !(s.queues.any fun q => queueSite q.1 == site && q.2.state == .active)

/-- No layer or program runs on an update engine, and none waits. -/
def Chip.engineIdle (s : Chip) (e : Nat) : Bool :=
  (s.die (e / 4)).jobs.isEmpty && (s.die (e / 4)).layer.isNone && (s.core (256 + e)).kernel.isNone

/-- What a unit must be to enter Fallow. -/
def Chip.mayFallow (s : Chip) : FallowUnit → Bool
  | .core c => (s.core c.val).onlyWaits
  | .array c => (s.core c.val).unitIdle 1
  | .vector c => (s.core c.val).unitIdle 2
  | .dma c => (s.core c.val).unitIdle 3
  | .commandProcessor i => s.cpIdle i.val
  | .updateEngine e => s.engineIdle e.val

/-- A unit is in Fallow. -/
def Chip.inFallow (s : Chip) : FallowUnit → Bool
  | .core c => (s.core c.val).fallow
  | .array c => (s.core c.val).unitFallow.getLsbD 1
  | .vector c => (s.core c.val).unitFallow.getLsbD 2
  | .dma c => (s.core c.val).unitFallow.getLsbD 3
  | .commandProcessor i => (s.site i.val).cpFallow
  | .updateEngine e => (s.core (256 + e.val)).fallow

/-- Put a unit of a core in Fallow, or wake it. -/
def CoreSt.setUnit (u : Nat) (on : Bool) (x : CoreSt) : CoreSt :=
  { x with unitFallow := if on then x.unitFallow ||| (1#4 <<< u) else x.unitFallow &&& ~~~(1#4 <<< u) }

/-- Put a unit in Fallow, or wake it. Its state is retained (R431, R432). -/
def Chip.setFallow (s : Chip) (u : FallowUnit) (on : Bool) : Chip :=
  match u with
  | .core c => s.setCore c.val fun x => { x with fallow := on }
  | .array c => s.setCore c.val (CoreSt.setUnit 1 on)
  | .vector c => s.setCore c.val (CoreSt.setUnit 2 on)
  | .dma c => s.setCore c.val (CoreSt.setUnit 3 on)
  | .commandProcessor i => s.setSite i.val fun x => { x with cpFallow := on }
  | .updateEngine e => s.setCore (256 + e.val) fun x => { x with fallow := on }

/-- The site whose FALLOW_ENTRIES counts a unit; an update engine lies at none. -/
def fallowSite : FallowUnit → Option Nat
  | .core c => some (c.val / 32)
  | .array c => some (c.val / 32)
  | .vector c => some (c.val / 32)
  | .dma c => some (c.val / 32)
  | .commandProcessor i => some i.val
  | .updateEngine _ => none

/-- A unit that has been idle for FALLOW_IDLE enters Fallow. -/
def Chip.fallowEntry (s : Chip) (u : FallowUnit) : Chip :=
  s.when (s.objb O.fallowEnable && !(s.inFallow u) && s.mayFallow u) fun s =>
    let s := s.setFallow u true
    match fallowSite u with
    | some i => s.bump (O.fallowEntries + 256 * i) 1
    | none => s

def execFallowEntry (fallow : FallowUnit) (s : State) : Host.Outcome State Fault Refusal :=
  s.act fun c => c.fallowEntry fallow

def execFallowWake (fallow : FallowUnit) (s : State) : Host.Outcome State Fault Refusal :=
  s.act fun c => c.setFallow fallow false

/-- A core and its units are in Fallow. A core that is Offline has nothing that runs (DEDUCED log 107). -/
def CoreSt.allFallow (x : CoreSt) : Bool :=
  x.state == .offline || (x.fallow && [1, 2, 3].all fun u => x.unitFallow.getLsbD u)

/-- A site is Fallow (R433). -/
def Chip.siteFallow (s : Chip) (i : Nat) : Bool :=
  (s.site i).cpFallow && (List.range 32).all fun k => (s.core (32 * i + k)).allFallow

/-- The four engines of a cellar die are in Fallow. -/
def Chip.dieFallow (s : Chip) (d : Nat) : Bool :=
  (List.range 4).all fun k => let x := s.core (256 + 4 * d + k); x.state == .offline || x.fallow

/-- Memory without accesses for HBM_SR_DELAY refreshes itself: a stack of a site in Fallow, or the LPDDR6 of a cellar die
(stacks 32 and 33) whose engines are in Fallow. -/
def Chip.selfRefresh (s : Chip) (t : Nat) : Chip :=
  if t < 32 then
    s.when (s.siteFallow (t / 4)) fun s =>
      { s with hbm := { s.hbm with hbmStacks := Tab.modify Stack.reset s.hbm.hbmStacks t fun x => { x with selfRefresh := true } } }
  else
    s.when (s.dieFallow (t - 32)) fun s =>
      { s with power := { s.power with cellarSelfRefresh := s.power.cellarSelfRefresh ||| (1#2 <<< (t - 32)) } }

def execHbmSelfRefreshEntry (stack : Fin 34) (s : State) : Host.Outcome State Fault Refusal :=
  s.act fun c => c.selfRefresh stack.val

end Sys2Proof.Machine
end

