-- ==== Sys2Proof/Machine/Names.lean ====
section
/-! DEFINITION. Writes of the objects that name the chip and its networks, and of the job's numeric settings (R89, R91,
R121, R129, R141, R370, R372). A write that the device refuses answers none. -/

namespace Sys2Proof.Machine

/-- An integer value within its object's range (R14). -/
def inRange (key v : Nat) : Bool :=
  match dictRow key with
  | some r => (r.lo == 0 && r.hi == 0) || (decide (r.lo ≤ v) && decide ((v : Int) ≤ r.hi))
  | none => false

/-- Every port of a role is Disabled. -/
def Chip.allDisabled (s : Chip) (role : Nat) : Bool :=
  (List.range 160).all fun p => s.obju O.portRole p != role || (s.port p).state == .disabled

/-- CHIP_NUMBER: any 16-bit value, while every TN port is Disabled; the chip is then assigned (R89). -/
def Chip.chipNumberWrite (s : Chip) (v : Nat) : Option Chip :=
  if s.allDisabled 1 && v < 65536 then some ((s.setObj O.chipNumber v).setObj O.chipAssigned 1) else none

def execChipNumberWrite (value : Half) (s : State) : Host.Outcome State Fault Refusal :=
  s.act fun c => (c.chipNumberWrite value.toNat).getD c

/-- CHIP_ASSIGNED (R89). -/
def Chip.chipAssignedWrite (s : Chip) (v : Bool) : Option Chip :=
  if s.allDisabled 1 then some (s.setObj O.chipAssigned v.toNat) else none

def execChipAssignedWrite (value : Bool) (s : State) : Host.Outcome State Fault Refusal :=
  s.act fun c => (c.chipAssignedWrite value).getD c

def shapeKey : ShapeObject → Nat
  | .domainX => O.domainX | .domainY => O.domainY | .bundle => O.bundle

/-- DOMAIN_X, DOMAIN_Y or BUNDLE: the relation b × (X + Y − 2) ≤ 126 must hold with the other two (R91). -/
def Chip.shapeWrite (s : Chip) (which : ShapeObject) (v : Nat) : Option Chip :=
  let t := s.setObj (shapeKey which) v
  if s.allDisabled 1 && inRange (shapeKey which) v && t.obj O.bundle * (t.obj O.domainX + t.obj O.domainY - 2) ≤ 126 then some t
  else none

def execDomainShapeWrite (which : ShapeObject) (value : Byte) (s : State) : Host.Outcome State Fault Refusal :=
  s.act fun c => (c.shapeWrite which value.toNat).getD c

/-- TB_MASTER names the master, and with it this chip's parent (R121) (DEDUCED log 73). -/
def Chip.tbMasterWrite (s : Chip) (v : Nat) : Option Chip :=
  if v < 65536 ∨ v = 0xFFFFFFFF then
    let s := s.setObj O.tbMaster v
    some { s with tn := { s.tn with
      tbParent := if s.chipNumber = s.tbMasterChip then 0xFFFFFFFF else BitVec.ofNat 32 s.tbParentChip } }
  else none

def execTbMasterWrite (value : Word32) (s : State) : Host.Outcome State Fault Refusal :=
  s.act fun c => (c.tbMasterWrite value.toNat).getD c

/-- GN_NODE: a D3 node id, while every GN port is Disabled (R129). -/
def Chip.gnNodeWrite (s : Chip) (v : Nat) : Option Chip :=
  if s.allDisabled 2 && v < 65536 then some (s.setObj O.gnNode v) else none

def execGnNodeWrite (value : Word32) (s : State) : Host.Outcome State Fault Refusal :=
  s.act fun c => (c.gnNodeWrite value.toNat).getD c

/-- RACK_MEMBERS: up to 32 node ids (R141) (DEDUCED log 111). -/
def Chip.rackMembersWrite (s : Chip) (l : List Nat) : Option Chip :=
  if l.length ≤ 32 && l.all (· < 0xFFFFF) then some { s with gn := { s.gn with members := l } } else none

def execRackMembersWrite (members : List Word32) (s : State) : Host.Outcome State Fault Refusal :=
  s.act fun c => (c.rackMembersWrite (members.map (·.toNat))).getD c

/-- DET_MODE, while JOB_STATE is Idle (R372). -/
def Chip.detModeWrite (s : Chip) (v : Bool) : Option Chip :=
  if s.job.state = 0 then some (s.setObj O.detMode v.toNat) else none

def execDetModeWrite (value : Bool) (s : State) : Host.Outcome State Fault Refusal :=
  s.act fun c => (c.detModeWrite value).getD c

/-- SR_SEED, while JOB_STATE is Idle (R370). -/
def Chip.srSeedWrite (s : Chip) (v : Nat) : Option Chip :=
  if s.job.state = 0 then some (s.setObj O.srSeed v) else none

def execSrSeedWrite (value : Word) (s : State) : Host.Outcome State Fault Refusal :=
  s.act fun c => (c.srSeedWrite value.toNat).getD c

end Sys2Proof.Machine
end

