-- ==== Sys2Proof/Machine/Thermal.lean ====
section
/-! DEFINITION. Sensor frames, temperature groups and their throttle actions (R413, R414, R420–R424), and the power
rules (R418, R419). -/

namespace Sys2Proof.Machine

/-! ### Samples (R413) -/

/-- The sample of a sensor in a frame. -/
def Chip.sampleOf (s : Chip) (f : SensorFrame) (n : Nat) : Option Rat :=
  if remoteSensor n then (s.power.telemetry.find? (·.1 == n)).map (·.2)
  else if f.missing.contains n then none
  else match f.readings.find? (·.1 == n) with
    | some r => some r.2
    | none => (s.sensor n).samples.head?

/-- The sensors that take part in a frame: those seen before and those the frame names. -/
def Chip.frameSensors (s : Chip) (f : SensorFrame) : List Nat :=
  let seen := s.power.sensors.map (·.1)
  let named := f.readings.map (·.1) ++ f.missing ++ s.power.telemetry.map (·.1)
  seen ++ (named.filter fun n => n < 2802 && !(seen.contains n)).eraseDups

/-- The samples of the other sensors of a sensor's group. -/
def Chip.peers (s : Chip) (f : SensorFrame) (n : Nat) : List (Nat × Rat × Rat) :=
  match groupOf n with
  | some g => ((groupSensors g).filter (· != n)).filterMap fun m => (s.sampleOf f m).map fun v => (m, v, v)
  | none => []

/-- A sensor takes its sample; one that fails by it is reported. -/
def Chip.takeSample (old : Chip) (f : SensorFrame) (s : Chip) (n : Nat) : Chip :=
  let x := s.sensor n
  let (limit, window) := match groupOf n with
    | some g => (s.groupRat O.rateLimit g, s.obju O.rateWindow g)
    | none => (0, 0)
  let y := x.take n limit window (old.peers f n) (old.sampleOf f n)
  let s := { s with power := { s.power with sensors := Tab.set Sensor.reset s.power.sensors n y } }
  if y.failed && !x.failed then s.raise 0x4C04 [.u16 n] else s

/-! ### Levels of a group (R413, R414, R420–R424) -/

/-- A level of a group, entered when a sensor reaches it and left when the group's reading falls to it less the hysteresis. -/
def Chip.inLevel (s : Chip) (l : List Nat) (level hyst : Rat) (was : Bool) : Bool :=
  if was then
    match s.hottest l with
    | some r => decide (level - hyst < r)
    | none => true
  else (s.reaching l level).isSome

/-- RATE starts with four rates above the limit in a row, and ends when every sensor has been calm for 1 ms. -/
def Chip.rateHolds (s : Chip) (g : Nat) (was : Bool) : Bool :=
  let l := (groupSensors g).filter fun n => !(s.sensor n).failed && !(s.sensor n).samples.isEmpty
  if was then l.any fun n => (s.sensor n).calm < 101 else l.any fun n => 4 ≤ (s.sensor n).above

/-- The throttle action of a group is on (R414, R422). -/
def Chip.actsNow (s : Chip) (g : Nat) : Bool :=
  let x := s.group g
  x.held || (s.obju O.thermMode g != 1 && x.inThrottle) || (s.obju O.thermMode g != 0 && x.inRate)

/-- The cause that a group outside the stacks and the coolant names as its episode starts. -/
def Chip.groupCause (s : Chip) (g : Nat) : Nat :=
  let x := s.group g
  if x.held then causeSensor else if s.obju O.thermMode g != 1 && x.inThrottle then causeThreshold else causeRate

/-- The warning level and the want of sensors are reported, and the group's levels follow its sensors. -/
def Chip.updateLevels (s : Chip) (g : Nat) : Chip :=
  let x := s.group g
  let l := groupSensors g
  let hyst := s.groupRat O.thermHyst g
  let warn := s.inLevel l (s.groupRat O.thermWarn g) hyst x.inWarning
  let base := g < 8 && s.inLevel (baseSensors g) (s.groupRat O.baseThrottle g) hyst x.inBase
  let held := if g < 8 then s.allLost (computeSensors g) || s.allLost (baseSensors g) else s.allLost l
  let y := { x with
    inWarning := warn, inThrottle := s.inLevel l (s.groupRat O.thermThrottle g) hyst x.inThrottle
    inRate := s.rateHolds g x.inRate, inBase := base, held := held, baseLost := g < 8 && s.allLost (baseSensors g) }
  let hot := (s.reaching l (s.groupRat O.thermWarn g)).getD 0xFFFF
  let s := s.setGroup g fun _ => y
  let s := if warn && !x.inWarning then s.raise 0x4C01 [.u8 g, .u16 hot, .f32 (ratToF32 (s.sensor hot).last)] else s
  let s := if held && !x.held then s.raise 0x4C04 [.u8 g] else s
  if y.baseLost && !x.baseLost then s.raise 0x4107 [.u8 g] else s

/-- A group at its shutdown level shuts its engine or the package down, in every mode (R420, R421, R427). -/
def Chip.checkShutdown (s : Chip) (g : Nat) : Chip :=
  let level := s.groupRat O.thermShutdown g
  match s.reaching (groupSensors g) level with
  | some n =>
    let c : ShutdownCause := ⟨1, g, n, (s.sensor n).last, level, (s.groupRate g).getD 0⟩
    if 16 ≤ g ∧ g < 36 then s.engineShutdown (g - 16) c
    else if 36 ≤ g ∧ g < 56 then s.engineShutdown (g - 36) c
    else s.packageShutdown c true
  | none => s

/-! ### Throttle actions (R424) -/

/-- A stack's causes (DEDUCED log 103). The base-die level throttles both dies: the weir slows the compute die and the base
die's clock is stretched to 1/2 (R23, R424). -/
def Chip.stackAction (s : Chip) (g : Nat) : Chip :=
  let x := s.group g
  let s := s.setSite g fun y => { y with baseStretch := if x.inBase then 2 else 1 }
  let mode := s.obju O.thermMode g
  let s := s.setCause g causeThreshold (mode != 1 && x.inThrottle)
  let s := s.setCause g causeRate (mode != 0 && x.inRate)
  let s := s.setCause g causeBase x.inBase
  let s := s.setCause g causeSensor x.held
  s.setCause g causeRegulator (s.overCap g)

/-- Refresh is doubled at the warning level, and above 85 °C until 80 °C; activations are capped while the group acts
(R271, R424). -/
def Chip.hbmAction (s : Chip) (g : Nat) : Chip :=
  let x := s.group g
  s.each (List.range 4) fun s k =>
    let n := 1584 + 4 * (g - 8) + k
    let v := s.sensor n
    let above := match v.samples with
      | a :: b :: _ => decide (85 < a) && decide (85 < b)
      | _ => false
    let t := 4 * (g - 8) + k
    let was := (Tab.get Stack.reset s.hbm.hbmStacks t).fastRefresh
    let fast := x.inWarning || above || (was && decide (80 < v.last))
    { s with hbm := { s.hbm with
        hbmStacks := Tab.modify Stack.reset s.hbm.hbmStacks t fun z => { z with fastRefresh := fast, actCap := x.acting } } }

/-- Lit lasers that neither a lane nor a lane procedure uses go dark. -/
def Chip.darkenUnused (s : Chip) (e : Nat) : Chip :=
  let used (c : Nat) : Bool := (enginePorts e).any fun p =>
    (s.port p).txMap.contains c || (match (s.port p).proc with
      | some w => w.channel == c || w.newMap.contains c
      | none => false)
  s.each (List.range 18) fun s c =>
    if used c then s else s.setLaser e c (s.laser e c).darkened

/-- A lit port goes down to MIN_WIDTH and keeps in mind the map it had. -/
def Chip.narrowPort (s : Chip) (p : Nat) : Chip :=
  let x := s.port p
  let w := s.obj O.minWidth
  s.when (x.state.carries && x.state != .draining && x.proc.isNone && !(s.engineRestarts p) && w < mapWidth x.txMap) fun s =>
    (s.setPort p fun x => { x with wideMap := some (x.wideMap.getD x.txMap) }).startWidth p w
      (x.txMap.take w ++ List.replicate (16 - w) 255) false

/-- The map a narrowed port widens to: its lanes, and those it gave up whose lasers are sound. -/
def Chip.widened (s : Chip) (p : Nat) (wide : List Nat) : List Nat :=
  let x := s.port p
  let now := x.txMap.filter (· != 255)
  let back := (wide.drop now.length).filter fun c => c != 255 && (s.laser (p / 8) c).sound
  (now ++ back ++ List.replicate 16 255).take 16

/-- One narrowed port of an engine, at most one in 1 ms, widens again. -/
def Chip.widenOne (s : Chip) (e : Nat) : Chip :=
  let ready (p : Nat) : Bool := (s.port p).wideMap.isSome && (s.port p).state.carries && (s.port p).proc.isNone && !(s.engineRestarts p)
  match (enginePorts e).find? ready with
  | some p =>
    s.when (Tab.get 0 s.power.widenedAt e + 1000000 ≤ s.now) fun s =>
      let m := s.widened p ((s.port p).wideMap.getD [])
      let s := s.each (m.filter (· != 255)) fun s c => if s.laser e c = .cold then s.setLaser e c .locked else s
      let s := s.setPort p fun x => { x with wideMap := none }
      let s := { s with power := { s.power with widenedAt := Tab.set 0 s.power.widenedAt e s.now } }
      if mapWidth (s.port p).txMap < mapWidth m then s.startWidth p (mapWidth (s.port p).txMap) m false else s
  | none => s

/-- While an engine's dies or lasers throttle, its lit ports run at MIN_WIDTH and unused lasers are dark; afterwards the
ports widen one by one. -/
def Chip.engineAction (s : Chip) (e : Nat) : Chip :=
  if (s.group (16 + e)).acting || (s.group (36 + e)).acting then
    let s := { s with power := { s.power with enginesNarrow := s.power.enginesNarrow ||| (1#20 <<< e) } }
    (s.each (enginePorts e) Chip.narrowPort).darkenUnused e
  else
    let s := { s with power := { s.power with enginesNarrow := s.power.enginesNarrow &&& ~~~(1#20 <<< e) } }
    s.widenOne e

/-- The action of a group goes on or off; groups whose action is not the weir's say so at its start (R438). -/
def Chip.updateAction (s : Chip) (g : Nat) : Chip :=
  let on := s.actsNow g
  let was := (s.group g).acting
  let s := s.setGroup g fun x => { x with acting := on }
  if g < 8 then s.stackAction g
  else if g = 60 then s.each (List.range 8) fun s i => s.setCause i causeCoolant on
  else
    let s := if on && !was then s.raise 0x4C02 [.u8 g, .u8 (s.groupCause g)] else s
    if g < 16 then s.hbmAction g else s

/-- The outlet more than 15 K above the inlet (R438) (DEDUCED log 105). -/
def Chip.checkOutlet (s : Chip) : Chip :=
  match s.hottest [2798, 2799], s.hottest [2800, 2801] with
  | some a, some b =>
    let hot := decide (15 < b - a)
    let n := if (s.sensor 2800).failed || (s.sensor 2800).last < b then 2801 else 2800
    let t := { s with power := { s.power with outletHot := hot } }
    if hot && !s.power.outletHot then t.raise 0x4C01 [.u8 60, .u16 n, .f32 (ratToF32 b)] else t
  | _, _ => s

/-- An engine enforces its own shutdown levels by its own samples, whether TELEMETRY brings them to the Ditchrider or not: two
samples of one sensor in a row at or above its level (R413, R427) (DEDUCED log 171). -/
def Chip.ownShutdown (f : SensorFrame) (s : Chip) (e : Nat) : Chip :=
  let level (n : Nat) : Option Rat := (groupOf n).map (s.groupRat O.thermShutdown)
  let hot := f.readings.filter fun r => engineSensor e r.1 && decide (r.2 ≤ 200) && (level r.1).any fun v => decide (v ≤ r.2)
  let was := (s.engine e).hot
  let s := s.setEngine e fun x => { x with hot := hot.map (·.1) }
  match hot.find? fun r => was.contains r.1 with
  | some r => s.engineShutdown e ⟨1, (groupOf r.1).getD 0xFFFF, r.1, r.2, (level r.1).getD 0, (s.sensor r.1).rate 100 |>.getD 0⟩
  | none => s

/-- A frame: samples, levels and shutdowns, and, while the dies run, the throttle actions. -/
def Chip.sensorFrame (s : Chip) (f : SensorFrame) : Chip :=
  let old := s
  let groups := List.range 61
  let s := s.each (s.frameSensors f) (Chip.takeSample old f)
  let s := { s with power := { s.power with telemetry := [] } }
  let s := (s.each groups Chip.updateLevels).checkOutlet
  let s := (s.each groups Chip.checkShutdown).each (List.range 20) (Chip.ownShutdown f)
  s.when s.live fun s => (s.each groups Chip.updateAction).each (List.range 20) Chip.engineAction

def execSensorFrame (frame : SensorFrame) (s : State) : Host.Outcome State Fault Refusal :=
  s.actAwake fun c => c.sensorFrame frame

/-- TELEMETRY: readings of the engine or cellar die at the far end of a link, for the next frame (R35, R409). -/
def Chip.telemetry (s : Chip) (l : Nat) (readings : List (Nat × Rat)) : Chip :=
  let mine (n : Nat) : Bool := if l < 10 then false else if l < 14 then cellarSensor ((l - 10) / 2) n else engineSensor (l - 14) n
  let good := readings.filter fun r => mine r.1
  let rest := s.power.telemetry.filter fun r => !(good.any (·.1 == r.1))
  { s with power := { s.power with telemetry := rest ++ good } }

def execGdpTelemetry (link : Fin 34) (msg : GdpMsg) (readings : List (Nat × Rat)) (s : State) :
    Host.Outcome State Fault Refusal :=
  s.act fun c => c.gdpArrival link.val msg .telemetry fun c => c.telemetry link.val readings

/-! ### Power (R418, R419) -/

/-- The rules, as event 0x4C03 numbers them (DESIGN CHOICE log 64). -/
def rulePeak : Nat := 0
def ruleExcursion : Nat := 1
def ruleAverage : Nat := 2

/-- The site one step down under Excursion and Average: of those not at F7 yet, the one whose compute die draws most. -/
def Chip.hungriest (s : Chip) : Option Nat :=
  let l := (List.range 8).filter fun i => (s.site i).step < 7
  l.find? fun i => l.all fun j => decide (s.computePower j ≤ s.computePower i)

def Chip.stepHungriest (s : Chip) : Chip :=
  match s.hungriest with
  | some i => s.powerDown i
  | none => s

/-- Every sample of POWER_PEAK_TIME is above POWER_LIMIT. -/
def Chip.excursion (s : Chip) : Bool :=
  let n := max 1 (s.obj O.powerPeakTime / 10)
  let l := s.power.samples.take n
  l.length == n && l.all fun p => decide (s.obj O.powerLimit < p)

/-- The energy of the last 1 s leaves no room for a full excursion, J. -/
def Chip.averageFull (s : Chip) : Bool :=
  let energy := s.power.samples.foldl (fun e p => e + p) 0 / 100000
  decide ((s.obj O.powerLimit : Rat) - (s.obj O.powerPeak : Rat) * (s.obj O.powerPeakTime : Rat) / 1000000 ≤ energy)

/-- A rule that starts is reported. -/
def Chip.ruleStarts (s : Chip) (rule : Nat) (on was : Bool) (p : Rat) : Chip :=
  if on && !was then s.raise 0x4C03 [.u8 rule, .f32 (ratToF32 p)] else s

/-- A rule of Excursion or Average, once it acts, acts until a sample falls below POWER_LIMIT. -/
def ruleOn (was starts below : Bool) : Bool := starts || (was && !below)

/-- One sample of input power and the three rules. -/
def Chip.powerSample (s : Chip) : Chip :=
  let p := s.inputPower
  let old := s.power
  let s := { s with power := { old with samples := (p :: old.samples).take 100000 } }
  let limit : Rat := s.obj O.powerLimit
  let peak := decide ((s.obj O.powerPeak : Rat) < p)
  let exc := ruleOn old.excursionActing s.excursion (decide (p < limit))
  let avg := ruleOn old.averageActing (s.averageFull && decide (limit < p)) (decide (p < limit))
  let s := { s with power := { s.power with peakActing := peak, excursionActing := exc, averageActing := avg } }
  let s := s.ruleStarts rulePeak peak old.peakActing p
  let s := s.ruleStarts ruleExcursion exc old.excursionActing p
  let s := s.ruleStarts ruleAverage avg old.averageActing p
  let s := if peak then s.each (List.range 8) fun s i => (s.stretch i).powerDown i else s
  let starts := (exc || avg) && !(old.excursionActing || old.averageActing)
  let s := if starts then s.stepHungriest else s
  if peak || exc || avg then s
  else s.each (List.range 8) fun s i => s.setSite i fun x => { x with
    demands := x.demands.map fun d => if d.cause = causePower then { d with active := false } else d }

def execPowerSample (s : State) : Host.Outcome State Fault Refusal := s.act Chip.powerSample

/-- Every 100 µs while Excursion or Average acts. -/
def execPowerStepTimer (s : State) : Host.Outcome State Fault Refusal :=
  s.act fun c => c.when (c.power.excursionActing || c.power.averageActing) Chip.stepHungriest

/-! ### Levels written (R421) -/

/-- The level of an object, as a key. -/
def levelKey : ThermLevel → Nat
  | .warning => O.thermWarn | .throttle => O.thermThrottle | .shutdown => O.thermShutdown

/-- A write of a level: refused where it breaks warning < throttle < shutdown, or raises shutdown above its default. -/
def Chip.levelWrite (s : Chip) (g : Nat) (k : ThermLevel) (bits : Nat) : Option Chip :=
  match f32ToRat bits with
  | none => none
  | some v =>
    let t := s.setObj (levelKey k + 256 * g) bits
    let warn := t.groupRat O.thermWarn g
    let throttle := t.groupRat O.thermThrottle g
    let shut := t.groupRat O.thermShutdown g
    let top := (f32ToRat (objDefault s.part (O.thermShutdown + 256 * g))).getD 0
    if k = .shutdown ∧ top < v then none
    else if warn < throttle ∧ throttle < shut then some t
    else none

def execThermalLevelWrite (group : Fin 61) (level : ThermLevel) (value : Word32) (s : State) :
    Host.Outcome State Fault Refusal :=
  s.actAwake fun c => (c.levelWrite group.val level value.toNat).getD c

end Sys2Proof.Machine
end

