-- ==== Sys2Proof/Machine/TnRecv.lean ====
section
/-! DEFINITION. Sequenced cells at the Headgate: each type's rule, and the commands that bring them (R95, R98, R109). -/

namespace Sys2Proof.Machine

/-- A cell that its context lets land, by its type's rule. -/
def Chip.landCell (s : Chip) (c : Cell) : Chip × Landing :=
  if c.type = 0 then s.landPut c
  else if c.type = 1 then s.landSignal c
  else if c.type = 2 then s.landAtomic c
  else if c.type = 7 ∨ c.type = 8 then s.landMcast c
  else s.collLand c

/-- An ejected sequenced cell is processed, and what it changed is mirrored. -/
def Chip.takeCell (s : Chip) (c : Cell) : Chip :=
  (Chip.sequenced Chip.landCell { s with tn := { s.tn with ejected := s.tn.ejected.erase c } } c).mirrorPump.collFeed

/-- A cell addressed to this chip. -/
def Chip.forMe (s : Chip) (c : Cell) : Bool := c.dest.toNat == s.chipNumber

def execCellPut (cell : Cell) (s : State) : Host.Outcome State Fault Refusal :=
  s.act fun c => c.when (cell.type == 0 && c.forMe cell) fun c => c.takeCell cell

def execCellSignal (cell : Cell) (s : State) : Host.Outcome State Fault Refusal :=
  s.act fun c => c.when (cell.type == 1 && c.forMe cell) fun c => c.takeCell cell

def execCellAtomicAdd (cell : Cell) (s : State) : Host.Outcome State Fault Refusal :=
  s.act fun c => c.when (cell.type == 2 && c.forMe cell) fun c => c.takeCell cell

def execCellCollData (cell : Cell) (s : State) : Host.Outcome State Fault Refusal :=
  s.act fun c => c.when (cell.type == 5 && c.forMe cell) fun c => c.takeCell cell

def execCellMcast (cell : Cell) (s : State) : Host.Outcome State Fault Refusal :=
  s.act fun c => c.when ((cell.type == 7 || cell.type == 8) && c.forMe cell) fun c => c.takeCell cell

/-- A START; a COLL_CTRL cell of reserved KIND comes with it and is discarded (R227). -/
def execCollStart (cell : Cell) (s : State) : Host.Outcome State Fault Refusal :=
  s.act fun c => c.when (cell.type == 6 && ctrlKind cell != 2 && ctrlKind cell != 3 && c.forMe cell) fun c => c.takeCell cell

def execCollGrant (cell : Cell) (s : State) : Host.Outcome State Fault Refusal :=
  s.act fun c => c.when (cell.type == 6 && ctrlKind cell == 2 && c.forMe cell) fun c => c.takeCell cell

def execCollAbort (cell : Cell) (s : State) : Host.Outcome State Fault Refusal :=
  s.act fun c => c.when (cell.type == 6 && ctrlKind cell == 3 && c.forMe cell) fun c => c.takeCell cell

def execSluiceApply (line : Nat) (s : State) : Host.Outcome State Fault Refusal :=
  s.act fun c => Chip.sluiceApply Chip.landCell c line

/-! ### What the source learns of a chip (R106, R112, R113, R126, R234) -/

/-- Where what has just happened makes the Headgate hold a chip's cells, that chip counts as failed (R234). -/
def Chip.failNew (s t : Chip) (chip : Half) : Chip :=
  t.when (t.chipHeld chip && !(s.chipHeld chip)) fun t => (t.memberFailed chip).collFeed

def execCellNack (cell : Cell) (s : State) : Host.Outcome State Fault Refusal :=
  s.act fun c => c.when (cell.type == 4 && cell.dest.toNat == c.chipNumber) fun c =>
    let c : Chip := { c with tn := { c.tn with ejected := c.tn.ejected.erase cell } }
    c.failNew (c.takeNack cell) cell.src

def execRetxTimeout (stream : BitVec 14) (seq : Half) (s : State) : Host.Outcome State Fault Refusal :=
  s.act fun c => match c.stream stream.toNat with
    | some x => c.failNew (c.retxTimeout stream.toNat seq) x.dest
    | none => c

/-- DEST_RELEASE: the chip counts as failed (R234), and everything for it is discarded (R126). -/
def Chip.releaseDest (s : Chip) (chip : Half) : Chip := ((s.memberFailed chip).destRelease chip).retryMcasts.collFeed

def execDestRelease (chip : Half) (s : State) : Host.Outcome State Fault Refusal := s.act fun c => c.releaseDest chip

def execCellAckFin (cell : Cell) (s : State) : Host.Outcome State Fault Refusal :=
  s.act fun c => c.when (cell.type == 3 && cell.flags.getLsbD 0 && cell.dest.toNat == c.chipNumber) fun c =>
    (({ c with tn := { c.tn with ejected := c.tn.ejected.erase cell } } : Chip).takeFin cell).retryMcasts.collFeed

/-- A change of TNREADY is announced (R92), and collectives that waited for it begin. -/
def execTnreadyChange (s : State) : Host.Outcome State Fault Refusal :=
  s.act fun c => c.when (c.tnReady != c.tn.readySent) fun c => c.readyChange.collFeed

end Sys2Proof.Machine
end

