-- ==== Sys2Proof/Machine/Values.lean ====
section
/-! DEFINITION. What every object of the dictionary reads as (R14, R452). -/

namespace Sys2Proof.Machine

/-! ### Records as bytes -/

/-- FAULT_RECORD (R304). -/
def FaultRecord.bytes (r : FaultRecord) : List Byte :=
  leBytes 1 0 ++ [r.cause, r.status, r.sub] ++ leBytes 2 (r.queue.toNat * 4 + r.unit.toNat) ++ leBytes 2 r.index.toNat ++
  leBytes 8 r.pc.toNat ++ leBytes 8 r.addr.toNat ++ leBytes 8 r.timestamp.toNat

/-- An entry of the ratio ring (R402). -/
def RatioEntry.bytes (r : RatioEntry) : List Byte :=
  leBytes 2 (r.held.toNat * 4 + r.high.toNat * 2 + r.low.toNat) ++ [r.rule, r.status] ++ leBytes 4 r.rmsW.toNat ++
  leBytes 4 r.ratio.toNat ++ leBytes 4 r.layerId.toNat ++ leBytes 8 r.timestamp.toNat ++ leBytes 8 r.step.toNat

/-- An entry of LATE_RING (R238). -/
def LateEntry.bytes (r : LateEntry) : List Byte :=
  leBytes 16 (r.commId.toNat * 2 ^ 112 + r.seq.toNat * 2 ^ 80 + r.last.toNat * 2 ^ 68 + r.self.toNat * 2 ^ 67 + r.spread.toNat)

/-- A log entry (R477). -/
def LogEntry.bytes (e : LogEntry) : List Byte :=
  leBytes 8 e.seq.toNat ++ leBytes 2 e.code.toNat ++ leBytes 2 e.args.length ++ leBytes 4 e.count.toNat ++
  leBytes 8 e.timebase.toNat ++ leBytes 8 e.aonTime.toNat ++ fit 64 e.args

/-- A record of MAPOUT_LOG (R272). -/
def MapoutRecord.bytes (r : MapoutRecord) : List Byte :=
  leBytes 2 r.channel ++ leBytes 1 r.cause ++ leBytes 1 r.mode ++ leBytes 4 r.durationMs ++ leBytes 8 r.time.toNat

/-- The settled set, its fields in the order R37 names them (DEDUCED log 68). -/
def settleBytes (v : Settle) : List Byte :=
  fit 32 (leBytes 2 v.proto.toNat ++ leBytes 8 v.features.toNat ++ [BitVec.ofNat 8 v.addressOrder.toNat, v.maxPayload, v.rate,
    v.modules] ++ leBytes 4 v.crc.toNat)

/-- A row tag (R317). -/
def AccRow.tag (r : AccRow) : Nat :=
  r.kind.code * 2 ^ 14 + r.poison.toNat * 2 ^ 13 + r.integer.toNat * 2 ^ 12 + r.fpos * 2 ^ 6

/-- BANK_TAGS of a bank (R331). -/
def Bank.tag (b : Bank) : List Byte :=
  if b.loaded then [1 + b.wfmt.setWidth 8 * 16, BitVec.ofNat 8 (b.d - 1), BitVec.ofNat 8 (b.n - 1), 0] else [0, 0, 0, 0]

/-- Signed numbers of two bytes. -/
def i16s (n : Nat) (l : List Int) : List Byte := (List.range n).flatMap fun k => leBytes 2 (toTwos 16 (nth 0 l k))

/-! ### Integers and F32 -/

/-- The bits of an F32 reading; zero before there is one (DESIGN CHOICE log 69). -/
def f32Of (r : Option Rat) : Nat := ratToF32 (r.getD 0)

/-- A bitmap of the numbers below n that satisfy p. -/
def bitmap (n : Nat) (p : Nat → Bool) : Nat := (List.range n).foldl (fun m k => if p k then m + 2 ^ k else m) 0

/-- CEL_STATE: 0 Down, 1 Active, 2 OneLink, 3 Failed (R385, R406). -/
def Chip.celState (s : Chip) (d : Nat) : Nat :=
  let a := (s.link (10 + 2 * d)).state
  let b := (s.link (11 + 2 * d)).state
  if a.carries && b.carries then 1
  else if a.carries || b.carries then 2
  else if a = .failed ∧ b = .failed then 3
  else 0

/-- IMAGE_STATE: an image is written in the moment it is verified (R468). -/
def Mgmt.imageState (m : Mgmt) : Nat := if m.activation.isSome then 4 else if m.transfer.isSome then 1 else 0

def Mgmt.received (m : Mgmt) : Nat := match m.transfer with
  | some t => t.data.length
  | none => 0

/-- Objects of fixed width whose value is not a written one: the object of unit 0 and what it reads as. -/
def valuesA : List (Nat × (Chip → Nat → Nat)) := [
  (O.linkState, fun s l => (s.link l).state.code),
  (O.linkModules, fun s l => (s.link l).modules),
  (O.linkRate, fun s l => (s.link l).rate.toNat),
  (O.linkSparesLeft, fun s l => (s.link l).sparesLeft),
  (O.laneRepairs, fun s l => (s.link l).laneRepairs),
  (O.crcRetries, fun s l => (s.link l).crcRetries.toNat),
  (O.portState, fun s p => (s.port p).state.code),
  (O.peerIdent, fun s p => (s.port p).peerIdent.toNat),
  (O.txWidth, fun s p => (s.port p).txWidth),
  (O.rxWidth, fun s p => (s.port p).rxWidth),
  (O.portSparesLeft, fun s p => (s.port p).spares.length),
  (O.linkRetries, fun s p => (s.port p).linkRetries.toNat),
  (O.txTap, fun s p => ratToF32 (((s.port p).txTap : Rat) / 100)),
  (O.recvStoreUsed, fun s _ => s.recvUsed),
  (O.retxStoreUsed, fun s _ => s.retxUsed),
  (O.pendingUsed, fun s _ => s.tn.pendingSignals.length),
  (O.timebase, fun s _ => s.timebase.toNat),
  (O.tbOffset, fun s _ => toTwos 32 s.tn.tbOffset),
  (O.tbState, fun s _ => s.tn.tbState.code),
  (O.tbParent, fun s _ => s.tn.tbParent.toNat),
  (O.probeResult, fun s _ => s.tn.probeResult.toNat)]

def valuesB : List (Nat × (Chip → Nat → Nat)) := [
  (O.tagsUsed, fun s _ => s.tagged.length),
  (O.jobState, fun s _ => s.job.state),
  (O.cpActiveQueues, fun s i => (s.queues.filter fun q => queueSite q.1 == i && q.2.state != .disabled).length),
  (O.waitersUsed, fun s i => s.waitersUsed i),
  (O.pollersNow, fun s i => s.pollersAt i),
  (O.earlyUsed, fun s _ => (s.coll.early.length + 15) / 16),
  (O.commsBound, fun s _ => (s.coll.comms.filter fun e => e.2.state != .unbound).length),
  (O.lateNext, fun s _ => s.coll.lateNext),
  (O.hbmVisible, fun s _ => s.hbmVisible),
  (O.visibleUnits, fun s _ => s.hbm.v),
  (O.headlandFree, fun s _ => s.headlandFree),
  (O.mappedOutCount, fun s _ => s.mappedOutCount),
  (O.chState, fun s n => (s.channel n).state.code),
  (O.chRowRepairs, fun s n => ((Config.factoryRows n).toNat + s.obju O.chRowRepairs n) % 2 ^ 16),
  (O.chPinGroups, fun s n => (s.pcOf (2 * n)).groups.toNat + (s.pcOf (2 * n + 1)).groups.toNat * 2 ^ 16),
  (O.ctrlClock, fun s _ => match s.part with
    | .a => 1000
    | .b => 900),
  (O.coreState, fun s c => (s.core c).state.code + (s.core c).fallow.toNat * 128),
  (O.arrayRepair, fun _ c => (Config.arrayRepair c).toNat % 2 ^ 34),
  (O.nvBootTime, fun s _ => s.mgmt.nvBootTime),
  (O.celState, fun s d => s.celState d),
  (O.celCe, fun s d => (s.die d).ce.toNat),
  (O.celUe, fun s d => (s.die d).ue.toNat),
  (O.enginesOnline, fun s d => bitmap 4 fun k => (s.core (256 + 4 * d + k)).state != .offline),
  (O.layersDone, fun s d => (s.die d).layersDone.toNat),
  (O.ratioNext, fun s _ => s.cellar.ratioNext)]

def valuesC : List (Nat × (Chip → Nat → Nat)) := [
  (O.inputPower, fun s _ => f32Of s.power.samples.head?),
  (O.power1s, fun s _ => ratToF32 s.power1s),
  (O.shutdownNext, fun s _ => s.power.ringNext),
  (O.enginesDown, fun s _ => s.power.enginesDown.toNat),
  (O.drMaster, fun s _ => s.power.master),
  (O.drStandbyOk, fun s _ => s.power.standbyOk.toNat),
  (O.sensorsFailed, fun s _ => (s.power.sensors.filter fun e => e.2.failed).length),
  (O.siteStep, fun s i => (s.site i).step),
  (O.throttleCause, fun s i => s.throttleCause i),
  (O.sitePower, fun s i => ratToF32 (s.computePower i + s.basePower i)),
  (O.thermReading, fun s g => f32Of (s.groupReading g)),
  (O.thermRate, fun s g => f32Of (s.groupRate g)),
  (O.aonSource, fun s _ => s.power.aonRc.toNat),
  (O.siteFallow, fun s i => (s.siteFallow i).toNat +
    16 * bitmap 4 fun k => (Tab.get Stack.reset s.hbm.hbmStacks (4 * i + k)).selfRefresh),
  (O.deviceUid, fun _ _ => (Config.dieUid 0).toNat),
  (O.mgmtSessions, fun s _ => s.mgmt.sessions.length),
  (O.claimState, fun s _ => s.mgmt.claimed.toNat),
  (O.bootStage, fun s _ => s.bootStage),
  (O.bootCount, fun s _ => s.mgmt.bootCount.toNat),
  (O.debugScope, fun s _ => s.mgmt.debugScope),
  (O.compVersion, fun s k => imageVersion (s.mgmt.image k)),
  (O.compSvn, fun s k => imageSvn (s.mgmt.image k)),
  (O.compState, fun s k => (s.mgmt.component k).state.code),
  (O.svnFloor, fun s k => s.mgmt.svnFloor k)]

def valuesD : List (Nat × (Chip → Nat → Nat)) := [
  (O.imageState, fun s _ => s.mgmt.imageState),
  (O.imageReceived, fun s _ => s.mgmt.received),
  (O.keysRevoked, fun s _ => s.mgmt.keysRevoked.toNat),
  (O.eventSeq, fun s _ => s.log.seq.toNat),
  (O.logNext, fun s _ => s.log.next),
  (O.healthScore, fun s _ => s.service.score),
  (O.suspect, fun s _ => s.service.suspect.toNat),
  (O.serviceState, fun s _ => s.service.state.code),
  (O.quarantined, fun s _ => s.service.quarantined.toNat),
  (O.shadowEqual, fun s _ => s.service.shadowEqual),
  (O.shadowMismatches, fun s _ => s.service.shadowMismatches.toNat),
  (O.mirrorLag, fun s _ => (s.mirrorLag + 1023) / 1024)]

/-- The value of an object of fixed width: `base` is the object of unit 0. -/
def Chip.number (s : Chip) (base u : Nat) : Nat :=
  match (valuesA ++ valuesB ++ valuesC ++ valuesD).find? (·.1 == base) with
  | some e => e.2 s u
  | none => s.obju base u

/-! ### Strings and BLOBs -/

def ascii (t : String) : List Byte := t.toList.map fun c => BitVec.ofNat 8 c.toNat

/-- CLOCK_STATE (R434, R437, DEDUCED log 70). -/
def Chip.clockState (s : Chip) : List Byte :=
  let die : Byte := if s.live then 1 else 0
  List.replicate 32 die ++ (List.range 20).map (fun e => if s.live && (s.engine e).powered then 1 else 0) ++
  List.replicate 4 die ++ [if s.power.aonRc then 3 else 1, if s.mgmt.linkUp then 1 else 0,
    if !s.live then 0 else if s.tn.tbState = .unlocked then 2 else 1, 0]

/-- SENSOR_VIEW (R437). -/
def Chip.sensorView (s : Chip) (n : Nat) : List Byte :=
  let x := s.sensor n
  let rate := match groupOf n with
    | some g => x.rate (s.obju O.rateWindow g)
    | none => none
  leBytes 4 (ratToF32 x.last) ++ leBytes 4 (f32Of (x.filtered 0)) ++ leBytes 4 (f32Of rate) ++ leBytes 4 x.failed.toNat

/-- MARGIN_VIEW of a pseudo-channel (R272). -/
def PseudoChannel.marginView (c : PseudoChannel) : List Byte :=
  fit 144 (c.windows.flatMap fun w =>
    leBytes 1 (toTwos 8 w.left) ++ leBytes 1 (toTwos 8 w.right) ++ leBytes 1 (toTwos 8 w.vlow) ++ leBytes 1 (toTwos 8 w.vhigh)) ++
  leBytes 8 c.windowTime.toNat

/-- The positions of the domain to which cells are held (R112, R125, R127). -/
def Chip.heldBitmap (s : Chip) : Nat := bitmap 4096 fun n =>
  (s.tn.heldDests.any fun e => e.2 && e.1 % 4096 == n) ||
  s.tn.streams.any fun e => match e.2 with
    | some x => x.held && x.dest.toNat % 4096 == n
    | none => false

/-- Strings and BLOBs: the object of unit 0 and what it reads as (DESIGN CHOICE log 110). -/
def blobsA : List (Nat × (Chip → Nat → List Byte)) := [
  (O.localDesc, fun s l => s.localDesc l),
  (O.peerDesc, fun s l => fit 256 (s.link l).peerDesc),
  (O.settled, fun s l => match (s.link l).settled with
    | some v => settleBytes v
    | none => List.replicate 32 0),
  (O.txLaneMap, fun s p => (s.port p).txMap.map (BitVec.ofNat 8)),
  (O.rxLaneMap, fun s p => (s.port p).rxMap.map (BitVec.ofNat 8)),
  (O.checkFails, fun s p => (List.range 18).flatMap fun c => leBytes 4 (Tab.get 0 (s.port p).checkFails c).toNat),
  (O.rxPower, fun s p => i16s 19 (s.port p).rxPower),
  (O.berResult, fun s p => (List.range 18).flatMap (fun c => leBytes 8 (Tab.get 0 (s.port p).berErrors c).toNat) ++
    leBytes 8 (s.port p).berBits.toNat),
  (O.laserState, fun s e => (s.engine e).lasers.map fun v => BitVec.ofNat 8 v.code),
  (O.laserBias, fun s e => (List.range 18).flatMap fun c => leBytes 2 (nth 0 (s.engine e).sample.bias c)),
  (O.laserTap, fun s e => i16s 18 (s.engine e).sample.m1),
  (O.splitTap, fun s e => i16s 8 (s.engine e).sample.m2),
  (O.modDrop, fun s e => i16s 144 (s.engine e).sample.m3),
  (O.nacksSent, fun s _ => (List.range 16).flatMap fun k => leBytes 8 (s.obj (elemKey O.nacksSent k))),
  (O.heldDests, fun s _ => leBytes 512 s.heldBitmap),
  (O.rackMembers, fun s _ => s.gn.members.flatMap (leBytes 4)),
  (O.deadTargets, fun s _ => (s.gn.dead.take 64).flatMap (leBytes 4)),
  (O.portMap, fun s _ => (List.range 32).map fun k => BitVec.ofNat 8 ((s.portMap k).getD 255)),
  (O.queueView, fun s _ => leBytes 64 (s.queueAt (s.obj O.queueSelect)).bits),
  (O.counterView, fun s _ => leBytes 64 (s.counterView (s.obj O.counterSelect))),
  (O.coreCounterView, fun s _ => let n := s.obj O.coreCounterSelect; leBytes 64 (s.coreCounterView (n / 64) (n % 64))),
  (O.commView, fun s _ => leBytes 64 (s.commBits (s.obj O.commSelect))),
  (O.lateRing, fun s _ => (List.range 1024).flatMap fun k => (Tab.get LateEntry.zero s.coll.lateRing k).bytes)]

def blobsB : List (Nat × (Chip → Nat → List Byte)) := [
  (O.regionView, fun s _ => (List.range 64).flatMap fun r => List.replicate 24 0 ++ leBytes 8 (s.ilWord r).toNat),
  (O.mapoutLog, fun s _ => s.hbm.mapoutLog.flatMap MapoutRecord.bytes),
  (O.marginView, fun s _ => (s.pcOf (s.obj O.marginSelect)).marginView),
  (O.coresOnline, fun s _ => leBytes 32 (bitmap 256 fun c => (s.core c).state != .offline)),
  (O.faultRecord, fun s c => (s.core c).fault.bytes),
  (O.bankTags, fun s c => (List.range 4).flatMap fun k => (Tab.get Bank.empty (s.core c).array.banks k).tag),
  (O.accRowView, fun s c => (List.range 1024).flatMap fun r => leBytes 2 (Tab.get AccRow.empty (s.core c).array.acc r).tag),
  (O.nvBootResult, fun s _ => leBytes 32 s.mgmt.nvCores.toNat ++ leBytes 1 s.mgmt.nvSites.toNat),
  (O.nvFirstFail, fun s _ => fit 64 s.mgmt.nvFirstFail),
  (O.ratioRing, fun s _ => (List.range 1024).flatMap fun k => (Tab.get RatioEntry.zero s.cellar.ratioRing k).bytes),
  (O.engineFault, fun s e => (s.core (256 + e)).fault.bytes),
  (O.shutdownView, fun s _ => fit 256 (Tab.get [] s.power.ring (s.obj O.shutdownSelect))),
  (O.sensorView, fun s _ => s.sensorView (s.obj O.sensorSelect)),
  (O.clockState, fun s _ => s.clockState),
  (O.deviceSerial, fun _ _ => Config.serial),
  (O.partNumber, fun s _ => ascii (match s.part with
    | .a => "DXN3-3072-A"
    | .b => "DXN3-3072-B")),
  (O.mgmtAddr, fun s _ => s.mgmt.mgmtAddr),
  (O.mgmtMac, fun _ _ => fit 6 Config.mac)]

def blobsC : List (Nat × (Chip → Nat → List Byte)) := [
  (O.ownerRoot, fun s _ => s.mgmt.ownerRoot),
  (O.deviceCert, fun _ _ => Config.deviceCert),
  (O.aliasCert, fun s _ => Config.aliasCert s.power.master (measurement (s.mgmt.image 0)) (measurement (s.mgmt.image 1))),
  (O.ryuverCa, fun _ _ => Config.ryuverCa),
  (O.debugChallenge, fun s _ => fit 64 s.mgmt.challenge),
  (O.ownerDebugKey, fun s _ => s.mgmt.ownerDebugKey),
  (O.compDigest, fun s k => measurement (s.mgmt.image k)),
  (O.logView, fun s _ => (Tab.get LogEntry.zero s.log.ring (s.obj O.logSelect)).bytes),
  (O.healthComponents, fun s _ => (List.range 12).flatMap fun k => leBytes 2 (nth 0 s.service.components k)),
  (O.serviceResult, fun s _ => [s.service.result.1, s.service.result.2.1] ++ leBytes 6 0 ++ leBytes 8 s.service.result.2.2.toNat),
  (O.shadowLast, fun s _ => fit 64 s.service.shadowLast)]

/-- The value of a string or BLOB. -/
def Chip.blob (s : Chip) (base u : Nat) : List Byte :=
  match (blobsA ++ blobsB ++ blobsC).find? (·.1 == base) with
  | some e => e.2 s u
  | none => []

/-- What an object reads as. -/
def Chip.value (s : Chip) (r : DictRow) (key : Nat) : List Byte :=
  let u := (key - r.key) / 256
  match r.ty.bytes with
  | some n => leBytes n (s.number r.key u)
  | none => s.blob r.key u

end Sys2Proof.Machine
end

