-- ==== Sys2Proof/Machine/Service.lean ====
section
/-! DEFINITION. Health, the fault manager's commands and shadowing (R478–R484, R488–R492). -/

namespace Sys2Proof.Machine

/-! ### Health (R478, R479) -/

def clamp01 (r : Rat) : Rat := if r < 0 then 0 else if 1 < r then 1 else r

/-- The least of a list, or a value where the list is empty. -/
def leastOf (d : Rat) (l : List Rat) : Rat := match l with
  | [] => d
  | x :: r => r.foldl min x

/-- HBM_TIME and HBM_VREF: the smallest window of the last sweeps against a minimum. Before a sweep a pin has the width of the
bring-up check that it passed, or the window it failed that check with (R268). -/
def Chip.windowMargin (s : Chip) (limit : Nat) (vref : Bool) (width : PinWindow → Int) : Rat :=
  let t : Rat := limit
  let all := s.hbm.pcs.flatMap fun e =>
    if e.2.windows.isEmpty then (e.2.bootNarrow.filter (·.1 == vref)).map fun w => ((w.2 : Nat) : Rat)
    else e.2.windows.map fun w => ((width w : Int) : Rat)
  clamp01 ((leastOf t (t :: all) - t / 2) / (t / 2))

/-- HBM_ERRORS. -/
def Chip.errorMargin (s : Chip) : Rat :=
  leastOf 1 (s.channelsSeen.map fun n =>
    clamp01 (1 - ((s.correctedIn n 10000000000 : Nat) : Rat) / 10 / ((s.obj O.ceLimit : Nat) : Rat)))

/-- Ports with light and a width (DEDUCED log 74). -/
def Chip.litPorts (s : Chip) : List Nat :=
  (List.range 160).filter fun p => (s.port p).state.carries || (s.port p).state == .draining

/-- OPT_RX: P in dBm, from the readings of 0.01 dBm. -/
def Chip.rxMargin (s : Chip) : Rat :=
  leastOf 1 (s.litPorts.flatMap fun p =>
    ((s.port p).rxMap.filter (· < 18)).map fun c => clamp01 ((((nth 0 (s.port p).rxPower c : Int) : Rat) / 100 + 9) / 3))

/-- OPT_SPARES. -/
def Chip.spareMargin (s : Chip) : Rat :=
  leastOf 1 (s.litPorts.map fun p =>
    let x := s.port p
    if x.txWidth < 16 ∨ x.rxWidth < 16 then 0
    else if x.spares.length = 0 then 1 / 4
    else if x.spares.length = 1 then 1 / 2
    else 1)

/-- LASER. -/
def Chip.laserMargin (s : Chip) : Rat :=
  leastOf 1 ((List.range 20).flatMap fun e => (List.range 18).filterMap fun c =>
    let v := s.laser e c
    if v = .warming ∨ v = .locked ∨ v = .fading then
      let b : Rat := 100 * ((nth 0 (s.engine e).sample.bias c : Nat) : Rat) / ((Config.biasMax e c : Nat) : Rat)
      some (clamp01 ((((s.obj O.fadeBiasPct : Nat) : Rat) - b) / 30))
    else none)

/-- D2D: culverts and engine links. -/
def Chip.d2dMargin (s : Chip) : Rat :=
  let links := (List.range 34).filter fun l => (Link.modulesOf l).2 > 0
  if links.any fun l => (s.link l).state == .degraded then 0
  else leastOf 1 (links.map fun l =>
    let n := (s.link l).sparesLeft
    if n = 0 then 1 / 4 else if n = 1 then 1 / 2 else 1)

/-- REGULATOR. -/
def Chip.regulatorMargin (s : Chip) : Rat :=
  leastOf 1 ((List.range 8).flatMap fun i => (s.site i).phases.map fun n => if n = 0 then 1 else if n = 1 then 1 / 2 else 0)

/-- CORES. -/
def Chip.coresMargin (s : Chip) : Rat :=
  ((((List.range 256).filter fun c => (s.core c).state != .offline).length : Nat) : Rat) / 256

/-- ARRAY_SPARES: of ROW0_V, ROW1_V, COL0_V and COL1_V those that are clear (R330). -/
def arraySpares (w : Word) : Nat := 4 - ([7, 15, 24, 33].filter w.getLsbD).length

def arrayMargin : Rat := leastOf 1 ((List.range 256).map fun c => ((arraySpares (Config.arrayRepair c) : Nat) : Rat) / 4)

/-- The lateness fraction f (R480). -/
def Chip.lateness (s : Chip) : Rat :=
  let mine := s.coll.lateRing.filter fun e => s.coll.comms.any fun v =>
    v.2.state == .bound && v.2.commId == e.2.commId && v.2.nmembers.toNat ≥ 8
  if mine.length < 64 then 0
  else (((mine.filter (·.2.self)).length : Nat) : Rat) / ((mine.length : Nat) : Rat)

/-- t of R480. -/
def Chip.lateLimit (s : Chip) : Rat := ((s.obj O.suspectLatePct : Nat) : Rat) / 100

/-- The margins m of the twelve components, each with its weight w (R478). -/
def Chip.margins (s : Chip) : List (Rat × Rat) :=
  let t := s.lateLimit
  [(s.windowMargin (s.obj O.marginTimeMin) false fun w => w.right - w.left, 1),
   (s.windowMargin (s.obj O.marginVrefMin) true fun w => w.vhigh - w.vlow, 1),
   (s.errorMargin, 1),
   (min 1 (((s.headlandFree : Nat) : Rat) / 32768), 1 / 2),
   (s.rxMargin, 1), (s.spareMargin, 1 / 2), (s.laserMargin, 1 / 2), (s.d2dMargin, 1), (s.regulatorMargin, 1),
   (s.coresMargin, 1), (arrayMargin, 1 / 5),
   (clamp01 ((t - s.lateness) / (t / 2)), 1)]

/-- To the nearest whole number, halves up (DEDUCED log 74). -/
def roundRat (r : Rat) : Nat := (r + 1 / 2).floor.toNat

/-- A cause of suspicion is set, with its event, or cleared (R480). -/
def Chip.setSuspect (s : Chip) (bit : Nat) (on : Bool) : Chip :=
  let was := s.service.suspect.getLsbD bit
  let m : BitVec 3 := if on then s.service.suspect ||| BitVec.ofNat 3 (2 ^ bit)
    else s.service.suspect &&& ~~~ BitVec.ofNat 3 (2 ^ bit)
  let s : Chip := { s with service := { s.service with suspect := m } }
  if on && !was then s.raise 0x4E02 [.u8 bit] else s

/-- HEALTH_EVALUATION: components, score, warning and the causes that the score and the lateness decide (R478–R480). -/
def Chip.evaluateHealth (s : Chip) : Chip :=
  let ms := s.margins
  let terms := ms.map fun m => 1 - m.2 * (1 - m.1)
  let low := leastOf 1 terms
  let score := roundRat (1000 * low)
  let s : Chip := { s with service := { s.service with
    score := score, components := ms.map fun m => roundRat (1000 * m.1) } }
  let warn := s.obj O.healthWarn
  let s : Chip :=
    if score < warn && s.service.warnArmed then
      ({ s with service := { s.service with warnArmed := false } } : Chip).raise 0x4E01 [.u8 (terms.findIdx (· == low))]
    else if score ≥ warn + 50 then { s with service := { s.service with warnArmed := true } }
    else s
  let s := if score < s.obj O.suspectScore then s.setSuspect 0 true else s
  let f := s.lateness
  let t := s.lateLimit
  if t ≤ f then s.setSuspect 1 true else if f < t / 2 then s.setSuspect 1 false else s

def execHealthEvaluation (s : State) : Host.Outcome State Fault Refusal := s.act Chip.evaluateHealth

/-- The score has been at least SUSPECT_SCORE + 100 for 60 s (R480). -/
def execSuspectScoreClearTimer (s : State) : Host.Outcome State Fault Refusal :=
  s.act fun c => c.when (decide (c.service.score ≥ c.obj O.suspectScore + 100)) fun c => c.setSuspect 0 false

/-- SUSPECT_SET; none for a value out of range. -/
def Chip.suspectSet (s : Chip) (v : Nat) : Option Chip :=
  if v = 1 then some (s.setSuspect 2 true) else if v = 0 then some (s.setSuspect 2 false) else none

def execSuspectSet (value : Byte) (s : State) : Host.Outcome State Fault Refusal :=
  s.act fun c => (c.suspectSet value.toNat).getD c

/-! ### The fault manager's commands (R481–R484)

Each answers none where the device answers ACCESS. -/

/-- SERVICE_RESULT: a command's status and its time (R483) (DEDUCED log 123). -/
def Chip.serviceDone (s : Chip) (cmd : Nat) (st : EStatus) : Chip :=
  { s with service := { s.service with result := (BitVec.ofNat 8 cmd, st.code, s.timebase) } }

/-- The pair's mirroring or comparison ends. -/
def Service.unpaired (v : Service) : Service :=
  { v with pair := none, pairActive := false, mirrorOut := [], mirrorRecords := [], mirrorQueue := [], lagEpisode := false,
           recordsWritten := 0, digests := [], recordsTaken := [] }

/-- Queues, cores and collective contexts stop taking work; the rest goes on (R188, R482). -/
def Chip.drainChip (s : Chip) : Chip :=
  let s : Chip := { s with service := { s.service with state := .draining } }
  let s := s.drainAllQueues
  s.each ((s.cores.filter fun e => e.2.kernel.isSome && e.1 < 256).map (·.1)) fun s c => s.coreStop c

def Chip.serviceDrain (s : Chip) : Option Chip :=
  if s.service.state = .serving then some s.drainChip else none

/-- A drain of one queue, core, port or slot is allowed in Serving and Source. -/
def Chip.partDrain (s : Chip) (ok : Bool) (f : Chip → Chip) : Option Chip :=
  if ok && (s.service.state == .serving || s.service.state == .source) then some (f s) else none

def Chip.serviceDrainQueue (s : Chip) (n : Nat) : Option Chip := s.partDrain (n < 16384) fun s => s.drainQueue n
def Chip.serviceDrainCore (s : Chip) (n : Nat) : Option Chip := s.partDrain (n < 256) fun s => s.coreStop n
def Chip.serviceDrainPort (s : Chip) (n : Nat) : Option Chip := s.partDrain (n < 160) fun s => s.portDisable n
def Chip.serviceDrainSlot (s : Chip) (n : Nat) : Option Chip := s.partDrain (n < 4096) fun s => s.commUnbind n

/-- A drained chip under QUARANTINE: its ports go dark, its job ends, and it is Quarantined. -/
def Chip.quarantineEnd (s : Chip) : Chip :=
  let ports := (List.range 160).filter fun p => s.obju O.portRole p == 1 || s.obju O.portRole p == 2
  let s := s.each ports fun s p => s.portDisable p
  let s : Chip := { s with service := { s.service.unpaired with state := .quarantined, quarantining := false } }
  s.jobEnd

/-- QUARANTINE: a chip drain, which goes on from where a DRAIN has come to; a Source's mirroring ends (R482, R483) (DEDUCED log 71). -/
def Chip.serviceQuarantine (s : Chip) : Option Chip :=
  if s.service.state = .quarantined ∨ s.service.quarantining then none
  else
    let v := if s.service.state = .source then s.service.unpaired else s.service
    let s := ({ s with service := { v with quarantined := true, quarantining := true } } : Chip).raise 0x8E02 []
    some (if s.service.state = .drained then s.quarantineEnd
      else if s.service.state = .draining then s
      else s.drainChip)

/-- What a drain of the chip waits for. -/
def Chip.drained (s : Chip) : Bool :=
  s.liveQueues.isEmpty && s.coll.active.isEmpty && s.cores.all fun e => e.2.kernel.isNone

/-- A chip drain is over: Drained, or the QUARANTINE goes on (R482). -/
def Chip.serviceDrained (s : Chip) : Chip :=
  s.when (s.service.state == .draining && s.drained) fun s =>
    if s.service.quarantining then s.quarantineEnd.serviceDone 1 .ok
    else ({ s with service := { s.service with state := .drained } } : Chip).serviceDone 2 .ok

/-- The fields that SHADOW and SOURCE share. -/
def pairFields (peer ringLog2 counter : Nat) : Bool :=
  peer < 0x10000 && 6 ≤ ringLog2 && ringLog2 ≤ 20 && counter < 2 ^ 18

/-- DEDUCED log 124. -/
def Chip.pairWith (s : Chip) (st : ServiceState) (p : Pair) : Chip :=
  { s with service := { s.service.unpaired with
      state := st, pair := some p, counterBase := (s.counter p.counter).value } }

/-- SHADOW 0: this chip becomes the shadow of its peer (R482, R488). -/
def Chip.serviceShadow (s : Chip) (peer : Nat) (step : Word32) (ring ringLog2 counter : Nat) : Option Chip :=
  if (s.service.state = .quarantined ∨ s.service.state = .serving ∧ s.job.state = 0) ∧ pairFields peer ringLog2 counter ∧
      ring % 4096 = 0 ∧ ring + 32 * 2 ^ ringLog2 ≤ s.hbmVisible then
    let s := s.pairWith .shadowing ⟨BitVec.ofNat 20 peer, step, ring, ringLog2, counter⟩
    some { s with service := { s.service with shadowEqual := 0, shadowMismatches := 0 } }
  else none

/-- SHADOW 1: this chip mirrors to its peer; the ring lies in the peer's memory. -/
def Chip.serviceSource (s : Chip) (peer : Nat) (step : Word32) (ring ringLog2 counter : Nat) : Option Chip :=
  if s.service.state = .serving ∧ pairFields peer ringLog2 counter ∧ ring % 4096 = 0 ∧
      ring + 32 * 2 ^ ringLog2 ≤ 0x30000000000 then
    some (s.pairWith .source ⟨BitVec.ofNat 20 peer, step, ring, ringLog2, counter⟩)
  else none

/-- SHADOW 2 (DEDUCED log 125). -/
def Chip.serviceStop (s : Chip) : Option Chip :=
  if s.service.state = .source then some { s with service := { s.service.unpaired with state := .serving } }
  else if s.service.state = .shadowing ∨ s.service.state = .verified then
    some { s with service := { s.service.unpaired with state := if s.service.quarantined then .quarantined else .serving } }
  else none

/-- PROMOTE: a Verified chip serves again, once its job has ended. -/
def Chip.servicePromote (s : Chip) : Option Chip :=
  if s.service.state = .verified then
    let s : Chip := { s with service := { s.service.unpaired with state := .serving, quarantined := false } }
    some (s.jobEnd.raise 0x0E02 [])
  else none

/-- A command with its result (R483). -/
def Chip.service' (s : Chip) (cmd : Nat) (r : Option Chip) : Chip :=
  match r with
  | some t => t.serviceDone cmd .ok
  | none => s.serviceDone cmd .access

/-- SERVICE_CMD (R481): the command its 32 bytes spell, none for one that is reserved, malformed or not allowed. -/
def Chip.serviceCommand (s : Chip) (b : List Byte) : Option Chip :=
  let f (lo n : Nat) : Nat := leNat ((b.drop lo).take n)
  let only (keep : List Nat) : Bool := (List.range 32).all fun k => keep.contains k || nth 0 b k == 0
  let pair := [0, 1] ++ (List.range 8).map (· + 4) ++ (List.range 9).map (· + 16) ++ [28, 29, 30, 31]
  if b.length ≠ 32 then none
  else
    match f 0 1, f 1 1 with
    | 1, 0 => if only [0] then s.serviceQuarantine else none
    | 2, 0 => if only [0] then s.serviceDrain else none
    | 2, 1 => if only [0, 1, 2, 3] then s.serviceDrainQueue (f 2 2) else none
    | 2, 2 => if only [0, 1, 2, 3] then s.serviceDrainCore (f 2 2) else none
    | 2, 3 => if only [0, 1, 2, 3] then s.serviceDrainPort (f 2 2) else none
    | 2, 4 => if only [0, 1, 2, 3] then s.serviceDrainSlot (f 2 2) else none
    | 3, 0 => if only pair then s.serviceShadow (f 4 4) (BitVec.ofNat 32 (f 8 4)) (f 16 8) (f 24 1) (f 28 4) else none
    | 3, 1 => if only pair then s.serviceSource (f 4 4) (BitVec.ofNat 32 (f 8 4)) (f 16 8) (f 24 1) (f 28 4) else none
    | 3, 2 => if only [0, 1] then s.serviceStop else none
    | 4, 0 => if only [0] then s.servicePromote else none
    | _, _ => none

def execQuarantine (s : State) : Host.Outcome State Fault Refusal :=
  s.act fun c => c.service' 1 c.serviceQuarantine

def execDrainChip (s : State) : Host.Outcome State Fault Refusal :=
  s.act fun c => c.service' 2 c.serviceDrain

def execDrainQueue (queue : Half) (s : State) : Host.Outcome State Fault Refusal :=
  s.act fun c => c.service' 2 (c.serviceDrainQueue queue.toNat)

def execDrainCore (core : Half) (s : State) : Host.Outcome State Fault Refusal :=
  s.act fun c => c.service' 2 (c.serviceDrainCore core.toNat)

def execDrainPort (port : Half) (s : State) : Host.Outcome State Fault Refusal :=
  s.act fun c => c.service' 2 (c.serviceDrainPort port.toNat)

def execDrainSlot (slot : Half) (s : State) : Host.Outcome State Fault Refusal :=
  s.act fun c => c.service' 2 (c.serviceDrainSlot slot.toNat)

def execShadow (peer startStep : Word32) (ring : Word) (ringLog2 : Byte) (counter : Word32) (s : State) :
    Host.Outcome State Fault Refusal :=
  s.act fun c => c.service' 3 (c.serviceShadow peer.toNat startStep ring.toNat ringLog2.toNat counter.toNat)

def execSource (peer startStep : Word32) (ring : Word) (ringLog2 : Byte) (counter : Word32) (s : State) :
    Host.Outcome State Fault Refusal :=
  s.act fun c => c.service' 3 (c.serviceSource peer.toNat startStep ring.toNat ringLog2.toNat counter.toNat)

def execStop (s : State) : Host.Outcome State Fault Refusal :=
  s.act fun c => c.service' 3 c.serviceStop

def execPromote (s : State) : Host.Outcome State Fault Refusal :=
  s.act fun c => c.service' 4 c.servicePromote

def execDrainDone (s : State) : Host.Outcome State Fault Refusal := s.act Chip.serviceDrained

/-! ### Mirror records (R489–R492) -/

/-- The 32 bytes of a mirror record. -/
def MirrorRecord.bytes (r : MirrorRecord) : List Byte :=
  leBytes 2 r.queue.toNat ++ leBytes 2 r.index.toNat ++ [r.status, r.opcode, 0, 0] ++ leBytes 8 r.segMap.toNat ++
  leBytes 8 r.digestA.toNat ++ leBytes 8 r.digestB.toNat

/-- Records the other chip has announced: its adds to COUNTER since the pair was made. -/
def Chip.announced (s : Chip) (p : Pair) : Nat := ((s.counter p.counter).value - s.service.counterBase).toNat

/-- An add of 1 to COUNTER on the other chip. -/
def Pair.tally (p : Pair) : MirrorEffect := .atomic (counterOffset p.counter) 0 true 1 0

/-- The source writes a command's record, while fewer than 2^RING_LOG2 are unconsumed, and adds 1 to COUNTER (R489). -/
def Chip.mirrorRecordWrite (s : Chip) (q : Nat) (num : Word32) : Chip :=
  s.when s.mirroring fun s =>
    let s := s.mirrorPump
    match s.service.pair, s.service.mirrorRecords.find? (fun r => r.queue.toNat == q && r.index == num.setWidth 16) with
    | some p, some r =>
      if s.service.recordsWritten - s.announced p ≥ 2 ^ p.ringLog2 then s
      else
        let slot := p.ring + 32 * (s.service.recordsWritten % 2 ^ p.ringLog2)
        ({ s with service := { s.service with
            mirrorRecords := s.service.mirrorRecords.erase r
            recordsWritten := s.service.recordsWritten + 1
            mirrorQueue := s.service.mirrorQueue ++ [.write slot r.bytes, p.tally] } } : Chip).mirrorPump
    | _, _ => s

def execMirrorRecordWrite (queue : Fin 16384) (num : Word32) (s : State) : Host.Outcome State Fault Refusal :=
  s.act fun c => c.mirrorRecordWrite queue.val num

/-- The numbers of the records that have landed in the shadow's ring and have not been consumed. -/
def Chip.freshRecords (s : Chip) (p : Pair) : List Nat :=
  let n := s.announced p
  let first := n - 2 ^ p.ringLog2
  ((List.range (n - first)).map (· + first)).filter fun k => !(s.service.recordsTaken.contains k)

/-- Where a record lies. -/
def Pair.slot (p : Pair) (k : Nat) : Nat := p.ring + 32 * (k % 2 ^ p.ringLog2)

/-- A command that differs from its record: the step is unequal, and its first difference is kept and reported (R492). -/
def Chip.shadowDiffers (s : Chip) (q : Nat) (e : QEntry) (raw : List Byte) (st : Status) (a b : Word) : Chip :=
  if !s.service.stepEqual then s
  else
    let last := leBytes 4 s.service.step.toNat ++ leBytes 2 q ++ leBytes 2 (e.num.toNat % 65536) ++ raw ++
      leBytes 8 a.toNat ++ leBytes 8 b.toNat ++ [st.code] ++ leBytes 7 0
    ({ s with service := { s.service with
        shadowLast := last, shadowMismatches := s.service.shadowMismatches + 1, shadowEqual := 0, stepEqual := false
        state := if s.service.state = .verified then .shadowing else s.service.state } } : Chip).raise 0x8E01
      [.u16 q, .u16 (e.num.toNat % 65536), .u64 s.service.step.toNat]

/-- The completion status of a code (R185). -/
def statusOf (n : Nat) : Status :=
  ([.ok, .partly, .cancelled, .timeout, .mismatch, .unreachable, .poisoned, .refused, .dropped, .memberFailed, .noResource,
    .mappedOut] : List Status)[n]?.getD .ok

/-- A shadow's network-facing command completes as its mirror record says, and is compared with it (R490, R492). -/
def Chip.shadowComplete (s : Chip) (q : Nat) (num : Word32) : Chip :=
  match s.service.pair, (s.queueAt q).entry num with
  | some p, some e =>
    let worked := if e.opcode = 5 then e.sig == .landed else e.outstanding == 1
    if !s.isShadow || !s.service.pairActive || !e.netFacing || e.phase != .started || !worked then s
    else
      let mine (k : Nat) : Bool := s.word (p.slot k) 4 == q + 65536 * (e.num.toNat % 65536)
      match (s.freshRecords p).find? mine with
      | none => s
      | some k =>
        let raw := s.bytes (p.slot k) 32
        let f (lo n : Nat) : Nat := leNat ((raw.drop lo).take n)
        let own := { e with outstanding := 0 }.finishIf
        let own := if e.opcode = 5 then e else own
        let (a, b) := s.digestFor q e
        let same := f 4 1 == own.status.code.toNat && f 8 8 == own.segBits && f 16 8 == a.toNat && f 24 8 == b.toNat
        let s := if same then s else s.shadowDiffers q e raw own.status a b
        let first := s.announced p - 2 ^ p.ringLog2
        let s : Chip := { s with service := { s.service with
          recordsTaken := k :: s.service.recordsTaken.filter (first ≤ ·)
          digests := s.service.digests.filter (fun d => !(d.1 == q && d.2.1 == e.num))
          mirrorQueue := s.service.mirrorQueue ++ [p.tally] } }
        let s := s.setEntry q num fun e => { e with
          phase := .finished, outstanding := 0, status := statusOf (f 4 1), segMap := some (BitVec.ofNat 64 (f 8 8)) }
        (s.mirrorPump).complete q num
  | _, _ => s

def execShadowCommandComplete (queue : Fin 16384) (num : Word32) (s : State) : Host.Outcome State Fault Refusal :=
  s.act fun c => c.shadowComplete queue.val num

end Sys2Proof.Machine
end

