-- ==== Sys2Proof/Machine/Objects.lean ====
section
/-! DEFINITION. Writes of dictionary objects (R443, R452, R453, R466, R472): the checks, the objects with a behaviour of
their own, and the owner's data. A write that the device answers with ACCESS is none. -/

namespace Sys2Proof.Machine

/-! ### The owner (R443) -/

/-- OWNER_ROOT: a valid certificate of at most 2,048 bytes claims an unclaimed device. -/
def Chip.ownerRootWrite (s : Chip) (cert : List Byte) : Option Chip :=
  if !s.mgmt.claimed && cert.length ≤ 2048 && Config.validCert cert then
    some (({ s with mgmt := { s.mgmt with claimed := true, ownerRoot := cert } } : Chip).raise 0x0D04 [])
  else none

def execOwnerRootWrite (cert : List Byte) (s : State) : Host.Outcome State Fault Refusal :=
  s.actAwake fun c => (c.ownerRootWrite cert).getD c

/-- The sanitise sequence outside a job's end, counted as R190 counts it. -/
def Chip.sanitiseNow (s : Chip) : Chip := s.sanitise.bump O.sanitiseCount 1

/-- RWP objects of 0x7800–0x7FFF return to their defaults. -/
def ownerKey (key : Nat) : Bool :=
  0x780000 ≤ key && key < 0x800000 && (match dictRow key with
    | some r => r.acc == .rwp
    | none => false)

/-- OWNER_RELEASE, while JOB_STATE is Idle: memory is sanitised, the owner's data erased, and every session closed. -/
def Chip.ownerRelease (s : Chip) (value : Bool) : Option Chip :=
  if !value then some s
  else if s.job.state ≠ 0 then none
  else
    let s := s.sanitiseNow
    some (({ s with
      objs := Tab.keep (fun k => !ownerKey k) s.objs
      mgmt := { s.mgmt with claimed := false, ownerRoot := [], ownerDebugKey := [] } } : Chip).closeSessions)

def execOwnerRelease (value : Bool) (s : State) : Host.Outcome State Fault Refusal :=
  s.act fun c => (c.ownerRelease value).getD c

/-! ### Debug (R466) -/

/-- The six random words of a challenge (DESIGN CHOICE log 130). -/
def Chip.randomBytes (s : Chip) : List Byte :=
  (List.range 6).flatMap fun k => leBytes 8 (Config.freeWord (s.freeCtr + k)).toNat

/-- DEBUG_REQUEST: a fresh challenge for a scope. -/
def Chip.debugRequest (s : Chip) (scope : Nat) : Option Chip :=
  if 1 ≤ scope ∧ scope ≤ 3 then
    let c := s.randomBytes ++ leBytes 8 (Config.dieUid 0).toNat ++ [BitVec.ofNat 8 scope] ++ List.replicate 7 0
    some { s with
      freeCtr := s.freeCtr + 6
      mgmt := { s.mgmt with challenge := c, challengeScope := scope, challengeLive := true } }
  else none

def execDebugRequest (scope : Byte) (s : State) : Host.Outcome State Fault Refusal :=
  s.actAwake fun c => (c.debugRequest scope.toNat).getD c

/-- The key a scope's response is verified with. -/
def Chip.debugKey (s : Chip) (scope : Nat) : Option (Nat × Nat) :=
  if scope = 3 then some Config.ryuverDebugKey else ecPoint s.mgmt.ownerDebugKey

/-- What a scope needs beside a signature. -/
def Chip.debugAllowed (s : Chip) (scope : Nat) : Bool :=
  scope == 1 || (s.job.state == 0 && (scope == 2 || s.objb O.ryuverDebugPermit))

/-- DEBUG_RESPONSE: r, then s, over the latest challenge, which counts once (DEDUCED log 119). -/
def Chip.debugResponse (s : Chip) (b : List Byte) : Chip :=
  let scope := s.mgmt.challengeScope
  let signed := match s.debugKey scope with
    | some k => ecdsaVerify k s.mgmt.challenge (leNat (b.take 48)) (leNat ((b.drop 48).take 48))
    | none => false
  let good := s.mgmt.challengeLive && b.length == 96 && signed && s.debugAllowed scope
  let s : Chip := { s with mgmt := { s.mgmt with challengeLive := false } }
  if good then
    let s := if scope = 1 then s else s.sanitiseNow
    ({ s with mgmt := { s.mgmt with debugScope := scope } } : Chip).raise 0x0D03 [.u8 scope]
  else s.raiseLimited 0x4D01 1 []

def execDebugResponse (response : List Byte) (s : State) : Host.Outcome State Fault Refusal :=
  s.actAwake fun c => c.debugResponse response

/-! ### Recovery (R472) -/

def Chip.recoveryRequest (s : Chip) (value : Bool) : Chip :=
  s.when value fun s => { s with mgmt := { s.mgmt with recoveryRequest := true } }

def execRecoveryRequest (value : Bool) (s : State) : Host.Outcome State Fault Refusal :=
  s.actAwake fun c => c.recoveryRequest value

/-! ### Objects of fixed width -/

/-- A finite F32 within its object's range, which the dictionary holds in tenths. -/
def f32InRange (r : DictRow) (bits : Nat) : Bool :=
  match f32ToRat bits with
  | some v => (r.lo == 0 && r.hi == 0) || (decide ((r.lo : Rat) ≤ 10 * v) && decide (10 * v ≤ (r.hi : Rat)))
  | none => false

/-- The range of an object's value (R14, R452). -/
def valueInRange (r : DictRow) (x : Nat) : Bool :=
  match r.ty with
  | .bool => decide (x ≤ 1)
  | .f32 => f32InRange r x
  | _ => inRange r.key x

/-- Further conditions of a written value: enumerations, and relations to other objects (R452). -/
def Chip.valueAllowed (s : Chip) (r : DictRow) (x : Nat) : Bool :=
  if r.key = O.headlandDiv then x == 32 || x == 64 || x == 128
  else if r.key = O.expectedPeer then x == 0xFFFFFFFF || x % 256 == 0
  else if r.key = O.stretchRatio then x == 2 || x == 4
  else if r.key = O.rateWindow then x % 10 == 0
  else if r.key = O.powerPeak then s.obj O.powerLimit ≤ x && x ≤ 6300
  else if r.key = O.powerLimit then x ≤ s.obj O.powerPeak
  else if r.key = O.backoffBase then x ≤ s.obj O.backoffMax
  else if r.key = O.backoffMax then s.obj O.backoffBase ≤ x
  else true

/-- An object without a behaviour of its own takes a value of its range. -/
def Chip.plainWrite (s : Chip) (r : DictRow) (key x : Nat) : Option Chip :=
  if valueInRange r x && s.valueAllowed r x then some (s.setObj key x) else none

/-- A WO object that acts on TRUE. -/
def onTrue (s : Chip) (x : Nat) (f : Chip → Option Chip) : Option Chip :=
  if x = 0 then some s else if x = 1 then f s else none

/-- Objects that act, or are checked, in a way of their own: the object of unit 0 and its write, by unit and value. They
need the dies to run. -/
def actionsA : List (Nat × (Chip → Nat → Nat → Option Chip)) := [
  (O.safetyMode, fun s _ x => s.safetyModeWrite x),
  (O.portRole, fun s p x => s.portRoleWrite p x),
  (O.portAdmin, fun s p x =>
    if x = 0 then some (s.portDisable p) else if x = 1 then s.portEnable p else if x = 2 then some (s.portCircuit p) else none),
  (O.chipNumber, fun s _ x => s.chipNumberWrite x),
  (O.chipAssigned, fun s _ x => if x ≤ 1 then s.chipAssignedWrite (x == 1) else none),
  (O.domainX, fun s _ x => s.shapeWrite .domainX x),
  (O.domainY, fun s _ x => s.shapeWrite .domainY x),
  (O.bundle, fun s _ x => s.shapeWrite .bundle x),
  (O.tbMaster, fun s _ x => s.tbMasterWrite x),
  (O.destRelease, fun s _ x => some (s.releaseDest (BitVec.ofNat 16 x))),
  (O.probeTarget, fun s _ x => some (s.probeTo (BitVec.ofNat 16 x))),
  (O.gnNode, fun s _ x => s.gnNodeWrite x),
  (O.targetRelease, fun s _ x => some (s.targetRelease x)),
  (O.jobEnd, fun s _ x => onTrue s x fun s => some s.jobEnd),
  (O.keepRelease, fun s _ x => onTrue s x fun s => some s.keepRelease),
  (O.shrinkAck, fun s _ x => onTrue s x fun s => some s.withdraw),
  (O.mapoutRequest, fun s _ x => if x < 1024 then some (s.mapoutRequest x) else none),
  (O.marginNow, fun s _ x => if x < 2048 then some (s.askSweep x) else none),
  (O.coreAdmin, fun s c x => s.adminWrite c x),
  (O.engineAdmin, fun s e x => s.adminWrite (256 + e) x)]

def actionsB : List (Nat × (Chip → Nat → Nat → Option Chip)) := [
  (O.detMode, fun s _ x => if x ≤ 1 then s.detModeWrite (x == 1) else none),
  (O.srSeed, fun s _ x => s.srSeedWrite x),
  (O.nvRun, fun s _ x => s.nvRunWrite x),
  (O.shutdownNow, fun s _ x => onTrue s x fun s => some (s.packageShutdown (ShutdownCause.plain 7) true)),
  (O.siteTopStep, fun s i x => s.topStepWrite i x),
  (O.ownerRelease, fun s _ x => onTrue s x fun s => s.ownerRelease true),
  (O.suspectSet, fun s _ x => s.suspectSet x)]

/-- Objects of the always-on domain that act in a way of their own. -/
def actionsAon : List (Nat × (Chip → Nat → Nat → Option Chip)) := [
  (O.thermWarn, fun s g x => s.levelWrite g .warning x),
  (O.thermThrottle, fun s g x => s.levelWrite g .throttle x),
  (O.thermShutdown, fun s g x => s.levelWrite g .shutdown x),
  (O.reArm, fun s _ x => onTrue s x fun s => s.rearm true),
  (O.configDone, fun s _ x => onTrue s x fun s => some s.configEnd),
  (O.recoveryRequest, fun s _ x => onTrue s x fun s => some (s.recoveryRequest true)),
  (O.debugRequest, fun s _ x => s.debugRequest x)]

/-- A write of an object of fixed width. While a package shutdown holds the dies, an object that acts on them is checked as ever
and only takes its value, and a WO one refuses (DEDUCED log 75). -/
def Chip.numberWrite (s : Chip) (r : DictRow) (key x : Nat) : Option Chip :=
  let u := (key - r.key) / 256
  match actionsAon.find? (·.1 == r.key), (actionsA ++ actionsB).find? (·.1 == r.key) with
  | some a, _ => a.2 s u x
  | none, some a => 
    if s.live then a.2 s u x
    else if r.acc = .wo then none
    else (a.2 s u x).map fun t => { s with objs := t.objs }
  | none, none => s.plainWrite r key x

/-! ### BLOBs -/

/-- The lengths a written BLOB may have. -/
def blobLength (key n : Nat) : Bool :=
  if key = O.rackMembers then n % 4 == 0 && n ≤ 128
  else if key = O.mgmtAddr then n == 0 || n == 17
  else if key = O.ownerRoot then decide (n ≤ 2048)
  else if key = O.ownerDebugKey then n == 0 || n == 97
  else if key = O.debugResponse then n == 96
  else if key = O.serviceCmd then n == 32
  else false

/-- Little-endian 32-bit words. -/
def words32 : Nat → List Byte → List Nat
  | 0, _ => []
  | fuel + 1, l => if l.isEmpty then [] else leNat (l.take 4) :: words32 fuel (l.drop 4)

/-- A write of a BLOB of a length it may have. -/
def Chip.blobWrite (s : Chip) (key : Nat) (v : List Byte) : Option Chip :=
  if key = O.rackMembers then s.rackMembersWrite (words32 v.length v)
  else if key = O.mgmtAddr then some { s with mgmt := { s.mgmt with mgmtAddr := v } }
  else if key = O.ownerRoot then s.ownerRootWrite v
  else if key = O.ownerDebugKey then
    if v.isEmpty || (ecPoint v).isSome then some { s with mgmt := { s.mgmt with ownerDebugKey := v } } else none
  else if key = O.debugResponse then some (s.debugResponse v)
  else if s.live then
    (s.serviceCommand v).map fun t => t.serviceDone ((v.headD 0).toNat) .ok
  else none

/-! ### One write (R442, R443, R446, R452, R453) -/

/-- What may write: an OWNER, an OPERATOR, a claiming session that may write OWNER_ROOT alone, or none. -/
inductive Writer where
  | owner | operator | claim | none
  deriving DecidableEq, Repr

/-- A role may write an object. -/
def Writer.may (w : Writer) (r : DictRow) : Bool :=
  match w with
  | .owner => true
  | .operator => !(0x780000 ≤ r.key && r.key < 0x800000) && r.acc != .rwl
  | .claim => r.key == O.ownerRoot
  | .none => false

/-- A write of an object of a type: its status and the chip after it. A service command that is refused leaves its
status in SERVICE_RESULT (DEDUCED log 76). -/
def Chip.writeObject (s : Chip) (w : Writer) (idx sub type : Nat) (v : List Byte) : EStatus × Chip :=
  let key := 256 * idx + sub
  match dictRow key with
  | none => if sub = 0 ∧ dictMaxSub idx ≠ 0 then (if w = .none then .role else if type ≠ 1 then .type else .access, s) else (.noObject, s)
  | some r =>
    if !w.may r then (.role, s)
    else if type ≠ r.ty.code then (.type, s)
    else if r.acc = .ro then (.access, s)
    else if r.acc = .rwl && !s.mgmt.configOpen then (.access, s)
    else
      let (ok, result) := match r.ty.bytes with
        | some n => (v.length == n, s.numberWrite r key (leNat v))
        | none => (blobLength r.key v.length, s.blobWrite r.key v)
      if !ok then (.type, s)
      else match result with
        | some t => (.ok, t)
        | none => (.access, if r.key = O.serviceCmd then s.serviceDone ((v.headD 0).toNat) .access else s)

/-- OBJECT_WRITE: an OWNER's write of any object (R452). -/
def execObjectWrite (index : Half) (sub type : Byte) (value : List Byte) (s : State) : Host.Outcome State Fault Refusal :=
  s.actAwake fun c => (c.writeObject .owner index.toNat sub.toNat type.toNat value).2

end Sys2Proof.Machine
end

