-- ==== Sys2Proof/Machine/Sessions.lean ====
section
/-! DEFINITION. Management sessions and Eulen messages (R440–R451, R464, R465, R472). -/

namespace Sys2Proof.Machine

/-! ### Sessions (R441–R443) -/

def Chip.session (s : Chip) (id : Nat) : Option Session := s.mgmt.sessions.find? (·.id == id)

def Chip.setSession (s : Chip) (id : Nat) (f : Session → Session) : Chip :=
  { s with mgmt := { s.mgmt with sessions := s.mgmt.sessions.map fun v => if v.id = id then f v else v } }

/-- The role a certificate gives, and whether it claims: on an unclaimed device one that chains to Ryuver's claim CA and
names this device; on a claimed one what its OU says, if it chains to the owner's root. -/
def Chip.admits (s : Chip) (c : ClientCert) : Option (Role × Bool) :=
  if s.mgmt.claimed then (if Config.chainsTo s.mgmt.ownerRoot c.bytes then c.ou.map fun r => (r, false) else none)
  else if Config.chainsTo Config.ryuverCa c.bytes && c.serial == some (Config.dieUid 0) then some (.owner, true)
  else none

/-- DTLS_HANDSHAKE: a session opens, unless eight are open or the certificate gives no role (PRESUMED log 21). -/
def Chip.handshake (s : Chip) (c : ClientCert) : Chip :=
  s.when s.serving fun s =>
    if s.mgmt.sessions.length ≥ 8 then s.raise 0x4D04 []
    else match s.admits c with
      | none => s.raiseLimited 0x4D01 0 []
      | some (role, claim) =>
        let v : Session := ⟨s.mgmt.nextSession, role, claim, none, [], [], []⟩
        { s with mgmt := { s.mgmt with sessions := s.mgmt.sessions ++ [v], nextSession := s.mgmt.nextSession + 1 } }

def execDtlsHandshake (cert : ClientCert) (s : State) : Host.Outcome State Fault Refusal :=
  s.always fun c => c.handshake cert

/-- A session closes: with it goes the image it was sending (R468). -/
def Chip.closeSession (s : Chip) (id : Nat) : Chip :=
  s.when (s.session id).isSome fun s =>
    let s := if (s.transferOf (some id)).isSome then s.imageDrop else s
    { s with mgmt := { s.mgmt with sessions := s.mgmt.sessions.filter (·.id != id) } }

def execSessionIdleTimeout (session : Nat) (s : State) : Host.Outcome State Fault Refusal :=
  s.always fun c => c.closeSession session

/-! ### A message (R444, R447)

A request of a session: its answer is sent and kept, and a repeated REQ_ID is answered from what is kept. -/

/-- What a request gives: its status, its body, and the chip after it. -/
structure Answer where
  status : EStatus
  body : List Byte
  chip : Chip

/-- A response goes out and is kept, the last 64 of a session. -/
def Chip.respond (s : Chip) (id : Nat) (r : Response) : Chip :=
  (s.setSession id fun v => { v with kept := (r :: v.kept).take 64 }).emit (.response id r)

/-- One message of a session. -/
def Chip.message (s : Chip) (id type : Nat) (req : Word32) (f : Chip → Session → Answer) : Chip :=
  match (if s.serving then s.session id else none) with
  | none => s
  | some v =>
    match v.kept.find? (·.reqId == req) with
    | some r => s.emit (.response id r)
    | none =>
      let a := f s v
      a.chip.respond id ⟨BitVec.ofNat 8 (type + 0x80), req, a.status, a.body⟩

/-- A message that only changes the chip. -/
def Answer.plain (a : EStatus × Chip) : Answer := ⟨a.1, [], a.2⟩

/-- A refusal. -/
def Answer.no (s : Chip) (st : EStatus) : Answer := ⟨st, [], s⟩

/-- While the recovery loader runs, only what R472 lists is served (DEDUCED log 121). -/
def Chip.loaderOnly (s : Chip) : Bool := s.mgmt.loader

/-! ### GET (R448, R452) -/

/-- Objects the recovery loader lets read. -/
def loaderObject (idx sub : Nat) : Bool :=
  (0x1000 ≤ idx && idx ≤ 0x1001) || (idx == 0x7800 && sub == 4) || (0x7810 ≤ idx && idx ≤ 0x7817)

/-- A BLOB of an object, or its copy (DEDUCED log 117). -/
def blobFrom (copies : List Copy) (key : Nat) (live : List Byte) : List Byte :=
  match copies.find? (·.key == key) with
  | some c => c.bytes
  | none => live

/-- The status and the value of one entry. -/
def Chip.getEntry (s : Chip) (copies : List Copy) (e : GetEntry) : EStatus × List Byte :=
  let idx := e.index.toNat
  let sub := e.sub.toNat
  let key := 256 * idx + sub
  match dictRow key with
  | none =>
    if sub ≠ 0 ∨ dictMaxSub idx = 0 then (.noObject, [])
    else if s.loaderOnly ∧ !loaderObject idx sub then (.access, [])
    else (.ok, leBytes 1 (dictMaxSub idx))
  | some r =>
    if r.acc = .wo ∨ (s.loaderOnly ∧ !loaderObject idx sub) then (.access, [])
    else if r.ty = .blob then
      (.ok, ((blobFrom copies key (s.value r key)).drop e.offset.toNat).take (min 1024 e.length.toNat))
    else (.ok, s.value r key)

/-- Bytes filled with zeros to a multiple of 4. -/
def pad4 (b : List Byte) : List Byte := b ++ List.replicate ((4 - b.length % 4) % 4) 0

/-- An entry of the response. -/
def getBytes (e : GetEntry) (r : EStatus × List Byte) : List Byte :=
  pad4 (leBytes 2 e.index.toNat ++ [e.sub, r.1.code] ++ leBytes 2 r.2.length ++ r.2)

/-- Bytes that copies hold. -/
def copyBytes (l : List Copy) : Nat := l.foldl (fun n c => n + c.bytes.length) 0

/-- The copies a SNAPSHOT adds: every readable BLOB of the request that has none, in order, while all fit in 64 KiB. -/
def Chip.takeCopies (s : Chip) (copies : List Copy) (es : List GetEntry) : List Copy :=
  es.foldl (fun l e =>
    let key := 256 * e.index.toNat + e.sub.toNat
    match dictRow key with
    | some r =>
      if r.ty = .blob ∧ r.acc ≠ .wo ∧ !(l.any (·.key == key)) then
        let b := s.value r key
        if copyBytes l + b.length ≤ 65536 then l ++ [⟨key, s.aon, b⟩] else l
      else l
    | none => l) copies

/-- GET of up to 64 entries whose response fits. A GET without SNAPSHOT drops the session's copies. -/
def Chip.get (s : Chip) (id : Nat) (snapshot : Bool) (es : List GetEntry) (old : List Copy) : Answer :=
  if es.length > 64 then .no s .badMessage
  else
    let copies := if snapshot then s.takeCopies (old.filter fun c => s.aon < c.time + 1000000000) es else []
    let body := es.flatMap fun e => getBytes e (s.getEntry copies e)
    let s := s.setSession id fun v => { v with snapshot := copies }
    if body.length > 1152 then .no s .badMessage else ⟨.ok, body, s⟩

def execGet (session : Nat) (req : Word32) (snapshot : Bool) (entries : List GetEntry) (s : State) :
    Host.Outcome State Fault Refusal :=
  s.always fun c => c.message session 0x01 req fun c v => c.get session snapshot entries v.snapshot

/-- SNAPSHOT_EXPIRY: copies of 1 s and more are released. -/
def execSnapshotExpiry (session : Nat) (s : State) : Host.Outcome State Fault Refusal :=
  s.always fun c => c.setSession session fun v => { v with
    snapshot := v.snapshot.filter fun k => c.aon < k.time + 1000000000 }

/-! ### SET (R447) -/

/-- DEDUCED log 118. -/
def Session.writer (v : Session) : Writer :=
  if v.claim then .claim
  else match v.role with
    | .owner => .owner
    | .operator => .operator
    | .monitor => .none

/-- The entries in order, each on its own: the chip and the statuses. -/
def Chip.setEntries (s : Chip) (w : Writer) (es : List SetEntry) : Chip × List Byte :=
  es.foldl (fun (a : Chip × List Byte) e =>
    let (st, t) := if a.1.loaderOnly then (EStatus.access, a.1)
      else a.1.writeObject w e.index.toNat e.sub.toNat e.type.toNat e.value
    (t, a.2 ++ leBytes 2 e.index.toNat ++ [e.sub, st.code])) (s, [])

/-- Bytes of a SET's body. -/
def setBytes (es : List SetEntry) : Nat := es.foldl (fun n e => n + 8 + (e.value.length + 3) / 4 * 4) 0

def Chip.set (s : Chip) (w : Writer) (es : List SetEntry) : Answer :=
  if setBytes es > 1152 then .no s .badMessage
  else
    let (s, body) := s.setEntries w es
    ⟨.ok, body, s⟩

def execSet (session : Nat) (req : Word32) (entries : List SetEntry) (s : State) : Host.Outcome State Fault Refusal :=
  s.always fun c => c.message session 0x02 req fun c v => c.set v.writer entries

/-! ### Events (R445, R450) -/

def execSubscribe (session : Nat) (req : Word32) (severity : Byte) (subsystems : Half) (s : State) :
    Host.Outcome State Fault Refusal :=
  s.always fun c => c.message session 0x03 req fun c _ =>
    if c.loaderOnly then .no c .access
    else ⟨.ok, [], c.setSession session fun v => { v with subscription := some (severity, subsystems) }⟩

def execEventAck (session : Nat) (req : Word32) (seq : Word) (s : State) : Host.Outcome State Fault Refusal :=
  s.always fun c => c.message session 0x04 req fun c _ =>
    if c.loaderOnly then .no c .access
    else ⟨.ok, [], c.setSession session fun v => { v with unacked := v.unacked.filter (·.entry.seq != seq) }⟩

/-- EVENT_RESEND_TIMER: the event is sent again, up to ten times. -/
def Chip.resendEvent (s : Chip) (id : Nat) (seq : Word) : Chip :=
  match s.session id with
  | some v =>
    match v.unacked.find? (·.entry.seq == seq) with
    | some u =>
      let again : UnackedEvent := { u with resends := u.resends + 1 }
      (s.setSession id fun v => { v with
        unacked := if again.resends ≥ 10 then v.unacked.filter (·.entry.seq != seq)
          else v.unacked.map fun x => if x.entry.seq = seq then again else x }).emit (.event id u.entry)
    | none => s
  | none => s

def execEventResendTimer (session : Nat) (seq : Word) (s : State) : Host.Outcome State Fault Refusal :=
  s.always fun c => c.resendEvent session seq

/-! ### Register access (R449) -/

/-- An operator of a device that serves. -/
def Session.operates (v : Session) : Bool := !v.claim && v.role != .monitor

/-- A range of MEM_READ and MEM_WRITE: 8-byte words within the blocks of the control and status range (R10, R11) (DEDUCED log 120). -/
def Chip.memRange (s : Chip) (o n : Nat) : Bool :=
  s.live && !s.loaderOnly && o % 8 == 0 && n % 8 == 0 && n ≤ 1024 && 0xC0000000000 ≤ o && o + n ≤ 0xC1000000000 &&
  (List.range (n / 8)).all fun i => (s.region (o + 8 * i)).isCsr

def Chip.memRead (s : Chip) (o n : Nat) : Answer :=
  match (if s.memRange o n then s.regBytes o n else none) with
  | some b => ⟨.ok, b, s⟩
  | none => .no s .access

def execMemRead (session : Nat) (req : Word32) (offset : Word) (length : Half) (s : State) :
    Host.Outcome State Fault Refusal :=
  s.always fun c => c.message session 0x05 req fun c v =>
    if v.operates then c.memRead offset.toNat length.toNat else .no c .role

/-- Each word is one write, in ascending order. -/
def Chip.memWrite (s : Chip) (o : Nat) (data : List Byte) : Answer :=
  if s.memRange o data.length then
    ⟨.ok, [], s.each (List.range (data.length / 8)) fun s i =>
      s.regWrite (o + 8 * i) 8 (leNat ((data.drop (8 * i)).take 8)) .mgmt⟩
  else .no s .access

def execMemWrite (session : Nat) (req : Word32) (offset : Word) (data : List Byte) (s : State) :
    Host.Outcome State Fault Refusal :=
  s.always fun c => c.message session 0x06 req fun c v =>
    if v.operates then c.memWrite offset.toNat data else .no c .role

/-! ### Attestation (R464, R465) -/

/-- The objects of CONFIG_DIGEST: RWL ones and RWP ones of 0x7800–0x7FFF, in ascending index and subindex. -/
def configRows : List DictRow :=
  (dictionary.filter fun r => r.acc == .rwl) ++ dictionary.filter fun r => r.acc == .rwp && 0x780000 ≤ r.key && r.key < 0x800000

def Chip.configDigest (s : Chip) : List Byte :=
  sha384 (configRows.flatMap fun r => leBytes 2 (r.key / 256) ++ leBytes 1 (r.key % 256) ++ s.value r r.key)

/-- One component of the report. -/
def Chip.reportComponent (s : Chip) (k : Nat) : List Byte :=
  let b := s.mgmt.image k
  [BitVec.ofNat 8 k, BitVec.ofNat 8 (s.mgmt.component k).state.code, 0, 0] ++ leBytes 4 (imageVersion b) ++
  leBytes 4 (imageSvn b) ++ leBytes 4 0 ++ measurement b

/-- FLAGS. -/
def Chip.reportFlags (s : Chip) : Nat :=
  (s.objb O.detMode).toNat + 2 * (s.obj O.safetyMode == 1).toNat + 4 * (s.objb O.enclosedDecl).toNat +
  8 * s.mgmt.claimed.toNat + 16 * s.mgmt.debugScope + 64 * s.mgmt.loaderRan.toNat + 128 * (s.power.master == 7).toNat

/-- Bytes 0–767 of the report. -/
def Chip.report (s : Chip) (nonce : List Byte) : List Byte :=
  leBytes 4 0x54415844 ++ leBytes 2 1 ++ leBytes 2 864 ++ nonce ++ leBytes 8 (Config.dieUid 0).toNat ++
  leBytes 8 s.mgmt.bootCount.toNat ++ leBytes 8 s.shownTime.toNat ++ leBytes 8 s.aon ++ leBytes 2 s.chipNumber ++
  leBytes 1 (match s.part with
    | .a => 0
    | .b => 1) ++ leBytes 1 s.job.state ++ leBytes 1 s.reportFlags ++ leBytes 3 0 ++
  (if s.mgmt.claimed then sha384 s.mgmt.ownerRoot else List.replicate 48 0) ++ s.configDigest ++ leBytes 8 (s.obj O.srSeed) ++
  leBytes 8 0 ++ (List.range 8).flatMap s.reportComponent ++ List.replicate 48 0

/-- ATTEST: the report with the master's signature, for a nonce of 48 bytes. -/
def Chip.attest (s : Chip) (nonce : List Byte) : Answer :=
  if nonce.length ≠ 48 then .no s .badMessage
  else if s.loaderOnly then .no s .access
  else
    let r := s.report nonce
    ⟨.ok, r ++ fit 96 (Config.aliasSign s.power.master s.freeCtr r), s.drew⟩

def execAttest (session : Nat) (req : Word32) (nonce : List Byte) (s : State) : Host.Outcome State Fault Refusal :=
  s.always fun c => c.message session 0x07 req fun c _ => c.attest nonce

/-! ### Images and RESET (R468–R472) -/

/-- Messages that need OWNER. -/
def Session.owns (v : Session) : Bool := !v.claim && v.role == .owner

def execImageBegin (session : Nat) (req : Word32) (component : Byte) (total : Word32) (s : State) :
    Host.Outcome State Fault Refusal :=
  s.always fun c => c.message session 0x08 req fun c v =>
    if v.owns then .plain (c.imageBegin (some session) component.toNat total.toNat) else .no c .role

def execImageData (session : Nat) (req : Word32) (offset : Word32) (data : List Byte) (s : State) :
    Host.Outcome State Fault Refusal :=
  s.always fun c => c.message session 0x09 req fun c v =>
    if v.owns then .plain (c.imageData (some session) offset.toNat data) else .no c .role

def execImageEnd (session : Nat) (req : Word32) (s : State) : Host.Outcome State Fault Refusal :=
  s.always fun c => c.message session 0x0A req fun c v =>
    if v.owns then .plain (c.imageEnd (some session)) else .no c .role

def execImageAbort (session : Nat) (req : Word32) (s : State) : Host.Outcome State Fault Refusal :=
  s.always fun c => c.message session 0x0B req fun c v =>
    if v.owns then .plain (c.imageAbort (some session)) else .no c .role

/-- A reset that management asks for, with a boot after it; a latched shutdown forbids it (R503). -/
def Chip.eulenReset (s : Chip) : Chip := s.resetAll.boot false

/-- A RESET that takes effect: an OWNER's, new, and with no shutdown latched. -/
def Chip.resets (s : Chip) (id : Nat) (req : Word32) : Bool :=
  s.serving && s.power.shutdown.isNone && match s.session id with
    | some v => v.owns && v.kept.all (·.reqId != req)
    | none => false

/-- RESET: the response goes out before the reset, and no session outlives it. -/
def execEulenReset (session : Nat) (req : Word32) (s : State) : Host.Outcome State Fault Refusal :=
  s.always fun c =>
    let answered := c.message session 0x0C req fun c v =>
      if !v.owns then .no c .role else if c.power.shutdown.isSome then .no c .access else ⟨.ok, [], c⟩
    if c.resets session req then answered.eulenReset else answered

/-- A message of an unknown TYPE, or with a malformed header. -/
def execBadMessage (session : Nat) (req : Word32) (type : Byte) (s : State) : Host.Outcome State Fault Refusal :=
  s.always fun c => c.message session type.toNat req fun c _ => .no c .badMessage

/-! ### The UART (R440, R472) -/

/-- The bytes between two delimiters, with 0x7D escapes undone; none for a frame that is malformed. -/
def unescape : List Byte → Option (List Byte)
  | [] => some []
  | b :: r =>
    if b = 0x7E then none
    else if b = 0x7D then
      match r with
      | [] => none
      | c :: r => (unescape r).map fun l => (c ^^^ 0x20) :: l
    else (unescape r).map fun l => b :: l

def escape (l : List Byte) : List Byte := l.flatMap fun b => if b = 0x7E ∨ b = 0x7D then [0x7D, b ^^^ 0x20] else [b]

/-- A frame's message, if its CRC is right. -/
def uartMessage (b : List Byte) : Option (List Byte) :=
  if b.length < 2 ∨ b.head? ≠ some 0x7E ∨ b.getLast? ≠ some 0x7E then none
  else match unescape ((b.drop 1).take (b.length - 2)) with
    | none => none
    | some m =>
      let n := m.length - 4
      if m.length < 4 ∨ leNat (m.drop n) ≠ crc32c (m.take n) then none else some (m.take n)

def uartFrame (m : List Byte) : List Byte := [0x7E] ++ escape (m ++ leBytes 4 (crc32c m)) ++ [0x7E]

/-- A message: header and body (R444). -/
def eulenMessage (type : Nat) (req : Nat) (st : EStatus) (body : List Byte) : List Byte :=
  leBytes 2 0x4555 ++ [1, BitVec.ofNat 8 type] ++ leBytes 4 req ++ leBytes 2 body.length ++ [st.code, 0] ++ leBytes 4 0 ++ body

/-- Entries of a GET's body. -/
def getEntries : Nat → List Byte → List GetEntry
  | 0, _ => []
  | fuel + 1, b =>
    if b.length < 12 then []
    else ⟨BitVec.ofNat 16 (leNat (b.take 2)), (b.drop 2).headD 0, BitVec.ofNat 32 (leNat ((b.drop 4).take 4)),
      BitVec.ofNat 16 (leNat ((b.drop 8).take 2))⟩ :: getEntries fuel (b.drop 12)

/-- What the loader answers to a request's TYPE and body on the UART. -/
def Chip.uartRequest (s : Chip) (type : Nat) (body : List Byte) : Answer :=
  let f (lo n : Nat) : Nat := leNat ((body.drop lo).take n)
  if type = 0x01 ∧ body.length % 12 = 0 ∧ body.length ≤ 768 then
    let r := (getEntries 64 body).flatMap fun e => getBytes e (s.getEntry [] e)
    if r.length > 1152 then .no s .badMessage else ⟨.ok, r, s⟩
  else if type = 0x08 ∧ body.length = 8 ∧ f 1 3 = 0 then .plain (s.imageBegin none (f 0 1) (f 4 4))
  else if type = 0x09 ∧ 4 < body.length then .plain (s.imageData none (f 0 4) (body.drop 4))
  else if type = 0x0A ∧ body.isEmpty then .plain (s.imageEnd none)
  else if type = 0x0B ∧ body.isEmpty then .plain (s.imageAbort none)
  else if type = 0x0C ∧ body.isEmpty then (if s.power.shutdown.isSome then .no s .access else ⟨.ok, [], s⟩)
  else if 0x02 ≤ type ∧ type ≤ 0x07 then .no s .access
  else .no s .badMessage

/-- A frame on the UART, which only the recovery loader serves. -/
def Chip.uart (s : Chip) (b : List Byte) : Chip :=
  match (if s.mgmt.loader then uartMessage b else none) with
  | none => s
  | some m =>
    let f (lo n : Nat) : Nat := leNat ((m.drop lo).take n)
    let sound := 16 ≤ m.length && f 0 2 == 0x4555 && f 2 1 == 1 && f 8 2 + 16 == m.length && m.length ≤ 1168 &&
      f 10 1 == 0 && (f 11 1 == 0 || f 3 1 == 1 && f 11 1 == 1) && f 12 4 == 0
    let a := if sound then s.uartRequest (f 3 1) (m.drop 16) else .no s .badMessage
    let s := a.chip.emit (.uart (uartFrame (eulenMessage (f 3 1 + 0x80) (f 4 4) a.status a.body)))
    if f 3 1 = 0x0C ∧ a.status = .ok then s.eulenReset else s

def execUartFrame (bytes : List Byte) (s : State) : Host.Outcome State Fault Refusal :=
  s.always fun c => c.uart bytes

end Sys2Proof.Machine
end

