-- ==== Sys2Proof/Machine/Dispatch.lean ====
section
/-! DEFINITION. One arm per command: its meaning, or its name where it has none yet. -/

namespace Sys2Proof.Machine

/-- What a command does to everything but the queue of commands (DESIGN CHOICE log 11). -/
def exec (i : Instr) (s : State) : Host.Outcome State Fault Refusal :=
  match i with
  | .resetNAssert width => Sys2Proof.Machine.execResetNAssert width s
  | .resetNRelease testEn uartLow => Sys2Proof.Machine.execResetNRelease testEn uartLow s
  | .vaonUp => Sys2Proof.Machine.execVaonUp s
  | .shutdownNReleaseTimer => Sys2Proof.Machine.execShutdownNReleaseTimer s
  | .vaonLoss => Sys2Proof.Machine.execVaonLoss s
  | .railOutOfRangeTimeout rail => Sys2Proof.Machine.execRailOutOfRangeTimeout rail s
  | .refclkLoss => Sys2Proof.Machine.execRefclkLoss s
  | .regulatorPhaseFail site domain => Sys2Proof.Machine.execRegulatorPhaseFail site domain s
  | .sensorFrame frame => Sys2Proof.Machine.execSensorFrame frame s
  | .powerSample => Sys2Proof.Machine.execPowerSample s
  | .powerStepTimer => Sys2Proof.Machine.execPowerStepTimer s
  | .powerExcursionShutdown => Sys2Proof.Machine.execPowerExcursionShutdown s
  | .weirStepDownInterval site => Sys2Proof.Machine.execWeirStepDownInterval site s
  | .weirStepUpInterval site => Sys2Proof.Machine.execWeirStepUpInterval site s
  | .frequencyStepDone site => Sys2Proof.Machine.execFrequencyStepDone site s
  | .ditchriderHeartbeat => Sys2Proof.Machine.execDitchriderHeartbeat s
  | .standbyTakeover => Sys2Proof.Machine.execStandbyTakeover s
  | .ditchriderUnitLoss loss => Sys2Proof.Machine.execDitchriderUnitLoss loss s
  | .compensationTick site => Sys2Proof.Machine.execCompensationTick site s
  | .fallowEntry fallow => Sys2Proof.Machine.execFallowEntry fallow s
  | .fallowWake fallow => Sys2Proof.Machine.execFallowWake fallow s
  | .hbmSelfRefreshEntry stack => Sys2Proof.Machine.execHbmSelfRefreshEntry stack s
  | .shutdownNow value => Sys2Proof.Machine.execShutdownNow value s
  | .reArm value => Sys2Proof.Machine.execReArm value s
  | .siteTopStepWrite site value => Sys2Proof.Machine.execSiteTopStepWrite site value s
  | .thermalLevelWrite group level value => Sys2Proof.Machine.execThermalLevelWrite group level value s
  | .gdpAdapterActive link modules rate => Sys2Proof.Machine.execGdpAdapterActive link modules rate s
  | .gdpDescriptorReceived link desc => Sys2Proof.Machine.execGdpDescriptorReceived link desc s
  | .gdpSettleReceived link settle => Sys2Proof.Machine.execGdpSettleReceived link settle s
  | .gdpLinkActive link => Sys2Proof.Machine.execGdpLinkActive link s
  | .gdpBringupTimeout link peerInReset => Sys2Proof.Machine.execGdpBringupTimeout link peerInReset s
  | .gdpLinkLost link => Sys2Proof.Machine.execGdpLinkLost link s
  | .gdpRead link msg => Sys2Proof.Machine.execGdpRead link msg s
  | .gdpWrite link msg => Sys2Proof.Machine.execGdpWrite link msg s
  | .gdpAtomic link msg => Sys2Proof.Machine.execGdpAtomic link msg s
  | .gdpCounterSignal link msg => Sys2Proof.Machine.execGdpCounterSignal link msg s
  | .gdpCell link msg => Sys2Proof.Machine.execGdpCell link msg s
  | .gdpMgmt link msg => Sys2Proof.Machine.execGdpMgmt link msg s
  | .gdpTelemetry link msg readings => Sys2Proof.Machine.execGdpTelemetry link msg readings s
  | .gdpResponse link msg => Sys2Proof.Machine.execGdpResponse link msg s
  | .gdpRequestTimeout link tag => Sys2Proof.Machine.execGdpRequestTimeout link tag s
  | .gdpModuleFailure link module => Sys2Proof.Machine.execGdpModuleFailure link module s
  | .spareReq link module => Sys2Proof.Machine.execSpareReq link module s
  | .gdpSpareTrained link flit => Sys2Proof.Machine.execGdpSpareTrained link flit s
  | .gdpSwitch link flit => Sys2Proof.Machine.execGdpSwitch link flit s
  | .laneRetryLimitExceeded link module lane retries => Sys2Proof.Machine.execLaneRetryLimitExceeded link module lane retries s
  | .enginePowerUp engine => Sys2Proof.Machine.execEnginePowerUp engine s
  | .engineMonitorSample engine sample => Sys2Proof.Machine.execEngineMonitorSample engine sample s
  | .superframeReceived port frames => Sys2Proof.Machine.execSuperframeReceived port frames s
  | .linkControlTick port => Sys2Proof.Machine.execLinkControlTick port s
  | .idle port slot => Sys2Proof.Machine.execIdle port slot s
  | .retry port slot => Sys2Proof.Machine.execRetry port slot s
  | .replay port slot => Sys2Proof.Machine.execReplay port slot s
  | .linkRetrain port => Sys2Proof.Machine.execLinkRetrain port s
  | .laneOffer port slot => Sys2Proof.Machine.execLaneOffer port slot s
  | .laneReady port slot => Sys2Proof.Machine.execLaneReady port slot s
  | .laneSwitch port slot => Sys2Proof.Machine.execLaneSwitch port slot s
  | .laneSwitchAck port slot => Sys2Proof.Machine.execLaneSwitchAck port slot s
  | .laneRequest port slot => Sys2Proof.Machine.execLaneRequest port slot s
  | .laneDown port slot => Sys2Proof.Machine.execLaneDown port slot s
  | .widthChange port slot => Sys2Proof.Machine.execWidthChange port slot s
  | .laneMap port slot => Sys2Proof.Machine.execLaneMap port slot s
  | .monitor port slot => Sys2Proof.Machine.execMonitor port slot s
  | .bert port slot => Sys2Proof.Machine.execBert port slot s
  | .loopReq port slot => Sys2Proof.Machine.execLoopReq port slot s
  | .drainNotice port slot => Sys2Proof.Machine.execDrainNotice port slot s
  | .reservedCtrlSlot port slot => Sys2Proof.Machine.execReservedCtrlSlot port slot s
  | .spareLaserLocked port => Sys2Proof.Machine.execSpareLaserLocked port s
  | .laneReadyTimeout port => Sys2Proof.Machine.execLaneReadyTimeout port s
  | .probeBurstTimer port => Sys2Proof.Machine.execProbeBurstTimer port s
  | .probeWordReceived port word => Sys2Proof.Machine.execProbeWordReceived port word s
  | .portVerified port discarded => Sys2Proof.Machine.execPortVerified port discarded s
  | .circuitBerTimeExpiry port rx tx bits => Sys2Proof.Machine.execCircuitBerTimeExpiry port rx tx bits s
  | .lossOfLight port => Sys2Proof.Machine.execLossOfLight port s
  | .spmMonitorTimer port => Sys2Proof.Machine.execSpmMonitorTimer port s
  | .spmHoldOffExpiry port => Sys2Proof.Machine.execSpmHoldOffExpiry port s
  | .portDrainComplete port => Sys2Proof.Machine.execPortDrainComplete port s
  | .portDrainDeadline port => Sys2Proof.Machine.execPortDrainDeadline port s
  | .portAdminDisable port => Sys2Proof.Machine.execPortAdminDisable port s
  | .portAdminEnable port => Sys2Proof.Machine.execPortAdminEnable port s
  | .portAdminCircuit port => Sys2Proof.Machine.execPortAdminCircuit port s
  | .portRoleWrite port role => Sys2Proof.Machine.execPortRoleWrite port role s
  | .safetyModeWrite mode => Sys2Proof.Machine.execSafetyModeWrite mode s
  | .chipNumberWrite value => Sys2Proof.Machine.execChipNumberWrite value s
  | .chipAssignedWrite value => Sys2Proof.Machine.execChipAssignedWrite value s
  | .domainShapeWrite which value => Sys2Proof.Machine.execDomainShapeWrite which value s
  | .tnreadyChange => Sys2Proof.Machine.execTnreadyChange s
  | .portFreshnessExpiry port => Sys2Proof.Machine.execPortFreshnessExpiry port s
  | .routerSlot => Sys2Proof.Machine.execRouterSlot s
  | .cellPut cell => Sys2Proof.Machine.execCellPut cell s
  | .cellSignal cell => Sys2Proof.Machine.execCellSignal cell s
  | .cellAtomicAdd cell => Sys2Proof.Machine.execCellAtomicAdd cell s
  | .cellAck cell => Sys2Proof.Machine.execCellAck cell s
  | .cellAckFin cell => Sys2Proof.Machine.execCellAckFin cell s
  | .cellNack cell => Sys2Proof.Machine.execCellNack cell s
  | .cellCollData cell => Sys2Proof.Machine.execCellCollData cell s
  | .cellMcast cell => Sys2Proof.Machine.execCellMcast cell s
  | .cellTime port cell stamp => Sys2Proof.Machine.execCellTime port cell stamp s
  | .cellProbe cell => Sys2Proof.Machine.execCellProbe cell s
  | .cellReservedType cell => Sys2Proof.Machine.execCellReservedType cell s
  | .ackTimeExpiry src stream => Sys2Proof.Machine.execAckTimeExpiry src stream s
  | .retxTimeout stream seq => Sys2Proof.Machine.execRetxTimeout stream seq s
  | .backoffExpiry stream seq => Sys2Proof.Machine.execBackoffExpiry stream seq s
  | .streamIdleExpiry stream => Sys2Proof.Machine.execStreamIdleExpiry stream s
  | .sluiceApply line => Sys2Proof.Machine.execSluiceApply line s
  | .timebaseExchangeTimer => Sys2Proof.Machine.execTimebaseExchangeTimer s
  | .timebaseHoldover => Sys2Proof.Machine.execTimebaseHoldover s
  | .tbMasterWrite value => Sys2Proof.Machine.execTbMasterWrite value s
  | .destRelease chip => Sys2Proof.Machine.execDestRelease chip s
  | .probeTarget chip => Sys2Proof.Machine.execProbeTarget chip s
  | .probeReplyTimeout => Sys2Proof.Machine.execProbeReplyTimeout s
  | .gnNodeWrite value => Sys2Proof.Machine.execGnNodeWrite value s
  | .rackMembersWrite members => Sys2Proof.Machine.execRackMembersWrite members s
  | .gnRead port packet => Sys2Proof.Machine.execGnRead port packet s
  | .gnWrite port packet => Sys2Proof.Machine.execGnWrite port packet s
  | .gnWriteFlagged port packet => Sys2Proof.Machine.execGnWriteFlagged port packet s
  | .gnAtomic port packet => Sys2Proof.Machine.execGnAtomic port packet s
  | .gnResponse port packet => Sys2Proof.Machine.execGnResponse port packet s
  | .gnCredit port packet => Sys2Proof.Machine.execGnCredit port packet s
  | .gnBadPacket port packet => Sys2Proof.Machine.execGnBadPacket port packet s
  | .creditReturnTimer port vc => Sys2Proof.Machine.execCreditReturnTimer port vc s
  | .bulkAging port => Sys2Proof.Machine.execBulkAging port s
  | .gnPacketsReturned port => Sys2Proof.Machine.execGnPacketsReturned port s
  | .granuleHoldRelease granule => Sys2Proof.Machine.execGranuleHoldRelease granule s
  | .writeFlaggedRelease tag => Sys2Proof.Machine.execWriteFlaggedRelease tag s
  | .windowEntryCommit entry word => Sys2Proof.Machine.execWindowEntryCommit entry word s
  | .deadTimeExpiry tag => Sys2Proof.Machine.execDeadTimeExpiry tag s
  | .targetRelease node => Sys2Proof.Machine.execTargetRelease node s
  | .sqDoorbell queue value => Sys2Proof.Machine.execSqDoorbell queue value s
  | .cqDoorbell queue value => Sys2Proof.Machine.execCqDoorbell queue value s
  | .ctrlEnable queue => Sys2Proof.Machine.execCtrlEnable queue s
  | .ctrlDisable queue => Sys2Proof.Machine.execCtrlDisable queue s
  | .queueConfigWrite queue index word => Sys2Proof.Machine.execQueueConfigWrite queue index word s
  | .commandFetch queue => Sys2Proof.Machine.execCommandFetch queue s
  | .cmdNop queue => Sys2Proof.Machine.execCmdNop queue s
  | .cmdKernel queue => Sys2Proof.Machine.execCmdKernel queue s
  | .cmdCopy queue => Sys2Proof.Machine.execCmdCopy queue s
  | .cmdFill queue => Sys2Proof.Machine.execCmdFill queue s
  | .cmdPut queue => Sys2Proof.Machine.execCmdPut queue s
  | .cmdSignal queue => Sys2Proof.Machine.execCmdSignal queue s
  | .cmdWait queue => Sys2Proof.Machine.execCmdWait queue s
  | .cmdFence queue => Sys2Proof.Machine.execCmdFence queue s
  | .cmdCollective queue => Sys2Proof.Machine.execCmdCollective queue s
  | .cmdUpdate queue => Sys2Proof.Machine.execCmdUpdate queue s
  | .cmdMarker queue => Sys2Proof.Machine.execCmdMarker queue s
  | .cmdReservedOpcode queue => Sys2Proof.Machine.execCmdReservedOpcode queue s
  | .commandComplete queue num => Sys2Proof.Machine.execCommandComplete queue num s
  | .waitLimitExpiry queue => Sys2Proof.Machine.execWaitLimitExpiry queue s
  | .queuePrioAging queue => Sys2Proof.Machine.execQueuePrioAging queue s
  | .queueDrainDeadline queue => Sys2Proof.Machine.execQueueDrainDeadline queue s
  | .jobEnd value => Sys2Proof.Machine.execJobEnd value s
  | .jobSanitiseStart => Sys2Proof.Machine.execJobSanitiseStart s
  | .jobSanitiseDone => Sys2Proof.Machine.execJobSanitiseDone s
  | .counterAdd counter amount src => Sys2Proof.Machine.execCounterAdd counter amount src s
  | .waitRegister counter threshold owner => Sys2Proof.Machine.execWaitRegister counter threshold owner s
  | .pollIntervalExpiry counter owner => Sys2Proof.Machine.execPollIntervalExpiry counter owner s
  | .barrierBind barrier word => Sys2Proof.Machine.execBarrierBind barrier word s
  | .barrierUnbind barrier word => Sys2Proof.Machine.execBarrierUnbind barrier word s
  | .barrierDescWrite barrier index word => Sys2Proof.Machine.execBarrierDescWrite barrier index word s
  | .arrivalResendTimer src => Sys2Proof.Machine.execArrivalResendTimer src s
  | .counterPageWrite core offset value src => Sys2Proof.Machine.execCounterPageWrite core offset value src s
  | .commBind slot word => Sys2Proof.Machine.execCommBind slot word s
  | .commUnbind slot word => Sys2Proof.Machine.execCommUnbind slot word s
  | .collStart cell => Sys2Proof.Machine.execCollStart cell s
  | .collGrant cell => Sys2Proof.Machine.execCollGrant cell s
  | .collAbort cell => Sys2Proof.Machine.execCollAbort cell s
  | .collComplete slot seq => Sys2Proof.Machine.execCollComplete slot seq s
  | .mismatchGatherExpiry slot seq => Sys2Proof.Machine.execMismatchGatherExpiry slot seq s
  | .collWatchdogExpiry slot seq => Sys2Proof.Machine.execCollWatchdogExpiry slot seq s
  | .collMemberFailed chip => Sys2Proof.Machine.execCollMemberFailed chip s
  | .collDrainDeadline slot => Sys2Proof.Machine.execCollDrainDeadline slot s
  | .earlyStoreDiscard commId => Sys2Proof.Machine.execEarlyStoreDiscard commId s
  | .hbmAccess access => Sys2Proof.Machine.execHbmAccess access s
  | .channelAccessTimeout channel => Sys2Proof.Machine.execChannelAccessTimeout channel s
  | .interleaveEntryCommit entry word => Sys2Proof.Machine.execInterleaveEntryCommit entry word s
  | .keepRelease value => Sys2Proof.Machine.execKeepRelease value s
  | .odeccReadTimer counts => Sys2Proof.Machine.execOdeccReadTimer counts s
  | .patrolScrub line errors => Sys2Proof.Machine.execPatrolScrub line errors s
  | .mapoutRequest channel => Sys2Proof.Machine.execMapoutRequest channel s
  | .mapoutStart channel => Sys2Proof.Machine.execMapoutStart channel s
  | .unitCopyDone unit => Sys2Proof.Machine.execUnitCopyDone unit s
  | .mapoutComplete => Sys2Proof.Machine.execMapoutComplete s
  | .shrinkAck value => Sys2Proof.Machine.execShrinkAck value s
  | .shrinkGraceExpiry => Sys2Proof.Machine.execShrinkGraceExpiry s
  | .marginPeriodTimer pc => Sys2Proof.Machine.execMarginPeriodTimer pc s
  | .marginNow pc => Sys2Proof.Machine.execMarginNow pc s
  | .sweepPhaseDone pc windows => Sys2Proof.Machine.execSweepPhaseDone pc windows s
  | .hbmRefresh pc => Sys2Proof.Machine.execHbmRefresh pc s
  | .ctrlLoad core kind rd rs1 imm short => Sys2Proof.Machine.execCtrlLoad core kind rd rs1 imm short s
  | .ctrlStore core kind rs1 rs2 imm short => Sys2Proof.Machine.execCtrlStore core kind rs1 rs2 imm short s
  | .ctrlAmo core op dbl rd rs1 rs2 => Sys2Proof.Machine.execCtrlAmo core op dbl rd rs1 rs2 s
  | .ctrlLrSc core store dbl rd rs1 rs2 => Sys2Proof.Machine.execCtrlLrSc core store dbl rd rs1 rs2 s
  | .fence core => Sys2Proof.Machine.execFence core s
  | .fenceI core => Sys2Proof.Machine.execFenceI core s
  | .ecallEbreak core ebreak => Sys2Proof.Machine.execEcallEbreak core ebreak s
  | .csrWrite core op csr rd src => Sys2Proof.Machine.execCsrWrite core op csr rd src s
  | .rv64Instruction core word => Sys2Proof.Machine.execRv64Instruction core word s
  | .xsigl core rd rs1 rs2 => Sys2Proof.Machine.execXsigl core rd rs1 rs2 s
  | .xwaitl core rd rs1 rs2 => Sys2Proof.Machine.execXwaitl core rd rs1 rs2 s
  | .xrdl core rd rs1 rs2 => Sys2Proof.Machine.execXrdl core rd rs1 rs2 s
  | .xsigc core rd rs1 rs2 => Sys2Proof.Machine.execXsigc core rd rs1 rs2 s
  | .xwaitc core rd rs1 rs2 => Sys2Proof.Machine.execXwaitc core rd rs1 rs2 s
  | .xqwait core rd rs1 rs2 => Sys2Proof.Machine.execXqwait core rd rs1 rs2 s
  | .xwaitu core rd rs1 rs2 => Sys2Proof.Machine.execXwaitu core rd rs1 rs2 s
  | .xend core rd rs1 rs2 => Sys2Proof.Machine.execXend core rd rs1 rs2 s
  | .xdcopy core rd rs1 rs2 => Sys2Proof.Machine.execXdcopy core rd rs1 rs2 s
  | .xdcopy2 core rd rs1 rs2 => Sys2Proof.Machine.execXdcopy2 core rd rs1 rs2 s
  | .xdfill core rd rs1 rs2 => Sys2Proof.Machine.execXdfill core rd rs1 rs2 s
  | .xamofaddW core rd rs1 rs2 => Sys2Proof.Machine.execXamofaddW core rd rs1 rs2 s
  | .xaldw core rd rs1 rs2 => Sys2Proof.Machine.execXaldw core rd rs1 rs2 s
  | .xamm core rd rs1 rs2 => Sys2Proof.Machine.execXamm core rd rs1 rs2 s
  | .xadrain core rd rs1 rs2 => Sys2Proof.Machine.execXadrain core rd rs1 rs2 s
  | .xaclr core rd rs1 rs2 => Sys2Proof.Machine.execXaclr core rd rs1 rs2 s
  | .vcopy core form rd rs1 rs2 => Sys2Proof.Machine.execVcopy core form rd rs1 rs2 s
  | .vadd core form rd rs1 rs2 => Sys2Proof.Machine.execVadd core form rd rs1 rs2 s
  | .vsub core form rd rs1 rs2 => Sys2Proof.Machine.execVsub core form rd rs1 rs2 s
  | .vmul core form rd rs1 rs2 => Sys2Proof.Machine.execVmul core form rd rs1 rs2 s
  | .vfma core form rd rs1 rs2 => Sys2Proof.Machine.execVfma core form rd rs1 rs2 s
  | .vmin core form rd rs1 rs2 => Sys2Proof.Machine.execVmin core form rd rs1 rs2 s
  | .vmax core form rd rs1 rs2 => Sys2Proof.Machine.execVmax core form rd rs1 rs2 s
  | .vabs core form rd rs1 rs2 => Sys2Proof.Machine.execVabs core form rd rs1 rs2 s
  | .vneg core form rd rs1 rs2 => Sys2Proof.Machine.execVneg core form rd rs1 rs2 s
  | .vand core form rd rs1 rs2 => Sys2Proof.Machine.execVand core form rd rs1 rs2 s
  | .vor core form rd rs1 rs2 => Sys2Proof.Machine.execVor core form rd rs1 rs2 s
  | .vxor core form rd rs1 rs2 => Sys2Proof.Machine.execVxor core form rd rs1 rs2 s
  | .vshl core form rd rs1 rs2 => Sys2Proof.Machine.execVshl core form rd rs1 rs2 s
  | .vshr core form rd rs1 rs2 => Sys2Proof.Machine.execVshr core form rd rs1 rs2 s
  | .vcmpeq core form rd rs1 rs2 => Sys2Proof.Machine.execVcmpeq core form rd rs1 rs2 s
  | .vcmplt core form rd rs1 rs2 => Sys2Proof.Machine.execVcmplt core form rd rs1 rs2 s
  | .vcmple core form rd rs1 rs2 => Sys2Proof.Machine.execVcmple core form rd rs1 rs2 s
  | .vsel core form rd rs1 rs2 => Sys2Proof.Machine.execVsel core form rd rs1 rs2 s
  | .vcvt core form rd rs1 rs2 => Sys2Proof.Machine.execVcvt core form rd rs1 rs2 s
  | .vexp core form rd rs1 rs2 => Sys2Proof.Machine.execVexp core form rd rs1 rs2 s
  | .vlog core form rd rs1 rs2 => Sys2Proof.Machine.execVlog core form rd rs1 rs2 s
  | .vrcp core form rd rs1 rs2 => Sys2Proof.Machine.execVrcp core form rd rs1 rs2 s
  | .vrsqrt core form rd rs1 rs2 => Sys2Proof.Machine.execVrsqrt core form rd rs1 rs2 s
  | .vsqrt core form rd rs1 rs2 => Sys2Proof.Machine.execVsqrt core form rd rs1 rs2 s
  | .vsin core form rd rs1 rs2 => Sys2Proof.Machine.execVsin core form rd rs1 rs2 s
  | .vcos core form rd rs1 rs2 => Sys2Proof.Machine.execVcos core form rd rs1 rs2 s
  | .vtanh core form rd rs1 rs2 => Sys2Proof.Machine.execVtanh core form rd rs1 rs2 s
  | .vsigmoid core form rd rs1 rs2 => Sys2Proof.Machine.execVsigmoid core form rd rs1 rs2 s
  | .vrsum core form rd rs1 rs2 => Sys2Proof.Machine.execVrsum core form rd rs1 rs2 s
  | .vrmax core form rd rs1 rs2 => Sys2Proof.Machine.execVrmax core form rd rs1 rs2 s
  | .vrmin core form rd rs1 rs2 => Sys2Proof.Machine.execVrmin core form rd rs1 rs2 s
  | .vaccsr core form rd rs1 rs2 => Sys2Proof.Machine.execVaccsr core form rd rs1 rs2 s
  | .vgather core form rd rs1 rs2 => Sys2Proof.Machine.execVgather core form rd rs1 rs2 s
  | .vscatter core form rd rs1 rs2 => Sys2Proof.Machine.execVscatter core form rd rs1 rs2 s
  | .arrayInstrStart core => Sys2Proof.Machine.execArrayInstrStart core s
  | .vectorInstrStart core => Sys2Proof.Machine.execVectorInstrStart core s
  | .dmaInstrStart core => Sys2Proof.Machine.execDmaInstrStart core s
  | .unitInstrComplete core unit index hw => Sys2Proof.Machine.execUnitInstrComplete core unit index hw s
  | .kernelTimeLimitExpiry core => Sys2Proof.Machine.execKernelTimeLimitExpiry core s
  | .coreDrainDeadline core => Sys2Proof.Machine.execCoreDrainDeadline core s
  | .coreAdminOffline core => Sys2Proof.Machine.execCoreAdminOffline core s
  | .coreAdminOnline core => Sys2Proof.Machine.execCoreAdminOnline core s
  | .coreSelfTestDone core result => Sys2Proof.Machine.execCoreSelfTestDone core result s
  | .nvRun core => Sys2Proof.Machine.execNvRun core s
  | .detModeWrite value => Sys2Proof.Machine.execDetModeWrite value s
  | .srSeedWrite value => Sys2Proof.Machine.execSrSeedWrite value s
  | .updateLayerStart die => Sys2Proof.Machine.execUpdateLayerStart die s
  | .updateLayerEnd die => Sys2Proof.Machine.execUpdateLayerEnd die s
  | .updateDrainDeadline => Sys2Proof.Machine.execUpdateDrainDeadline s
  | .cellarAccess req => Sys2Proof.Machine.execCellarAccess req s
  | .engineAdminWrite engine value => Sys2Proof.Machine.execEngineAdminWrite engine value s
  | .dtlsHandshake cert => Sys2Proof.Machine.execDtlsHandshake cert s
  | .sessionIdleTimeout session => Sys2Proof.Machine.execSessionIdleTimeout session s
  | .get session req snapshot entries => Sys2Proof.Machine.execGet session req snapshot entries s
  | .set session req entries => Sys2Proof.Machine.execSet session req entries s
  | .subscribe session req severity subsystems => Sys2Proof.Machine.execSubscribe session req severity subsystems s
  | .eventAck session req seq => Sys2Proof.Machine.execEventAck session req seq s
  | .memRead session req offset length => Sys2Proof.Machine.execMemRead session req offset length s
  | .memWrite session req offset data => Sys2Proof.Machine.execMemWrite session req offset data s
  | .attest session req nonce => Sys2Proof.Machine.execAttest session req nonce s
  | .imageBegin session req component total => Sys2Proof.Machine.execImageBegin session req component total s
  | .imageData session req offset data => Sys2Proof.Machine.execImageData session req offset data s
  | .imageEnd session req => Sys2Proof.Machine.execImageEnd session req s
  | .imageAbort session req => Sys2Proof.Machine.execImageAbort session req s
  | .imageIdleTimeout => Sys2Proof.Machine.execImageIdleTimeout s
  | .eulenReset session req => Sys2Proof.Machine.execEulenReset session req s
  | .badMessage session req type => Sys2Proof.Machine.execBadMessage session req type s
  | .uartFrame bytes => Sys2Proof.Machine.execUartFrame bytes s
  | .activationUnitDone unit differs => Sys2Proof.Machine.execActivationUnitDone unit differs s
  | .activationTimeout unit => Sys2Proof.Machine.execActivationTimeout unit s
  | .eventResendTimer session seq => Sys2Proof.Machine.execEventResendTimer session seq s
  | .snapshotExpiry session => Sys2Proof.Machine.execSnapshotExpiry session s
  | .configDone value => Sys2Proof.Machine.execConfigDone value s
  | .configWindowExpiry => Sys2Proof.Machine.execConfigWindowExpiry s
  | .jobReady => Sys2Proof.Machine.execJobReady s
  | .ownerRootWrite cert => Sys2Proof.Machine.execOwnerRootWrite cert s
  | .ownerRelease value => Sys2Proof.Machine.execOwnerRelease value s
  | .debugRequest scope => Sys2Proof.Machine.execDebugRequest scope s
  | .debugResponse response => Sys2Proof.Machine.execDebugResponse response s
  | .recoveryRequest value => Sys2Proof.Machine.execRecoveryRequest value s
  | .objectWrite index sub type value => Sys2Proof.Machine.execObjectWrite index sub type value s
  | .healthEvaluation => Sys2Proof.Machine.execHealthEvaluation s
  | .suspectSet value => Sys2Proof.Machine.execSuspectSet value s
  | .quarantine => Sys2Proof.Machine.execQuarantine s
  | .drainChip => Sys2Proof.Machine.execDrainChip s
  | .drainQueue queue => Sys2Proof.Machine.execDrainQueue queue s
  | .drainCore core => Sys2Proof.Machine.execDrainCore core s
  | .drainPort port => Sys2Proof.Machine.execDrainPort port s
  | .drainSlot slot => Sys2Proof.Machine.execDrainSlot slot s
  | .shadow peer startStep ring ringLog2 counter => Sys2Proof.Machine.execShadow peer startStep ring ringLog2 counter s
  | .source peer startStep ring ringLog2 counter => Sys2Proof.Machine.execSource peer startStep ring ringLog2 counter s
  | .stop => Sys2Proof.Machine.execStop s
  | .promote => Sys2Proof.Machine.execPromote s
  | .drainDone => Sys2Proof.Machine.execDrainDone s
  | .mirrorRecordWrite queue num => Sys2Proof.Machine.execMirrorRecordWrite queue num s
  | .shadowCommandComplete queue num => Sys2Proof.Machine.execShadowCommandComplete queue num s
  | .suspectScoreClearTimer => Sys2Proof.Machine.execSuspectScoreClearTimer s
  | .receiveRingsLocked port => Sys2Proof.Machine.execReceiveRingsLocked port s
  | .loopbackDurationExpiry port => Sys2Proof.Machine.execLoopbackDurationExpiry port s
  | .engineSelfTestDone engine pass => Sys2Proof.Machine.execEngineSelfTestDone engine pass s
  | .alertNRelease => Sys2Proof.Machine.execAlertNRelease s
  | .mgmtLinkUp => Sys2Proof.Machine.execMgmtLinkUp s
  | .lightReturn port => Sys2Proof.Machine.execLightReturn port s

end Sys2Proof.Machine
end

