-- ==== Sys2Proof/Safety.lean ====
section
/-! DEFINITION. What claims call safe: a state whose memory keeps its canonical form, a step that answers a next state, and
a package held off by a latched shutdown. -/

namespace Sys2Proof.Machine

/-- Memory is in its canonical form. -/
def Chip.canonical (s : Chip) : Prop := Memory.wf s.mem = true

/-- A step that neither faults nor is refused. -/
def State.steps (s : State) : Prop := ∃ t, step s = .next t

/-- Commands that can end a latched package shutdown: VAON_LOSS, RE_ARM, and writes that may reach the object RE_ARM
(R429, R503). -/
def endsShutdown : Instr → Bool
  | .vaonLoss => true
  | .reArm _ => true
  | .set _ _ _ => true
  | .objectWrite _ _ _ _ => true
  | _ => false

/-- A package shutdown is latched, and no command waits that could end it. -/
def State.heldOff (s : State) : Prop := s.power.shutdown.isSome = true ∧ s.pending.all (fun c => !endsShutdown c) = true

/-- The package is held in reset: neither the Ditchrider's firmware nor the recovery loader runs (R455, R472), and no
RESET_N_RELEASE waits, which alone begins a boot there. -/
def State.inReset (s : State) : Prop :=
  s.awake = false ∧ s.mgmt.loader = false ∧ s.pending.all (fun c => match c with
    | .resetNRelease _ _ => false
    | _ => true) = true

/-- A command answers a next state: the commands that wait are as they were, and the chip satisfies P. -/
def State.gives (s : State) (c : Instr) (P : Chip → Prop) : Prop :=
  ∃ t, exec c s = .next t ∧ t.pending = s.pending ∧ P t.toChip

/-- A message that a link which carries traffic takes: its opcode has its feature, its class is allowed, and it is for a unit of
the package (R26–R28). -/
def Chip.gdpTakes (s : Chip) (l : Nat) (m : GdpMsg) : Prop :=
  s.live = true ∧ (s.link l).state = .active ∧ gdpSettled m (s.link l) = true ∧ gdpPrioOk m = true ∧ s.unitKnown m = true

/-- No lane of a port's transmit map has a laser that is fading or has failed. -/
def Chip.soundLanes (s : Chip) (p : Nat) : Prop :=
  ∀ c, c ∈ (s.port p).txMap → s.laser (p / 8) c ≠ .fading ∧ s.laser (p / 8) c ≠ .failed

/-- A port that is Active and reads superframes under one map: lit, not looping, with no change announced and no replay awaited. -/
def Chip.readsFrames (s : Chip) (p : Nat) : Prop :=
  s.live = true ∧ (s.port p).state = .active ∧ (s.port p).looping = false ∧ (s.port p).lightLost = none ∧
  (s.port p).awaitingReplay = false ∧ (s.port p).rxChange = none ∧ 0 < mapWidth (s.port p).rxMap

/-- Core c may issue an instruction of n bytes at its pc: it runs a kernel, is awake and waits for nothing, and the fetch is
allowed (R277, R279, R296). -/
def Chip.mayIssue (s : Chip) (c n : Nat) : Prop :=
  s.live = true ∧ (s.core c).issuing = true ∧ (s.core c).fallow = false ∧ (s.core c).stall = none ∧ s.fetchFault c n = none

/-- The chip once core c has fetched its instruction. -/
def Chip.fetched (s : Chip) (c : Nat) : Chip := s.setCore c fun x => { x with icache := true }

/-- Session id is open, as v says, management is served, and the request is none that v has been answered already
(R441, R447, R455). -/
def Chip.asks (s : Chip) (id : Nat) (req : Word32) (v : Session) : Prop :=
  s.serving = true ∧ s.session id = some v ∧ v.kept.find? (·.reqId == req) = none

/-- The answer to a request of a TYPE goes out and is kept (R444–R447). -/
def Chip.answers (s : Chip) (id type : Nat) (req : Word32) (st : EStatus) (body : List Byte) : Chip :=
  s.respond id ⟨BitVec.ofNat 8 (type + 0x80), req, st, body⟩

end Sys2Proof.Machine
end

