-- ==== Sys2Proof/WellFormed.lean ====
section
/-! DEFINITION. Which commands are well formed: the lengths and numbers that their types leave open. A command that is not
well formed is not one that the outside can send. -/

namespace Sys2Proof

/-- A GDP message carries the payload its LEN counts, at most 256 bytes; a READ carries none (R26, R27). -/
def GdpMsg.wellFormed (m : GdpMsg) : Bool :=
  m.payload.length ≤ 256 && (m.op == .read || m.payload.length == m.len.toNat)

/-- Symbols in error, each position once and each with an error (R253). -/
def errorsWellFormed (l : List (Fin 72 × Byte)) : Bool :=
  decide (l.map (·.1)).Nodup && l.all fun e => e.2 != 0

/-- An access stays within one 64-byte line of the chip's offsets, and a write has the bytes it says (R244). -/
def HbmAccess.wellFormed (a : HbmAccess) : Bool :=
  a.addr < 2 ^ 44 && 1 ≤ a.len && a.addr % 64 + a.len ≤ 64 && errorsWellFormed a.errors && match a.write with
    | some w => w.1.length == a.len
    | none => true

/-- The monitors of an engine (R48). -/
def EngineSample.wellFormed (v : EngineSample) : Bool :=
  v.bias.length == 18 && v.m1.length == 18 && v.m2.length == 8 && v.m3.length == 144 && v.m4.length == 8 &&
  v.m5.length == 8 && v.m5.all fun l => l.length == 19

/-- A general-network packet's payload fits its LEN (R131, R133). -/
def GnPacket.wellFormed (p : GnPacket) : Bool := p.payload.length ≤ 4096 && p.payload.length ≤ p.len.toNat

/-- Sensors are numbered 0–2,801 (R437). -/
def SensorFrame.wellFormed (f : SensorFrame) : Bool := (f.readings.all fun r => r.1 < 2802) && f.missing.all (· < 2802)

/-- The well-formed commands. -/
def Instr.wellFormed : Instr → Bool
  | .sensorFrame frame => frame.wellFormed
  | .gdpDescriptorReceived _ desc => desc.length == 256
  | .gdpRead _ msg => msg.wellFormed
  | .gdpWrite _ msg => msg.wellFormed
  | .gdpAtomic _ msg => msg.wellFormed
  | .gdpCounterSignal _ msg => msg.wellFormed
  | .gdpCell _ msg => msg.wellFormed
  | .gdpMgmt _ msg => msg.wellFormed
  | .gdpTelemetry _ msg readings => msg.wellFormed && readings.all fun r => r.1 < 2802
  | .gdpResponse _ msg => msg.wellFormed
  | .engineMonitorSample _ sample => sample.wellFormed
  | .superframeReceived _ frames => decide (frames.map (·.1)).Nodup && frames.all fun f => f.1 < 18 && f.2.words.length == 16
  | .circuitBerTimeExpiry _ rx tx _ => rx.length == 18 && tx.length == 18
  | .sluiceApply line => line < 2 ^ 38
  | .rackMembersWrite members => members.length ≤ 32
  | .gnRead _ packet => packet.wellFormed
  | .gnWrite _ packet => packet.wellFormed
  | .gnWriteFlagged _ packet => packet.wellFormed
  | .gnAtomic _ packet => packet.wellFormed
  | .gnResponse _ packet => packet.wellFormed
  | .gnCredit _ packet => packet.wellFormed
  | .gnBadPacket _ packet => packet.wellFormed
  | .granuleHoldRelease granule => granule < 2 ^ 36
  | .hbmAccess access => access.wellFormed
  | .odeccReadTimer counts => counts.all fun c => c.1 < 1024
  | .patrolScrub line errors => line < 2 ^ 38 + 3 * 2 ^ 34 + 264 * 2 ^ 18 && errorsWellFormed errors
  | .unitCopyDone unit => unit < 2 ^ 21
  | .sweepPhaseDone _ windows => windows.isEmpty || windows.length == 36
  | .cellarAccess req => req.access.wellFormed
  | .get _ _ _ entries => entries.length ≤ 64
  | .set _ _ entries => (entries.map fun e => 8 + (e.value.length + 3) / 4 * 4).sum ≤ 1152
  | .memWrite _ _ _ data => data.length ≤ 1142
  | .attest _ _ nonce => nonce.length ≤ 1152
  | .imageData _ _ _ data => data.length ≤ 1148
  | .uartFrame bytes => bytes.length ≤ 2346
  | .ownerRootWrite cert => cert.length ≤ 2048
  | .debugResponse response => response.length == 96
  | .objectWrite _ _ _ value => value.length ≤ 1144
  | .resetNAssert _ | .resetNRelease _ _ | .vaonUp | .shutdownNReleaseTimer | .vaonLoss | .railOutOfRangeTimeout _
  | .refclkLoss | .regulatorPhaseFail _ _ | .powerSample | .powerStepTimer | .powerExcursionShutdown
  | .weirStepDownInterval _ | .weirStepUpInterval _ | .frequencyStepDone _ | .ditchriderHeartbeat | .standbyTakeover
  | .ditchriderUnitLoss _ | .compensationTick _ | .fallowEntry _ | .fallowWake _ | .hbmSelfRefreshEntry _
  | .shutdownNow _ | .reArm _ | .siteTopStepWrite _ _ | .thermalLevelWrite _ _ _ | .gdpAdapterActive _ _ _
  | .gdpSettleReceived _ _ | .gdpLinkActive _ | .gdpBringupTimeout _ _ | .gdpLinkLost _ | .gdpRequestTimeout _ _
  | .gdpModuleFailure _ _ | .spareReq _ _ | .gdpSpareTrained _ _ | .gdpSwitch _ _ | .laneRetryLimitExceeded _ _ _ _
  | .enginePowerUp _ | .linkControlTick _ | .idle _ _ | .retry _ _ | .replay _ _ | .linkRetrain _ | .laneOffer _ _
  | .laneReady _ _ | .laneSwitch _ _ | .laneSwitchAck _ _ | .laneRequest _ _ | .laneDown _ _ | .widthChange _ _
  | .laneMap _ _ | .monitor _ _ | .bert _ _ | .loopReq _ _ | .drainNotice _ _ | .reservedCtrlSlot _ _
  | .spareLaserLocked _ | .laneReadyTimeout _ | .probeBurstTimer _ | .probeWordReceived _ _ | .portVerified _ _
  | .lossOfLight _ | .spmMonitorTimer _ | .spmHoldOffExpiry _ | .portDrainComplete _ | .portDrainDeadline _
  | .portAdminDisable _ | .portAdminEnable _ | .portAdminCircuit _ | .portRoleWrite _ _ | .safetyModeWrite _
  | .chipNumberWrite _ | .chipAssignedWrite _ | .domainShapeWrite _ _ | .tnreadyChange | .portFreshnessExpiry _
  | .routerSlot | .cellPut _ | .cellSignal _ | .cellAtomicAdd _ | .cellAck _ | .cellAckFin _ | .cellNack _
  | .cellCollData _ | .cellMcast _ | .cellTime _ _ _ | .cellProbe _ | .cellReservedType _ | .ackTimeExpiry _ _
  | .retxTimeout _ _ | .backoffExpiry _ _ | .streamIdleExpiry _ | .timebaseExchangeTimer | .timebaseHoldover
  | .tbMasterWrite _ | .destRelease _ | .probeTarget _ | .probeReplyTimeout | .gnNodeWrite _
  | .creditReturnTimer _ _ | .bulkAging _ | .gnPacketsReturned _ | .writeFlaggedRelease _ | .windowEntryCommit _ _
  | .deadTimeExpiry _ | .targetRelease _ | .sqDoorbell _ _ | .cqDoorbell _ _ | .ctrlEnable _ | .ctrlDisable _
  | .queueConfigWrite _ _ _ | .commandFetch _ | .cmdNop _ | .cmdKernel _ | .cmdCopy _ | .cmdFill _ | .cmdPut _
  | .cmdSignal _ | .cmdWait _ | .cmdFence _ | .cmdCollective _ | .cmdUpdate _ | .cmdMarker _ | .cmdReservedOpcode _
  | .commandComplete _ _ | .waitLimitExpiry _ | .queuePrioAging _ | .queueDrainDeadline _ | .jobEnd _
  | .jobSanitiseStart | .jobSanitiseDone | .counterAdd _ _ _ | .waitRegister _ _ _ | .pollIntervalExpiry _ _
  | .barrierBind _ _ | .barrierUnbind _ _ | .barrierDescWrite _ _ _ | .arrivalResendTimer _
  | .counterPageWrite _ _ _ _ | .commBind _ _ | .commUnbind _ _ | .collStart _ | .collGrant _ | .collAbort _
  | .collComplete _ _ | .mismatchGatherExpiry _ _ | .collWatchdogExpiry _ _ | .collMemberFailed _
  | .collDrainDeadline _ | .earlyStoreDiscard _ | .channelAccessTimeout _ | .interleaveEntryCommit _ _
  | .keepRelease _ | .mapoutRequest _ | .mapoutStart _ | .mapoutComplete | .shrinkAck _ | .shrinkGraceExpiry
  | .marginPeriodTimer _ | .marginNow _ | .hbmRefresh _ | .ctrlLoad _ _ _ _ _ _ | .ctrlStore _ _ _ _ _ _
  | .ctrlAmo _ _ _ _ _ _ | .ctrlLrSc _ _ _ _ _ _ | .fence _ | .fenceI _ | .ecallEbreak _ _ | .csrWrite _ _ _ _ _
  | .rv64Instruction _ _ | .xsigl _ _ _ _ | .xwaitl _ _ _ _ | .xrdl _ _ _ _ | .xsigc _ _ _ _ | .xwaitc _ _ _ _
  | .xqwait _ _ _ _ | .xwaitu _ _ _ _ | .xend _ _ _ _ | .xdcopy _ _ _ _ | .xdcopy2 _ _ _ _ | .xdfill _ _ _ _
  | .xamofaddW _ _ _ _ | .xaldw _ _ _ _ | .xamm _ _ _ _ | .xadrain _ _ _ _ | .xaclr _ _ _ _ | .vcopy _ _ _ _ _
  | .vadd _ _ _ _ _ | .vsub _ _ _ _ _ | .vmul _ _ _ _ _ | .vfma _ _ _ _ _ | .vmin _ _ _ _ _ | .vmax _ _ _ _ _
  | .vabs _ _ _ _ _ | .vneg _ _ _ _ _ | .vand _ _ _ _ _ | .vor _ _ _ _ _ | .vxor _ _ _ _ _ | .vshl _ _ _ _ _
  | .vshr _ _ _ _ _ | .vcmpeq _ _ _ _ _ | .vcmplt _ _ _ _ _ | .vcmple _ _ _ _ _ | .vsel _ _ _ _ _ | .vcvt _ _ _ _ _
  | .vexp _ _ _ _ _ | .vlog _ _ _ _ _ | .vrcp _ _ _ _ _ | .vrsqrt _ _ _ _ _ | .vsqrt _ _ _ _ _ | .vsin _ _ _ _ _
  | .vcos _ _ _ _ _ | .vtanh _ _ _ _ _ | .vsigmoid _ _ _ _ _ | .vrsum _ _ _ _ _ | .vrmax _ _ _ _ _
  | .vrmin _ _ _ _ _ | .vaccsr _ _ _ _ _ | .vgather _ _ _ _ _ | .vscatter _ _ _ _ _ | .arrayInstrStart _
  | .vectorInstrStart _ | .dmaInstrStart _ | .unitInstrComplete _ _ _ _ | .kernelTimeLimitExpiry _
  | .coreDrainDeadline _ | .coreAdminOffline _ | .coreAdminOnline _ | .coreSelfTestDone _ _ | .nvRun _
  | .detModeWrite _ | .srSeedWrite _ | .updateLayerStart _ | .updateLayerEnd _ | .updateDrainDeadline
  | .engineAdminWrite _ _ | .dtlsHandshake _ | .sessionIdleTimeout _ | .subscribe _ _ _ _ | .eventAck _ _ _
  | .memRead _ _ _ _ | .imageBegin _ _ _ _ | .imageEnd _ _ | .imageAbort _ _ | .imageIdleTimeout | .eulenReset _ _
  | .badMessage _ _ _ | .activationUnitDone _ _ | .activationTimeout _ | .eventResendTimer _ _ | .snapshotExpiry _
  | .configDone _ | .configWindowExpiry | .jobReady | .ownerRelease _ | .debugRequest _ | .recoveryRequest _
  | .healthEvaluation | .suspectSet _ | .quarantine | .drainChip | .drainQueue _ | .drainCore _ | .drainPort _
  | .drainSlot _ | .shadow _ _ _ _ _ | .source _ _ _ _ _ | .stop | .promote | .drainDone | .mirrorRecordWrite _ _
  | .shadowCommandComplete _ _ | .suspectScoreClearTimer | .receiveRingsLocked _ | .loopbackDurationExpiry _
  | .engineSelfTestDone _ _ | .alertNRelease | .mgmtLinkUp | .lightReturn _ => true

end Sys2Proof
end

