-- ==== Sys2Proof/Certificates/Slice0/Obligations.lean ====
section
/-! DEFINITION. The statements for the provers. -/

open Sys2Proof
open Sys2Proof.Machine


/-! ### The block -/

/-- A step takes the command at the front of the queue and runs it on the block with the queue's rest; with none waiting, a
nanosecond passes (the model's choice, log 7). -/
def Obligations.Step_runs_the_front_command : Prop :=
  (∀ (c : Instr) (rest : List Instr) (s : State), s.pending = c :: rest → step s = exec c { s with pending := rest }) ∧
  (∀ s : State, s.pending = [] → step s = .next { s with toChip := s.toChip.nanosecond })

/-- Every command answers a next state in every state. Commands come out first in first out: whatever a step answers, the queue has
lost its front command and nothing else. -/
def Obligations.Every_command_answers_a_next_state : Prop :=
  (∀ (c : Instr) (s : State), ∃ t, exec c s = .next t) ∧
  (∀ s t : State, step s = .next t → t.pending = s.pending.tail)

/-- The state right after power-on: no command waits, memory lists nothing, the pins and the management of the spec, and no shutdown
is latched. -/
def Obligations.Reset_state : Prop :=
  State.reset.pending = [] ∧ State.reset.canonical ∧ State.reset.pins.vaon = true ∧ State.reset.pins.resetLow = true ∧
  State.reset.power.shutdown = none ∧ State.reset.job.state = 0 ∧ State.reset.mgmt.sessions = [] ∧ State.reset.log.seq = 0 ∧
  State.reset.service.state = .serving ∧ State.reset.timebase = 0 ∧ State.reset.inReset

/-- What is held in reset stays there, whatever commands come, until RESET_N_RELEASE (R455, R472). -/
def Obligations.Held_in_reset_is_kept : Prop :=
  ∀ s t : State, s.inReset → step s = .next t → t.inReset

/-- A latched package shutdown stays latched, whatever commands come, until VAON is lost or RE_ARM is written (R427, R429, R503). -/
def Obligations.Latched_shutdown_is_kept : Prop :=
  ∀ s t : State, s.heldOff → step s = .next t → t.heldOff

/-- While a shutdown is latched, or before the firmware runs, the dies do nothing: a doorbell, a cell, a packet, an instruction and
an access to memory leave the whole state as it was. -/
def Obligations.Dies_without_power_do_nothing : Prop :=
  ∀ s : State, s.live = false →
    (∀ q v, exec (.sqDoorbell q v) s = .next s) ∧ (∀ c, exec (.cellPut c) s = .next s) ∧
    (∀ p k, exec (.gnWrite p k) s = .next s) ∧ (∀ c d, exec (.rv64Instruction c d) s = .next s) ∧
    (∀ a, exec (.hbmAccess a) s = .next s) ∧ (∀ q, exec (.cmdKernel q) s = .next s) ∧ (∀ b, exec (.jobEnd b) s = .next s)

/-! ### Package, power and temperature -/

/-- RESET_N: a pulse of 10 µs or more resets every die and keeps only what fuses, MRAM and the pins hold; while a shutdown is
latched it changes the pin alone. RESET_N_RELEASE: with TEST_EN high the package stays in reset; otherwise a boot begins, in the
recovery loader where it was asked for, and counts. The end of a boot: the management link brings Configure, CONFIG_DONE or its
window ends it, and job-ready comes once nothing is left to wait for (R453–R456). Whether a pulse between 1 and 10 µs resets is
open (log 15). -/
def Obligations.Reset_and_boot : Prop :=
  (∀ (s : State) (w : Nat), s.pins.vaon = true → 10000 ≤ w → s.power.shutdown = none → s.gives (.resetNAssert w) fun c =>
    c.pins.resetLow = true ∧ c.awake = false ∧ c.mem = [] ∧ c.queues = [] ∧ c.cores = [] ∧ c.tn = Tn.reset ∧ c.sync = Sync.reset ∧
    c.coll = Coll.reset ∧ c.cellar = Cellar.reset ∧ c.links = [] ∧ c.ports = [] ∧ c.engines = [] ∧ c.log = EventLog.reset ∧
    c.mgmt.sessions = [] ∧ c.part = s.part ∧ c.now = s.now ∧ c.gn.members = s.gn.members ∧ c.hbm.v = s.hbm.v ∧
    c.mgmt.claimed = s.mgmt.claimed ∧ c.mgmt.ownerRoot = s.mgmt.ownerRoot ∧ c.mgmt.components = s.mgmt.components ∧
    c.mgmt.bootCount = s.mgmt.bootCount ∧ c.service.quarantined = s.service.quarantined ∧ c.power.ring = s.power.ring ∧
    (∀ k, persistentKey k = true → (∀ p, k ≠ O.portAdmin + 256 * p) → c.obj k = s.obj k)) ∧
  (∀ (s : State) (w : Nat), s.pins.vaon = true → 10000 ≤ w → s.power.shutdown.isSome = true → s.gives (.resetNAssert w) fun c =>
    c = { s.toChip with pins := { s.pins with resetLow := true } }) ∧
  (∀ (s : State) (w : Nat), (s.pins.vaon = false ∨ w < 1000) → s.gives (.resetNAssert w) fun c => c = s.toChip) ∧
  (∀ (s : State) (w : Nat), 1000 ≤ w → w < 10000 → s.gives (.resetNAssert w) fun c =>
    c = s.toChip ∨ exec (.resetNAssert 10000) s = .next { s with toChip := c }) ∧
  (∀ (s : State) (e u : Bool), s.pins.vaon = true → s.pins.resetLow = true →
    (e = true ∨ s.pins.shutdownHigh = false ∨ s.power.shutdown.isSome = true) → s.gives (.resetNRelease e u) fun c =>
    c = { s.toChip with pins := { s.pins with resetLow := false, testEn := e } }) ∧
  (∀ (s : State) (e u : Bool), (s.pins.vaon = false ∨ s.pins.resetLow = false) →
    s.gives (.resetNRelease e u) fun c => c = s.toChip) ∧
  (∀ (s : State) (u : Bool), s.pins.vaon = true → s.pins.resetLow = true → s.pins.shutdownHigh = true → s.power.shutdown = none →
    s.mgmt.slotOk 1 = true → (u = true ∨ s.mgmt.recoveryRequest = true) → s.gives (.resetNRelease false u) fun c =>
    c = { s.toChip with
      pins := { s.pins with resetLow := false, testEn := false }
      mgmt := { s.mgmt with
        bootOrigin := s.aon, bootCount := s.mgmt.bootCount + 1, recoveryRequest := false, loader := true, loaderRan := true } }) ∧
  (∀ (s : State) (u : Bool), s.pins.vaon = true → s.pins.resetLow = true → s.pins.shutdownHigh = true → s.power.shutdown = none →
    s.mgmt.slotOk 1 = false → s.gives (.resetNRelease false u) fun c =>
    c.mgmt.loader = true ∧ c.mgmt.loaderRan = true ∧ (c.mgmt.component 1).state = .invalid ∧
    c.mgmt.bootCount = s.mgmt.bootCount + 1 ∧ c.awake = s.awake ∧ c.pins.resetLow = false ∧ c.log.seq = s.log.seq + 1 ∧
    (Tab.get LogEntry.zero c.log.ring s.log.next).code = 0xCD01 ∧ c.mem = s.mem) ∧
  (∀ s : State, s.pins.vaon = true → s.pins.resetLow = true → s.pins.shutdownHigh = true → s.power.shutdown = none →
    s.mgmt.slotOk 1 = true → s.mgmt.recoveryRequest = false → s.hbm.cache = [] → s.gives (.resetNRelease false false) fun c =>
    c.awake = true ∧ c.pins.resetLow = false ∧ c.mgmt.bootCount = s.mgmt.bootCount + 1 ∧ c.job.state = 3 ∧ c.mem = s.mem) ∧
  (∀ s : State, s.awake = true → s.mgmt.linkUp = false → s.gives .mgmtLinkUp fun c =>
    c = { s.toChip with mgmt := { s.mgmt with
      linkUp := true, configOpen := true, configSince := s.aon, stage := max 3 s.mgmt.stage } }) ∧
  (∀ s : State, s.awake = true → s.mgmt.configOpen = true → s.obj O.safetyMode = 0 → s.gives (.configDone true) fun c =>
    c = { s.toChip with mgmt := { s.mgmt with configOpen := false, configEnded := true } }) ∧
  (∀ s : State, s.awake = true → s.mgmt.configOpen = true → s.mgmt.configSince + 1000000 * s.obj O.configWindow ≤ s.aon →
    s.obj O.safetyMode = 1 → s.objb O.enclosedDecl = false → s.gives .configWindowExpiry fun c =>
    c.mgmt.configOpen = false ∧ c.mgmt.configEnded = true ∧ c.obj O.safetyMode = 0 ∧ c.log.seq = s.log.seq + 1 ∧
    c.ports = s.ports) ∧
  (∀ s : State, s.live = true → s.mayBeReady = true → s.gives .jobReady fun c =>
    c.job.state = 0 ∧ c.mgmt.stage = 6 ∧ c.obj O.bootTime = (s.aon - s.mgmt.bootOrigin) / 1000000 ∧
    c.log.seq = s.log.seq + 1 ∧ c.mem = s.mem ∧ c.queues = s.queues)

/-- VAON, SHUTDOWN_N and ALERT_N (R502, R503, R506). A package shutdown latches its cause, closes SHUTDOWN_N, leaves one record more
in the ring and takes every die's state with it; the log and the objects stay (R427, R428). SHUTDOWN_NOW, ten bad samples of a rail,
10 ms above POWER_PEAK at F7, the loss of REFCLK and that of both masters lead to one. RE_ARM ends a package shutdown once every
sensor is cool enough, and is refused while one is not (R429). -/
def Obligations.Supply_and_shutdown : Prop :=
  (∀ s : State, s.pins.vaon = false → s.gives .vaonUp fun c =>
    c = { s.toChip with pins := { s.pins with vaon := true, vaonSince := s.now, shutdownHigh := false } }) ∧
  (∀ s : State, s.pins.vaon = true → s.pins.vaonSince + 5000000 ≤ s.now → s.power.shutdown = none →
    s.gives .shutdownNReleaseTimer fun c => c = { s.toChip with pins := { s.pins with shutdownHigh := true } }) ∧
  (∀ s : State, s.pins.vaon = true → s.gives .vaonLoss fun c =>
    c.pins.vaon = false ∧ c.pins.shutdownHigh = false ∧ c.pins.alertLow = false ∧ c.awake = false ∧ c.power.shutdown = none ∧
    c.power.master = 0 ∧ c.mgmt.coldBoot = true ∧ c.mem = [] ∧ c.power.ring = s.power.ring ∧ c.mgmt.claimed = s.mgmt.claimed) ∧
  (∀ s : State, s.pins.alertSince + 10000000 ≤ s.now → s.power.shutdown = none → s.gives .alertNRelease fun c =>
    c = { s.toChip with pins := { s.pins with alertLow := false } }) ∧
  (∀ s : State, s.live = true → s.gives (.shutdownNow true) fun c =>
    c.power.shutdown = some 7 ∧ c.pins.shutdownHigh = false ∧ c.power.recSeq = s.power.recSeq + 1 ∧
    c.power.ringNext = (s.power.ringNext + 1) % 256 ∧ c.mem = [] ∧ c.queues = [] ∧ c.cores = [] ∧ c.objs = s.objs ∧
    c.log.seq = s.log.seq + 1 ∧ c.mgmt.stage = s.mgmt.stage) ∧
  (∀ (s : State) (r : Fin 27), s.live = true → ((s.sensor (railVolt r.val)).samples.take 10).length = 10 →
    (((s.sensor (railVolt r.val)).samples.take 10).all fun v =>
      decide (v < (railRange r.val).1) || decide (v > (railRange r.val).2)) = true →
    s.gives (.railOutOfRangeTimeout r) fun c => c.power.shutdown = some 4 ∧ c.pins.shutdownHigh = false ∧ c.mem = []) ∧
  (∀ s : State, s.live = true → (s.power.samples.take 1000).length = 1000 →
    ((s.power.samples.take 1000).all fun p => decide (p > (s.obj O.powerPeak : Rat))) = true →
    ((List.range 8).all fun i => (s.site i).step == 7) = true → s.gives .powerExcursionShutdown fun c =>
    c.power.shutdown = some 2 ∧ c.pins.shutdownHigh = false ∧ c.mem = []) ∧
  (∀ s : State, s.live = true → s.power.aonRc = false → s.gives .refclkLoss fun c =>
    c.power.shutdown = some 5 ∧ c.number O.aonSource 0 = 1 ∧ c.awake = true ∧ c.mem = [] ∧ c.power.recSeq = s.power.recSeq + 1 ∧
    (Tab.get LogEntry.zero c.log.ring s.log.next).code = 0x4C06 ∧
    (Tab.get LogEntry.zero c.log.ring ((s.log.next + 1) % 65536)).code = 0xCC02) ∧
  (∀ s : State, s.live = true → s.gives (.ditchriderUnitLoss .bothMasters) fun c =>
    c.power.shutdown = some 6 ∧ c.power.recSeq = s.power.recSeq ∧ c.mem = []) ∧
  (∀ s : State, s.live = true → s.power.master = 0 → s.power.standbyOk = true → s.gives (.ditchriderUnitLoss .standby) fun c =>
    c.power.standbyOk = false ∧ c.power.shutdown = s.power.shutdown ∧ c.log.seq = s.log.seq + 1 ∧ c.mem = s.mem) ∧
  (∀ (s : State) (i : Fin 8), s.live = true → i ≠ 0 → i ≠ 7 → s.gives (.ditchriderUnitLoss (.worker i)) fun c =>
    c.power.shutdown = some 6 ∧ c.pins.shutdownHigh = false ∧ c.power.recSeq = s.power.recSeq + 1 ∧ c.mem = []) ∧
  (∀ s : State, s.awake = true → s.power.shutdown.isSome = true → s.coolEnough = true → s.pins.resetLow = true →
    s.gives (.reArm true) fun c =>
    c.power.shutdown = none ∧ c.pins.shutdownHigh = true ∧ c.mgmt.coldBoot = true ∧ c.awake = false ∧ c.mem = []) ∧
  (∀ s : State, s.coolEnough = false → s.gives (.reArm true) fun c => c = s.toChip)

/-- A regulator phase fails: the first of a domain is an info event, and nothing else of the chip changes but the phases left; a
domain with fewer than half its phases shuts the package down (R21, R417). The weir's frequency steps: an interval slows a site by
one step for each cause that holds, one step up begins with the voltage and ends with the frequency, and SITE_TOP_STEP refuses what
is faster than the part (R415, R416, R425, R437). A sample of input power enters the last second; a sample above POWER_PEAK
stretches the sites' clocks; with no rule acting the power timer changes nothing (R418, R419). -/
def Obligations.Power_limits : Prop :=
  (∀ (s : State) (i : Fin 8) (d : Fin 4), s.live = true → nth 0 (s.site i.val).phases d.val = 0 →
    (s.site i.val).demands = [] → s.gives (.regulatorPhaseFail i d) fun c =>
    c = (s.toChip.setSite i.val fun x => { x with phases := setAt x.phases d.val 1 }).raise 0x0106 [.u8 i.val, .u8 d.val]) ∧
  (∀ (s : State) (i : Fin 8) (d : Fin 4), s.live = true → 0 < nth 0 (s.site i.val).phases d.val →
    nth 0 (s.site i.val).phases d.val < phasesOf d.val →
    2 * (phasesOf d.val - (nth 0 (s.site i.val).phases d.val + 1)) < phasesNeeded d.val →
    s.gives (.regulatorPhaseFail i d) fun c => c.power.shutdown = some 3 ∧ c.mem = []) ∧
  (∀ (s : State) (i : Fin 8), s.live = true → (s.site i.val).rising = true → (s.site i.val).episode = false →
    s.gives (.frequencyStepDone i) fun c =>
    c = s.toChip.setSite i.val fun x => { x with step := x.vstep, rising := false, stretch := 1 }) ∧
  (∀ (s : State) (i : Fin 8), s.live = true → (s.site i.val).rising = false → s.gives (.frequencyStepDone i) fun c =>
    c = s.toChip.setSite i.val fun x => { x with vstep := x.step, stretch := 1 }) ∧
  (∀ (s : State) (i : Fin 8) (f : Nat), s.live = true → f ≤ 6 → s.topStep i.val ≤ f → (s.site i.val).step = f →
    (s.site i.val).demands = [⟨causeThreshold, f, true⟩] → s.gives (.weirStepDownInterval i) fun c =>
    (c.site i.val).step = f + 1 ∧ (c.site i.val).demands = [⟨causeThreshold, f + 1, true⟩] ∧
    (c.site i.val).rising = false ∧ c.mem = s.mem ∧ c.log = s.log) ∧
  (∀ (s : State) (i : Fin 8), s.live = true → (s.site i.val).demands = [] → (s.site i.val).rising = false →
    s.topStep i.val < (s.site i.val).step → s.gives (.weirStepUpInterval i) fun c =>
    (c.site i.val).vstep = (s.site i.val).step - 1 ∧ (c.site i.val).rising = true ∧ (c.site i.val).step = (s.site i.val).step ∧
    c.log = s.log) ∧
  (∀ (s : State) (i : Fin 8) (v : Byte), s.live = true → v.toNat < s.part.topStep ∨ 7 < v.toNat →
    s.gives (.siteTopStepWrite i v) fun c => c = s.toChip) ∧
  (∀ (s : State) (i : Fin 8) (v : Byte), s.live = true → s.part.topStep ≤ v.toNat → v.toNat ≤ 7 →
    (s.site i.val).demands = [] → (s.site i.val).step < v.toNat → s.gives (.siteTopStepWrite i v) fun c =>
    c.obj (O.siteTopStep + 256 * i.val) = v.toNat ∧ (c.site i.val).step = v.toNat) ∧
  (∀ s : State, s.live = true → s.inputPower ≤ (s.obj O.powerPeak : Rat) → s.power.peakActing = false →
    s.power.excursionActing = false → s.power.averageActing = false →
    (({ s.toChip with power := { s.power with samples := (s.inputPower :: s.power.samples).take 100000 } } : Chip).excursion = false) →
    s.inputPower ≤ (s.obj O.powerLimit : Rat) → s.gives .powerSample fun c =>
    c.power.samples = (s.inputPower :: s.power.samples).take 100000 ∧ c.power.peakActing = false ∧
    c.power.excursionActing = false ∧ c.power.averageActing = false ∧ c.log = s.log ∧ c.mem = s.mem) ∧
  (∀ (s : State) (i : Nat), s.live = true → s.power.excursionActing = true → s.hungriest = some i →
    (s.site i).episode = true → (s.site i).demands = [] → s.topStep i ≤ (s.site i).step → (s.site i).step ≤ 6 →
    s.gives .powerStepTimer fun c =>
    (c.site i).step = (s.site i).step + 1 ∧ (c.site i).demands = [⟨causePower, (s.site i).step + 1, true⟩] ∧ c.log = s.log)

/-- A sensor frame: every sensor that takes part takes its sample, the others stay, and what the engines and dies sent is used up
(R413, R423). Levels of a temperature group keep their order, and shutdown its default as an upper bound; a write that breaks
this, or that is no number, is refused (R421). -/
def Obligations.Temperatures : Prop :=
  (∀ (s : State) (f : SensorFrame), s.awake = true → (s.frameSensors f).Nodup → s.gives (.sensorFrame f) fun c =>
    c.power.telemetry = [] ∧ c.now = s.now ∧ c.part = s.part ∧ (∀ n, n ∉ s.frameSensors f → c.sensor n = s.sensor n) ∧
    (∀ n g, n ∈ s.frameSensors f → groupOf n = some g → c.sensor n =
      (s.sensor n).take n (s.groupRat O.rateLimit g) (s.obju O.rateWindow g) (s.peers f n) (s.sampleOf f n)) ∧
    (∀ n, n ∈ s.frameSensors f → groupOf n = none → c.sensor n = (s.sensor n).take n 0 0 (s.peers f n) (s.sampleOf f n))) ∧
  (∀ (s : State) (g : Fin 61) (x : Word32) (v : Rat), s.awake = true → f32ToRat x.toNat = some v →
    v < s.groupRat O.thermThrottle g.val → s.groupRat O.thermThrottle g.val < s.groupRat O.thermShutdown g.val →
    s.gives (.thermalLevelWrite g .warning x) fun c => c = s.toChip.setObj (O.thermWarn + 256 * g.val) x.toNat) ∧
  (∀ (s : State) (g : Fin 61) (x : Word32) (v : Rat), s.awake = true → f32ToRat x.toNat = some v →
    s.groupRat O.thermWarn g.val < v → v < s.groupRat O.thermShutdown g.val →
    s.gives (.thermalLevelWrite g .throttle x) fun c => c = s.toChip.setObj (O.thermThrottle + 256 * g.val) x.toNat) ∧
  (∀ (s : State) (g : Fin 61) (x : Word32) (v w : Rat), s.awake = true → f32ToRat x.toNat = some v →
    f32ToRat (objDefault s.part (O.thermShutdown + 256 * g.val)) = some w → v ≤ w →
    s.groupRat O.thermWarn g.val < s.groupRat O.thermThrottle g.val → s.groupRat O.thermThrottle g.val < v →
    s.gives (.thermalLevelWrite g .shutdown x) fun c => c = s.toChip.setObj (O.thermShutdown + 256 * g.val) x.toNat) ∧
  (∀ (s : State) (g : Fin 61) (k : ThermLevel) (x : Word32) (v : Rat), s.awake = true → f32ToRat x.toNat = some v →
    (k = .warning ∧ ¬ v < s.groupRat O.thermThrottle g.val ∨
     k = .throttle ∧ (¬ s.groupRat O.thermWarn g.val < v ∨ ¬ v < s.groupRat O.thermShutdown g.val) ∨
     k = .shutdown ∧ ¬ s.groupRat O.thermThrottle g.val < v ∨
     k = .shutdown ∧ (∃ w, f32ToRat (objDefault s.part (O.thermShutdown + 256 * g.val)) = some w ∧ w < v)) →
    s.gives (.thermalLevelWrite g k x) fun c => c = s.toChip) ∧
  (∀ (s : State) (g : Fin 61) (k : ThermLevel) (x : Word32), s.awake = true → f32ToRat x.toNat = none →
    s.gives (.thermalLevelWrite g k x) fun c => c = s.toChip)

/-- The Ditchrider's heartbeat, takeover and compensation (R410, R411, R430). Fallow: a unit that may enter it does, and its entry
counts; waking it takes it out again and changes nothing else; memory of a site in Fallow refreshes itself (R431–R433). -/
def Obligations.Ditchrider_and_fallow : Prop :=
  (∀ s : State, s.awake = true → (s.site s.power.master).unitPresent = true → s.gives .ditchriderHeartbeat fun c =>
    c = s.toChip.emit .heartbeat) ∧
  (∀ s : State, s.awake = true → s.power.master = 0 → s.power.standbyOk = true → s.gives .standbyTakeover fun c =>
    c.power.master = 7 ∧ c.power.standbyOk = false ∧ c.mgmt.sessions = [] ∧ c.log.seq = s.log.seq + 1 ∧ c.mem = s.mem ∧ c.queues = s.queues) ∧
  (∀ (s : State) (i : Fin 8) (t : Rat), s.awake = true → s.hottest (baseSensors i.val) = some t →
    s.gives (.compensationTick i) fun c => c = s.toChip.setSite i.val fun x => { x with
      trims := (List.range 4).map fun k => interpolate (Config.trimPoint i.val k) t }) ∧
  (∀ (s : State) (i : Fin 8), s.live = true → s.objb O.fallowEnable = true → (s.site i.val).cpFallow = false → s.cpIdle i.val = true →
    s.gives (.fallowEntry (.commandProcessor i)) fun c =>
    c = (s.toChip.setSite i.val fun x => { x with cpFallow := true }).bump (O.fallowEntries + 256 * i.val) 1) ∧
  (∀ (s : State) (k : Fin 256), s.live = true → s.objb O.fallowEnable = true → (s.core k.val).fallow = false →
    (s.core k.val).onlyWaits = true → s.gives (.fallowEntry (.core k)) fun c =>
    c = (s.toChip.setCore k.val fun x => { x with fallow := true }).bump (O.fallowEntries + 256 * (k.val / 32)) 1) ∧
  (∀ (s : State) (i : Fin 8), s.live = true → s.gives (.fallowWake (.commandProcessor i)) fun c =>
    c = s.toChip.setSite i.val fun x => { x with cpFallow := false }) ∧
  (∀ (s : State) (t : Fin 34), s.live = true → t.val < 32 → s.siteFallow (t.val / 4) = true →
    s.gives (.hbmSelfRefreshEntry t) fun c =>
    (Tab.get Stack.reset c.hbm.hbmStacks t.val).selfRefresh = true ∧ c.mem = s.mem ∧ c.power = s.power)

/-! ### Die-to-die links -/

/-- Bring-up: the adapter's Active sends the descriptor, two descriptors that settle send SETTLE, an equal SETTLE agrees, and
the settled link carries traffic; a link that carried traffic and is lost is Down (R36–R40). Bring-up that fails: the third
attempt in vain leaves the link Failed with event 0x8104, a peer in reset is given 100 ms, and a descriptor from the wrong place
leaves it Quarantined with event 0x8103 (R36, R39). Modules and lanes: a failed module starts a swap while a spare is left and
the peer can spare live; the peer's request is acknowledged; the trained spare switches 64 flits on; at that flit the spare is
in use and event 0x0101 reports it; a lane above LANE_RETRY_LIMIT is due (R42, R43). When Training begins, the unit number that
settlement assigns, quarantine before failure, and credits that come back with the message are the model's choice (log 139, log
140, log 138, log 141). -/
def Obligations.Links : Prop :=
  (∀ (s : State) (l : Fin 34) (m : Nat) (r : Byte), s.live = true →
    ((s.link l.val).state = .down ∨ (s.link l.val).state = .training) → (s.link l.val).agreed = false →
    1 ≤ m → m ≤ (Link.modulesOf l.val).1 → r.toNat ≤ 5 → s.gives (.gdpAdapterActive l m r) fun c =>
    (c.link l.val).state = .exchange ∧ (c.link l.val).trainedModules = m ∧ (c.link l.val).trainedRate = r ∧
    c.out = .linkCtrl l.val (.descriptor (s.localDesc l.val)) :: s.out ∧
    (∀ j, j ≠ l.val → c.link j = s.link j) ∧ c = { s.toChip with links := c.links, out := c.out }) ∧
  (∀ (s : State) (l : Fin 34) (d : List Byte) (v : Settle), s.live = true → (s.link l.val).state = .exchange →
    descValid (fit 256 d) = true → settlement l.val (s.localDesc l.val) (fit 256 d) = .settled v →
    s.gives (.gdpDescriptorReceived l d) fun c =>
    c.link l.val = { s.link l.val with
      peerDesc := fit 256 d, settled := some v, agreed := false, unit := s.newUnit l.val (fit 256 d) } ∧
    c.out = .linkCtrl l.val (.settle v) :: s.out ∧
    (∀ j, j ≠ l.val → c.link j = s.link j) ∧ c = { s.toChip with links := c.links, out := c.out }) ∧
  (∀ (s : State) (l : Fin 34) (v : Settle), s.live = true → (s.link l.val).state = .exchange →
    (s.link l.val).settled = some v → s.gives (.gdpSettleReceived l v) fun c =>
    c = s.toChip.setLink l.val fun x => { x with
      agreed := true
      state := if x.trainedModules = v.modules.toNat ∧ x.trainedRate = v.rate then .exchange else .training }) ∧
  (∀ (s : State) (l : Fin 34) (v : Settle), s.live = true → (s.link l.val).state = .training →
    (s.link l.val).settled = some v → (s.link l.val).agreed = true → 1 ≤ v.modules.toNat →
    v.modules.toNat ≤ (Link.modulesOf l.val).1 → v.rate.toNat ≤ 5 →
    s.gives (.gdpAdapterActive l v.modules.toNat v.rate) fun c =>
    (c.link l.val).state = .exchange ∧ (c.link l.val).agreed = true ∧ (∀ j, j ≠ l.val → c.link j = s.link j) ∧
    c = { s.toChip with links := c.links }) ∧
  (∀ (s : State) (l : Fin 34) (v : Settle), s.live = true → (s.link l.val).state = .exchange →
    (s.link l.val).settled = some v → (s.link l.val).agreed = true → (s.link l.val).trainedModules = v.modules.toNat →
    (s.link l.val).trainedRate = v.rate → (s.link l.val).waiting = [] → s.gives (.gdpLinkActive l) fun c =>
    (c.link l.val).state = (if v.modules.toNat < (s.link l.val).firstOffer then .degraded else .active) ∧
    (c.link l.val).lanesDue = [] ∧ (c.link l.val).laneRepairs = (s.link l.val).laneRepairs + (s.link l.val).lanesDue.length ∧
    (c.link l.val).modules = v.modules.toNat ∧ (c.link l.val).rate = v.rate ∧
    (c.link l.val).credits = (List.range 4).map (fun k => leNat (slice (s.link l.val).peerDesc (32 + 2 * k) 2)) ∧
    (∀ j, j ≠ l.val → c.link j = s.link j) ∧ c = { s.toChip with links := c.links }) ∧
  (∀ (s : State) (l : Fin 34), s.live = true → (s.link l.val).state = .active → s.gives (.gdpLinkLost l) fun c =>
    (c.link l.val).state = .down ∧ (c.link l.val).modules = 0 ∧ (c.link l.val).rate = 0 ∧ (c.link l.val).peerDesc = [] ∧
    (c.link l.val).settled = none ∧ (∀ j, j ≠ l.val → c.link j = s.link j) ∧ c = { s.toChip with links := c.links }) ∧
  (∀ (s : State) (l : Fin 34), s.live = true → l.val < 10 → (s.link l.val).state = .training → (s.link l.val).attempts = 2 →
    s.gives (.gdpBringupTimeout l false) fun c =>
    (c.link l.val).state = .failed ∧ (c.link l.val).attempts = 3 ∧ c.log.seq = s.log.seq + 1 ∧
    (c.log.ring = Tab.set LogEntry.zero s.log.ring s.log.next
      { seq := s.log.seq + 1, code := 0x8104, count := 1, timebase := s.shownTime, aonTime := BitVec.ofNat 64 s.aon,
        args := [BitVec.ofNat 8 l.val] }) ∧
    (∀ j, j ≠ l.val → c.link j = s.link j) ∧ c.mem = s.mem) ∧
  (∀ (s : State) (l : Fin 34), s.live = true → (s.link l.val).state = .exchange → s.aon < s.mgmt.bootOrigin + 100000000 →
    s.gives (.gdpBringupTimeout l true) fun c =>
    (c.link l.val).state = .training ∧ (c.link l.val).attempts = (s.link l.val).attempts ∧ c.log = s.log) ∧
  (∀ (s : State) (l : Fin 34) (d : List Byte), s.live = true → (s.link l.val).state = .exchange →
    descValid (fit 256 d) = true → descMisplaced l.val (fit 256 d) = true → s.gives (.gdpDescriptorReceived l d) fun c =>
    (c.link l.val).state = .quarantined ∧ c.log.seq = s.log.seq + 1 ∧
    (∀ j, j ≠ l.val → c.link j = s.link j) ∧ c.mem = s.mem) ∧
  (∀ (s : State) (l : Fin 34) (m : Fin 26), s.live = true → (s.link l.val).state = .active →
    m.val < (Link.modulesOf l.val).1 + (Link.modulesOf l.val).2 → (s.link l.val).swap = none → (s.link l.val).feature 7 = true →
    0 < (s.link l.val).sparesLeft → s.gives (.gdpModuleFailure l m) fun c =>
    c = (s.toChip.setLink l.val fun x => { x with state := .sparing, swap := some ⟨m.val, true, false, none⟩ }).emit
      (.linkCtrl l.val (.spareReq m.val))) ∧
  (∀ (s : State) (l : Fin 34) (m : Fin 26), s.live = true → (s.link l.val).state = .active → (s.link l.val).swap = none →
    (s.link l.val).feature 7 = true → 0 < (s.link l.val).sparesLeft → s.gives (.spareReq l m) fun c =>
    c = (s.toChip.setLink l.val fun x => { x with state := .sparing, swap := some ⟨m.val, false, false, none⟩ }).emit
      (.linkCtrl l.val (.spareAck m.val))) ∧
  (∀ (s : State) (l : Fin 34) (n : Nat) (w : Swap), s.live = true → (s.link l.val).swap = some w → w.trained = false →
    w.own = true → s.gives (.gdpSpareTrained l n) fun c =>
    c = (s.toChip.setLink l.val fun x => { x with swap := some { w with trained := true, switchAt := some (n + 64) } }).emit
      (.linkCtrl l.val (.switch (n + 64)))) ∧
  (∀ (s : State) (l : Fin 34) (n : Nat) (w : Swap), s.live = true → (s.link l.val).swap = some w → w.trained = false →
    w.own = false → s.gives (.gdpSpareTrained l n) fun c =>
    c = s.toChip.setLink l.val fun x => { x with swap := some { w with trained := true } }) ∧
  (∀ (s : State) (l : Fin 34) (n : Nat) (w : Swap), s.live = true → (s.link l.val).swap = some w → w.trained = true →
    (w.own = true → w.switchAt = some n) → (s.link l.val).queued = [] → s.gives (.gdpSwitch l n) fun c =>
    c = ((if w.own then s.toChip else s.toChip.emit (.linkCtrl l.val (.switchConfirm n))).setLink l.val fun x => { x with
      swap := none, sparesLeft := x.sparesLeft - 1
      state := if x.modules < x.firstOffer then .degraded else .active }).raise 0x0101 [.u8 l.val, .u8 w.module]) ∧
  (∀ (s : State) (l : Fin 34) (m : Fin 26) (k : Fin 64) (n : Nat), s.live = true → (s.link l.val).state = .active →
    s.obj O.laneRetryLimit < n → (s.link l.val).lanesDue = [] → s.gives (.laneRetryLimitExceeded l m k n) fun c =>
    (c.link l.val).crcRetries = (s.link l.val).crcRetries + BitVec.ofNat 64 n ∧
    (c.link l.val).lanesDue = [(m.val, k.val)] ∧ (∀ j, j ≠ l.val → c.link j = s.link j) ∧
    c = { s.toChip with links := c.links })

/-- A message of the Grethasen Die Protocol whose opcode the settled set has no room for changes no memory and no register: a
request is answered UNSUPPORTED, with event 0x4108 (R28). The requests of the Grethasen Die Protocol: a READ of data memory answers
what the memory holds, a WRITE stores its payload and is acknowledged, an ATOMIC answers the old value, a COUNTER_SIGNAL adds, a
CELL reaches the router, a MGMT message is answered and TELEMETRY keeps its readings for the next frame (R26–R30, R35; where the
payload keeps its operands, and what MGMT answers, is the model's choice, log 49; the debug view's kind of a COUNTER_SIGNAL is the model's choice, log 25). Registers
are read and written at their addresses; a message goes out where the peer's grant has room for it and waits otherwise (R31, log
141). A response completes its request and hands over what was read; a request without one in time completes TIMEOUT: a READ with
ones, poisoned, and a WRITE with event 0x8109; one that a culvert now down has lost goes out again by the path that is left (R33,
R41; the path is the model's choice, log 137). -/
def Obligations.Gdp_messages : Prop :=
  (∀ (s : Chip) (l : Nat) (m : GdpMsg), gdpSlots m ≤ nth 0 (s.link l).credits m.prio.toNat →
    s.gdpSend l m = s.emit (.gdp l m)) ∧
  (∀ (s : Chip) (l : Nat) (m : GdpMsg), nth 0 (s.link l).credits m.prio.toNat < gdpSlots m →
    s.gdpSend l m = s.setLink l fun x => { x with waiting := x.waiting ++ [m] }) ∧
  (∀ (s : State) (l : Fin 34) (m : GdpMsg), s.live = true → (s.link l.val).state = .active → m.op = .atomic →
    (s.link l.val).settled = none → s.gives (.gdpAtomic l m) fun c =>
    c = (s.toChip.gdpSend l.val { m with
      op := .atomicResp, hint := 0, poison := false, src := m.dst, dst := m.src, status := 2, aop := 0, len := 0
      payload := [] }).raiseLimited 0x4108 l.val [.u8 l.val]) ∧
  (∀ (s : State) (l : Fin 34) (m : GdpMsg), s.live = true → (s.link l.val).state = .active → m.op = .cell →
    (s.link l.val).feature 5 = false → s.gives (.gdpCell l m) fun c =>
    c = s.toChip.raiseLimited 0x4108 l.val [.u8 l.val]) ∧
  (∀ (s : State) (l : Fin 34) (m : GdpMsg), s.gdpTakes l.val m → m.op = .read →
    m.len.toNat ≤ 256 → s.rangeData m.addr.toNat m.len.toNat = true → s.cutOff (linkEnd l.val).1 m.addr.toNat = false →
    s.gives (.gdpRead l m) fun c =>
    c = let r := s.toChip.readFrom (linkEnd l.val).1 m.addr.toNat m.len.toNat m.hint
      r.1.gdpSend l.val { m with
        op := .readResp, hint := 0, poison := readPoison r.2, src := m.dst, dst := m.src
        status := if readPoison r.2 then 1 else 0, aop := 0, len := BitVec.ofNat 9 (readData r.2).length
        payload := readData r.2 }) ∧
  (∀ (s : State) (l : Fin 34) (m : GdpMsg), s.gdpTakes l.val m → m.op = .read →
    m.len.toNat ≤ 256 → s.rangeData m.addr.toNat m.len.toNat = true → s.cutOff (linkEnd l.val).1 m.addr.toNat = true →
    s.gives (.gdpRead l m) fun c =>
    c = s.toChip.gdpAnswer l.val m 5 (List.replicate m.len.toNat 0xFF) true) ∧
  (∀ (s : State) (l : Fin 34) (m : GdpMsg) (bs : List Byte), s.gdpTakes l.val m → m.op = .read →
    m.len.toNat ≤ 256 → s.rangeData m.addr.toNat m.len.toNat = false →
    ((s.region m.addr.toNat).isCsr && wordSized m.addr.toNat m.len.toNat || inCounterRange m.addr.toNat) = true →
    s.regBytes m.addr.toNat m.len.toNat = some bs → s.gives (.gdpRead l m) fun c =>
    c = s.toChip.gdpAnswer l.val m 0 bs false) ∧
  (∀ (s : State) (l : Fin 34) (m : GdpMsg), s.gdpTakes l.val m → m.op = .read →
    (256 < m.len.toNat ∨ s.rangeData m.addr.toNat m.len.toNat = false ∧
      ((s.region m.addr.toNat).isCsr && wordSized m.addr.toNat m.len.toNat || inCounterRange m.addr.toNat) = false) →
    s.gives (.gdpRead l m) fun c => c = s.toChip.gdpAnswer l.val m 4 [] false) ∧
  (∀ (s : State) (l : Fin 34) (m : GdpMsg), s.gdpTakes l.val m → m.op = .write →
    m.len.toNat ≤ 256 → s.rangeData m.addr.toNat m.len.toNat = true → s.cutOff (linkEnd l.val).1 m.addr.toNat = false →
    s.gives (.gdpWrite l m) fun c =>
    c = (s.toChip.writeFrom (linkEnd l.val).1 m.addr.toNat (fit m.len.toNat m.payload) m.poison m.hint).gdpSend l.val { m with
      op := .writeAck, hint := 0, poison := false, src := m.dst, dst := m.src, status := 0, aop := 0, len := 0
      payload := [] }) ∧
  (∀ (s : State) (l : Fin 34) (m : GdpMsg), s.gdpTakes l.val m → m.op = .write →
    m.len.toNat ≤ 256 → s.rangeData m.addr.toNat m.len.toNat = false →
    ((s.region m.addr.toNat).isCsr && wordSized m.addr.toNat m.len.toNat) = true → s.gives (.gdpWrite l m) fun c =>
    c = (s.toChip.regWrite m.addr.toNat m.len.toNat (leNat (fit m.len.toNat m.payload)) (.gdp l.val m.tag)).gdpAnswer l.val m 0 []
      false) ∧
  (∀ (s : State) (l : Fin 34) (m : GdpMsg), s.gdpTakes l.val m → m.op = .write → m.len.toNat ≤ 256 →
    s.rangeData m.addr.toNat m.len.toNat = true → s.cutOff (linkEnd l.val).1 m.addr.toNat = true → s.gives (.gdpWrite l m) fun c =>
    c = (s.toChip.writeFrom (linkEnd l.val).1 m.addr.toNat (fit m.len.toNat m.payload) m.poison m.hint).gdpAnswer l.val m 5 []
      false) ∧
  (∀ (s : State) (l : Fin 34) (m : GdpMsg), s.gdpTakes l.val m → m.op = .write → m.len = 8 →
    s.rangeData m.addr.toNat 8 = false → (s.region m.addr.toNat).isCsr = false → inBarriers m.addr.toNat = true →
    m.addr.toNat % 8 = 0 → s.gives (.gdpWrite l m) fun c =>
    c = (s.toChip.barrierStore m.addr.toNat (BitVec.ofNat 64 (leNat (fit 8 m.payload)))).gdpAnswer l.val m 0 [] false) ∧
  (∀ (s : State) (l : Fin 34) (m : GdpMsg), s.gdpTakes l.val m → m.op = .write → m.len.toNat ≤ 256 →
    s.rangeData m.addr.toNat m.len.toNat = false → (s.region m.addr.toNat).isCsr = false → inCounterRange m.addr.toNat = false →
    inBarriers m.addr.toNat = false → s.gives (.gdpWrite l m) fun c => c = s.toChip.gdpAnswer l.val m 4 [] false) ∧
  (∀ (s : State) (l : Fin 34) (m : GdpMsg) (n : Nat), s.gdpTakes l.val m → m.op = .atomic → n = (if m.aop = 8 then 4 else 8) →
    (m.aop = 8 → s.objb O.detMode = false) → m.addr.toNat % n = 0 → s.rangeData m.addr.toNat n = true →
    s.cutOff (linkEnd l.val).1 m.addr.toNat = false → s.gives (.gdpAtomic l m) fun c =>
    c = let r := s.toChip.memAtomic (linkEnd l.val).1 m.addr.toNat n m.aop.toNat (leNat (slice m.payload 0 n))
          (leNat (slice m.payload n n)) m.poison m.hint
      r.1.gdpAnswer l.val m (if r.2.2 then 1 else 0) (leBytes n r.2.1) r.2.2) ∧
  (∀ (s : State) (l : Fin 34) (m : GdpMsg), s.gdpTakes l.val m → m.op = .atomic → m.aop = 8 → s.objb O.detMode = true →
    s.gives (.gdpAtomic l m) fun c => c = (s.toChip.detRefusal 4).gdpAnswer l.val m 2 [] false) ∧
  (∀ (s : State) (l : Fin 34) (m : GdpMsg), s.gdpTakes l.val m → m.op = .counterSignal → m.poison = false →
    namesCounter m.addr.toNat = true → s.arriveOf (counterOfOffset m.addr.toNat) = none →
    s.doneOf (counterOfOffset m.addr.toNat) = none → s.gives (.gdpCounterSignal l m) fun c =>
    c = s.toChip.plainAdd (counterOfOffset m.addr.toNat) (BitVec.ofNat 64 (leNat (slice m.payload 0 8))) (0, 0, 0)) ∧
  (∀ (s : State) (l : Fin 34) (m : GdpMsg), s.gdpTakes l.val m → m.op = .cell → m.poison = false →
    s.gives (.gdpCell l m) fun c =>
    c = { s.toChip with tn := { s.tn with arrivals := s.tn.arrivals ++ [cellOfBytes m.payload] } }) ∧
  (∀ (s : State) (l : Fin 34) (m : GdpMsg), s.gdpTakes l.val m → m.op = .mgmt → s.gives (.gdpMgmt l m) fun c =>
    c = s.toChip.gdpSend l.val { m with hint := 0, src := m.dst, dst := m.src, status := 0, len := 0, payload := [] }) ∧
  (∀ (s : State) (l : Fin 34) (m : GdpMsg) (rs good : List (Nat × Rat)), s.gdpTakes l.val m → m.op = .telemetry → 10 ≤ l.val →
    good = rs.filter (fun r => if l.val < 14 then cellarSensor ((l.val - 10) / 2) r.1 else engineSensor (l.val - 14) r.1) →
    s.gives (.gdpTelemetry l m rs) fun c => c = { s.toChip with power := { s.power with
      telemetry := (s.power.telemetry.filter fun r => !(good.any (·.1 == r.1))) ++ good } }) ∧
  (∀ (s : State) (l : Fin 34) (m r : GdpMsg), s.live = true → (s.link l.val).state = .active → (s.link l.val).outstanding = [r] →
    r.tag = m.tag → gdpResponseOp r.op = some m.op → r.op ≠ .write → (m.status = 0 ∨ m.status = 1) →
    s.gives (.gdpResponse l m) fun c =>
    c = (s.toChip.setLink l.val fun x => { x with outstanding := [] }).emit
      (.gdpDone l.val r.tag m.status.toNat (if r.op = .read then fit r.len.toNat m.payload else m.payload)
        (m.poison || m.status == 1))) ∧
  (∀ (s : State) (l : Fin 34) (m r : GdpMsg), s.live = true → (s.link l.val).state = .active → (s.link l.val).outstanding = [r] →
    r.tag = m.tag → gdpResponseOp r.op = some m.op → r.op ≠ .write → m.status ≠ 0 → m.status ≠ 1 →
    s.gives (.gdpResponse l m) fun c =>
    c = (s.toChip.setLink l.val fun x => { x with outstanding := [] }).emit
      (.gdpDone l.val r.tag m.status.toNat (if r.op = .read then List.replicate r.len.toNat 0xFF else []) true)) ∧
  (∀ (s : State) (l : Fin 34) (m r : GdpMsg), s.live = true → (s.link l.val).state = .active → (s.link l.val).outstanding = [r] →
    r.tag = m.tag → r.op = .write → m.op = .writeAck → s.gives (.gdpResponse l m) fun c =>
    c = (s.toChip.setLink l.val fun x => { x with outstanding := [] }).emit (.gdpDone l.val r.tag m.status.toNat [] false)) ∧
  (∀ (s : State) (l : Fin 34) (m : GdpMsg), s.live = true → (s.link l.val).outstanding = [] →
    s.gives (.gdpResponse l m) fun c => c = s.toChip) ∧
  (∀ (s : State) (l : Fin 34) (r : GdpMsg), s.live = true → (s.link l.val).state = .active →
    (s.link l.val).outstanding = [r] → r.op = .read → s.gives (.gdpRequestTimeout l r.tag) fun c =>
    c = (s.toChip.setLink l.val fun x => { x with outstanding := [], waiting := x.waiting.erase r }).emit
      (.gdpDone l.val r.tag 5 (List.replicate r.len.toNat 0xFF) true)) ∧
  (∀ (s : State) (l : Fin 34) (r : GdpMsg), s.live = true → (s.link l.val).state = .active →
    (s.link l.val).outstanding = [r] → r.op ≠ .read → r.op ≠ .write → s.gives (.gdpRequestTimeout l r.tag) fun c =>
    c = (s.toChip.setLink l.val fun x => { x with outstanding := [], waiting := x.waiting.erase r }).emit
      (.gdpDone l.val r.tag 5 [] false)) ∧
  (∀ (s : State) (l : Fin 34) (r : GdpMsg), s.live = true → (s.link l.val).state = .active →
    (s.link l.val).outstanding = [r] → r.op = .write → s.gives (.gdpRequestTimeout l r.tag) fun c =>
    c = ((s.toChip.setLink l.val fun x => { x with outstanding := [], waiting := x.waiting.erase r }).raise 0x8109
      [.u8 l.val, .u16 r.tag.toNat]).emit (.gdpDone l.val r.tag 5 [] false)) ∧
  (∀ (s : State) (l : Fin 34) (r : GdpMsg) (k : Nat) (w : List Nat), s.live = true → l.val < 10 →
    (s.link l.val).state = .down → (s.link l.val).outstanding = [r] → r.op = .read →
    s.path (linkEnd l.val).1 (farEnd l.val).1 = some (k :: w) → (s.link k).outstanding = [] →
    s.gives (.gdpRequestTimeout l r.tag) fun c =>
    c = ((s.toChip.setLink l.val fun x => { x with outstanding := [], waiting := x.waiting.erase r }).emit
      (.gdpDone l.val r.tag 5 (List.replicate r.len.toNat 0xFF) true)).gdpRequest k r)

/-! ### Optical ports -/

/-- Engines and their lasers: at power-up the sixteen data lasers lock and an enabled port begins Probing; a sample is judged laser
by laser and port by port; a locked laser at its bias limit is fading with event 0x4201, one 6.0 dB below nominal is failed with
event 0x4205 (R52, R73, R75). Bring-up of a port: a Probing port sends its word, a matching word with SEEN opens the shutter for
Tuning, the receive rings lead to Aligning with superframes numbered from 0, and a verification with at most one discarded
superframe ends Active at full width (R66–R70, R87). A port fails: after three verifications in vain (event 0x8201), and at once
where EXPECTED_PEER names another peer (event 0x8202); its shutter is closed (R66, R69, R70). -/
def Obligations.Engines_and_port_bring_up : Prop :=
  (∀ (s : State) (e : Fin 20), s.live = true → (s.engine e.val).powered = false → s.power.enginesDown.getLsbD e.val = false →
    (∀ k, k < 8 → s.obju O.portAdmin (8 * e.val + k) = 0) → s.gives (.enginePowerUp e) fun c =>
    c = s.toChip.setEngine e.val fun x => { x with
      powered := true, lasers := x.lasers.zipIdx.map fun v => if v.1 = .cold ∧ 1 ≤ v.2 ∧ v.2 ≤ 16 then .locked else v.1 }) ∧
  (∀ (s : State) (e : Fin 20) (v : EngineSample), s.live = true → (s.engine e.val).powered = true →
    s.gives (.engineMonitorSample e v) fun c =>
    c = ((s.toChip.setEngine e.val fun x => { x with sample := v }).each (List.range 18) fun t k => t.judgeLaser e.val k).each
      (List.range 8) fun t k => t.judgePort e.val k) ∧
  (∀ (s : Chip) (e k : Nat), s.laser e k = .locked →
    (∀ p, p ∈ enginePorts e → (s.port p).txMap.contains k = false) →
    let bias := nth 0 (s.engine e).sample.bias k
    let tap := nth 0 (s.engine e).sample.m1 k
    s.judgeLaser e k =
      if tap ≤ Config.tapNominal e k - 600 ∨ Config.biasMax e k ≤ bias then (s.setLaser e k .failed).raise 0x4205 []
      else if Config.biasMax e k * s.obj O.fadeBiasPct ≤ bias * 100 ∨
        (tap : Rat) ≤ Config.tapNominal e k - 100 * s.objRat O.fadeTapDb then
        (s.setLaser e k .fading).raise 0x4201 [.u8 e, .u8 k, .u16 bias, .u16 (toTwos 16 tap)]
      else s) ∧
  (∀ (s : State) (p : Fin 160), s.live = true → (s.port p.val).state = .probing → (s.port p.val).bursts = [] →
    s.gives (.probeBurstTimer p) fun c =>
    c = (s.toChip.setPort p.val fun x => { x with bursts := [s.now], burstEnd := s.now + 20000 }).emit
      (.probe p.val (nth 255 (s.port p.val).txMap 0) 12000 20000 (s.probeWord p.val (s.probedLately p.val)))) ∧
  (∀ (s : State) (p : Fin 160) (w : BitVec 128), s.live = true → (s.port p.val).state = .probing →
    bitsOf w.toNat 127 112 = 0xD3B0 → bitsOf w.toNat 15 0 = crc16 (beBytes 14 (bitsOf w.toNat 127 16)) →
    s.obju O.expectedPeer p.val = 0xFFFFFFFF → bitsOf w.toNat 86 86 = s.obj O.safetyMode → bitOf w.toNat 87 = true →
    s.engineRestarts p.val = false → s.gives (.probeWordReceived p w) fun c =>
    (c.port p.val).state = .tuning ∧ (c.port p.val).shutterOpen = true ∧
    (c.port p.val).peerIdent = BitVec.ofNat 32 (bitsOf w.toNat 111 96 * 65536 + bitsOf w.toNat 95 88 * 256 + (bitOf w.toNat 85).toNat) ∧
    c.log = s.log ∧ c.tn = s.tn ∧ c.mem = s.mem) ∧
  (∀ (s : State) (p : Fin 160), s.live = true → (s.port p.val).state = .tuning → (s.port p.val).retraining = false →
    s.gives (.receiveRingsLocked p) fun c =>
    c = ((s.toChip.setPort p.val fun x => { x with
      state := .aligning, txSeq := 0, rxNext := 0, rxLast := 0xFFFF, replay := [], txPending := [], slotsOut := 0 }).sendAlignment
        p.val).announceMap p.val) ∧
  (∀ (s : State) (p : Fin 160) (n : Nat), s.live = true → (s.port p.val).state = .aligning → n ≤ 1 →
    s.obju O.portAdmin p.val = 1 → s.objb O.circuitAtBoot = false → (s.port p.val).drains = false → (s.port p.val).proc = none →
    s.soundLanes p.val →
    s.gives (.portVerified p n) fun c =>
    (c.port p.val).state = (s.port p.val).upState ∧ (c.port p.val).txWidth = mapWidth (s.port p.val).txMap ∧
    (c.port p.val).rxWidth = mapWidth (s.port p.val).rxMap ∧ (c.port p.val).attempts = 0 ∧ c.mem = s.mem) ∧
  (∀ (s : State) (p : Fin 160) (n : Nat), s.live = true → (s.port p.val).state = .aligning → 2 ≤ n → (s.port p.val).attempts ≤ 1 →
    s.gives (.portVerified p n) fun c =>
    c = s.toChip.setPort p.val fun x => { x with state := .tuning, attempts := x.attempts + 1 }) ∧
  (∀ (s : State) (p : Fin 160) (n : Nat), s.live = true → (s.port p.val).state = .aligning → 2 ≤ n → (s.port p.val).attempts = 2 →
    s.gives (.portVerified p n) fun c => (c.port p.val).state = .failed ∧ (c.port p.val).shutterOpen = false ∧
    (s.isGnPort p.val = false → c.log.seq = s.log.seq + 1) ∧ c.mem = s.mem) ∧
  (∀ (s : State) (p : Fin 160) (w : BitVec 128), s.live = true → (s.port p.val).state = .probing →
    bitsOf w.toNat 127 112 = 0xD3B0 → bitsOf w.toNat 15 0 = crc16 (beBytes 14 (bitsOf w.toNat 127 16)) →
    s.obju O.expectedPeer p.val ≠ 0xFFFFFFFF → bitOf w.toNat 85 = false → s.gives (.probeWordReceived p w) fun c =>
    (c.port p.val).state = .failed ∧ (c.port p.val).shutterOpen = false ∧
    (s.isGnPort p.val = false → c.log.seq = s.log.seq + 1))

/-- Superframes: one whose lanes all match is accepted once and in order; one with failing lanes is discarded whole and asked
for again, and nothing is accepted until REPLAY; a port in loopback sends the words back (R56, R61, R72). Link-control slots:
every slot carries EPOCH, TNREADY and ACK_SEQ, which frees the replay buffer; RETRY sends again from the named superframe,
REPLAY accepts again from it, a tick sends IDLE, a reserved code counts and does nothing else, and after 16 failed replays the
port tunes again with its replay buffer kept (R57–R62). Where a scrambler starts and how a superframe's slots are ordered is the
model's choice (log 145, log 146); cells alone come with a superframe (log 54). -/
def Obligations.Superframes_and_link_control : Prop :=
  (∀ (s : State) (p : Fin 160) (l : List (Nat × LaneFrame)) (b : List (Bool × BitVec 512)), s.readsFrames p.val →
    slotsOfFrames (lanesOf (s.port p.val).rxMap (receiveAll (s.port p.val).receivers l).2) = some b →
    unnumbered false (lanesOf (s.port p.val).rxMap (receiveAll (s.port p.val).receivers l).2) b = false →
    seqCovers (s.port p.val).rxLast (s.port p.val).rxNext = false → s.gives (.superframeReceived p l) fun c =>
    let t := (s.toChip.setPort p.val fun x => { x with receivers := (receiveAll x.receivers l).1 }).setPort p.val fun x => { x with
      rxLast := x.rxNext, rxNext := x.rxNext + 1, aloneFails := none, retryOf := none, failedReplays := 0 }
    (s.isTnPort p.val = false → c = t) ∧
    (∀ n, s.isTnPort p.val = true → (s.port p.val).peerChip = some n → s.objb O.chipAssigned = true → s.cabledTo n = true →
      c = { t with tn := { t.tn with arrivals := t.tn.arrivals ++ (b.filter (·.1)).map fun v => cellOfBits v.2 } })) ∧
  (∀ (s : State) (p : Fin 160) (l : List (Nat × LaneFrame)), s.readsFrames p.val →
    slotsOfFrames (lanesOf (s.port p.val).rxMap (receiveAll (s.port p.val).receivers l).2) = none →
    s.gives (.superframeReceived p l) fun c =>
    (c.port p.val).awaitingReplay = true ∧ (c.port p.val).rxLast = (s.port p.val).rxLast ∧
    (c.port p.val).rxNext = (s.port p.val).rxNext ∧ c.tn = s.tn ∧ c.mem = s.mem ∧ c.log = s.log) ∧
  (∀ (s : State) (p : Fin 160) (l : List (Nat × LaneFrame)), s.live = true → (s.port p.val).looping = true →
    s.gives (.superframeReceived p l) fun c =>
    c = (s.toChip.setPort p.val fun x => { x with receivers := (receiveAll x.receivers l).1 }).transmit p.val (.loop p.val)
      (((mapChannels (s.port p.val).txMap).zip (mapChannels (s.port p.val).rxMap)).filterMap fun k =>
        ((receiveAll (s.port p.val).receivers l).2.find? (·.1 == k.2)).map fun f => (k.1, f.2))) ∧
  (∀ (s : Chip) (p : Nat) (v : CtrlSlot), (s.port p).rxChange = none → s.isGnPort p = false → (s.port p).txPending = [] →
    s.takeSlot p v = { s.setPort p (fun x => { x with
        rxEpoch := v.epoch, peerReady := v.tnready, replay := x.replay.filter fun r => !(seqCovers v.ackSeq r.seq) }) with
      tn := { s.tn with stale := Tab.set false s.tn.stale p false } }) ∧
  (∀ (s : State) (p : Fin 160) (v : CtrlSlot), s.live = true → (s.port p.val).state.linked = true → v.ctrl = 0x00 →
    s.gives (.idle p v) fun c => c = s.toChip.takeSlot p.val v) ∧
  (∀ (s : State) (p : Fin 160) (v : CtrlSlot), s.live = true → (s.port p.val).state.linked = true → v.ctrl = 0x01 →
    seqCovers ((s.toChip.takeSlot p.val v).port p.val).txSeq (BitVec.ofNat 16 (argField v 447 432)) = true →
    s.gives (.retry p v) fun c =>
    c = (s.toChip.takeSlot p.val v).sendReplay p.val (BitVec.ofNat 16 (argField v 447 432))) ∧
  (∀ (s : State) (p : Fin 160) (v : CtrlSlot), s.live = true → (s.port p.val).state.linked = true → v.ctrl = 0x02 →
    s.gives (.replay p v) fun c =>
    let t := s.toChip.takeSlot p.val v
    c = (if (t.port p.val).announced = [] then t else t.adoptRx p.val).setPort p.val fun x => { x with
      rxNext := BitVec.ofNat 16 (argField v 447 432), awaitingReplay := false }) ∧
  (∀ (s : State) (p : Fin 160), s.live = true → (s.port p.val).state.linked = true →
    s.gives (.linkControlTick p) fun c => c = s.toChip.sendCtrl p.val 0 0) ∧
  (∀ (s : State) (p : Fin 160) (v : CtrlSlot), s.live = true → (s.port p.val).state.linked = true → v.ctrl = 0x03 →
    s.isGnPort p.val = false → (s.port p.val).txPending = [] →
    s.gives (.reservedCtrlSlot p v) fun c => c = s.toChip.setPort p.val fun x => { x with
      rxEpoch := v.epoch, linkRetries := x.linkRetries + 1, replay := x.replay.filter fun r => !(seqCovers v.ackSeq r.seq) }) ∧
  (∀ (s : State) (p : Fin 160), s.live = true → (s.port p.val).state = .active →
    (16 ≤ (s.port p.val).failedReplays ∨ 10000 < (s.port p.val).failTimes.length) → s.engineRestarts p.val = false →
    s.gives (.linkRetrain p) fun c =>
    (c.port p.val).state = .tuning ∧ (c.port p.val).retraining = true ∧ c.mem = s.mem ∧
    (s.isGnPort p.val = false → (c.port p.val).replay = (s.port p.val).replay ∧ (∀ q, q ≠ p.val → c.port q = s.port q) ∧
    c = { s.toChip with ports := c.ports }))

/-- A move of a lane to a spare channel: a request begins it, the locked laser leads to LANE_OFFER, LANE_READY to LANE_SWITCH 1,024
superframes on, LANE_SWITCH names the superframe to the receiver, and the acknowledgement confirms the new map (R74–R78, R80).
Widths and maps: LANE_MAP gives the receiver its map; WIDTH_CHANGE announces one for a later superframe, and a port whose peer goes
below MIN_WIDTH fails (R51, R79). -/
def Obligations.Lanes : Prop :=
  (∀ (s : State) (p : Fin 160) (v : CtrlSlot), s.live = true → (s.port p.val).state.linked = true → v.ctrl = 0x14 →
    s.gives (.laneRequest p v) fun c =>
    c = (s.toChip.takeSlot p.val v).needLane p.val (argField v 447 440) .planned) ∧
  (∀ (s : State) (p : Fin 160) (v : CtrlSlot), s.live = true → (s.port p.val).state.linked = true → v.ctrl = 0x15 →
    s.gives (.laneDown p v) fun c =>
    c = (s.toChip.takeSlot p.val v).needLane p.val (argField v 447 440) .dead) ∧
  (∀ (s : Chip) (p lane : Nat), (s.port p).state = .active → nth 255 (s.port p).txMap lane ≠ 255 → (s.port p).proc = none →
    s.engineRestarts p = false → s.nextSpare p = none → s.needLane p lane .fading = s) ∧
  (∀ (s : Chip) (p lane c : Nat) (k : LaneNeed), (s.port p).state = .active → nth 255 (s.port p).txMap lane ≠ 255 →
    (s.port p).proc = none → s.engineRestarts p = false → s.nextSpare p = some c → ∃ w, ((s.needLane p lane k).port p).proc = some w ∧ w.step = .warming ∧
    w.lane = lane ∧ w.channel = c ∧ w.newMap = setAt (s.port p).txMap lane c ∧ w.epoch = (s.port p).txEpoch + 1 ∧
    ((s.needLane p lane k).port p).state = .sparing ∧ ((s.needLane p lane k).port p).txMap = (s.port p).txMap) ∧
  (∀ (s : State) (p : Fin 160) (w : LaneProc), s.live = true → (s.port p.val).proc = some w → w.step = .warming →
    s.laser (p.val / 8) w.channel = .warming → s.gives (.spareLaserLocked p) fun c =>
    c = ((s.toChip.setLaser (p.val / 8) w.channel .locked).setPort p.val fun x => { x with
      proc := some { w with step := .offered } }).sendCtrl p.val 0x10
        (w.lane * 2 ^ 440 + w.channel * 2 ^ 432 + w.epoch.toNat * 2 ^ 424)) ∧
  (∀ (s : State) (p : Fin 160) (v : CtrlSlot), s.live = true → (s.port p.val).state.linked = true → v.ctrl = 0x10 →
    argField v 447 440 < 16 → ((s.toChip.takeSlot p.val v).port p.val).state.carries = true →
    ((s.toChip.takeSlot p.val v).port p.val).rxDead = [] → s.gives (.laneOffer p v) fun c =>
    c = ((s.toChip.takeSlot p.val v).setPort p.val fun x => Port.settle { x with rxChange := some {
      epoch := BitVec.ofNat 8 (argField v 431 424), lane := argField v 447 440, channel := argField v 439 432
      newMap := none, switchSeq := none, equal := 0 } }).setPort p.val fun x => { x with
        receivers := Tab.set RxChannel.reset x.receivers (argField v 439 432) RxChannel.reset }) ∧
  (∀ (s : State) (p : Fin 160) (v : CtrlSlot) (w : LaneProc), s.live = true → (s.port p.val).state.linked = true → v.ctrl = 0x11 →
    ((s.toChip.takeSlot p.val v).port p.val).proc = some w → w.step = .offered → argField v 447 440 = w.lane →
    argField v 431 424 = w.epoch.toNat → s.gives (.laneReady p v) fun c =>
    c = ((s.toChip.takeSlot p.val v).setPort p.val fun x => { x with
      proc := some { w with step := .switchSent, switchSeq := ((s.toChip.takeSlot p.val v).port p.val).txSeq + 1024 } }).sendCtrl
        p.val 0x12 (w.epoch.toNat * 2 ^ 424 + (((s.toChip.takeSlot p.val v).port p.val).txSeq + 1024).toNat * 2 ^ 408)) ∧
  (∀ (s : State) (p : Fin 160) (v : CtrlSlot) (w : RxChange), s.live = true → (s.port p.val).state.linked = true → v.ctrl = 0x12 →
    ((s.toChip.takeSlot p.val v).port p.val).rxChange = some w → argField v 431 424 = w.epoch.toNat →
    s.gives (.laneSwitch p v) fun c => c = (s.toChip.takeSlot p.val v).setPort p.val fun x => { x with
      rxChange := some { w with switchSeq := some (BitVec.ofNat 16 (argField v 423 408)) } }) ∧
  (∀ (s : State) (p : Fin 160) (v : CtrlSlot) (w : LaneProc), s.live = true → (s.port p.val).state.linked = true → v.ctrl = 0x13 →
    ((s.toChip.takeSlot p.val v).port p.val).proc = some w → w.step = .switchSent → w.kind = .move →
    argField v 431 424 = w.epoch.toNat → ((s.toChip.takeSlot p.val v).port p.val).needs = [] →
    (s.toChip.takeSlot p.val v).laser (p.val / 8) w.oldChannel ≠ .fading → s.gives (.laneSwitchAck p v) fun c =>
    (c.port p.val).txMap = w.newMap ∧ (c.port p.val).txEpoch = w.epoch ∧ (c.port p.val).proc = none ∧
    (c.port p.val).spares = ((s.toChip.takeSlot p.val v).port p.val).spares.erase w.channel ∧
    c.mem = (s.toChip.takeSlot p.val v).mem) ∧
  (∀ (s : State) (p : Fin 160) (w : LaneProc), s.live = true → (s.port p.val).proc = some w → w.step = .offered →
    w.retried = false → s.gives (.laneReadyTimeout p) fun c =>
    c = (s.toChip.setPort p.val fun x => { x with proc := some { w with retried := true } }).sendCtrl p.val 0x10
      (w.lane * 2 ^ 440 + w.channel * 2 ^ 432 + w.epoch.toNat * 2 ^ 424)) ∧
  (∀ (s : State) (p : Fin 160) (v : CtrlSlot), s.live = true → (s.port p.val).state.linked = true → v.ctrl = 0x17 →
    s.gives (.laneMap p v) fun c => c = (s.toChip.takeSlot p.val v).setPort p.val fun x =>
      Port.settle { x with rxMap := mapOf (argField v 407 280), rxEpoch := BitVec.ofNat 8 (argField v 431 424) }) ∧
  (∀ (s : State) (p : Fin 160) (v : CtrlSlot), s.live = true → (s.port p.val).state.linked = true → v.ctrl = 0x16 →
    ((s.toChip.takeSlot p.val v).port p.val).state.carries = true →
    (s.toChip.takeSlot p.val v).obj O.minWidth ≤ argField v 447 440 → s.gives (.widthChange p v) fun c =>
    c = (s.toChip.takeSlot p.val v).setPort p.val fun x => Port.settle { x with rxChange := some {
      epoch := BitVec.ofNat 8 (argField v 431 424), lane := 0, channel := 255, newMap := some (mapOf (argField v 407 280))
      switchSeq := some (BitVec.ofNat 16 (argField v 423 408)), equal := 0 } }) ∧
  (∀ (s : State) (p : Fin 160) (v : CtrlSlot), s.live = true → (s.port p.val).state.linked = true → v.ctrl = 0x16 →
    ((s.toChip.takeSlot p.val v).port p.val).state.carries = true →
    argField v 447 440 < (s.toChip.takeSlot p.val v).obj O.minWidth → s.gives (.widthChange p v) fun c =>
    (c.port p.val).state = .failed ∧ (c.port p.val).shutterOpen = false)

/-- Circuit: a named lane under test counts from zero until it stops, received words go back while asked for at most 10 s, and
the boot test's lanes that counted errors leave the map (R71, R72; the errors of both directions come with the command, the
model's choice, log 56). Light: under OFC its loss closes the shutter and probes again (event 0x4203); under SPM the port holds
off with its shutter open and tells its peer; light that returns trains again; monitors pass both ways; a cut in the plant ends
with event 0x8203 (R82–R84). SAFETY_MODE takes SPM only under ENCLOSED_DECL (R81). What a LOOP_REQ of more than 10 s does, the
order of a MONITOR's values, and the readings of 0x8203 are the model's choice (log 150, log 148, log 152). -/
def Obligations.Circuit_mode_and_eye_safety : Prop :=
  (∀ (s : State) (p : Fin 160) (v : CtrlSlot), s.live = true → (s.port p.val).state.linked = true → v.ctrl = 0x21 →
    ((s.toChip.takeSlot p.val v).port p.val).state = .circuit → argField v 447 440 = 1 →
    ((s.toChip.takeSlot p.val v).port p.val).bootTest = false → s.gives (.bert p v) fun c =>
    c = (s.toChip.takeSlot p.val v).setPort p.val fun x => { x with
      bertRx := BitVec.ofNat 16 (argField v 431 424 * 256 + argField v 439 432), prbs := [], berErrors := [], berBits := 0 }) ∧
  (∀ (s : State) (p : Fin 160) (v : CtrlSlot), s.live = true → (s.port p.val).state.linked = true → v.ctrl = 0x22 →
    ((s.toChip.takeSlot p.val v).port p.val).state = .circuit → s.gives (.loopReq p v) fun c =>
    c = (s.toChip.takeSlot p.val v).setPort p.val fun x => { x with
      looping := argField v 447 440 == 1 && argField v 439 408 ≤ 10000 }) ∧
  (∀ (s : State) (p : Fin 160), s.live = true → s.gives (.loopbackDurationExpiry p) fun c =>
    c = s.toChip.setPort p.val fun x => { x with looping := false }) ∧
  (∀ (s : State) (p : Fin 160) (rx tx : List Nat) (n : Nat), s.live = true → (s.port p.val).state = .circuit →
    (s.port p.val).bootTest = true → (∀ k, nth 0 tx k = 0) → (s.port p.val).txMap = Port.factoryMap → s.obj O.minWidth ≤ 16 →
    (s.port p.val).retraining = false → (s.port p.val).proc = none → s.isGnPort p.val = false → (s.port p.val).drains = false →
    s.soundLanes p.val → s.gives (.circuitBerTimeExpiry p rx tx n) fun c =>
    (c.port p.val).bootTested = true ∧ (c.port p.val).txMap = Port.factoryMap ∧ (c.port p.val).berBits = BitVec.ofNat 64 n ∧
    (c.port p.val).state.carries = true ∧ (c.port p.val).bootTest = false ∧ c.mem = s.mem) ∧
  (∀ (s : State) (p : Fin 160), s.live = true → (s.port p.val).state = .active → (s.port p.val).lightLost = none →
    s.obj O.safetyMode = 0 → (s.port p.val).drains = false → (s.port p.val).peerDraining = false →
    s.gives (.lossOfLight p) fun c =>
    c = (s.toChip.reprobe p.val).raise 0x4203 [.u8 p.val]) ∧
  (∀ (s : State) (p : Fin 160), s.live = true → (s.port p.val).state = .active → (s.port p.val).lightLost = none →
    s.spm p.val = true → s.gives (.lossOfLight p) fun c =>
    c = (s.toChip.setPort p.val fun x => { x with lightLost := some s.now }).sendMonitor p.val) ∧
  (∀ (s : Chip) (p : Nat), s.isGnPort p = false → (s.port p).state ≠ .circuit →
    ((s.reprobe p).port p).state = .probing ∧ ((s.reprobe p).port p).shutterOpen = false ∧
    ((s.reprobe p).port p).replay = (s.port p).replay ∧ s.reprobe p = { s with ports := (s.reprobe p).ports }) ∧
  (∀ (s : State) (p : Fin 160), s.live = true → (s.port p.val).lightLost.isSome = true →
    s.engineRestarts p.val = false → s.gives (.lightReturn p) fun c =>
    c = s.toChip.retune p.val) ∧
  (∀ (s : State) (p : Fin 160), s.live = true → s.spm p.val = true → (s.port p.val).state.linked = true →
    s.gives (.spmMonitorTimer p) fun c => c = s.toChip.sendMonitor p.val) ∧
  (∀ (s : State) (p : Fin 160) (v : CtrlSlot), s.live = true → (s.port p.val).state.linked = true → v.ctrl = 0x20 →
    s.gives (.monitor p v) fun c =>
    let r := (List.range 20).map fun i => signed 16 (argField v (447 - 16 * i) (432 - 16 * i))
    c = ((s.toChip.takeSlot p.val v).setPort p.val fun x => { x with
      peerMonitor := some r, peerDark := (s.toChip.takeSlot p.val v).darkReading (nth 0 r 1) }).flushPort p.val) ∧
  (∀ (s : State) (p : Fin 160), s.live = true → s.spm p.val = true → (s.port p.val).lightLost.isSome = true →
    (s.port p.val).peerMonitor = none → (s.port p.val).drains = false → s.gives (.spmHoldOffExpiry p) fun c =>
    (c.port p.val).state = .probing ∧ (c.port p.val).shutterOpen = false ∧ (c.port p.val).lightLost = none ∧
    (s.isGnPort p.val = false → c.log.seq = s.log.seq + 1) ∧ c.mem = s.mem) ∧
  (∀ s : State, s.live = true → s.objb O.enclosedDecl = true → s.gives (.safetyModeWrite 1) fun c =>
    c = s.toChip.setObj O.safetyMode 1) ∧
  (∀ s : State, s.live = true → s.objb O.enclosedDecl = false → s.gives (.safetyModeWrite 1) fun c => c = s.toChip)

/-- Draining: PORT_ADMIN 0 drains a lit port with DRAIN_NOTICE, a notice drains this side likewise, and an empty or late port is
Disabled with its shutter closed; PORT_ADMIN 1 starts a Disabled port, PORT_ADMIN 2 trains one that is up again (R65, R66, R72,
R85, R86). A write of PORT_ADMIN to a draining port is the model's choice (log 154). -/
def Obligations.Port_administration : Prop :=
  (∀ (s : State) (p : Fin 160), s.live = true → (s.port p.val).state = .active → s.gives (.portAdminDisable p) fun c =>
    c = (s.toChip.setObj (O.portAdmin + 256 * p.val) 0).drainPort p.val) ∧
  (∀ (s : State) (p : Fin 160), s.live = true → (s.port p.val).state = .disabled → s.obju O.portRole p.val ≠ 0 →
    (s.engine (p.val / 8)).powered = true → s.portBarred p.val = false →
    (Tab.get Component.reset s.mgmt.components 4).state ≠ .invalid → s.gives (.portAdminEnable p) fun c =>
    c.obju O.portAdmin p.val = 1 ∧ (c.port p.val).state = .probing ∧ (∀ q, q ≠ p.val → c.port q = s.port q) ∧
    c = { s.toChip with objs := c.objs, ports := c.ports }) ∧
  (∀ (s : State) (p : Fin 160), s.live = true → (s.port p.val).state = .active → s.engineRestarts p.val = false →
    s.gives (.portAdminCircuit p) fun c =>
    c = (s.toChip.setObj (O.portAdmin + 256 * p.val) 2).retune p.val) ∧
  (∀ (s : State) (p : Fin 160) (v : CtrlSlot), s.live = true → (s.port p.val).state.linked = true → v.ctrl = 0x23 →
    ((s.toChip.takeSlot p.val v).port p.val).state = .active → s.gives (.drainNotice p v) fun c =>
    c = ((s.toChip.takeSlot p.val v).setPort p.val fun x => { x with peerDraining := true }).drainPort p.val) ∧
  (∀ (s : State) (p : Fin 160), s.live = true → (s.port p.val).state = .draining → (s.port p.val).txPending = [] →
    (s.port p.val).replay = [] → (s.port p.val).proc = none → s.gives (.portDrainComplete p) fun c =>
    (c.port p.val).state = .disabled ∧ (c.port p.val).shutterOpen = false ∧ c.tn.arrivals = s.tn.arrivals ∧ c.mem = s.mem ∧
    (s.isGnPort p.val = false → (∀ q, q ≠ p.val → c.port q = s.port q) ∧ c.log = s.log)) ∧
  (∀ (s : State) (p : Fin 160), s.live = true → (s.port p.val).drains = true → s.gives (.portDrainDeadline p) fun c =>
    (c.port p.val).state = .disabled ∧ (c.port p.val).shutterOpen = false ∧ c.mem = s.mem ∧
    (s.isGnPort p.val = false → c.tn.arrivals = s.tn.arrivals ++ ((((s.port p.val).replay.flatMap (·.cells) ++
      (s.port p.val).txPending).map cellOfBits).filter (fun k => k.type != 9)).map deflected ∧ c.log = s.log))

/-- Port roles: 126 ports are TN, 32 are GN, at most two of them on one engine, and 77 and 157 are spare after power-on; a spare
port stays Disabled; a role is taken only by a Disabled port and while it makes at most 126 ports TN and 32 GN, else the write is
answered with ACCESS and the role is unchanged (R64, R65). -/
def Obligations.Port_roles : Prop :=
  (∀ p, p < 160 → State.reset.obju O.portRole p = if p % 5 = 4 then 2 else if p = 77 ∨ p = 157 then 0 else 1) ∧
  ((List.range 160).filter fun p => State.reset.obju O.portRole p == 1).length = 126 ∧
  ((List.range 160).filter fun p => State.reset.obju O.portRole p == 2).length = 32 ∧
  (∀ e, e < 20 → ((List.range 8).filter fun k => State.reset.obju O.portRole (8 * e + k) == 2).length ≤ 2) ∧
  (∀ (s : State) (p : Fin 160) (i : Instr), (i = .portAdminEnable p ∨ i = .portAdminCircuit p) → s.live = true →
    s.obju O.portRole p.val = 0 → (s.port p.val).state = .disabled → s.gives i fun c => c.ports = s.ports) ∧
  (∀ (s : State) (p : Fin 160) (r : Byte), s.live = true → (s.port p.val).state = .disabled → r.toNat ≤ 2 →
    (r = 1 → ((List.range 160).filter fun q => q != p.val && s.obju O.portRole q == 1).length < 126) →
    (r = 2 → ((List.range 160).filter fun q => q != p.val && s.obju O.portRole q == 2).length < 32) →
    s.gives (.portRoleWrite p r) fun c =>
    c.obju O.portRole p.val = r.toNat ∧ (∀ q, q < 160 → q ≠ p.val → c.obju O.portRole q = s.obju O.portRole q) ∧
    c = (s.toChip.setObj (O.portRole + 256 * p.val) r.toNat).rebuildPortMap p.val) ∧
  (∀ (s : State) (p : Fin 160) (r : Byte), s.live = true → ((s.port p.val).state ≠ .disabled ∨
    r = 1 ∧ 126 ≤ ((List.range 160).filter fun q => q != p.val && s.obju O.portRole q == 1).length ∨
    r = 2 ∧ 32 ≤ ((List.range 160).filter fun q => q != p.val && s.obju O.portRole q == 2).length) →
    (s.gives (.portRoleWrite p r) fun c => c = s.toChip) ∧
    s.toChip.writeObject .owner (0x4100 + p.val) 1 1 [r] = (.access, s.toChip))

/-! ### The tensor network -/

/-- A slot of the router: a cell for this chip is ejected, a cell 46 or more units old is discarded with event 0x4301, and an
injected cell waits while the chip is not TNREADY (R92, R99, R100). -/
def Obligations.Router : Prop :=
  (∀ (s : State) (k : Cell), s.live = true → s.tn.arrivals = [k] → s.tn.transit = [] → s.tn.inject = [] →
    k.dest.toNat = s.chipNumber → s.gives .routerSlot fun c =>
    c = ({ s.toChip with tn := { s.tn with arrivals := [] } } : Chip).eject k) ∧
  (∀ (s : Chip) (k : Cell), k.type ≠ 10 → s.eject k = { s with tn := { s.tn with ejected := s.tn.ejected ++ [k] } }) ∧
  (∀ (s : State) (k : Cell), s.live = true → s.tn.arrivals = [k] → s.tn.transit = [] → s.tn.inject = [] →
    k.dest.toNat ≠ s.chipNumber → k.type = 9 → s.gives .routerSlot fun c =>
    c = { s.toChip with tn := { s.tn with arrivals := [] } }) ∧
  (∀ (s : State) (k : Cell), s.live = true → s.tn.arrivals = [k] → s.tn.transit = [] → s.tn.inject = [] →
    k.dest.toNat ≠ s.chipNumber → k.type ≠ 9 → 46 ≤ s.cellAge k → s.gives .routerSlot fun c =>
    c = (({ s.toChip with tn := { s.tn with arrivals := [] } } : Chip).bump O.lifetimeDiscards 1).raiseLimited 0x4301 0 []) ∧
  (∀ s : State, s.live = true → s.tn.arrivals = [] → s.tn.transit = [] → s.tnReady = false → s.gives .routerSlot fun c =>
    c = s.toChip)

/-- A sequenced cell whose SEQ its context can take lands by its type's rule, and the context notes it (R95, R98, R109). How
each type lands: a PUT to data memory stores its bytes, line by line; a SIGNAL without a cover, or a 64-bit ATOMIC_ADD to a
counter, adds; an ATOMIC_ADD to memory adds there; a SIGNAL whose cover has not landed is held; a multicast PUT at its turn chip
is relayed; an address that is none of these is refused BAD_ADDR (R98, R105, R114, R115, R119, R194). That copies without room
are refused RECV_FULL is the model's reading (log 155). -/
def Obligations.Cells : Prop :=
  (∀ (i : Instr) (s : State) (k : Cell) (x : RxContext) (t : Chip),
    ((i = .cellPut k ∧ k.type = 0) ∨ (i = .cellSignal k ∧ k.type = 1) ∨ (i = .cellAtomicAdd k ∧ k.type = 2) ∨
     (i = .cellCollData k ∧ k.type = 5) ∨ (i = .cellMcast k ∧ (k.type = 7 ∨ k.type = 8)) ∨
     (i = .collStart k ∧ k.type = 6 ∧ ctrlKind k = 1) ∨ (i = .collGrant k ∧ k.type = 6 ∧ ctrlKind k = 2) ∨
     (i = .collAbort k ∧ k.type = 6 ∧ ctrlKind k = 3)) →
    s.live = true → k.dest.toNat = s.chipNumber → s.job.state < 2 → s.service.lagEpisode = false →
    s.context k.src k.stream = some x → (k.seq - x.cum - 1).toNat < 4096 → s.seenSeq x k.seq = false → s.recvUsed < 1048576 →
    s.tn.ejected = [] → s.toChip.landCell k = (t, .landed) → s.gives i fun c =>
    c = (Chip.unpark Chip.landCell (t.noteLanded k.src k.stream k.seq) k.src k.stream).mirrorPump.collFeed) ∧
  (∀ (s : Chip) (k : Cell), k.type = 0 → 0 < k.len.toNat → s.rangeData (cellOffset k) k.len.toNat = true → s.tn.sluice = [] →
    s.tn.recentPuts = [] → s.landCell k = (s.each (putLines k) fun t l => t.applyPart k l, .landed)) ∧
  (∀ (s : Chip) (k : Cell), k.type = 0 → s.rangeData (cellOffset k) k.len.toNat = false → inCounterRange (cellOffset k) = false →
    s.landCell k = (s, .nack 7 0)) ∧
  (∀ (s : Chip) (k : Cell), k.type = 1 → namesCounter (cellOffset k) = true → k.payload.getLsbD 303 = false →
    s.arriveOf (counterOfOffset (cellOffset k)) = none → s.doneOf (counterOfOffset (cellOffset k)) = none → s.mirroring = false →
    s.tn.pendingSignals = [] → s.landCell k = (s.plainAdd (counterOfOffset (cellOffset k))
      (BitVec.ofNat 64 (payloadField k 383 320)) (3, k.src.toNat, k.stream.toNat), .landed)) ∧
  (∀ (s : Chip) (k : Cell) (x : RxContext), k.type = 1 → namesCounter (cellOffset k) = true → k.payload.getLsbD 303 = true →
    s.context k.src k.stream = some x → x.covers (BitVec.ofNat 16 (payloadField k 319 304)) = false →
    s.tn.pendingSignals.length < 4096 → s.landCell k = ({ s with tn := { s.tn with pendingSignals := s.tn.pendingSignals ++
      [⟨k.src, k.stream, k.seq, some (BitVec.ofNat 16 (payloadField k 319 304)), counterOfOffset (cellOffset k),
        BitVec.ofNat 64 (payloadField k 383 320), none⟩] } }, .landed)) ∧
  (∀ (s : Chip) (k : Cell), k.type = 2 → inCounterRange (cellOffset k) = false → k.payload.getLsbD 319 = true →
    s.rangeData (cellOffset k) 8 = true → cellOffset k % 8 = 0 → s.landCell k =
    ((s.memAdd (cellOffset k) 8 (payloadField k 383 320)).noteMirror
      (.atomic (cellOffset k) 0 true (BitVec.ofNat 64 (payloadField k 383 320)) 0), .landed)) ∧
  (∀ (s t : Chip) (k : Cell), k.type = 7 → k.flags.getLsbD 0 = false → s.rangeData (cellOffset k) k.len.toNat = true →
    s.relayReady (s.mcastOthers k) = true → (s.mcastMembers k).contains s.chipNumber = true →
    s.landPut (relayCell k) = (t, .landed) → s.landCell k = (t.relayTo k (s.mcastOthers k), .landed)) ∧
  (∀ (s : Chip) (k : Cell), k.type = 7 → k.flags.getLsbD 0 = false → s.relayReady (s.mcastOthers k) = true →
    (s.mcastMembers k).contains s.chipNumber = false → s.landCell k = (s.relayTo k (s.mcastOthers k), .landed)) ∧
  (∀ (s : Chip) (k : Cell), k.type = 7 → k.flags.getLsbD 0 = false → s.rangeData (cellOffset k) k.len.toNat = true →
    s.relayReady (s.mcastOthers k) = false → s.landCell k = (s, .nack 1 0))

/-- Cells without a SEQ: an ACK frees what it covers, a close frees the receive context and is answered, a NACK backs the cell off,
or refuses it for a bad address, a PROBE is answered with the timebase, its answer gives PROBE_RESULT, and a cell of reserved type
is counted (R96, R106, R107, R110, R113, R127, R516; the back-off's jitter is a free value, the model's choice, log 5). Streams: ACK_TIME sends the
acknowledgement that is due; a cell without an answer goes out again with RETX, and after RETX_LIMIT times its stream is held (event
0x8302), and a chip whose cells are held so counts as failed (R234); a back-off that ends sends again; an idle stream sends its close;
the sluice applies a waiting PUT; DEST_RELEASE frees every stream and context of a chip (R107, R110–R113, R117, R126). -/
def Obligations.Control_cells_and_streams : Prop :=
  (∀ (s : State) (k : Cell) (x : SendStream), s.live = true → k.type = 3 → k.flags = 0 → k.dest.toNat = s.chipNumber →
    s.tn.ejected = [] → s.stream k.stream.toNat = some x → x.dest = k.src → x.pend = [] → x.refused = false →
    (s.tn.pendingSignals.all fun p => p.mcast.isNone) = true →
    (x.cells.all fun t => t.work == Work.none) = true → s.gives (.cellAck k) fun c =>
    c.stream k.stream.toNat = some { x with cells := x.cells.filter fun t => !ackCovers k t.cell.seq } ∧
    Tab.get 0 c.tn.unreach k.src.toNat = 0 ∧ c = { s.toChip with tn := { s.tn with streams := c.tn.streams, unreach := c.tn.unreach } }) ∧
  (∀ (s : State) (k : Cell), s.live = true → k.type = 3 → k.flags = 1 → k.dest.toNat = s.chipNumber → k.src.toNat ≠ s.chipNumber →
    s.tn.ejected = [] → (s.tn.pendingSignals.all fun p => p.mcast.isNone) = true → s.coll.waiting = [] →
    s.gives (.cellAckFin k) fun c =>
    c.context k.src k.stream = none ∧ c.tn.inject = s.tn.inject ++ [{ cellBlank with
      type := 3, flags := 5, dest := k.src, src := BitVec.ofNat 16 s.chipNumber, age := s.ageNow, stream := k.stream, seq := k.seq }] ∧
    c.mem = s.mem ∧ c.tn.streams = s.tn.streams) ∧
  (∀ (s : State) (k : Cell) (x : SendStream) (t : TxCell), s.live = true → k.type = 4 → k.dest.toNat = s.chipNumber →
    s.tn.ejected = [] → s.stream k.stream.toNat = some x → x.dest = k.src →
    x.cells.find? (fun t => t.cell.seq == k.seq) = some t → payloadField k 383 380 = 3 → s.gives (.cellNack k) fun c =>
    c = s.toChip.failNew (s.toChip.setStream k.stream.toNat (some (x.modify k.seq fun u => { u with
      nacks := t.nacks + 1, retx := 0
      backoff := some (s.aon + s.backoffTime (payloadField k 375 360) (t.nacks + 1)) }))).drew k.src) ∧
  (∀ (s t : Chip) (d : Half), t.chipHeld d = s.chipHeld d → s.failNew t d = t) ∧
  (∀ (s : State) (k : Cell), s.live = true → k.type = 10 → k.flags = 0 → k.dest.toNat = s.chipNumber → k.src.toNat ≠ s.chipNumber →
    s.tn.ejected = [] → s.gives (.cellProbe k) fun c =>
    c = { s.toChip with tn := { s.tn with inject := s.tn.inject ++ [{ cellBlank with
      type := 10, flags := 4, dest := k.src, src := BitVec.ofNat 16 s.chipNumber, age := s.ageNow
      payload := BitVec.ofNat 384 (payloadField k 383 320 * 2 ^ 320 + s.timebase.toNat * 2 ^ 256) }] } }) ∧
  (∀ (s : State) (k : Cell), s.live = true → k.type = 10 → k.flags = 4 → k.dest.toNat = s.chipNumber →
    s.tn.ejected = [] → s.tn.probe = some k.src → s.gives (.cellProbe k) fun c =>
    let sent := BitVec.ofNat 64 (payloadField k 383 320)
    c = { s.toChip with tn := { s.tn with
      probe := none
      probeResult := BitVec.ofNat 64 ((s.timebase - sent).toNat % 2 ^ 32 * 2 ^ 32 +
        (BitVec.ofNat 64 (payloadField k 319 256) - sent).toNat % 2 ^ 32) } }) ∧
  (∀ (s : State) (k : Cell), s.live = true → 11 ≤ k.type.toNat → k.dest.toNat = s.chipNumber → s.tn.ejected = [] →
    s.gives (.cellReservedType k) fun c => c = (s.toChip.bump O.badCells 1).raiseLimited 0x4305 0 []) ∧
  (∀ (s : State) (src : Half) (n : BitVec 14) (x : RxContext), s.live = true → s.context src n = some x → 0 < x.unacked →
    s.gives (.ackTimeExpiry src n) fun c => c = s.toChip.sendAck src n) ∧
  (∀ (s : State) (n : BitVec 14) (q : Half) (x : SendStream) (t : TxCell), s.live = true → s.stream n.toNat = some x →
    x.closing = false → x.held = false → x.cells.find? (fun t => t.cell.seq == q && t.backoff.isNone) = some t →
    t.retx < s.obj O.retxLimit → s.gives (.retxTimeout n q) fun c =>
    c = s.toChip.failNew ((s.toChip.setStream n.toNat (some (x.modify q fun t => { t with retx := t.retx + 1 }))).resendCell
      n.toNat t) x.dest) ∧
  (∀ (s : State) (n : BitVec 14) (q : Half) (x : SendStream) (t : TxCell), s.live = true → s.stream n.toNat = some x →
    x.closing = false → x.held = false → x.cells.find? (fun t => t.cell.seq == q && t.backoff.isNone) = some t →
    s.obj O.retxLimit ≤ t.retx → s.gives (.retxTimeout n q) fun c =>
    c = s.toChip.failNew (((s.toChip.setStream n.toNat (some { x with held := true })).recall fun k => k.stream.toNat == n.toNat).raise
      0x8302 [.u16 n.toNat, .u16 x.dest.toNat]) x.dest) ∧
  (∀ (s : State) (n : BitVec 14) (q : Half) (x : SendStream) (t : TxCell), s.live = true → s.stream n.toNat = some x →
    x.held = false → x.cells.find? (fun t => t.cell.seq == q && t.backoff.isSome) = some t → s.gives (.backoffExpiry n q) fun c =>
    c = (s.toChip.setStream n.toNat (some (x.modify q fun t => { t with backoff := none }))).resendCell n.toNat t) ∧
  (∀ (s : State) (n : BitVec 14) (x : SendStream), s.live = true → s.stream n.toNat = some x → x.pend = [] → x.cells = [] →
    x.held = false → x.closing = false → s.gives (.streamIdleExpiry n) fun c =>
    c = (s.toChip.setStream n.toNat (some { x with closing := true })).reply { cellBlank with
      type := 3, flags := 1, dest := x.dest, stream := n, seq := x.nextSeq - 1 }) ∧
  (∀ (s : State) (n : BitVec 14) (x : SendStream), s.live = true → s.stream n.toNat = some x → x.cells ≠ [] →
    s.gives (.streamIdleExpiry n) fun c => c = s.toChip) ∧
  (∀ (s : State) (l : Nat) (k : Cell) (n : Nat), s.live = true → s.tn.sluice = [⟨l, [k], n⟩] → s.gives (.sluiceApply l) fun c =>
    c = let t := ({ s.toChip with tn := { s.tn with sluice := [] } } : Chip).applyPart k l
      (Chip.unpark Chip.landCell (t.noteLanded k.src k.stream k.seq) k.src k.stream).mirrorPump) ∧
  (∀ (s : State) (d : Half), s.live = true → (s.coll.comms.all fun e => e.2.state == .unbound) = true →
    (s.tn.pendingSignals.all fun p => p.mcast.isNone) = true → s.coll.waiting = [] → s.gives (.destRelease d) fun c =>
    (∀ n x, c.stream n = some x → x.dest ≠ d) ∧ c.tn.contexts = s.tn.contexts.filter (fun x => x.src != d) ∧
    Tab.get false c.tn.heldDests d.toNat = false ∧ Tab.get 0 c.tn.unreach d.toNat = 0 ∧ c.mem = s.mem ∧ c.log = s.log)

/-- The timebase: the master is in state master; a request is answered with the times of its arrival and of the answer; no
answer in time is holdover, event 0x4303; a change of TNREADY goes out on the TN ports, and a port without link-control slots is
routing-down (R92, R121–R123). The objects that name the chip and its networks: each is taken where the spec takes it and
changes nothing else, and is refused while a port of its network is not Disabled (R89, R91, R121, R129, R141). Which eight
offsets the median takes is the model's choice (log 158). -/
def Obligations.Timebase_and_names : Prop :=
  (∀ s : State, s.live = true → s.objb O.chipAssigned = true → s.chipNumber = s.tbMasterChip → s.gives .timebaseExchangeTimer fun c =>
    c = { s.toChip with tn := { s.tn with tbState := .master, tbParent := 0xFFFFFFFF } }) ∧
  (∀ s : State, s.live = true → s.objb O.chipAssigned = true → s.chipNumber ≠ s.tbMasterChip → s.tn.tbState = .locked →
    s.gives .timebaseExchangeTimer fun c =>
    c = ({ s.toChip with tn := { s.tn with tbParent := BitVec.ofNat 32 s.tbParentChip } } : Chip).sendTime s.tbParentChip
      (s.timebase.toNat * 2 ^ 320)) ∧
  (∀ s : State, s.live = true → s.tn.tbState = .locked → s.gives .timebaseHoldover fun c =>
    c = ({ s.toChip with tn := { s.tn with tbState := .holdover } } : Chip).raise 0x4303 []) ∧
  (∀ (s : State) (p : Fin 160) (k : Cell) (v : Word), s.live = true → k.type = 9 → k.dest.toNat = s.chipNumber → s.tn.ejected = [] →
    s.tnPorts.contains (p.val, k.src.toNat) = true → payloadField k 255 192 = 0 → s.gives (.cellTime p k v) fun c =>
    c = s.toChip.sendTime k.src.toNat (payloadField k 383 320 * 2 ^ 320 + v.toNat * 2 ^ 256 + s.timebase.toNat * 2 ^ 192)) ∧
  (∀ (s : State) (p : Fin 160) (k : Cell) (v : Word), s.live = true → k.type = 9 → k.dest.toNat = s.chipNumber → s.tn.ejected = [] →
    s.tnPorts.contains (p.val, k.src.toNat) = true → payloadField k 255 192 ≠ 0 → s.tn.tbParent.toNat = k.src.toNat →
    s.tn.offsets.length < 7 → s.gives (.cellTime p k v) fun c =>
    c = { s.toChip with tn := { s.tn with offsets :=
      ((((payloadField k 319 256 : Int) - payloadField k 383 320) - ((v.toNat : Int) - payloadField k 255 192)).tdiv 2) ::
        s.tn.offsets } }) ∧
  (∀ s : State, s.live = true → s.tnReady ≠ s.tn.readySent → s.coll.waiting = [] → s.gives .tnreadyChange fun c =>
    c = let t := s.toChip.each ((s.ports.filter fun e => s.obju O.portRole e.1 == 1 && e.2.state.linked).map (·.1)) (fun t p => t.sendCtrl p 0 0)
      { t with tn := { t.tn with readySent := t.tnReady } }) ∧
  (∀ (s : State) (p : Fin 160), s.live = true → s.gives (.portFreshnessExpiry p) fun c =>
    let t : Chip := { s.toChip with tn := { s.tn with stale := Tab.set false s.tn.stale p.val true } }
    c = if s.isTnPort p.val then t.unloadPort p.val else t) ∧
  (∀ (s : State) (chip : Half), s.live = true → chip.toNat ≠ s.chipNumber → s.gives (.probeTarget chip) fun c =>
    c = { s.toChip with tn := { s.tn with
      probe := some chip
      inject := s.tn.inject ++ [{ cellBlank with type := 10, dest := chip, src := BitVec.ofNat 16 s.chipNumber, age := s.ageNow }] } }) ∧
  (∀ (s : Chip) (k : Cell), k.type = 10 → k.flags = 0 → s.injected k = { k with
    age := s.ageNow, payload := BitVec.ofNat 384 (setBits k.payload.toNat 383 320 s.timebase.toNat) }) ∧
  (∀ s : State, s.live = true → s.tn.probe.isSome = true → s.gives .probeReplyTimeout fun c =>
    c = { s.toChip with tn := { s.tn with probe := none, probeResult := 0xFFFFFFFFFFFFFFFF } }) ∧
  (∀ (s : State) (v : Half), s.live = true → s.allDisabled 1 = true → s.gives (.chipNumberWrite v) fun c =>
    c = (s.toChip.setObj O.chipNumber v.toNat).setObj O.chipAssigned 1) ∧
  (∀ (s : State) (v : Bool), s.live = true → s.allDisabled 1 = true → s.gives (.chipAssignedWrite v) fun c =>
    c = s.toChip.setObj O.chipAssigned v.toNat) ∧
  (∀ (s : State) (w : ShapeObject) (v : Byte), s.live = true → s.allDisabled 1 = true → inRange (shapeKey w) v.toNat = true →
    (s.toChip.setObj (shapeKey w) v.toNat).obj O.bundle * ((s.toChip.setObj (shapeKey w) v.toNat).obj O.domainX +
      (s.toChip.setObj (shapeKey w) v.toNat).obj O.domainY - 2) ≤ 126 → s.gives (.domainShapeWrite w v) fun c =>
    c = s.toChip.setObj (shapeKey w) v.toNat) ∧
  (∀ (s : State) (v : Word32), s.live = true → v.toNat < 65536 ∨ v = 0xFFFFFFFF → s.gives (.tbMasterWrite v) fun c =>
    c.obj O.tbMaster = v.toNat ∧ c = { s.toChip.setObj O.tbMaster v.toNat with tn := { s.tn with tbParent := c.tn.tbParent } }) ∧
  (∀ (s : State) (v : Word32), s.live = true → s.allDisabled 2 = true → v.toNat < 65536 → s.gives (.gnNodeWrite v) fun c =>
    c = s.toChip.setObj O.gnNode v.toNat) ∧
  (∀ (s : State) (l : List Word32), s.live = true → l.length ≤ 32 → (l.all fun v => v.toNat < 0xFFFFF) = true →
    s.gives (.rackMembersWrite l) fun c => c = { s.toChip with gn := { s.gn with members := l.map (·.toNat) } }) ∧
  (∀ (s : State) (i : Instr), s.live = true →
    ((s.allDisabled 1 = false ∧ ((∃ v, i = .chipNumberWrite v) ∨ (∃ v, i = .chipAssignedWrite v) ∨ ∃ w v, i = .domainShapeWrite w v)) ∨
     (s.allDisabled 2 = false ∧ ∃ v, i = .gnNodeWrite v)) → s.gives i fun c => c = s.toChip)

/-! ### The general network -/

/-- A packet whose HCRC fails, or of a reserved type, is discarded and counted, and does nothing else (R136). Requests of other
nodes: a READ of data memory is answered with what memory holds, a WRITE and a WRITE_FLAGGED store their payload and are answered,
an ATOMIC answers the old value; a chip whose job ends answers STATUS 3, and a request that leaves its 4,096-byte block STATUS 4
(R133–R136, R147). -/
def Obligations.Gn_requests : Prop :=
  (∀ (s : State) (p : Fin 160) (k : GnPacket), s.live = true → s.gnAccepts p.val k = true → k.hcrc ≠ gnHcrc k →
    s.gives (.gnBadPacket p k) fun c => c = (s.toChip.bump O.badPackets 1).raiseLimited 0x4403 0 []) ∧
  (∀ (s : State) (p : Fin 160) (k : GnPacket) (i : Instr), s.live = true → s.gnAccepts p.val k = true → k.hcrc ≠ gnHcrc k →
    (i = .gnRead p k ∨ i = .gnWrite p k ∨ i = .gnWriteFlagged p k ∨ i = .gnAtomic p k ∨ i = .gnResponse p k ∨ i = .gnCredit p k) →
    s.gives i fun c => c = (s.toChip.bump O.badPackets 1).raiseLimited 0x4403 0 []) ∧
  (∀ (s : State) (p : Fin 160) (k : GnPacket), s.live = true → s.gnAccepts p.val k = true → k.hcrc = gnHcrc k → k.ptype = 0 →
    (s.toChip.gnTake p.val k).job.state < 2 → k.addr.toNat % 4096 + k.len.toNat ≤ 4096 →
    (s.toChip.gnTake p.val k).rangeData k.addr.toNat k.len.toNat = true →
    (s.toChip.gnTake p.val k).cutOff (portSite p.val) k.addr.toNat = false → s.gives (.gnRead p k) fun c =>
    c = let r := (s.toChip.gnTake p.val k).readFrom (portSite p.val) k.addr.toNat k.len.toNat k.hint
      r.1.gnAnswer k (if readPoison r.2 then 1 else 0) 0 (readData r.2) (lineMarks r.2)) ∧
  (∀ (s : State) (p : Fin 160) (k : GnPacket) (i : Instr), s.live = true → s.gnAccepts p.val k = true → k.hcrc = gnHcrc k →
    ((i = .gnWrite p k ∧ k.ptype = 2) ∨ (i = .gnWriteFlagged p k ∧ k.ptype = 3 ∧ k.len.toNat ≤ 64)) →
    k.dcrc = gnDcrc k → (s.toChip.gnTake p.val k).job.state < 2 → k.addr.toNat % 4096 + k.len.toNat ≤ 4096 →
    (s.toChip.gnTake p.val k).rangeData k.addr.toNat k.len.toNat = true →
    (s.toChip.gnTake p.val k).cutOff (portSite p.val) k.addr.toNat = false → s.gives i fun c =>
    c = ((s.toChip.gnTake p.val k).landBytes (portSite p.val) k.addr.toNat (fit k.len.toNat k.payload) (gnMarks k)
      k.hint).gnAnswer k 0 0 [] []) ∧
  (∀ (s : State) (p : Fin 160) (k : GnPacket), s.live = true → s.gnAccepts p.val k = true → k.hcrc = gnHcrc k → k.ptype = 5 →
    (s.toChip.gnTake p.val k).job.state < 2 → k.aop = 0 → k.size = true → k.addr.toNat % 8 = 0 →
    (s.toChip.gnTake p.val k).rangeData k.addr.toNat 8 = true →
    (s.toChip.gnTake p.val k).cutOff (portSite p.val) k.addr.toNat = false → s.gives (.gnAtomic p k) fun c =>
    c = let r := (s.toChip.gnTake p.val k).memAtomic (portSite p.val) k.addr.toNat 8 0 k.opA.toNat k.opB.toNat false k.hint
      (if r.2.2 then r.1 else r.1.noteMirror (.atomic k.addr.toNat 0 true k.opA k.opB)).gnAnswer k (if r.2.2 then 1 else 0)
        (BitVec.ofNat 64 r.2.1) [] []) ∧
  (∀ (s : State) (p : Fin 160) (k : GnPacket) (i : Instr), s.live = true → s.gnAccepts p.val k = true → k.hcrc = gnHcrc k →
    ((i = .gnRead p k ∧ k.ptype = 0) ∨ (i = .gnWrite p k ∧ k.ptype = 2) ∨ (i = .gnAtomic p k ∧ k.ptype = 5)) →
    2 ≤ (s.toChip.gnTake p.val k).job.state → s.gives i fun c => c = (s.toChip.gnTake p.val k).gnAnswer k 3 0 [] [])

/-- Responses: the answer to this chip's own request settles it and frees its tag, one without a request is discarded, CREDIT
sets or adds credits, and credits owed go back by themselves (R138, R160). That BULK_AGING ages the packet that waits longest is
the model's reading (log 163). -/
def Obligations.Gn_responses : Prop :=
  (∀ (s : State) (p : Fin 160) (k : GnPacket) (r : GnReq), s.live = true → s.gnAccepts p.val k = true → k.hcrc = gnHcrc k →
    k.ptype = 4 → r.pkt.ptype = 2 → k.status = 0 → k.payload = [] →
    (s.toChip.gnTake p.val k).gn.reqs.find? (fun q => q.tag == k.tag && q.pkt.dest == k.src) = some r →
    s.gives (.gnResponse p k) fun c =>
    c = let t := s.toChip.gnTake p.val k
      (({ t with gn := { t.gn with reqs := t.gn.reqs.erase r } } : Chip).gnSettle r .ok [] [] k.opA).gnFeed.mirrorPump) ∧
  (∀ (s : State) (p : Fin 160) (k : GnPacket), s.live = true → s.gnAccepts p.val k = true → k.hcrc = gnHcrc k → k.ptype = 4 →
    (s.toChip.gnTake p.val k).gn.reqs.find? (fun q => q.tag == k.tag && q.pkt.dest == k.src) = none →
    s.gives (.gnResponse p k) fun c => c = s.toChip.gnTake p.val k) ∧
  (∀ (s : State) (p : Fin 160) (k : GnPacket), s.live = true → s.gnAccepts p.val k = true → k.hcrc = gnHcrc k → k.ptype = 7 →
    k.tag = 0xFFFF → s.gives (.gnCredit p k) fun c =>
    c = ((s.toChip.gnTake p.val k).setGnCredits p.val fun x => { x with
      tx := (List.range 8).map fun v => if v < 4 then bitsOf k.opA.toNat (63 - 16 * v) (48 - 16 * v) else bitsOf k.opB.toNat (127 - 16 * v) (112 - 16 * v) }).gnPump
        p.val) ∧
  (∀ (s : State) (p : Fin 160) (v : Fin 8), s.live = true → (s.port p.val).state = .active →
    64 ≤ nth 0 (s.gnCredits p.val).owed v.val → nth 0 (s.gnCredits p.val).owed v.val ≤ 8191 →
    s.gives (.creditReturnTimer p v) fun c =>
    c = (s.toChip.setGnCredits p.val fun x => { x with owed := setAt x.owed v.val 0 }).gnQueue p.val { gnBlank with
      ptype := 7, src := BitVec.ofNat 20 s.gnNode, dest := 0xFFFFF, crVc := BitVec.ofNat 3 v.val
      crCount := BitVec.ofNat 13 (nth 0 (s.gnCredits p.val).owed v.val) }) ∧
  (∀ (s : State) (p : Fin 160) (i : Nat), s.live = true →
    s.gn.outq.findIdx? (fun o => o.port == p.val && !o.aged && (o.pkt.vc == 4 || o.pkt.vc == 5)) = some i →
    s.gives (.bulkAging p) fun c =>
    c = ({ s.toChip with gn := { s.gn with outq := s.gn.outq.modify i fun o => { o with aged := true } } } : Chip).gnPump p.val)

/-- Targets and windows: a window entry is taken into use by the write of its last bytes; an operation without a response for
DEAD_TIME completes TIMEOUT and its target is Dead (event 0x8401); TARGET_RELEASE completes what is left of it UNREACHABLE (event
0x0401); a held WRITE_FLAGGED goes out once nothing before it is left; packets a port returned are sent again or complete TIMEOUT
(R140, R145, R153–R155, R158, R159). -/
def Obligations.Gn_targets : Prop :=
  (∀ (s : State) (e : Fin 1024) (w : Word), s.live = true → s.gives (.windowEntryCommit e w) fun c =>
    (c.windowEntry e.val).live = windowKept (BitVec.ofNat 256 (w.toNat * 2 ^ 192 + (s.windowEntry e.val).staged.toNat)) ∧
    (c.windowEntry e.val).staged = (s.windowEntry e.val).staged ∧ (∀ j, j ≠ e.val → c.windowEntry j = s.windowEntry j) ∧
    c = { s.toChip with gn := { s.gn with window := c.gn.window } }) ∧
  (∀ (s : State) (r : GnReq), s.live = true → s.gn.reqs.find? (fun q => q.tag == r.tag) = some r →
    s.gn.dead.contains r.pkt.dest.toNat = false →
    (s.gn.outq.any fun o => o.port == r.port && gnIsRequest o.pkt && o.pkt.tag == r.tag) = false →
    s.gives (.deadTimeExpiry r.tag) fun c =>
    c = ((({ s.toChip with gn := { s.gn with
      reqs := s.gn.reqs.erase r
      dead := s.gn.dead ++ [r.pkt.dest.toNat] } } : Chip).raise 0x8401
        [.u32 r.pkt.dest.toNat, .u16 r.tag.toNat]).gnFail r .timeout).gnFeed.mirrorPump) ∧
  (∀ (s : State) (n : Word32), s.live = true → s.tagged = [] → s.gn.waiting = [] → s.service.pair = none →
    s.gives (.targetRelease n) fun c =>
    c = ({ s.toChip with gn := { s.gn with dead := s.gn.dead.filter (· != n.toNat) } } : Chip).raise 0x0401 [.u32 n.toNat]) ∧
  (∀ (s : State) (h : FlaggedHold), s.live = true → s.gn.flaggedHeld = [h] → h.waitFor = [] → h.failed = none →
    s.gn.dead = [] → s.gives (.writeFlaggedRelease h.req.tag) fun c =>
    c = (({ s.toChip with gn := { s.gn with flaggedHeld := [] } } : Chip).gnSend h.req).gnFeed) ∧
  (∀ (s : State) (r : GnReq), s.live = true → s.gn.granuleHeld = [r] → s.gn.reqs = [] → s.gives (.granuleHoldRelease (r.rack / 4096)) fun c =>
    c = ({ s.toChip with gn := { s.gn with granuleHeld := [] } } : Chip).gnSend r) ∧
  (∀ (s : State) (p : Fin 160) (r : GnReq), s.live = true → s.gn.returned = [(p.val, r.pkt)] → s.gn.reqs = [r] → r.port = p.val →
    r.pkt.tag = r.tag → r.pkt.ptype = 2 → s.usableGn = s.gn.usable → s.gives (.gnPacketsReturned p) fun c =>
    c = (((({ s.toChip with gn := { s.gn with returned := [] } } : Chip).raise 0x4402
      [.u8 p.val, .u32 s.gn.usable.length]) |> fun t => ({ t with gn := { t.gn with reqs := [] } } : Chip).raise 0x8402
        [.u8 p.val, .u16 r.tag.toNat]).gnFail r .timeout).gnFeed)

/-- No write of another node reaches memory while the job ends: for every packet, a chip in JOB_STATE 2 or 3 keeps every byte of
memory (R147, R190). -/
def Obligations.Job_end_closes_memory : Prop :=
  ∀ (s : State) (p : Fin 160) (k : GnPacket) (i : Instr),
    (i = .gnRead p k ∨ i = .gnWrite p k ∨ i = .gnWriteFlagged p k ∨ i = .gnAtomic p k) → s.live = true → 2 ≤ s.job.state →
    s.gives i fun c => c.mem = s.mem

/-! ### Queues, commands and the job -/

/-- Doorbells and control writes: SQ_DOORBELL moves SQ_TAIL by at most the ring's size and is otherwise ignored with event 0x4502;
CTRL ENABLE makes a Disabled queue with a valid block Active and the first one makes the job Running; DISABLE of an empty queue
leaves it Disabled; the block's fields are taken only while Disabled (R166–R168, R171, R190; which values CQ_DOORBELL takes is the model's choice, log
33, the field codes of event 0x4501 are the model's choice, log 32). Fetching: the next slot of an Active queue's ring enters the queue with the slot's
64 bytes, once the doorbell covers it and a completion slot is free; an empty ring is left alone (R169, R170). -/
def Obligations.Queue_control : Prop :=
  (∀ (s : State) (q : Fin 16384) (t : Word32), s.live = true → (s.queueAt q.val).state = .active →
    (t - (s.queueAt q.val).sqHead).toNat ≤ 2 ^ (s.queueAt q.val).sqLog2.toNat → (t - (s.queueAt q.val).sqTail).toNat < 2 ^ 31 →
    s.gives (.sqDoorbell q t) fun c => c = s.toChip.setQueue q.val fun v => { v with sqTail := t }) ∧
  (∀ (s : State) (q : Fin 16384) (t : Word32), s.live = true → (s.queueAt q.val).state ≠ .active →
    s.gives (.sqDoorbell q t) fun c => c = s.toChip.raiseLimited 0x4502 q.val []) ∧
  (∀ (s : State) (q : Fin 16384) (t : Word32), s.live = true → (s.queueAt q.val).state = .active →
    ((s.queueAt q.val).cqTail - t).toNat ≤ 2 ^ (s.queueAt q.val).cqLog2.toNat → (t - (s.queueAt q.val).cqHead).toNat < 2 ^ 31 →
    s.gives (.cqDoorbell q t) fun c => c = s.toChip.setQueue q.val fun v => { v with cqHead := t }) ∧
  (∀ (s : State) (q : Fin 16384), s.live = true → (s.queueAt q.val).state = .disabled → s.enableCheck (s.queueAt q.val) = none →
    s.gives (.ctrlEnable q) fun c =>
    c.queueAt q.val = { s.queueAt q.val with
      state := .active, sqHead := 0, sqTail := 0, cqTail := 0, cqHead := 0, aged := false } ∧
    c.job.state = (if s.job.state = 0 then 1 else s.job.state) ∧ (∀ j, j ≠ q.val → c.queueAt j = s.queueAt j) ∧
    c = { s.toChip with queues := c.queues, job := c.job }) ∧
  (∀ (s : State) (q : Fin 16384) (k : Nat), s.live = true → (s.queueAt q.val).state = .disabled →
    s.enableCheck (s.queueAt q.val) = some k → s.gives (.ctrlEnable q) fun c => c = s.toChip.raise 0x4501 [.u16 q.val, .u8 k]) ∧
  (∀ (s : State) (q : Fin 16384), s.live = true → (s.queueAt q.val).state = .active → (s.queueAt q.val).entries = [] →
    s.gives (.ctrlDisable q) fun c => c.queueAt q.val = { s.queueAt q.val with state := .disabled } ∧
    (∀ j, j ≠ q.val → c.queueAt j = s.queueAt j) ∧ c = { s.toChip with queues := c.queues }) ∧
  (∀ (s : State) (q : Fin 16384) (w : Word), s.live = true → (s.queueAt q.val).state = .disabled →
    s.gives (.queueConfigWrite q 7 w) fun c =>
    c.queueAt q.val = { s.queueAt q.val with sqBase := w } ∧ (∀ j, j ≠ q.val → c.queueAt j = s.queueAt j) ∧
    c = { s.toChip with queues := c.queues }) ∧
  (∀ (s : State) (q : Fin 16384) (w : Word), s.live = true → (s.queueAt q.val).state ≠ .disabled →
    s.gives (.queueConfigWrite q 7 w) fun c => c = s.toChip.raise 0x4501 [.u16 q.val, .u8 1]) ∧
  (∀ (s : State) (q : Fin 16384), s.live = true → s.cpAsleep q.val = false → (s.queueAt q.val).state = .active →
    (s.queueAt q.val).sqHead ≠ (s.queueAt q.val).sqTail → (s.queueAt q.val).entries = [] →
    ((s.queueAt q.val).cqTail - (s.queueAt q.val).cqHead).toNat < 2 ^ (s.queueAt q.val).cqLog2.toNat →
    s.gives (.commandFetch q) fun c =>
    (c.queueAt q.val).sqHead = (s.queueAt q.val).sqHead + 1 ∧
    ∃ e, (c.queueAt q.val).entries = [e] ∧ e.num = (s.queueAt q.val).sqHead ∧ e.phase = .fetched ∧
      e.raw = BitVec.ofNat 512 (leNat (readData (s.toChip.readFrom (queueSite q.val) ((s.queueAt q.val).sqBase.toNat + 64 * ((s.queueAt q.val).sqHead.toNat %
        2 ^ (s.queueAt q.val).sqLog2.toNat)) 64 0).2))) ∧
  (∀ (s : State) (q : Fin 16384), s.live = true → (s.queueAt q.val).sqHead = (s.queueAt q.val).sqTail →
    s.gives (.commandFetch q) fun c => c = s.toChip)

/-- The command at the head of an Active queue, checked, with every wait met, starts on its turn and does what its opcode does; an
opcode without pieces is then finished (R175–R181, R221, R295, R296, R388, R389). The checks at the head: a command is refused for a
reserved opcode, and one fetched from a poisoned slot completes POISONED; each is finished without an effect (R170, R175, R179). -/
def Obligations.Commands_start : Prop :=
  (∀ (i : Instr) (s : State) (q : Fin 16384) (e : QEntry) (start : Chip → Nat → QEntry → Chip) (t : Chip),
    ((i = .cmdNop q ∧ e.opcode = 0 ∧ start = startNothing) ∨ (i = .cmdKernel q ∧ e.opcode = 1 ∧ start = Chip.startKernel) ∨
     (i = .cmdCopy q ∧ e.opcode = 2 ∧ start = Chip.startCopy) ∨ (i = .cmdFill q ∧ e.opcode = 3 ∧ start = Chip.startFill) ∨
     (i = .cmdPut q ∧ e.opcode = 4 ∧ start = Chip.startPut) ∨ (i = .cmdSignal q ∧ e.opcode = 5 ∧ start = Chip.startSignal) ∨
     (i = .cmdWait q ∧ e.opcode = 6 ∧ start = startNothing) ∨ (i = .cmdFence q ∧ e.opcode = 7 ∧ start = startNothing) ∨
     (i = .cmdUpdate q ∧ e.opcode = 9 ∧ start = Chip.startUpdate) ∨ (i = .cmdMarker q ∧ e.opcode = 10 ∧ start = Chip.startMarker)) →
    s.live = true → (s.queueAt q.val).state = .active → (s.queueAt q.val).head = some e → e.phase = .waiting → e.ready.isSome = true →
    (s.queueAt q.val).entry e.num = some e → s.cpAsleep q.val = false → s.cpRestarts q.val = false →
    s.toChip.meetWaits q.val e = (t, true) → (t.queueAt q.val).entry e.num = some e → t.startable q.val = true → t.cpTurn q.val = true →
    s.gives i fun c => c = (start (t.begin' q.val e) q.val e).release q.val e) ∧
  (∀ (s : State) (q : Fin 16384) (e : QEntry) (t : Chip), e.opcode = 8 →
    s.live = true → (s.queueAt q.val).state = .active → (s.queueAt q.val).head = some e → e.phase = .waiting → e.ready.isSome = true →
    (s.queueAt q.val).entry e.num = some e → s.cpAsleep q.val = false → s.cpRestarts q.val = false →
    s.toChip.meetWaits q.val e = (t, true) → (t.queueAt q.val).entry e.num = some e → t.startable q.val = true → t.cpTurn q.val = true →
    s.gives (.cmdCollective q) fun c => c = ((Chip.startCollective (t.begin' q.val e) q.val e).release q.val e).collFeed) ∧
  (∀ (s : Chip) (q : Nat) (e x : QEntry), s.isShadow = false → (s.queueAt q).entries = [e] → (s.queueAt q).head = some e →
    e.opcode = 0 → e.fails = [] → (((s.begin' q e).release q e).queueAt q).entries = [x] → x.phase = .finished ∧ x.status = e.status) ∧
  (∀ (s : State) (q : Fin 16384) (e : QEntry), s.live = true → (s.queueAt q.val).state = .active → (s.queueAt q.val).entries = [e] →
    e.phase = .fetched → 10 < e.opcode → e.status = .ok → s.cpAsleep q.val = false → s.cpRestarts q.val = false →
    s.gives (.cmdReservedOpcode q) fun c =>
    c = s.toChip.setEntry q.val e.num fun e => { e with phase := .finished, status := .refused, segMap := none }) ∧
  (∀ (s : State) (q : Fin 16384) (e : QEntry), s.live = true → (s.queueAt q.val).state = .active → (s.queueAt q.val).entries = [e] →
    e.phase = .fetched → e.opcode = 0 → e.status = .poisoned → s.cpAsleep q.val = false → s.cpRestarts q.val = false →
    s.gives (.cmdNop q) fun c =>
    c = s.toChip.setEntry q.val e.num fun e => { e with phase := .finished, status := .poisoned, segMap := none })

/-- A finished command completes: its record is written at the completion ring's tail, CQ_TAIL moves on by one, LAST_STATUS and
LAST_INDEX name it, and its slot is free (R166, R184); WAIT_LIMIT ends a wait with TIMEOUT, aging raises a ready command, and an
empty queue that drains is Disabled at its deadline (R171, R181, R182, R189). -/
def Obligations.Completion : Prop :=
  (∀ (s : State) (q : Fin 16384) (n : Word32) (e : QEntry), s.live = true → (s.queueAt q.val).state = .active →
    (s.queueAt q.val).entry n = some e → e.phase = .finished → e.status = .ok → e.sigEn = false → e.opcode ≤ 10 →
    (s.queueAt q.val).cqCountEn = false → s.gives (.commandComplete q n) fun c =>
    (c.queueAt q.val).cqTail = (s.queueAt q.val).cqTail + 1 ∧ (c.queueAt q.val).lastStatus = 0 ∧
    (c.queueAt q.val).lastIndex = BitVec.ofNat 16 (e.num.toNat % 2 ^ (s.queueAt q.val).sqLog2.toNat) ∧
    (c.queueAt q.val).entries = (s.queueAt q.val).entries.filter (·.num != e.num) ∧
    c.mem = ((s.toChip.noteMirrorRecord q.val e .ok).write ((s.queueAt q.val).cqBase.toNat + 32 * ((s.queueAt q.val).cqTail.toNat %
      2 ^ (s.queueAt q.val).cqLog2.toNat)) (leBytes 32 (s.recordBits (s.queueAt q.val) e .ok)) false 0).mem ∧
    (∀ j, j ≠ q.val → c.queueAt j = s.queueAt j)) ∧
  (∀ (s : State) (q : Fin 16384) (e : QEntry) (t : Chip), s.live = true → (s.queueAt q.val).state = .active →
    (s.queueAt q.val).head = some e → e.phase = .waiting → (s.queueAt q.val).waitLimit ≠ 0 → e.opcode ≠ 8 →
    s.toChip.meetWaits q.val e = (t, false) → s.gives (.waitLimitExpiry q) fun c =>
    c = ((s.toChip.dropWaits (.queue q.val)).setEntry q.val e.num fun e => { e with phase := .finished, status := .timeout }).stampHead
      q.val) ∧
  (∀ (s : State) (q : Fin 16384) (e : QEntry), s.live = true → (s.queueAt q.val).head = some e → e.opcode = 8 →
    s.gives (.waitLimitExpiry q) fun c => c = s.toChip) ∧
  (∀ (s : State) (q : Fin 16384) (e : QEntry) (n : Nat), s.live = true → (s.queueAt q.val).head = some e → e.ready = some n →
    s.gives (.queuePrioAging q) fun c => c = s.toChip.setQueue q.val fun v => { v with aged := true }) ∧
  (∀ (s : State) (q : Fin 16384), s.live = true → (s.queueAt q.val).state = .draining → (s.queueAt q.val).entries = [] →
    s.gives (.queueDrainDeadline q) fun c => c = s.toChip.setQueue q.val fun v => { v with state := .disabled })

/-- The job: JOB_END drains every queue and the job is Ending; once nothing of it runs, sanitising begins with streams unbound and
cores reset; when it is done every memory, counter and window is empty and the job is Idle, with event 0x0501 (R126, R190, R196). -/
def Obligations.Job_sequence : Prop :=
  (∀ s : State, s.live = true → s.job.state < 2 → s.queues = [] → s.service.state = .serving → s.gives (.jobEnd true) fun c =>
    c = { s.toChip with job := { state := 2, endTime := s.aon } }) ∧
  (∀ s : State, s.live = true → s.job.state < 2 → s.gives (.jobEnd true) fun c =>
    c.job.state = 2) ∧
  (∀ s : State, s.live = true → s.job.state = 2 → s.jobQuiet = true → s.gives .jobSanitiseStart fun c =>
    c.job = { s.job with state := 3 } ∧ c.tn.streams = [] ∧ c.tn.contexts = [] ∧ c.cores = s.cores.map (fun e => (e.1, e.2.cleared)) ∧
    c.mem = s.mem ∧ c.log = s.log) ∧
  (∀ s : State, s.live = true → s.job.state = 3 → s.mgmt.stage = 6 → s.cellarDown 0 = false → s.cellarDown 1 = false →
    s.gives .jobSanitiseDone fun c =>
    c.job.state = 0 ∧ c.mem = [] ∧ c.sync.counters = [] ∧ c.sync.coreCounters = [] ∧ c.gn.window = [] ∧ c.hbm.poison = [] ∧
    c.hbm.cache = [] ∧ (∀ k, (c.core k).array = ArraySt.reset) ∧ c.log.seq = s.log.seq + 1 ∧ c.gn.members = s.gn.members ∧
    c.mgmt.claimed = s.mgmt.claimed)

/-! ### Synchronisation and collectives -/

/-- An add to an ordinary counter: the value rises by the amount, held at 2⁶⁴ − 1 with event 0x4601, every registered waiter it now
meets leaves the table, and the counter's debug view notes the add (R195, R199, R208). Waits: one already met ends at once and takes
no entry, another is registered while its site's table has room, and a poller ends once its counter meets it (R199, R200). -/
def Obligations.Counters_and_waits : Prop :=
  (∀ (s : State) (i : BitVec 18) (a : Word), s.live = true → s.arriveOf i.toNat = none → s.doneOf i.toNat = none →
    (s.counter i.toNat).value.toNat + a.toNat < 2 ^ 64 → s.gives (.counterAdd i a .mgmt) fun c =>
    (c.counter i.toNat).value = (s.counter i.toNat).value + a ∧ (c.counter i.toNat).lastAdd = a ∧
    (c.counter i.toNat).lastStamp = s.timebase ∧ (c.counter i.toNat).lastKind = 6 ∧
    (∀ j, j ≠ i.toNat → c.counter j = s.counter j) ∧
    c.sync.waiters = s.sync.waiters.filter (fun w =>
      !(w.counter == i.toNat && w.registered && w.threshold.toNat ≤ ((s.counter i.toNat).value + a).toNat)) ∧
    c = { s.toChip with sync := { s.sync with counters := c.sync.counters, waiters := c.sync.waiters } }) ∧
  (∀ (s : State) (i : BitVec 18) (a : Word), s.live = true → s.arriveOf i.toNat = none → s.doneOf i.toNat = none →
    2 ^ 64 ≤ (s.counter i.toNat).value.toNat + a.toNat → s.gives (.counterAdd i a .mgmt) fun c =>
    (c.counter i.toNat).value = BitVec.allOnes 64 ∧ c.log.seq = s.log.seq + 1 ∧ c.mem = s.mem) ∧
  (∀ (s : State) (i : BitVec 18) (a : Word), s.live = true → s.arriveOf i.toNat = none → (s.doneOf i.toNat).isSome = true →
    s.gives (.counterAdd i a .mgmt) fun c => c = (s.toChip.bump O.counterRefusals 1).raiseLimited 0x4602 0 []) ∧
  (∀ (s : State) (k : Fin 256) (o : BitVec 13) (v : Word), s.live = true → o.toNat < 0x200 → o.toNat % 8 = 0 →
    (s.coreCounter k.val (o.toNat / 8)).value.toNat + v.toNat < 2 ^ 64 → s.gives (.counterPageWrite k o v .mgmt) fun c =>
    (c.coreCounter k.val (o.toNat / 8)).value = (s.coreCounter k.val (o.toNat / 8)).value + v ∧ c.sync.counters = s.sync.counters ∧
    c = { s.toChip with sync := { s.sync with coreCounters := c.sync.coreCounters } }) ∧
  (∀ (s : State) (k : Fin 256) (o : BitVec 13) (v : Word) (r : AddSrc), s.live = true → 0x200 ≤ o.toNat →
    s.gives (.counterPageWrite k o v r) fun c => c = s.toChip) ∧
  (∀ (s : State) (i : BitVec 18) (t : Word) (o : WaitOwner), s.live = true → t.toNat ≤ (s.counter i.toNat).value.toNat →
    s.gives (.waitRegister i t o) fun c =>
    c = { s.toChip with sync := { s.sync with waiters := s.sync.waiters.filter fun w =>
      !(w.counter == i.toNat && w.owner == o && w.threshold == t) } }) ∧
  (∀ (s : State) (i : BitVec 18) (t : Word) (o : WaitOwner), s.live = true → (s.counter i.toNat).value.toNat < t.toNat →
    (s.sync.waiters.all fun w => !(w.counter == i.toNat && w.owner == o && w.threshold == t)) = true →
    s.waitersUsed (i.toNat / 32768) < 16384 → s.gives (.waitRegister i t o) fun c =>
    c = { s.toChip with sync := { s.sync with
      waiters := s.sync.waiters ++ [⟨i.toNat, t, o, true, s.sync.clock⟩], clock := s.sync.clock + 1 } }) ∧
  (∀ (s : State) (i : BitVec 18) (o : WaitOwner), s.live = true → s.gives (.pollIntervalExpiry i o) fun c =>
    c = { s.toChip with sync := { s.sync with waiters := s.sync.waiters.filter fun w =>
      !(w.counter == i.toNat && w.owner == o && !w.registered && w.threshold.toNat ≤ (s.counter i.toNat).value.toNat) } })

/-- Barriers: a valid descriptor is bound with its generation from DONE_CTR, one that breaks a rule is refused with event 0x4605
and stays unbound, unbinding ends it, bytes 0–23 take no write, and a refused arrival is sent again (R203, R204, R206, R207). An
arrival at a bound barrier: one for a generation that has completed is stale; the last one for the next generation completes it,
and DONE_CTR rises by one; one for the generation after that counts ahead (R205). What a refused write of a bound descriptor
counts as is the model's reading (log 164). -/
def Obligations.Barriers : Prop :=
  (∀ (s : State) (b : Fin 4096) (w : Word), s.live = true → w.getLsbD 63 = true → (s.barrier b.val).enable = false →
    s.bindCheck b.val (barrierFields w).1.toNat (barrierFields w).2.1.toNat (barrierFields w).2.2.toNat = none →
    s.gives (.barrierBind b w) fun c => c = s.toChip.setBarrier b.val { s.barrier b.val with
      enable := true, arriveCtr := (barrierFields w).1, doneCtr := (barrierFields w).2.1, participants := (barrierFields w).2.2
      arrivedG := 0, arrivedG1 := 0, overrunStalls := 0, staleArrivals := 0
      generation := (s.counter (barrierFields w).2.1.toNat).value, held := [] }) ∧
  (∀ (s : State) (b : Fin 4096) (w : Word), s.live = true → w.getLsbD 63 = true → (s.barrier b.val).enable = false →
    (barrierFields w).1 = (barrierFields w).2.1 → s.gives (.barrierBind b w) fun c =>
    (c.barrier b.val).enable = false ∧ c.log.seq = s.log.seq + 1 ∧ c.sync.counters = s.sync.counters) ∧
  (∀ (s : State) (b : Fin 4096) (w : Word), s.live = true → w.getLsbD 63 = false → (s.barrier b.val).held = [] →
    s.gives (.barrierUnbind b w) fun c => c = s.toChip.setBarrier b.val { s.barrier b.val with
      enable := false, arriveCtr := (barrierFields w).1, doneCtr := (barrierFields w).2.1, participants := (barrierFields w).2.2
      held := [] }) ∧
  (∀ (s : State) (b : Fin 4096) (k : Fin 3) (w : Word), s.live = true → s.gives (.barrierDescWrite b k w) fun c =>
    c = if (s.barrier b.val).enable then (s.toChip.bump O.counterRefusals 1).raiseLimited 0x4602 0 [] else s.toChip) ∧
  (∀ (s : State) (b : Fin 4096) (w : Word), s.live = true → w.getLsbD 63 = true → (s.barrier b.val).enable = true →
    s.gives (.barrierBind b w) fun c =>
    c = ((s.toChip.bump O.counterRefusals 1).raiseLimited 0x4602 0 []).raise 0x4605 [.u16 b.val, .u8 5]) ∧
  (∀ (s : State) (r : Resend), s.live = true → s.sync.resends = [r] → s.gives (.arrivalResendTimer r.src) fun c =>
    c = (({ s.toChip with sync := { s.sync with resends := [] } } : Chip).addFrom r.counter r.amount r.src).1) ∧
  (∀ (s : State) (i : BitVec 18) (a : Word) (b : Nat) (x : Barrier), s.live = true → s.arriveOf i.toNat = some (b, x) →
    a.toNat ≤ (s.counter (s.barrier b).doneCtr.toNat).value.toNat → s.gives (.counterAdd i a .mgmt) fun c =>
    c = s.toChip.staleArrival b a .mgmt) ∧
  (∀ (s : State) (i : BitVec 18) (a : Word) (b : Nat) (x : Barrier), s.live = true → s.arriveOf i.toNat = some (b, x) →
    a.toNat = (s.counter (s.barrier b).doneCtr.toNat).value.toNat + 1 → (s.barrier b).held = [] →
    (s.barrier b).participants = (s.barrier b).arrivedG + 1 → (s.barrier b).arrivedG1 = 0 →
    (s.barrier b).participants ≠ 0 → (s.barrier b).arriveCtr ≠ (s.barrier b).doneCtr → s.gives (.counterAdd i a .mgmt) fun c =>
    (c.counter (s.barrier b).doneCtr.toNat).value = a ∧ (c.barrier b).generation = a ∧ (c.barrier b).arrivedG = 0 ∧ c.mem = s.mem) ∧
  (∀ (s : State) (i : BitVec 18) (a : Word) (b : Nat) (x : Barrier), s.live = true → s.arriveOf i.toNat = some (b, x) →
    a.toNat = (s.counter (s.barrier b).doneCtr.toNat).value.toNat + 2 → (s.barrier b).arrivedG1 ≠ (s.barrier b).participants →
    s.gives (.counterAdd i a .mgmt) fun c =>
    (c.barrier b).arrivedG1 = (s.barrier b).arrivedG1 + 1 ∧ (c.barrier b).arrivedG = (s.barrier b).arrivedG ∧
    (c.counter (s.barrier b).doneCtr.toNat).value = (s.counter (s.barrier b).doneCtr.toNat).value ∧ c.mem = s.mem)

/-- Binding a communicator: a valid descriptor is Bound with its member list read and hashed and NEXT_SEQ at START_SEQ; one that
breaks a rule stays Unbound with event 0x4701, and so does a write to a slot in use; unbinding an idle slot leaves it Unbound and
discards what came early for it, and one with collectives in flight drains first (R213–R215, R228). How collectives end: with
everything landed OK; at the end of a gather MISMATCH; at COLL_WATCHDOG TIMEOUT with ABORT to the others and event 0x8702; with a
failed member MEMBER_FAILED, which leaves the communicator Failed; at COLL_DRAIN_DEADLINE CANCELLED. Whatever ends one, its context
is free and its command has its status, SEG_MAP naming the first named member and the detector, 0xFFF where nobody is named, the
model's choice (log 133) (R223, R229, R233–R235, R237). -/
def Obligations.Collectives : Prop :=
  (∀ (s : State) (n : Fin 4096) (w : Word) (v : CommSlot), s.live = true → w.getLsbD 63 = true → (s.comm n.val).state = .unbound →
    v = { s.comm n.val with commId := w.extractLsb' 47 16, nmembers := w.extractLsb' 34 13, myIndex := w.extractLsb' 22 12 } →
    s.commCheck n.val v = none → s.gives (.commBind n w) fun c =>
    c = let r := s.toChip.read v.members.toNat (2 * v.nmembers.toNat) 0
      let ids := (List.range v.nmembers.toNat).map fun i => BitVec.ofNat 16 (leNat (((readData r.2).drop (2 * i)).take 2))
      r.1.setComm n.val { v with
        enable := true, state := .bound, nextSeq := v.startSeq, membersHash := membersHash ids, list := ids }) ∧
  (∀ (s : State) (n : Fin 4096) (w : Word) (v : CommSlot) (k : Nat), s.live = true → w.getLsbD 63 = true →
    (s.comm n.val).state = .unbound →
    v = { s.comm n.val with commId := w.extractLsb' 47 16, nmembers := w.extractLsb' 34 13, myIndex := w.extractLsb' 22 12 } →
    s.commCheck n.val v = some k → s.gives (.commBind n w) fun c =>
    c = (s.toChip.setComm n.val v).raise 0x4701 [.u16 n.val, .u8 k] ∧ (c.comm n.val).state = .unbound) ∧
  (∀ (s : State) (n : Fin 4096) (w : Word), s.live = true → w.getLsbD 63 = true → (s.comm n.val).state = .bound →
    s.gives (.commBind n w) fun c => c = s.toChip.raise 0x4701 [.u16 n.val, .u8 6]) ∧
  (∀ (s : State) (n : Fin 4096) (w : Word), s.live = true → w.getLsbD 63 = false → (s.comm n.val).state = .bound →
    s.inflightOn n.val = [] → s.gives (.commUnbind n w) fun c =>
    c.comm n.val = { s.comm n.val with enable := false, state := .unbound, list := [] } ∧
    (∀ j, j ≠ n.val → c.comm j = s.comm j) ∧
    c.coll.early = s.coll.early.filter (fun e => e.comm != some (s.comm n.val).commId) ∧
    c = { s.toChip with coll := c.coll, objs := c.objs, queues := c.queues, sync := c.sync }) ∧
  (∀ (s : State) (n : Fin 4096) (w : Word), s.live = true → w.getLsbD 63 = false → (s.comm n.val).state = .bound →
    s.inflightOn n.val ≠ [] → s.gives (.commUnbind n w) fun c =>
    c = (s.toChip.setComm n.val { s.comm n.val with enable := false, state := .draining }).collSweep.raise 0x0701
      [.u16 n.val, .u32 (s.inflightOn n.val).length]) ∧
  (∀ (s : State) (id : Half), s.live = true → s.slotOf id = none → s.gives (.earlyStoreDiscard id) fun c =>
    c = ({ s.toChip with coll := { s.coll with early := s.coll.early.filter fun e => e.comm != some id } } : Chip).bump
      O.earlyDiscards (s.coll.early.filter fun e => e.comm == some id).length) ∧
  (∀ (s : State) (n : Fin 4096) (q : Word32) (k : Collective), s.live = true → s.collOf n.val q = some k → k.cmd.op ≠ 6 →
    s.collReady k (s.comm n.val) = true → s.gives (.collComplete n q) fun c => c = (s.toChip.collEnd k (s.comm n.val) .ok 0).collFeed) ∧
  (∀ (s : State) (n : Fin 4096) (q : Word32) (k : Collective), s.live = true → s.collOf n.val q = some k →
    s.collReady k (s.comm n.val) = false → s.gives (.collComplete n q) fun c => c = s.toChip.collFeed) ∧
  (∀ s : Chip, s.coll.waiting = [] → s.collFeed = s) ∧
  (∀ (s : State) (n : Fin 4096) (q : Word32) (k : Collective), s.live = true → s.collOf n.val q = some k → k.gathering = true →
    s.gives (.mismatchGatherExpiry n q) fun c => c = (s.toChip.endGather k (s.comm n.val)).collFeed) ∧
  (∀ (s : State) (n : Fin 4096) (q : Word32) (k : Collective) (names : List Nat), s.live = true → s.collOf n.val q = some k →
    names = (List.range (s.comm n.val).nmembers.toNat).filter
      (fun m => m != (s.comm n.val).myIndex.toNat && s.missing k (s.comm n.val) m) →
    s.gives (.collWatchdogExpiry n q) fun c =>
    c = ((((s.toChip.collMute n.val q).sendAborts k (s.comm n.val) (s.comm n.val).others .timeout (s.comm n.val).myIndex.toNat
      names.length names).raise 0x8702 ([.u16 (s.comm n.val).commId.toNat, .u32 q.toNat] ++ (names.take 8).map (.u16 ·))).collFail
        k (s.comm n.val) .timeout (s.comm n.val).myIndex.toNat names.length names 0).collFeed) ∧
  (∀ (s : State) (chip : Half) (n : Nat) (v : CommSlot), s.live = true → s.coll.comms = [(n, v)] → v.state = .bound →
    (v.indexOf chip).isSome = true → v.chip v.myIndex.toNat ≠ chip → s.chipHeld chip = true →
    s.gives (.collMemberFailed chip) fun c =>
    (c.comm n).state = .failed ∧ c.inflightOn n = []) ∧
  (∀ (s : State) (n : Fin 4096), s.live = true → (s.comm n.val).state = .draining → s.inflightOn n.val ≠ [] →
    s.gives (.collDrainDeadline n) fun c => (c.comm n.val).state = .unbound ∧ c.inflightOn n.val = []) ∧
  (∀ (s : Chip) (k : Collective) (v : CommSlot) (st : Status) (d m : Nat) (names : List Nat) (other : Word) (e : QEntry),
    (s.queueAt k.queue).entry k.num = some e →
    ((s.collFail k v st d m names other).queueAt k.queue).entry k.num = some { e with
      phase := .finished, status := st, detail := k.seq.setWidth 24
      segMap := some (BitVec.ofNat 64 (if st = .refused then 0 else names.head?.getD 0xFFF + d * 2 ^ 16)) } ∧
    (s.collFail k v st d m names other).collOf k.slot k.seq = none)

/-! ### Memory -/

/-- What is written reads back: over data memory whose cellar dies answer, whose channels answer and no unit of which is being
moved, a read after a write of any length gives the bytes written (R241, R249, R250). -/
def Obligations.Read_after_write : Prop :=
  ∀ (s : Chip) (a : Nat) (bs : List Byte), (∀ u, s.copying u = false) → (∀ n, (s.channel n).unresponsive = false) →
    (∀ i, i < bs.length → (s.region (a + i)).isData = true ∧ s.unreachable (a + i) = false) →
    readData ((s.write a bs false 0).read a bs.length 0).2 = bs

/-- A write leaves every byte outside its range as it was, where every channel answers and no clean cached line hides another copy
that HBM holds (R249, R250). -/
def Obligations.Writes_leave_other_bytes : Prop :=
  ∀ (s : Chip) (a b : Nat) (bs : List Byte), (∀ n, (s.channel n).unresponsive = false) → (∀ l x, Tab.get none s.hbm.cache l = some x → x.under = none ∨ x.dirty = true) →
    b < a ∨ a + bs.length ≤ b → (s.write a bs false 0).byte b = s.byte b

/-- Memory keeps its canonical form under every access and every command of the memory system. -/
def Obligations.Memory_stays_canonical : Prop :=
  (∀ (s : Chip) (a n : Nat) (bs : List Byte) (p : Bool) (h : Hint), s.canonical →
    (s.write a bs p h).canonical ∧ (s.read a n h).1.canonical) ∧
  (∀ (s t : State) (i : Instr), s.toChip.canonical → exec i s = .next t →
    ((∃ x, i = .hbmAccess x) ∨ (∃ n, i = .channelAccessTimeout n) ∨ (∃ e w, i = .interleaveEntryCommit e w) ∨
     (∃ v, i = .keepRelease v) ∨ (∃ l, i = .odeccReadTimer l) ∨ (∃ l e, i = .patrolScrub l e) ∨ (∃ n, i = .mapoutRequest n) ∨
     (∃ n, i = .mapoutStart n) ∨ (∃ u, i = .unitCopyDone u) ∨ i = .mapoutComplete ∨ (∃ v, i = .shrinkAck v) ∨
     i = .shrinkGraceExpiry ∨ (∃ p, i = .marginPeriodTimer p) ∨ (∃ p, i = .marginNow p) ∨ (∃ p w, i = .sweepPhaseDone p w) ∨
     (∃ p, i = .hbmRefresh p)) → t.toChip.canonical)

/-- Accesses at the home of a line: a STREAM read of a line that is not cached gives its bytes and its mark and allocates
nothing, a STREAM write of a whole line stores its bytes; a channel that does not answer gives poisoned data, and at its eighth
silence in a row is judged unresponsive; on-die corrections are added up, a scrub without errors changes no data, KEEP_RELEASE
leaves no KEEP line (R250–R252, R257, R260, R386; the data of a silent channel is a free value, the model's choice, log 5). The
interleave table: a valid entry is taken, its reserved bits as zero; one that breaks a rule is stored with VALID clear and event
0x4806 names the rule; a write while a job runs changes nothing (R245, R246). A scrub's line beyond the chip offsets names HBM
by place, the model's choice (log 166). -/
def Obligations.Hbm_accesses : Prop :=
  (∀ (s : State) (x : HbmAccess) (p r : Place), s.live = true → s.region x.addr = .hbm p → s.place (64 * (x.addr / 64)) = some r →
    0 < x.len → x.addr % 64 + x.len ≤ 64 → x.write = none → x.errors = [] → x.hint = 1 → s.copying r.unit = false →
    s.deadPlace r = false → Tab.get none s.hbm.cache (x.addr / 64) = none →
    s.gives (.hbmAccess x) fun c => c.out = .data (s.bytes x.addr x.len) (s.poisoned (64 * (x.addr / 64))) :: s.out ∧
    c.mem = s.mem ∧ c.hbm.cache = s.hbm.cache ∧ c.hbm.poison = s.hbm.poison ∧ c.objs = s.objs) ∧
  (∀ (s : State) (x : HbmAccess) (p : Place) (bs : List Byte) (b : Bool), s.live = true → s.region x.addr = .hbm p → x.len = 64 →
    x.addr % 64 = 0 → x.write = some (bs, b) → bs.length = 64 → x.hint = 1 → s.copying p.unit = false →
    Tab.get none s.hbm.cache (x.addr / 64) = none → s.gives (.hbmAccess x) fun c => (∀ i, i < 64 → c.byte (x.addr + i) = nth 0 bs i) ∧
    (∀ k, k < x.addr ∨ x.addr + 64 ≤ k → c.byte k = s.byte k) ∧ c.hbm.cache = s.hbm.cache ∧ c.queues = s.queues ∧ c.objs = s.objs) ∧
  (∀ (s : State) (n : Fin 1024), s.live = true → (s.channel n.val).silent ≤ 6 → s.gives (.channelAccessTimeout n) fun c =>
    (c.channel n.val).silent = (s.channel n.val).silent + 1 ∧ (∃ d r, c.out = .data d true :: r ∧ d.length = 64) ∧
    c.mem = s.mem ∧ c.hbm.migration = s.hbm.migration) ∧
  (∀ (s : State) (n : Fin 1024), s.live = true → 7 ≤ (s.channel n.val).silent → (s.channel n.val).state = .healthy →
    s.gives (.channelAccessTimeout n) fun c => (c.channel n.val).unresponsive = true ∧ (c.channel n.val).state ≠ .healthy ∧
    c.mem = s.mem) ∧
  (∀ (s : State) (n : Fin 1024) (k : Nat), s.live = true → s.hbm.pcs = [] → s.gives (.odeccReadTimer [(n.val, k)]) fun c =>
    c = s.toChip.bump (O.chOdecc + 256 * n.val) k) ∧
  (∀ (s : State) (l : Nat), s.live = true → (s.region (64 * l) = .cellar ∨ s.region (64 * l) = .coreMem) →
    s.gives (.patrolScrub l []) fun c => c = s.toChip) ∧
  (∀ (s : State) (l : Nat) (p : Place), s.live = true → s.region (64 * l) = .hbm p → s.deadPlace p = false →
    s.gives (.patrolScrub l []) fun c =>
    c = s.toChip.setChannel (unitChannel (s.servingUnit p.unit)) fun x => { x with silent := 0 }) ∧
  (∀ (s : State) (l : Nat), s.live = true → l < 3 * 2 ^ 34 → s.ownerOf (physUnit (64 * l)) = none →
    (s.channel (unitChannel (physUnit (64 * l)))).unresponsive = false →
    s.gives (.patrolScrub (2 ^ 38 + l) []) fun c => c = s.toChip) ∧
  (∀ s : State, s.live = true → s.gives (.keepRelease true) fun c =>
    (∀ l x, Tab.get none c.hbm.cache l = some x → x.keep = false ∧ ∃ y, Tab.get none s.hbm.cache l = some y ∧
      x = { y with keep := false }) ∧ c = { s.toChip with hbm := { s.hbm with cache := c.hbm.cache } }) ∧
  (∀ (s : State) (r : Fin 64) (w : Word), s.live = true → s.job.state = 0 → w.getLsbD 63 = true →
    s.ilCheck r.val (w &&& 0xFE000FFFFFFFFF00) = none → s.gives (.interleaveEntryCommit r w) fun c =>
    c.ilWord r.val = w &&& 0xFE000FFFFFFFFF00 ∧ (∀ j, j ≠ r.val → c.ilWord j = s.ilWord j) ∧ c.log = s.log ∧ c.queues = s.queues) ∧
  (∀ (s : State) (r : Fin 64) (w : Word) (k : Nat), s.live = true → s.job.state = 0 → w.getLsbD 63 = true →
    s.ilCheck r.val (w &&& 0xFE000FFFFFFFFF00) = some k → s.gives (.interleaveEntryCommit r w) fun c =>
    (c.ilWord r.val).getLsbD 63 = false ∧ (∀ j, j ≠ r.val → c.ilWord j = s.ilWord j) ∧ c.log.seq = s.log.seq + 1 ∧
    (Tab.get LogEntry.zero c.log.ring s.log.next).args = [BitVec.ofNat 8 r.val, 0, BitVec.ofNat 8 k]) ∧
  (∀ (s : State) (r : Fin 64) (w : Word), s.live = true → s.job.state ≠ 0 → s.gives (.interleaveEntryCommit r w) fun c =>
    c = s.toChip.raise 0x4806 [.u16 r.val, .u8 0])

/-- Map-out: an accepted request starts one, with event 0x4802, where the headland has room, and announces a shrink where it has
not; its units enter the copy; a unit whose copy ends is served by its donor; after the last one the channel is MappedOut with
event 0x0801; SHRINK_ACK and the end of the grace take V down by one (R259–R266). Margin sweeps and refresh: a sweep starts by
draining its pseudo-channel's units where 2,048 stay free, and is put off with event 0x4804 where they do not; its phases follow
each other and leave the windows; refresh goes round the bank groups, and a stack in self-refresh refreshes itself (R268–R272).
When a sweep that waits starts, and that SWEEP_PHASE_DONE switches what is left, is the model's choice (log 167); a partly
written line is poisoned at the donor (log 165). -/
def Obligations.Map_out : Prop :=
  (∀ (s : State) (n : Half) (t : Chip), s.live = true → n.toNat < 1024 → (s.channel n.toNat).state = .healthy →
    t = s.toChip.setChannel n.toNat (fun x => { x with cause := some .request }) → t.mappedOutCount < 64 →
    s.hbm.migration = none → s.hbm.shrink = none → s.hbm.waitingChannels = [] →
    s.gives (.mapoutRequest n) fun c => c = t.tryMapout n.toNat .request) ∧
  (∀ (s : Chip) (n : Nat) (k : MapCause), (s.unitsOfChannel n).length ≤ s.headlandFree → (s.channel n).unresponsive = false →
    ((s.tryMapout n k).channel n).state = .migrating ∧
    (s.tryMapout n k).hbm.migration = some ⟨n, k, false, s.aon, false, [], []⟩ ∧ (s.tryMapout n k).log.seq = s.log.seq + 1 ∧
    (s.tryMapout n k).mem = s.mem) ∧
  (∀ (s : Chip) (n : Nat) (k : MapCause), s.headlandFree < (s.unitsOfChannel n).length →
    ((s.tryMapout n k).channel n).state = .pending ∧ (s.tryMapout n k).hbm.shrink = some ⟨n, k⟩ ∧
    (s.tryMapout n k).hbm.migration = s.hbm.migration ∧ (s.tryMapout n k).log.seq = s.log.seq + 1 ∧ (s.tryMapout n k).mem = s.mem) ∧
  (∀ (s : State) (n : Fin 1024) (m : Migration), s.live = true → s.hbm.migration = some m → m.channel = n.val → m.chosen = false →
    s.gives (.mapoutStart n) fun c => c = ({ s.toChip with hbm := { s.hbm with migration := some { m with
      chosen := true
      todo := (s.unitsOfChannel n.val).zip (s.chooseDonors (2 * n.val + 1) n.val (s.unitsOfChannel n.val).length) } } } : Chip).fillCopies) ∧
  (∀ (s : State) (m : Migration) (x : UnitCopy), s.live = true → s.hbm.migration = some m → m.todo = [] → m.copying = [x] →
    m.poison = false → s.gives (.unitCopyDone x.unit) fun c =>
    c = ({ s.toChip with hbm := { s.hbm with migration := some { m with copying := [] } } } : Chip).relocate x.unit x.donor) ∧
  (∀ (s : Chip) (u d : Nat), (s.relocate u d).servingUnit u = d ∧ (s.relocate u d).mem = s.mem ∧
    (∀ v, v ≠ u → (s.relocate u d).servingUnit v = s.servingUnit v)) ∧
  (∀ (s : State) (m : Migration) (x : UnitCopy), s.live = true → s.hbm.migration = some m → m.todo = [] → m.copying = [x] →
    m.poison = true → s.gives (.unitCopyDone x.unit) fun c => c.servingUnit x.unit = x.donor ∧ c.mem = s.mem ∧
      (x.zeroed = false → UnitPoison.mk x.unit x.written ∈ c.hbm.unitPoison) ∧
      (x.zeroed = true → ∀ y ∈ c.hbm.unitPoison, y.unit ≠ x.unit)) ∧
  (∀ (s : State) (p : Nat) (x : UnitCopy) (l : List (Nat × Nat)), s.live = true → s.hbm.migration = none →
    s.hbm.sweeps = [⟨p, .draining, [], [x], l⟩] → s.gives (.unitCopyDone x.unit) fun c => c.servingUnit x.unit = x.donor ∧
    c.hbm.sweeps = [⟨p, .draining, [], [], l.filter (·.1 != x.unit) ++ [(x.unit, x.donor)]⟩] ∧ c.mem = s.mem ∧ c.log = s.log) ∧
  (∀ (s : State) (m : Migration), s.live = true → s.hbm.migration = some m → m.chosen = true → m.todo = [] → m.copying = [] →
    s.hbm.waitingChannels = [] → (∀ e ∈ s.hbm.pcs, e.2.sweepDue = false) → s.gives .mapoutComplete fun c => (c.channel m.channel).state = .mappedOut ∧
    c.hbm.migration = none ∧ c.log.seq = s.log.seq + 1 ∧
    c.hbm.mapoutLog.getLast? = some ⟨m.channel, m.cause.code, if m.poison then 1 else 0, (s.aon - m.start) / 1000000, s.timebase⟩ ∧
    c.mem = s.mem) ∧
  (∀ (s : State) (k : Shrink) (i : Instr), s.live = true → (i = .shrinkAck true ∨ i = .shrinkGraceExpiry) → s.hbm.shrink = some k →
    (s.channel k.channel).unresponsive = false → s.gives i fun c => c.hbm.v = s.hbm.v - 1 ∧ c.hbm.shrink = none ∧
    (c.channel k.channel).state = .migrating ∧ c.log.seq = s.log.seq + 2) ∧
  (∀ (s : State) (i : Instr), s.live = true → (i = .shrinkAck true ∨ i = .shrinkGraceExpiry) → s.hbm.shrink = none →
    s.gives i fun c => c = s.toChip) ∧
  (∀ (s : State) (p : Nat) (i : Instr), s.live = true → p < 2048 → ((∃ k : Fin 2048, k.val = p ∧ i = .marginPeriodTimer k) ∨
    i = .marginNow (BitVec.ofNat 16 p)) → s.obj O.marginPeriod ≠ 0 → (s.channel (p / 2)).state = .healthy → s.hbm.sweeps = [] →
    s.sweepNeed p + 2048 ≤ s.headlandFree → s.gives i fun c =>
    (let l := (s.unitsOfPc p).zip (s.chooseDonors p (p / 2) (s.sweepNeed p))
     c.hbm.sweeps = [⟨p, .draining, l.drop 8, (l.take 8).map UnitCopy.begin', []⟩]) ∧ c.log = s.log ∧ c.queues = s.queues) ∧
  (∀ (s : State) (p : Fin 2048), s.live = true → s.obj O.marginPeriod = 0 → s.gives (.marginPeriodTimer p) fun c => c = s.toChip) ∧
  (∀ (s : State) (p : Half), s.live = true → p.toNat < 2048 → (s.channel (p.toNat / 2)).state = .healthy → s.hbm.sweeps = [] →
    s.headlandFree < s.sweepNeed p.toNat + 2048 → s.gives (.marginNow p) fun c =>
    c = (let t := s.toChip.setPc p.toNat fun x => { x with sweepDue := true }
      if (s.pcOf p.toNat).deferred then t
      else (t.setPc p.toNat fun x => { x with deferred := true }).raise 0x4804 [.u16 p.toNat])) ∧
  (∀ (s : State) (p : Fin 2048) (w : List (Int × Int × Int × Int)) (l : List (Nat × Nat)), s.live = true →
    (l.map (·.1)).Nodup → s.hbm.sweeps = [⟨p.val, .draining, l, [], []⟩] → s.gives (.sweepPhaseDone p w) fun c =>
    c.hbm.sweeps = [⟨p.val, .sweeping, [], [], l⟩] ∧ (∀ t ∈ l, c.servingUnit t.1 = t.2) ∧ c.log = s.log ∧ c.queues = s.queues) ∧
  (∀ (s : State) (p : Fin 2048) (w : List (Int × Int × Int × Int)) (l : List (Nat × Nat)), s.live = true →
    s.hbm.sweeps = [⟨p.val, .sweeping, [], [], l⟩] → s.gives (.sweepPhaseDone p w) fun c =>
    (c.pcOf p.val).windows = w.map retrained ∧ (c.pcOf p.val).windowTime = s.timebase ∧ (s.hbm.cache = [] → c.mem = s.mem) ∧
    ((∀ x ∈ w.map retrained, (s.obj O.marginTimeMin : Int) ≤ winWidth x.left x.right ∧
        (s.obj O.marginVrefMin : Int) ≤ winWidth x.vlow x.vhigh) →
      c.hbm.sweeps = [⟨p.val, .copyingBack, l.drop 8, (l.take 8).map UnitCopy.begin', []⟩] ∧ c.log = s.log)) ∧
  (∀ (s : State) (p : Fin 2048) (w : List (Int × Int × Int × Int)) (l : List (Nat × Nat)), s.live = true →
    (∀ e ∈ s.hbm.pcs, e.2.sweepDue = false) → s.hbm.sweeps = [⟨p.val, .copyingBack, l, [], []⟩] →
    s.gives (.sweepPhaseDone p w) fun c => c.hbm.sweeps = [] ∧ c.log = s.log) ∧
  (∀ (s : State) (p : Fin 2048), s.live = true → (Tab.get Stack.reset s.hbm.hbmStacks (p.val / 64)).selfRefresh = false →
    s.gives (.hbmRefresh p) fun c =>
    c = s.toChip.setPc p.val fun x => { x with bankGroup := (x.bankGroup + 1) % (Config.bankGroups + 1) }) ∧
  (∀ (s : State) (p : Fin 2048), s.live = true → (Tab.get Stack.reset s.hbm.hbmStacks (p.val / 64)).selfRefresh = true →
    s.gives (.hbmRefresh p) fun c => c = s.toChip)

/-! ### Cores -/

/-- RV64GC on the control core: an integer operation writes its register, a branch goes on at its target or behind itself, a
jump leaves the address behind it, a floating-point operation writes its result and its flags, a word that stands for nothing is
ILLEGAL; x0 stays zero (R280, R300). Encodings and operations are those of the RISC-V ISA manual, taken from outside the spec
(log 18). -/
def Obligations.Control_core_instructions : Prop :=
  (∀ (s : State) (k : Fin 264) (w : Word32) (t : Chip) (op : AluOp) (half : Bool) (rd rs1 : BitVec 5) (b : AluSrc) (v : Word),
    s.mayIssue k.val (rvLen w.toNat) → t = s.toChip.fetched k.val → decodeRv w.toNat = some (.alu op half rd rs1 b) →
    v = (match b with | .reg r => (t.core k.val).rx r | .imm v => v) → s.gives (.rv64Instruction k w) fun c =>
    c = t.setCore k.val fun x => (x.setX rd.toNat (aluResult op half ((t.core k.val).rx rs1) v)).retire (rvLen w.toNat)) ∧
  (∀ (s : State) (k : Fin 264) (w : Word32) (t : Chip) (op : BranchOp) (rs1 rs2 : BitVec 5) (off : Word),
    s.mayIssue k.val (rvLen w.toNat) → t = s.toChip.fetched k.val → decodeRv w.toNat = some (.branch op rs1 rs2 off) →
    s.gives (.rv64Instruction k w) fun c =>
    (c.core k.val).pc = (if branchTaken op ((t.core k.val).rx rs1) ((t.core k.val).rx rs2) then (t.core k.val).pc + off
      else (t.core k.val).pc + BitVec.ofNat 64 (rvLen w.toNat)) ∧ (c.core k.val).x = (t.core k.val).x ∧
    (∀ j, j ≠ k.val → c.core j = s.core j) ∧ c = { s.toChip with cores := c.cores }) ∧
  (∀ (s : State) (k : Fin 264) (w : Word32) (rd : BitVec 5) (off : Word), s.mayIssue k.val (rvLen w.toNat) → rd ≠ 0 →
    decodeRv w.toNat = some (.jal rd off) → s.gives (.rv64Instruction k w) fun c =>
    (c.core k.val).pc = (s.core k.val).pc + off ∧
    (c.core k.val).rx rd = (s.core k.val).pc + BitVec.ofNat 64 (rvLen w.toNat) ∧
    (∀ r, r ≠ rd → (c.core k.val).rx r = (s.core k.val).rx r) ∧ c = { s.toChip with cores := c.cores }) ∧
  (∀ (s : State) (k : Fin 264) (w : Word32) (t : Chip) (op : FpOp) (dbl : Bool) (rd rs1 rs2 : BitVec 5) (rm : BitVec 3) (m : RMode)
    (r : FpResult), s.mayIssue k.val (rvLen w.toNat) → t = s.toChip.fetched k.val →
    decodeRv w.toNat = some (.fp op dbl rd rs1 rs2 rm) → (∀ a b c, op ≠ .fma a b c) → (t.core k.val).roundingOf rm = some m →
    op.rounds = true → r = fpResult op dbl m ((t.core k.val).rf rs1) ((t.core k.val).rf rs2) ((t.core k.val).rf 0) ((t.core k.val).rx rs1) →
    s.gives (.rv64Instruction k w) fun c =>
    c = let u := t.setCore k.val fun x => x.accrue r.flags
      if r.toF then u.retireF k.val rd.toNat r.value 4 else u.retireX k.val rd.toNat r.value 4) ∧
  (∀ (s : State) (k : Fin 264) (w : Word32), s.mayIssue k.val (rvLen w.toNat) → decodeRv w.toNat = none →
    s.gives (.rv64Instruction k w) fun c => c = (s.toChip.fetched k.val).fault k.val .illegal 0) ∧
  (∀ (x : CoreSt) (v : Word), x.setX 0 v = x ∧ x.rx 0 = 0)

/-- Accesses of the control core: a load takes what memory holds, a store puts it there, an AMO gives the old value and stores
the new one, LR reserves and SC stores while the reservation holds, FENCE waits for rack stores, a CSR instruction gives the old
value; a refused address and poison fault precisely, XAMOFADD.W is refused under DET_MODE (R276–R281, R284, R373). A fault of a
core without FATE_SHARE: FAULT_RECORD names it, the unit queues are emptied, no other core is touched, and no byte of memory
changes; an instruction outside the image is not fetched (R296, R300–R304). The cycles in which nothing retires are free, the
model's choice (log 169). -/
def Obligations.Control_core_accesses : Prop :=
  (∀ (s : State) (k : Fin 264) (q : LoadKind) (rd rs1 : BitVec 5) (imm : BitVec 12) (b : Bool) (t : Chip) (w : Word) (o : Nat),
    s.mayIssue k.val (if b then 2 else 4) → t = s.toChip.fetched k.val → w = (t.core k.val).rx rs1 + imm.signExtend 64 →
    t.accessTo k.val .load w (loadShape q).1 = .ok (.chip o) → (t.coreRegion o).isData = true → (loadShape q).2.2 = false →
    readPoison (t.readFrom (coreSite k.val) o (loadShape q).1 (t.core k.val).hint).2 = false → s.gives (.ctrlLoad k q rd rs1 imm b) fun c =>
    c = let r := t.readFrom (coreSite k.val) o (loadShape q).1 (t.core k.val).hint
      r.1.retireX k.val rd.toNat (loadValue (loadShape q).1 (loadShape q).2.1 false (leNat (readData r.2))) (if b then 2 else 4)) ∧
  (∀ (s : State) (k : Fin 264) (q : LoadKind) (rd rs1 : BitVec 5) (imm : BitVec 12) (b : Bool) (t : Chip) (w : Word) (o : Nat),
    s.mayIssue k.val (if b then 2 else 4) → t = s.toChip.fetched k.val → w = (t.core k.val).rx rs1 + imm.signExtend 64 →
    t.accessTo k.val .load w (loadShape q).1 = .ok (.chip o) → (t.coreRegion o).isData = true →
    readPoison (t.readFrom (coreSite k.val) o (loadShape q).1 (t.core k.val).hint).2 = true → s.gives (.ctrlLoad k q rd rs1 imm b) fun c =>
    c = (t.readFrom (coreSite k.val) o (loadShape q).1 (t.core k.val).hint).1.fault k.val .poison w) ∧
  (∀ (s : State) (k : Fin 264) (q : StoreKind) (rs1 rs2 : BitVec 5) (imm : BitVec 12) (b : Bool) (t : Chip) (w v : Word) (o : Nat),
    s.mayIssue k.val (if b then 2 else 4) → t = s.toChip.fetched k.val → w = (t.core k.val).rx rs1 + imm.signExtend 64 →
    v = (if (storeShape q).2 then (t.core k.val).rf rs2 else (t.core k.val).rx rs2) →
    t.accessTo k.val .store w (storeShape q).1 = .ok (.chip o) → (t.coreRegion o).isData = true →
    s.gives (.ctrlStore k q rs1 rs2 imm b) fun c =>
    c = (t.writeFrom (coreSite k.val) o (leBytes (storeShape q).1 v.toNat) false (t.core k.val).hint).retire k.val (if b then 2 else 4)) ∧
  (∀ (s : State) (k : Fin 264) (i : Instr) (n : Nat) (x : Access) (q : Nat) (w : Word), s.mayIssue k.val n →
    ((∃ l rd rs1 imm b, i = .ctrlLoad k l rd rs1 imm b ∧ n = (if b then 2 else 4) ∧ x = .load ∧ q = (loadShape l).1 ∧
      w = (s.core k.val).rx rs1 + imm.signExtend 64) ∨
     (∃ l rs1 rs2 imm b, i = .ctrlStore k l rs1 rs2 imm b ∧ n = (if b then 2 else 4) ∧ x = .store ∧ q = (storeShape l).1 ∧
      w = (s.core k.val).rx rs1 + imm.signExtend 64) ∨
     (∃ op d rd rs1 rs2, i = .ctrlAmo k op d rd rs1 rs2 ∧ n = 4 ∧ x = .amo ∧ q = (if d then 8 else 4) ∧ w = (s.core k.val).rx rs1)) →
    (s.toChip.fetched k.val).accessTo k.val x w q = .error .align → s.gives i fun c =>
    c = (s.toChip.fetched k.val).fault k.val .align w) ∧
  (∀ (s : State) (k : Fin 264) (op : AmoOp) (d : Bool) (rd rs1 rs2 : BitVec 5) (t : Chip) (n o : Nat), s.mayIssue k.val 4 →
    t = s.toChip.fetched k.val → n = (if d then 8 else 4) → t.accessTo k.val .amo ((t.core k.val).rx rs1) n = .ok (.chip o) →
    readPoison (t.readFrom (coreSite k.val) o n (t.core k.val).hint).2 = false → s.gives (.ctrlAmo k op d rd rs1 rs2) fun c =>
    c = let r := t.readFrom (coreSite k.val) o n (t.core k.val).hint
      let old := leNat (readData r.2)
      (r.1.writeFrom (coreSite k.val) o (leBytes n (amoApply op (8 * n) old (((t.core k.val).rx rs2).toNat % 2 ^ (8 * n)))) false (t.core k.val).hint).retireX
        k.val rd.toNat (loadValue n true false old) 4) ∧
  (∀ (s : State) (k : Fin 264) (d : Bool) (rd rs1 : BitVec 5) (t : Chip) (n o : Nat), s.mayIssue k.val 4 →
    t = s.toChip.fetched k.val → n = (if d then 8 else 4) → t.accessTo k.val .lrsc ((t.core k.val).rx rs1) n = .ok (.chip o) →
    readPoison (t.readFrom (coreSite k.val) o n 0).2 = false → s.gives (.ctrlLrSc k false d rd rs1 0) fun c =>
    c = ((t.readFrom (coreSite k.val) o n 0).1.setCore k.val fun x => { x with reservation := some (o, n) }).retireX k.val rd.toNat
      (loadValue n true false (leNat (readData (t.readFrom (coreSite k.val) o n 0).2))) 4) ∧
  (∀ (s : State) (k : Fin 264) (d : Bool) (rd rs1 rs2 : BitVec 5) (t : Chip) (n o : Nat), s.mayIssue k.val 4 →
    t = s.toChip.fetched k.val → n = (if d then 8 else 4) → t.accessTo k.val .lrsc ((t.core k.val).rx rs1) n = .ok (.chip o) →
    s.gives (.ctrlLrSc k true d rd rs1 rs2) fun c =>
    ((t.core k.val).reservation = some (o, n) → c = ((t.setCore k.val fun x => { x with reservation := none }).writeFrom (coreSite k.val) o
      (leBytes n ((t.core k.val).rx rs2).toNat) false 0).retireX k.val rd.toNat 0 4) ∧
    ((t.core k.val).reservation = none → c = (t.setCore k.val fun x => { x with reservation := none }).retireX k.val rd.toNat 1 4 ∧
      c.mem = s.mem)) ∧
  (∀ (s : State) (k : Fin 264), s.mayIssue k.val 4 → (s.core k.val).storesOut = 0 → s.gives (.fence k) fun c =>
    c = (s.toChip.fetched k.val).retire k.val 4) ∧
  (∀ (s : State) (k : Fin 264), s.mayIssue k.val 4 → (s.core k.val).storesOut ≠ 0 → s.gives (.fence k) fun c =>
    c = s.toChip.fetched k.val) ∧
  (∀ (s : State) (k : Fin 264), s.mayIssue k.val 4 → s.gives (.fenceI k) fun c => (c.core k.val).icache = false ∧
    (c.core k.val).pc = (s.core k.val).pc + 4 ∧ c = { s.toChip with cores := c.cores }) ∧
  (∀ (s : State) (k : Fin 264) (b : Bool), s.mayIssue k.val 4 → s.gives (.ecallEbreak k b) fun c =>
    c = (s.toChip.fetched k.val).fault k.val .brk 0) ∧
  (∀ (s : State) (k : Fin 264) (n : BitVec 12) (rd r : BitVec 5), s.mayIssue k.val 4 → 0x800 ≤ n.toNat → n.toNat ≤ 0x80A →
    s.gives (.csrWrite k .rw n rd (.reg r)) fun c => (c.core k.val).csr n.toNat = (s.core k.val).rx r ∧
    (rd ≠ 0 → (c.core k.val).rx rd = (s.core k.val).csr n.toNat) ∧ (∀ m, m ≠ n.toNat → (c.core k.val).csr m = (s.core k.val).csr m) ∧
    (∀ q, q ≠ rd → (c.core k.val).rx q = (s.core k.val).rx q) ∧ (c.core k.val).pc = (s.core k.val).pc + 4 ∧
    c = { s.toChip with cores := c.cores }) ∧
  (∀ (s : State) (k : Fin 264) (op : CsrOp) (rd : BitVec 5), s.mayIssue k.val 4 → op ≠ .rw → rd ≠ 0 →
    s.gives (.csrWrite k op 0xC00 rd (.reg 0)) fun c => ∃ n, n < 2 ^ 32 ∧
    (c.core k.val).rx rd = (s.core k.val).cycle + BitVec.ofNat 64 n ∧ (c.core k.val).cycle = (c.core k.val).rx rd + 1 ∧
    (∀ q, q ≠ rd → (c.core k.val).rx q = (s.core k.val).rx q) ∧ (∀ j, j ≠ k.val → c.core j = s.core j) ∧ c.mem = s.mem) ∧
  (∀ (s : State) (k : Fin 264) (rd rs1 rs2 : BitVec 5) (t : Chip) (o : Nat), s.mayIssue k.val 4 → t = s.toChip.fetched k.val →
    s.objb O.detMode = false → t.accessTo k.val .amo ((t.core k.val).rx rs1) 4 = .ok (.chip o) →
    readPoison (t.readFrom (coreSite k.val) o 4 (t.core k.val).hint).2 = false → s.gives (.xamofaddW k rd rs1 rs2) fun c =>
    c = let r := t.readFrom (coreSite k.val) o 4 (t.core k.val).hint
      let old := leNat (readData r.2)
      (r.1.writeFrom (coreSite k.val) o (leBytes 4 (fadd old (unbox32 ((t.core k.val).rf rs2)))) false (t.core k.val).hint).retireF k.val rd.toNat
        (loadValue 4 true true old) 4) ∧
  (∀ (s : State) (k : Fin 264) (rd rs1 rs2 : BitVec 5), s.mayIssue k.val 4 → s.objb O.detMode = true →
    s.gives (.xamofaddW k rd rs1 rs2) fun c =>
    c = ((s.toChip.fetched k.val).detRefusal 1).fault k.val .det ((s.core k.val).rx rs1)) ∧
  (∀ (s : Chip) (k : Nat) (cause : Cause) (a : Word) (y : KernelCtx), (s.core k).kernel = some y → (s.core k).faulted = none →
    y.fateShare = false → ((s.fault k cause a).core k).fault =
      { timestamp := s.timebase, addr := a, pc := (s.core k).pc, index := y.num.setWidth 16, queue := BitVec.ofNat 14 y.queue,
        unit := 0, sub := 0, status := cause.status.code, cause := cause.code } ∧
    ((s.fault k cause a).core k).arrayQ = [] ∧ ((s.fault k cause a).core k).vectorQ = [] ∧ ((s.fault k cause a).core k).dmaQ = [] ∧
    ((s.fault k cause a).core k).issuing = false ∧ (∀ j, j ≠ k → (s.fault k cause a).core j = s.core j) ∧
    (s.fault k cause a).mem = s.mem) ∧
  (∀ (s : State) (k : Fin 264), s.live = true → s.gives (.kernelTimeLimitExpiry k) fun c => c = s.toChip.fault k.val .time 0) ∧
  (∀ (s : State) (k : Fin 264) (w : Word32) (x : Cause) (a : Word), s.live = true → (s.core k.val).issuing = true →
    (s.core k.val).fallow = false → (s.core k.val).stall = none → s.fetchFault k.val (rvLen w.toNat) = some (x, a) →
    s.gives (.rv64Instruction k w) fun c => c = s.toChip.fault k.val x a) ∧
  (∀ (s : State) (k : Fin 264) (y : KernelCtx), s.live = true → (s.core k.val).state = .draining → (s.core k.val).kernel = some y →
    (s.core k.val).faulted = none → s.gives (.coreDrainDeadline k) fun c => (c.core k.val).kernel = none ∧
    (c.core k.val).state = (if (s.core k.val).drainOffline then .offline else .idle) ∧ (c.core k.val).fault.cause = 0x0B ∧
    c.mem = s.mem)

/-- The sync instructions: a signal adds once everything before it has landed, a wait already met retires and another stalls the
core, XQWAIT takes a slot of each named queue, XWAITU retires once the units are idle, XEND ends the kernel; a non-zero RD where it
is not allowed is ILLEGAL (R202, R286–R288, R298). -/
def Obligations.Core_synchronisation : Prop :=
  (∀ (s : State) (k : Fin 264) (rs1 rs2 : BitVec 5) (t : Chip), s.mayIssue k.val 4 → t = s.toChip.fetched k.val →
    (t.core k.val).released = true → s.gives (.xsigl k 0 rs1 rs2) fun c =>
    c = (t.localAdd k.val (((t.core k.val).rx rs1).toNat % 64) ((t.core k.val).rx rs2) (.core k.val 0)).retire k.val 4) ∧
  (∀ (s : State) (k : Fin 264) (i : Instr) (rd rs1 rs2 : BitVec 5), s.mayIssue k.val 4 → rd ≠ 0 →
    (i = .xsigl k rd rs1 rs2 ∨ i = .xwaitl k rd rs1 rs2 ∨ i = .xwaitc k rd rs1 rs2 ∨ i = .xwaitu k rd rs1 rs2 ∨
     i = .xend k rd rs1 rs2 ∨ i = .xaclr k rd rs1 rs2) → s.gives i fun c => c = (s.toChip.fetched k.val).fault k.val .illegal 0) ∧
  (∀ (s : State) (k : Fin 264) (rs1 rs2 : BitVec 5) (t : Chip) (j : Nat), s.mayIssue k.val 4 → t = s.toChip.fetched k.val →
    j = ((t.core k.val).rx rs1).toNat % 64 → s.gives (.xwaitl k 0 rs1 rs2) fun c =>
    c = if ((t.core k.val).rx rs2).toNat ≤ (t.coreCounter k.val j).value.toNat then t.retire k.val 4
      else (t.setCore k.val fun x => { x with stall := some (.waitL j ((t.core k.val).rx rs2)) }).noteLocalWaits k.val) ∧
  (∀ (s : State) (k : Fin 264) (rd rs1 rs2 : BitVec 5) (t : Chip), s.mayIssue k.val 4 → t = s.toChip.fetched k.val →
    s.gives (.xrdl k rd rs1 rs2) fun c =>
    c = t.retireX k.val rd.toNat (t.coreCounter k.val (((t.core k.val).rx rs1).toNat % 64)).value 4) ∧
  (∀ (s : State) (k : Fin 264) (rd rs1 rs2 : BitVec 5) (t u : Chip) (old : Nat), s.mayIssue k.val 4 → t = s.toChip.fetched k.val →
    (t.core k.val).released = true → ((t.core k.val).rx rs1).toNat < 262144 →
    t.addFrom ((t.core k.val).rx rs1).toNat ((t.core k.val).rx rs2) (.core k.val 0) = (u, .applied old) →
    s.gives (.xsigc k rd rs1 rs2) fun c => c = u.retireX k.val rd.toNat 0 4) ∧
  (∀ (s : State) (k : Fin 264) (rs1 rs2 : BitVec 5) (t u : Chip) (b : Bool), s.mayIssue k.val 4 → t = s.toChip.fetched k.val →
    ((t.core k.val).rx rs1).toNat < 262144 →
    t.registerWait ((t.core k.val).rx rs1).toNat ((t.core k.val).rx rs2) (.core k.val 0) = (u, b) →
    s.gives (.xwaitc k 0 rs1 rs2) fun c => c = if b then u.retire k.val 4
      else u.setCore k.val fun x => { x with stall := some (.waitC ((t.core k.val).rx rs1).toNat ((t.core k.val).rx rs2)) }) ∧
  (∀ (s : State) (k : Fin 264) (rd rs1 rs2 : BitVec 5) (t : Chip), s.mayIssue k.val 4 → t = s.toChip.fetched k.val →
    (t.core k.val).rx rs2 = 2 → (t.core k.val).vectorQ.length < 16 → s.gives (.xqwait k rd rs1 rs2) fun c =>
    c = (t.setCore k.val fun x =>
      (x.enqueue 2 (.wait (((t.core k.val).rx rs1).toNat % 64) ((t.core k.val).rx rd)) none).retire 4).noteLocalWaits k.val) ∧
  (∀ (s : State) (k : Fin 264) (rs1 rs2 : BitVec 5) (t : Chip), s.mayIssue k.val 4 → t = s.toChip.fetched k.val →
    ((t.core k.val).rx rs1).toNat < 8 → (t.core k.val).unitsIdle = true → s.gives (.xwaitu k 0 rs1 rs2) fun c =>
    c = t.retire k.val 4) ∧
  (∀ (s : State) (k : Fin 264) (rs1 rs2 : BitVec 5), s.mayIssue k.val 4 → (s.core k.val).unitsIdle = true →
    (s.core k.val).storesOut = 0 → (s.core k.val).state = .running → (s.core k.val).drainOffline = false →
    (s.core k.val).faulted = none → s.gives (.xend k 0 rs1 rs2) fun c => (c.core k.val).state = .idle ∧
    (c.core k.val).kernel = none ∧ (c.core k.val).array = (s.core k.val).array ∧ c.mem = s.mem ∧
    (∀ j, j ≠ k.val → c.core j = s.core j))

/-- Vector instructions: one that passes the checks of R334 enters the vector engine's queue with its operands and CSRs as they are
and retires; a form that R337 does not list is ILLEGAL (R284, R291, R292, R333–R337). -/
def Obligations.Vector_instructions : Prop :=
  ∀ (i : Instr) (op : Nat) (s : State) (k : Fin 264) (form : BitVec 3) (rd rs1 rs2 : BitVec 5) (t : Chip),
    ((i = .vcopy k form rd rs1 rs2 ∧ op = 0x00) ∨ (i = .vadd k form rd rs1 rs2 ∧ op = 0x01) ∨ (i = .vsub k form rd rs1 rs2 ∧ op = 0x02) ∨
     (i = .vmul k form rd rs1 rs2 ∧ op = 0x03) ∨ (i = .vfma k form rd rs1 rs2 ∧ op = 0x04) ∨ (i = .vmin k form rd rs1 rs2 ∧ op = 0x05) ∨
     (i = .vmax k form rd rs1 rs2 ∧ op = 0x06) ∨ (i = .vabs k form rd rs1 rs2 ∧ op = 0x07) ∨ (i = .vneg k form rd rs1 rs2 ∧ op = 0x08) ∨
     (i = .vand k form rd rs1 rs2 ∧ op = 0x09) ∨ (i = .vor k form rd rs1 rs2 ∧ op = 0x0A) ∨ (i = .vxor k form rd rs1 rs2 ∧ op = 0x0B) ∨
     (i = .vshl k form rd rs1 rs2 ∧ op = 0x0C) ∨ (i = .vshr k form rd rs1 rs2 ∧ op = 0x0D) ∨ (i = .vcmpeq k form rd rs1 rs2 ∧ op = 0x10) ∨
     (i = .vcmplt k form rd rs1 rs2 ∧ op = 0x11) ∨ (i = .vcmple k form rd rs1 rs2 ∧ op = 0x12) ∨ (i = .vsel k form rd rs1 rs2 ∧ op = 0x13) ∨
     (i = .vcvt k form rd rs1 rs2 ∧ op = 0x18) ∨ (i = .vexp k form rd rs1 rs2 ∧ op = 0x20) ∨ (i = .vlog k form rd rs1 rs2 ∧ op = 0x21) ∨
     (i = .vrcp k form rd rs1 rs2 ∧ op = 0x22) ∨ (i = .vrsqrt k form rd rs1 rs2 ∧ op = 0x23) ∨ (i = .vsqrt k form rd rs1 rs2 ∧ op = 0x24) ∨
     (i = .vsin k form rd rs1 rs2 ∧ op = 0x25) ∨ (i = .vcos k form rd rs1 rs2 ∧ op = 0x26) ∨ (i = .vtanh k form rd rs1 rs2 ∧ op = 0x27) ∨
     (i = .vsigmoid k form rd rs1 rs2 ∧ op = 0x28) ∨ (i = .vrsum k form rd rs1 rs2 ∧ op = 0x30) ∨ (i = .vrmax k form rd rs1 rs2 ∧ op = 0x31) ∨
     (i = .vrmin k form rd rs1 rs2 ∧ op = 0x32) ∨ (i = .vaccsr k form rd rs1 rs2 ∧ op = 0x38) ∨ (i = .vgather k form rd rs1 rs2 ∧ op = 0x3C) ∨
     (i = .vscatter k form rd rs1 rs2 ∧ op = 0x3D)) →
    s.mayIssue k.val 4 → t = s.toChip.fetched k.val →
    (vecForm op form.toNat = false → s.gives i fun c => c = t.fault k.val .illegal 0) ∧
    (∀ (y f d n : Nat) (b : Word), form.toNat ≤ 3 → vecForm op form.toNat = true → (form = 3 → rs2 = 0) → (op = 0 → form ≠ 3 → rs1 = 0) →
      y = ((t.core k.val).csr 0x801).toNat → y < 2 ^ 9 → f = y % 16 → d = y / 16 % 16 → vecFormats op form.toNat f d = true →
      n = vlen ((t.core k.val).csr 0x800) → ((t.core k.val).csr 0x800).toNat < 2 ^ 16 → ((t.core k.val).csr 0x803).toNat < 2 ^ 7 →
      (op = 0x18 → fmtMx f = true ∨ fmtMx d = true → n % 32 = 0) → (vecRounds op f = true → (t.core k.val).frm.toNat ≤ 4) →
      b = (if form = 2 then (t.core k.val).rf rs2 else (t.core k.val).rx rs2) → (t.core k.val).vectorQ.length < 16 →
      (∀ r, r ∈ vecRanges op form.toNat ((t.core k.val).rx rd) ((t.core k.val).rx rs1) b n f d (vmasked ((t.core k.val).csr 0x801))
        ((t.core k.val).csr 0x802) → r.addr.toNat / 2 ^ 56 = 2 ∧ r.addr.toNat % 2 ^ 56 < ownBytes k.val ∧
          r.addr.toNat % 2 ^ 56 + r.len ≤ ownBytes k.val ∧ r.addr.toNat % r.align = 0) →
      s.gives i fun c => c = t.setCore k.val fun x => (x.enqueue 2 (.vec op form.toNat ((t.core k.val).rx rd) ((t.core k.val).rx rs1) b
        ((t.core k.val).csr 0x800) ((t.core k.val).csr 0x801) ((t.core k.val).csr 0x802) (t.core k.val).frm ((t.core k.val).csr 0x809)
        (BitVec.ofNat 8 (t.obj O.vecTrapEn))) (sigOf ((t.core k.val).csr 0x803))).retire 4)

/-- DMA and array instructions: one that passes its checks enters its unit's queue and retires; XALDW also sets the bank's tag in
the control core's shadow; an array instruction on an update engine is ILLEGAL (R289, R290, R292, R293, R312–R315, R326, R399). -/
def Obligations.Dma_and_array_instructions : Prop :=
  (∀ (s : State) (k : Fin 264) (i : Instr) (op : UnitOp) (rd rs1 rs2 : BitVec 5) (t : Chip) (d a n : Word) (e : Target × Target),
    s.mayIssue k.val 4 → t = s.toChip.fetched k.val → d = (t.core k.val).rx rd → a = (t.core k.val).rx rs1 → n = (t.core k.val).rx rs2 →
    (t.core k.val).badDmaCsrs = false → (t.core k.val).csr 0x806 = 0 → (t.core k.val).dmaQ.length < 16 →
    ((i = .xdcopy k rd rs1 rs2 ∧ n.toNat < 2 ^ 32 ∧ t.dmaEnds k.val d a n.toNat = .ok e ∧ op = .dcopy d a n.toNat 0) ∨
     (i = .xdcopy2 k rd rs1 rs2 ∧ n.toNat < 2 ^ 32 ∧ (t.core k.val).csr 0x808 = 0 ∧ t.dmaEnds k.val d a n.toNat = .ok e ∧
      op = .dcopy2 d a n.toNat 1 0 0 0) ∨
     (i = .xdfill k rd rs1 rs2 ∧ n.toNat < 2 ^ 32 ∧ t.dmaEnd k.val .wr d n.toNat = .ok e.1 ∧ op = .dfill d a n.toNat 0)) →
    s.gives i fun c => c = t.setCore k.val fun x => (x.enqueue 3 op (sigOf ((t.core k.val).csr 0x807))).retire 4) ∧
  (∀ (s : State) (k : Fin 264) (rd rs1 rs2 : BitVec 5) (t : Chip) (w : Word) (b d n : Nat) (p : ArrayPair) (op : UnitOp) (l h : Nat),
    s.mayIssue k.val 4 → t = s.toChip.fetched k.val → k.val < 256 → (t.core k.val).badArrayCsrs = false → w = (t.core k.val).rx rs2 →
    w.toNat < 2 ^ 17 → b = w.toNat % 4 → d = w.toNat / 4 % 128 + 1 → n = w.toNat / 512 % 256 + 1 →
    arrayPair (wfmtOf ((t.core k.val).csr 0x804)) (afmtOf ((t.core k.val).csr 0x804)) = some p →
    tileOk p (wfmtOf ((t.core k.val).csr 0x804)) d = true →
    (fmtMx (wfmtOf ((t.core k.val).csr 0x804)) = true → n ≤ ((t.core k.val).rx rd).toNat) →
    op = .aldw ((t.core k.val).rx rd).toNat (arrayAddr k.val ((t.core k.val).rx rs1)) b d n ((t.core k.val).csr 0x804) →
    op.footprint = some (l, h) → l < ownBytes k.val → h ≤ ownBytes k.val → (t.core k.val).arrayQ.length < 16 →
    s.gives (.xaldw k rd rs1 rs2) fun c =>
    (c.core k.val).arrayQ = (t.core k.val).arrayQ ++ [⟨(t.core k.val).issued, op, sigOf ((t.core k.val).csr 0x805), 0, none, 0⟩] ∧
    (c.core k.val).array.shadowOf b = (true, BitVec.ofNat 4 (wfmtOf ((t.core k.val).csr 0x804)), d, n) ∧
    (c.core k.val).pc = (t.core k.val).pc + 4 ∧ (∀ j, j ≠ k.val → c.core j = s.core j) ∧ c = { s.toChip with cores := c.cores }) ∧
  (∀ (s : State) (k : Fin 264) (rd rs1 rs2 : BitVec 5) (t : Chip) (w : Word) (b m row d n : Nat) (p : ArrayPair) (op : UnitOp) (l h : Nat),
    s.mayIssue k.val 4 → t = s.toChip.fetched k.val → k.val < 256 → (t.core k.val).badArrayCsrs = false → w = (t.core k.val).rx rs2 →
    w.toNat < 2 ^ 23 → b = w.toNat % 4 → m = w.toNat / 4 % 1024 + 1 → row = w.toNat / 4096 % 1024 → row + m ≤ 1024 →
    arrayPair (wfmtOf ((t.core k.val).csr 0x804)) (afmtOf ((t.core k.val).csr 0x804)) = some p →
    (t.core k.val).array.shadowOf b = (true, BitVec.ofNat 4 (wfmtOf ((t.core k.val).csr 0x804)), d, n) →
    tileOk p (wfmtOf ((t.core k.val).csr 0x804)) d = true →
    op = .amm ((t.core k.val).rx rd).toNat (arrayAddr k.val ((t.core k.val).rx rs1)) b m row (w.getLsbD 22) false
      ((t.core k.val).csr 0x804) d n →
    op.footprint = some (l, h) → l < ownBytes k.val → h ≤ ownBytes k.val → (t.core k.val).arrayQ.length < 16 →
    s.gives (.xamm k rd rs1 rs2) fun c =>
    c = t.setCore k.val fun x => (x.enqueue 1 op (sigOf ((t.core k.val).csr 0x805))).retire 4) ∧
  (∀ (s : State) (k : Fin 264) (rd rs1 rs2 : BitVec 5) (t : Chip) (w : Word) (row rows : Nat) (op : UnitOp) (l h : Nat),
    s.mayIssue k.val 4 → t = s.toChip.fetched k.val → k.val < 256 → (t.core k.val).badArrayCsrs = false → w = (t.core k.val).rx rs1 →
    w.toNat < 2 ^ 21 → row = w.toNat % 1024 → rows = w.toNat / 1024 % 1024 + 1 → row + rows ≤ 1024 →
    drainFormat (ofmtOf ((t.core k.val).csr 0x804)) = true →
    op = .adrain (arrayAddr k.val ((t.core k.val).rx rd)) row rows (w.getLsbD 20) ((t.core k.val).rx rs2).toNat ((t.core k.val).csr 0x804) →
    op.footprint = some (l, h) → l < ownBytes k.val → h ≤ ownBytes k.val → (t.core k.val).arrayQ.length < 16 →
    s.gives (.xadrain k rd rs1 rs2) fun c =>
    c = t.setCore k.val fun x => (x.enqueue 1 op (sigOf ((t.core k.val).csr 0x805))).retire 4) ∧
  (∀ (s : State) (k : Fin 264) (rs1 rs2 : BitVec 5) (t : Chip) (w : Word) (row rows : Nat), s.mayIssue k.val 4 →
    t = s.toChip.fetched k.val → k.val < 256 → (t.core k.val).badArrayCsrs = false → w = (t.core k.val).rx rs1 → w.toNat < 2 ^ 20 →
    row = w.toNat % 1024 → rows = w.toNat / 1024 % 1024 + 1 → row + rows ≤ 1024 → (t.core k.val).arrayQ.length < 16 →
    s.gives (.xaclr k 0 rs1 rs2) fun c =>
    c = t.setCore k.val fun x => (x.enqueue 1 (.aclr row rows) (sigOf ((t.core k.val).csr 0x805))).retire 4) ∧
  (∀ (s : State) (k : Fin 264) (i : Instr) (rd rs1 rs2 : BitVec 5), s.mayIssue k.val 4 → 256 ≤ k.val →
    (i = .xaldw k rd rs1 rs2 ∨ i = .xamm k rd rs1 rs2 ∨ i = .xadrain k rd rs1 rs2 ∨ i = .xaclr k rd rs1 rs2) →
    s.gives i fun c => c = (s.toChip.fetched k.val).fault k.val .illegal 0)

/-- Units at work: the instruction at the head of a queue starts, a core DMA instruction issues its reads and writes; a DMA
instruction with nothing outstanding completes and signals, and XACLR empties its rows; what waits behind an unmet XQWAIT does not
start (R274, R284, R288, R292, R293, R323, R324, R350). -/
def Obligations.Units_at_work : Prop :=
  (∀ (s : State) (k : Fin 264) (i : UnitInstr) (r : List UnitInstr), s.live = true → (s.core k.val).unitFallow = 0 →
    (s.core k.val).arrayQ = i :: r → i.op.isWait = false → (s.core k.val).arrayRun = [] → s.gives (.arrayInstrStart k) fun c =>
    (c.core k.val).arrayQ = r ∧ (c.core k.val).arrayRun = [i] ∧ (∀ j, j ≠ k.val → c.core j = s.core j) ∧
    c = { s.toChip with cores := c.cores }) ∧
  (∀ (s : State) (k : Fin 264) (i : UnitInstr) (r : List UnitInstr), s.live = true → (s.core k.val).unitFallow = 0 →
    (s.core k.val).vectorQ = i :: r → i.op.isWait = false → (s.core k.val).vectorRun = [] → s.gives (.vectorInstrStart k) fun c =>
    (c.core k.val).vectorQ = r ∧ (c.core k.val).vectorRun = [i] ∧ (∀ j, j ≠ k.val → c.core j = s.core j) ∧
    c = { s.toChip with cores := c.cores }) ∧
  (∀ (s : State) (k : Fin 264) (i : UnitInstr) (r : List UnitInstr), s.live = true → (s.core k.val).unitFallow = 0 →
    (s.core k.val).dmaQ = i :: r → i.op.isWait = false → s.gives (.dmaInstrStart k) fun c =>
    c = (((s.toChip.setCore k.val fun x => x.setUnitQ 3 (i :: r)).setCore k.val fun x =>
      (x.setUnitQ 3 r).setUnitRun 3 (x.unitRun 3 ++ [i])).noteLocalWaits k.val).dmaRun k.val i) ∧
  (∀ (s : State) (k : Fin 264) (i : Instr) (u : UnitInstr) (j : Nat) (w : Word), s.live = true → (s.core k.val).unitFallow = 0 →
    u.op = .wait j w → (s.coreCounter k.val j).value.toNat < w.toNat →
    ((i = .arrayInstrStart k ∧ (s.core k.val).arrayQ = [u]) ∨ (i = .vectorInstrStart k ∧ (s.core k.val).vectorQ = [u]) ∨
     (i = .dmaInstrStart k ∧ (s.core k.val).dmaQ = [u])) → s.gives i fun c =>
    c.core k.val = { s.core k.val with localWaits := (c.core k.val).localWaits } ∧
    (∃ n, (n, j, u.id) ∈ (c.core k.val).localWaits) ∧ c = { s.toChip with cores := c.cores }) ∧
  (∀ (s : State) (k : Fin 264) (u : UnitInstr) (y : KernelCtx) (j : Nat) (w : Word), s.live = true → (s.core k.val).unitFallow = 0 →
    (s.core k.val).dmaQ = [u] → u.op = .wait j w → w.toNat ≤ (s.coreCounter k.val j).value.toNat →
    (s.core k.val).arrayQ = [] → (s.core k.val).vectorQ = [] → (s.core k.val).arrayRun = [] → (s.core k.val).vectorRun = [] →
    (s.core k.val).dmaRun = [] → (s.core k.val).storesOut = 0 → (s.core k.val).ended = true → (s.core k.val).kernel = some y →
    (s.core k.val).state = .ending → (s.core k.val).drainOffline = false → (s.core k.val).faulted = none →
    s.gives (.dmaInstrStart k) fun c => (c.core k.val).state = .idle ∧ (c.core k.val).kernel = none ∧ c.mem = s.mem) ∧
  (∀ (s : State) (k : Fin 264) (i : UnitInstr), s.live = true → (s.core k.val).dmaRun = [i] → i.outstanding = 0 → i.fault = none →
    i.sig = none → (s.core k.val).ended = false → s.gives (.unitInstrComplete k 3 0 false) fun c => (c.core k.val).dmaRun = [] ∧
    (∀ j, j ≠ k.val → c.core j = s.core j) ∧ c = { s.toChip with cores := c.cores }) ∧
  (∀ (s : State) (k : Fin 264) (i : UnitInstr) (j : Nat), s.live = true → (s.core k.val).dmaRun = [i] → i.outstanding = 0 →
    i.fault = none → i.sig = some j → (s.core k.val).ended = false → (s.coreCounter k.val j).value.toNat + 1 < 2 ^ 64 →
    s.gives (.unitInstrComplete k 3 0 false) fun c => (c.core k.val).dmaRun = [] ∧
    (c.coreCounter k.val j).value = (s.coreCounter k.val j).value + 1 ∧ c.mem = s.mem ∧ c.log = s.log) ∧
  (∀ (s : State) (k : Fin 264) (i : UnitInstr) (row rows : Nat), s.live = true → k.val < 256 → (s.core k.val).arrayRun = [i] →
    i.op = .aclr row rows → i.sig = none → (s.core k.val).ended = false → s.gives (.unitInstrComplete k 1 0 false) fun c =>
    (c.core k.val).arrayRun = [] ∧ (∀ j, row ≤ j → j < row + rows → (c.core k.val).array.row j = AccRow.empty) ∧
    (∀ j, j < row ∨ row + rows ≤ j → (c.core k.val).array.row j = (s.core k.val).array.row j) ∧
    (c.core k.val).array.banks = (s.core k.val).array.banks ∧ c = { s.toChip with cores := c.cores, objs := c.objs })

/-- Integers on the engines: class I of the vector engine wraps to 32 bits, compares by sign or not, and shifts by 32 or more leave
zeros or signs; a FIXED accumulator entry takes the exact sum of INT8 products, held at ± (2⁸⁷ − 1); its class is the join of what
it took (R317, R320, R337, R338, R363). -/
def Obligations.Engine_integers : Prop :=
  (∀ (f : Nat) (rm : RMode) (a b d : Nat), (f = 0xD ∨ f = 0xE) → a < 2 ^ 32 → b < 2 ^ 32 →
    vecElem 0x01 f rm a b d = ((a + b) % 2 ^ 32, FFlags.none) ∧ vecElem 0x02 f rm a b d = ((a + (2 ^ 32 - b)) % 2 ^ 32, FFlags.none) ∧
    vecElem 0x03 f rm a b d = (a * b % 2 ^ 32, FFlags.none) ∧ (vecElem 0x0C f rm a b d).1 = (if 32 ≤ b then 0 else a * 2 ^ b % 2 ^ 32) ∧
    (vecElem 0x10 f rm a b d).1 = (if a = b then 1 else 0)) ∧
  (∀ (rm : RMode) (a b d : Nat), a < 2 ^ 32 → b < 2 ^ 32 →
    ((vecElem 0x11 0xD rm a b d).1 = 1 ↔ (BitVec.ofNat 32 a).toInt < (BitVec.ofNat 32 b).toInt) ∧
    ((vecElem 0x11 0xE rm a b d).1 = 1 ↔ a < b) ∧
    BitVec.ofNat 32 (vecElem 0x0D 0xD rm a b d).1 = (BitVec.ofNat 32 a).sshiftRight b ∧
    (vecElem 0x0D 0xE rm a b d).1 = (if 32 ≤ b then 0 else a / 2 ^ b)) ∧
  (∀ (f : Nat) (e : AccEntry) (l : List (Nat × Nat)), (∀ p, p ∈ l → p.1 < 256 ∧ p.2 < 256) →
    e.bits.toInt.natAbs ≤ 2 ^ 86 → l.length ≤ 256 → f = 0 →
    (fixedAdd 0xB 0xB f e l).1.bits.toInt = e.bits.toInt + (l.map fun p => (BitVec.ofNat 8 p.1).toInt * (BitVec.ofNat 8 p.2).toInt).sum ∧
    (fixedAdd 0xB 0xB f e l).1.cls = e.cls ∧ (fixedAdd 0xB 0xB f e l).2 = false) ∧
  (∀ (w a f : Nat) (e : AccEntry) (l : List (Nat × Nat)), (fixedAdd w a f e l).1.bits.toInt.natAbs ≤ 2 ^ 87 - 1)

/-- MIN and MAX of floating numbers: of a NaN and a number the number, of two NaNs the canonical NaN, −0 below +0, NV for a
signalling NaN; VMIN, VMAX, VRMIN, VRMAX and the MIN and MAX of collectives compute so (R357). -/
def Obligations.Minimum_and_maximum : Prop :=
  (∀ (k a b : Nat) (m : Bool), ((elemValue k a).isNan = true → (elemValue k b).isNan = false → (minMax k m a b).1 = b) ∧
    ((elemValue k a).isNan = false → (elemValue k b).isNan = true → (minMax k m a b).1 = a) ∧
    ((elemValue k a).isNan = true → (elemValue k b).isNan = true → (minMax k m a b).1 = nanCode k) ∧
    ((elemValue k a).isNan = false → (elemValue k b).isNan = false → (elemValue k a).below (elemValue k b) = true →
      (minMax k m a b).1 = if m then b else a) ∧
    ((elemValue k a).isNan = false → (elemValue k b).isNan = false → (elemValue k b).below (elemValue k a) = true →
      (minMax k m a b).1 = if m then a else b) ∧
    (minMax k m a b).2 = if (elemValue k a).isSnan || (elemValue k b).isSnan then FFlags.invalid else FFlags.none) ∧
  (∀ d e : Int, (FVal.fin true 0 d).below (.fin false 0 e) = true ∧ (FVal.fin false 0 d).below (.fin true 0 e) = false) ∧
  (∀ (n n' : Bool) (m m' : Nat) (d e : Int), (m ≠ 0 ∨ m' ≠ 0) →
    (FVal.fin n m d).below (.fin n' m' e) = dyLt (FVal.int (.fin n m d)) (FVal.int (.fin n' m' e))) ∧
  (∀ (f : Nat) (rm : RMode) (a b d : Nat), isF f = true → vecElem 0x05 f rm a b d = minMax f false a b ∧
    vecElem 0x06 f rm a b d = minMax f true a b) ∧
  (∀ (f : Nat) (a b : Partial), isF f = true →
    (reduceStep 0x31 f a b).1 = (minMax 0 true a.1 b.1).1 ∧ (reduceStep 0x32 f a b).1 = (minMax 0 false a.1 b.1).1 ∧
    (reduceStep 0x31 f a b).2 = (a.2.join b.2).join (minMax 0 true a.1 b.1).2 ∧
    (reduceStep 0x32 f a b).2 = (a.2.join b.2).join (minMax 0 false a.1 b.1).2) ∧
  (∀ d k a b : Nat, dtypeFmt d = some k → combine d 1 a b = (minMax k false a b).1 ∧ combine d 2 a b = (minMax k true a b).1)

/-- The array: XACLR sets its rows to EMPTY without entries and marks and writes no memory; no array instruction raises a
floating-point flag, and none takes a floating-point trap (R322, R366). -/
def Obligations.Array_clear_and_flags : Prop :=
  (∀ (s : Chip) (k : Nat) (u : UnitInstr) (row rows : Nat), u.op = .aclr row rows → u.sig = none → (s.core k).arrayRun = [u] →
    (s.core k).state = .running → (s.core k).ended = false →
    (∀ r, ((s.arrayComplete k u).core k).array.row r = if row ≤ r ∧ r < row + rows then AccRow.empty else (s.core k).array.row r) ∧
    (s.arrayComplete k u).mem = s.mem ∧ (∀ j, j ≠ k → (s.arrayComplete k u).core j = s.core j)) ∧
  AccRow.empty.entries = [] ∧ AccRow.empty.poison = false ∧
  (∀ (s : State) (k : Fin 264) (i : Instr), ((∃ d a b, i = .xaldw k d a b) ∨ (∃ d a b, i = .xamm k d a b) ∨
     (∃ d a b, i = .xadrain k d a b) ∨ (∃ d a b, i = .xaclr k d a b) ∨ i = .arrayInstrStart k) → s.live = true →
    s.gives i fun c => ∀ j, (c.core j).fflags &&& ~~~(s.core j).fflags = 0) ∧
  (∀ (s : Chip) (k : Nat) (u : UnitInstr) (j : Nat), ((s.arrayComplete k u).core j).fflags &&& ~~~(s.core j).fflags = 0)

/-- Cores and update engines are taken offline and online: an idle one is reset and Offline at once, a running one drains first; an
Offline one tests itself and is Idle, or stays Offline, when the test ends; NV_RUN tests an Idle core (R305–R307, R379, R380, R406).
-/
def Obligations.Core_administration : Prop :=
  (∀ (s : State) (k : Fin 256), s.live = true → (s.core k.val).state = .idle → s.gives (.coreAdminOffline k) fun c =>
    c = ((s.toChip.setObj (adminKey k.val) 0).setCore k.val fun x => { x.cleared with state := .offline }).raise 0x0902 [.u16 k.val]) ∧
  (∀ (s : State) (k : Fin 256), s.live = true → (s.core k.val).state = .running → s.gives (.coreAdminOffline k) fun c =>
    (c.core k.val).state = .draining ∧ (c.core k.val).drainOffline = true ∧ (c.core k.val).kernel = (s.core k.val).kernel ∧
    (∀ j, j ≠ k.val → c.core j = s.core j) ∧ c = { s.toChip with cores := c.cores, objs := c.objs }) ∧
  (∀ (s : State) (k : Fin 256), s.live = true → (s.core k.val).state = .offline → s.gives (.coreAdminOnline k) fun c =>
    c = (s.toChip.setObj (adminKey k.val) 1).setCore k.val fun x => { x with state := .testing, adminTest := true }) ∧
  (∀ (s : State) (e : Fin 8), s.live = true → (s.core (256 + e.val)).state = .idle → s.gives (.engineAdminWrite e 0) fun c =>
    c = (s.toChip.setObj (adminKey (256 + e.val)) 0).setCore (256 + e.val) fun x => { x.cleared with state := .offline }) ∧
  (∀ (s : State) (k : Fin 256), s.live = true → (s.core k.val).state = .testing → (s.core k.val).adminTest = true →
    s.obj (adminKey k.val) ≠ 0 → s.mgmt.booting = false → s.gives (.coreSelfTestDone k .pass) fun c =>
    c = (s.toChip.setCore k.val fun x => { x with state := .idle, adminTest := false }).raise 0x0901 [.u16 k.val]) ∧
  (∀ (s : State) (k : Fin 256) (u : Fin 4), s.live = true → (s.core k.val).state = .testing → s.mgmt.booting = false →
    s.gives (.coreSelfTestDone k (.unit u)) fun c =>
    c = ((s.toChip.setObj (adminKey k.val) 0).setCore k.val fun x => { x.cleared with state := .offline }).raise 0x8902
      [.u16 k.val, .u8 u.val]) ∧
  (∀ (s : State) (k : Fin 256) (r : SelfTest), s.live = true → (s.core k.val).state ≠ .testing → s.mgmt.booting = false →
    s.gives (.coreSelfTestDone k r) fun c => c = s.toChip) ∧
  (∀ (s : State) (k : Half), s.live = true → k.toNat < 256 → (s.core k.toNat).state = .idle → s.gives (.nvRun k) fun c =>
    c = s.toChip.setCore k.toNat fun x => { x with state := .testing, adminTest := false }) ∧
  (∀ (s : State) (e : Fin 8), s.live = true → (s.core (256 + e.val)).state = .testing → s.gives (.engineSelfTestDone e false) fun c =>
    c = (s.toChip.setObj (adminKey (256 + e.val)) 0).setCore (256 + e.val) fun x => { x.cleared with state := .offline }) ∧
  (∀ (s : State) (e : Fin 8), s.live = true → (s.core (256 + e.val)).state = .testing → (s.core (256 + e.val)).adminTest = true →
    s.obj (adminKey (256 + e.val)) ≠ 0 → s.gives (.engineSelfTestDone e true) fun c =>
    c = (s.toChip.setCore (256 + e.val) fun x => { x with state := .idle, adminTest := false }).raise 0x0B01 [.u8 e.val])

/-- SR_SEED and DET_MODE are written only while the job is Idle; any other write is answered with ACCESS and changes nothing; a
kernel sees the mode in the DET field of its info block (R370, R372). -/
def Obligations.Determinism_objects : Prop :=
  (∀ (s : State) (b : Bool), s.live = true → s.job.state = 0 →
    s.gives (.detModeWrite b) fun c => c = s.toChip.setObj O.detMode b.toNat ∧ c.obj O.detMode = b.toNat) ∧
  (∀ (s : State) (w : Word), s.live = true → s.job.state = 0 →
    s.gives (.srSeedWrite w) fun c => c = s.toChip.setObj O.srSeed w.toNat ∧ c.obj O.srSeed = w.toNat) ∧
  (∀ (s : State) (i : Instr), ((∃ b, i = .detModeWrite b) ∨ (∃ w, i = .srSeedWrite w)) → s.live = true → s.job.state ≠ 0 →
    s.gives i fun c => c = s.toChip) ∧
  (∀ (s : Chip) (b : Byte), s.live = true → s.job.state ≠ 0 → s.writeObject .owner 0x6010 1 0 [b] = (.access, s)) ∧
  (∀ (s : Chip) (b : List Byte), s.live = true → s.job.state ≠ 0 → b.length = 8 → s.writeObject .owner 0x6010 2 4 b = (.access, s)) ∧
  (∀ (s : Chip) (q : Nat) (e : QEntry) (c rank n : Nat), c < 256 → rank < 256 → n < 256 → q < 65536 → s.chipNumber < 65536 → e.args < 2 ^ 64 →
    e.code < 2 ^ 64 → s.objb O.detMode = (bitsOf (s.infoBlock q e c rank n) 343 336 == 1))

/-! ### Updates and the cellar -/

/-- UPDATE, layer by layer: a die with no layer running takes the next one of its first UPDATE and checks it; a layer that its start
ended appends its entry to the ratio ring with its status and computes nothing; a built-in rule runs over the layer, its working
copy lands, and the die is free for the next one; under HOLD a layer found amiss writes nothing; at the drain deadline a die runs
nothing of a draining UPDATE any more (R389–R391, R393, R402–R404). The element-wise rules, one FP32 rounding per operation: SGD_M
with and without Nesterov, and ADAMW at a step count (R395, R396). -/
def Obligations.Updates : Prop :=
  (∀ (s : State) (d : Fin 2) (j : UpdateJob) (js : List UpdateJob) (i : Nat) (desc : BitVec 1024) (h : BitVec 512)
    (rest : List (Nat × BitVec 1024 × BitVec 512)) (t : Chip) (st : Option Status), s.live = true → (s.die d.val).layer = none →
    (s.die d.val).jobs = j :: js → j.todo = (i, desc, h) :: rest → s.enginesAwake d.val = true → s.dieRestarts d.val = false →
    s.toChip.layerCheck d.val j.noWorking ⟨desc.toNat⟩ = (t, st) → (st.isSome = true ∨ (⟨desc.toNat⟩ : Desc).rule ≠ 4) →
    s.gives (.updateLayerStart d) fun c =>
    c = t.setDie d.val fun y => { y with
      jobs := { j with todo := rest, begun := true } :: js, layer := some ⟨i, desc, st, [], []⟩ }) ∧
  (∀ (s : State) (d : Fin 2), s.live = true → s.dieRestarts d.val = true → s.gives (.updateLayerStart d) fun c => c = s.toChip) ∧
  (∀ (s : State) (d : Fin 2) (l : LayerRun) (j : UpdateJob) (js : List UpdateJob) (st : Status), s.live = true →
    (s.die d.val).layer = some l → (s.die d.val).jobs = j :: js → l.engines = [] → l.early = some st → st ≠ .ok → j.todo ≠ [] →
    s.gives (.updateLayerEnd d) fun c =>
    (c.die d.val).layer = none ∧ (c.die d.val).layersDone = (s.die d.val).layersDone + 1 ∧ (c.die d.val).jobs = j :: js ∧
    (Tab.get RatioEntry.zero c.cellar.ratioRing s.cellar.ratioNext).status = st.code ∧
    (Tab.get RatioEntry.zero c.cellar.ratioRing s.cellar.ratioNext).step = j.step ∧
    (Tab.get RatioEntry.zero c.cellar.ratioRing s.cellar.ratioNext).layerId = BitVec.ofNat 32 (⟨l.desc.toNat⟩ : Desc).layerId ∧
    c.cellar.ratioNext = (s.cellar.ratioNext + 1) % 1024 ∧ c.mem = s.mem ∧ c.hbm = s.hbm) ∧
  (∀ (s : State) (d : Fin 2) (l : LayerRun) (j : UpdateJob) (js : List UpdateJob), s.live = true →
    (s.die d.val).layer = some l → (s.die d.val).jobs = j :: js → l.engines = [] → l.early = none →
    (⟨l.desc.toNat⟩ : Desc).rule ≠ 4 → s.gives (.updateLayerEnd d) fun c =>
    c = let r := s.toChip.layerRun j l.index ⟨l.desc.toNat⟩
      ((r.1.setDie d.val fun y => { y with layer := none }).layerDone d.val j l.index ⟨l.desc.toNat⟩ r.2).jobIf d.val) ∧
  (∀ (s : Chip) (j : UpdateJob) (i : Nat) (x : Desc), j.hold = true → (x.run j.lrScale.toNat (s.layerRead x j.hint).2).status ≠ .ok →
    (s.layerRun j i x).1 = (s.layerRead x j.hint).1 ∧ (s.layerRun j i x).2.held = true ∧
    (s.layerRun j i x).2.status = (x.run j.lrScale.toNat (s.layerRead x j.hint).2).status) ∧
  (∀ s : State, s.live = true → (∀ j, j ∈ (s.die 0).jobs ++ (s.die 1).jobs → (s.queueAt j.queue).state ≠ .draining) →
    s.gives .updateDrainDeadline fun c => c = s.toChip) ∧
  (∀ (s : State) (j : UpdateJob), s.live = true → (s.die 0).jobs = [j] → (s.die 0).layer = none → (s.die 1).jobs = [] →
    (s.queueAt j.queue).state = .draining → s.gives .updateDrainDeadline fun c =>
    (c.die 0).jobs = [] ∧ (c.die 0).layer = none ∧ (c.die 0).layersDone = (s.die 0).layersDone + BitVec.ofNat 64 j.todo.length) ∧
  (∀ (d : Desc) (c : RuleConst) (w m g : Nat), d.nesterov = false →
    d.sgd c w m g = (ffma (fneg c.eta) (ffma d.p1 m g) (ffma (fneg c.k) w w), ffma d.p1 m g)) ∧
  (∀ (d : Desc) (c : RuleConst) (w m g : Nat), d.nesterov = true →
    d.sgd c w m g = (ffma (fneg c.eta) (ffma d.p1 (ffma d.p1 m g) g) (ffma (fneg c.k) w w), ffma d.p1 m g)) ∧
  (∀ (d : Desc) (c : RuleConst) (c1 c2 w m v g : Nat),
    (d.adam c c1 c2 w m v g).2.1 = ffma d.p1 m (fmul (fsub fone d.p1) g) ∧
    (d.adam c c1 c2 w m v g).2.2 = ffma d.p2 v (fmul (fmul (fsub fone d.p2) g) g) ∧
    (d.adam c c1 c2 w m v g).1 = ffma (fneg c.eta) (fdiv (fdiv (d.adam c c1 c2 w m v g).2.1 c1)
      (fadd (fsqrt (fdiv (d.adam c c1 c2 w m v g).2.2 c2)) d.p3)) (ffma (fneg c.k) w w)) ∧
  (∀ (d : Desc) (lr : Nat), (d.consts lr).eta = fmul d.lr lr ∧ (d.consts lr).k = fmul (fmul d.lr lr) d.wd)

/-- Accesses to the cellar: a request crosses the culverts to the site of its row's link, or of the die's other link while that
carries nothing, and that link; the die's answer comes back the same way under its tag, a read with the bytes the cellar holds, a
write once they are stored. A request that no message carries to the die times out: a read gives ones marked poisoned, a write is
reported with 0x8109 and stores nothing. A request beyond the cellar or across a line is none (R26, R33, R41, R384–R386; paths, tags
and the moment of the answer are the model's choice, log 137, log 50). -/
def Obligations.Cellar_accesses : Prop :=
  (∀ (s : State) (r : CellarReq) (l d tag : Nat) (way : List Nat), s.live = true → r.access.addr / 2 ^ 40 = 4 → 0 < r.access.len →
    r.access.addr % 64 + r.access.len ≤ 64 → r.access.write = none → r.access.errors = [] → d = r.access.addr / 2 ^ 39 % 2 →
    l = s.cellarLink r.site.val d → s.cutOff r.site.val r.access.addr = false → s.cellarWay r.site.val d = some way →
    s.freeTag (way.headD 0) = some tag → (∀ k, k ∈ way → 0 < nth 0 (s.link k).credits 2) → s.gives (.cellarAccess r) fun c =>
    (∃ a b : GdpMsg, c.out = way.map (.gdp · b) ++ way.reverse.map (.gdp · a) ++ (s.toChip.oneLink d l).out ∧ a.op = .read ∧
      b.op = .readResp ∧ a.tag = BitVec.ofNat 12 tag ∧ b.tag = a.tag ∧ a.src = BitVec.ofNat 8 r.site.val ∧ a.dst = s.peerUnit l ∧
      b.dst = a.src ∧ b.src = a.dst ∧ a.addr = BitVec.ofNat 44 r.access.addr ∧
      b.payload = ((s.bytes (64 * (r.access.addr / 64)) 64).drop (r.access.addr % 64)).take r.access.len ∧
      b.poison = s.poisoned (64 * (r.access.addr / 64))) ∧ c.mem = s.mem ∧ c.log = (s.toChip.oneLink d l).log ∧ c.queues = s.queues) ∧
  (∀ (s : State) (r : CellarReq) (l d tag : Nat) (way : List Nat) (bs : List Byte) (m : Bool), s.live = true →
    r.access.addr / 2 ^ 40 = 4 → 0 < r.access.len → r.access.addr % 64 + r.access.len ≤ 64 → r.access.write = some (bs, m) →
    bs.length = r.access.len → r.access.errors = [] → d = r.access.addr / 2 ^ 39 % 2 → l = s.cellarLink r.site.val d →
    s.cutOff r.site.val r.access.addr = false → s.cellarWay r.site.val d = some way → s.freeTag (way.headD 0) = some tag →
    (∀ k, k ∈ way → 0 < nth 0 (s.link k).credits 2) → s.gives (.cellarAccess r) fun c =>
    (∃ a b : GdpMsg, c.out = way.map (.gdp · b) ++ way.reverse.map (.gdp · a) ++ (s.toChip.oneLink d l).out ∧ a.op = .write ∧
      b.op = .writeAck ∧ a.payload = bs ∧ a.poison = m ∧ a.tag = BitVec.ofNat 12 tag ∧ b.tag = a.tag ∧ b.status = 0) ∧
    (∀ i, i < bs.length → c.byte (r.access.addr + i) = nth 0 bs i) ∧
    (∀ k, k < r.access.addr ∨ r.access.addr + bs.length ≤ k → c.byte k = s.byte k) ∧
    c.log = (s.toChip.oneLink d l).log ∧ c.queues = s.queues) ∧
  (∀ (s : State) (r : CellarReq), s.live = true → r.access.addr / 2 ^ 40 = 4 → 0 < r.access.len →
    r.access.addr % 64 + r.access.len ≤ 64 → r.access.write = none →
    (s.cellarDown (r.access.addr / 2 ^ 39 % 2) = true ∨ s.cutOff r.site.val r.access.addr = true) →
    s.gives (.cellarAccess r) fun c => c = s.toChip.emit (.data (List.replicate r.access.len 0xFF) true)) ∧
  (∀ (s : State) (r : CellarReq) (bs : List Byte) (m : Bool), s.live = true → r.access.addr / 2 ^ 40 = 4 → 0 < r.access.len →
    r.access.addr % 64 + r.access.len ≤ 64 → r.access.write = some (bs, m) → bs.length = r.access.len →
    (s.cellarDown (r.access.addr / 2 ^ 39 % 2) = true ∨ s.cutOff r.site.val r.access.addr = true) →
    s.gives (.cellarAccess r) fun c => c.mem = s.mem ∧ c.hbm = s.hbm ∧ c.log.seq = s.log.seq + 1 ∧
    (Tab.get LogEntry.zero c.log.ring s.log.next).code = 0x8109) ∧
  (∀ (s : State) (r : CellarReq), s.live = true →
    (r.access.addr / 2 ^ 40 ≠ 4 ∨ r.access.len = 0 ∨ 64 < r.access.addr % 64 + r.access.len) →
    s.gives (.cellarAccess r) fun c => c = s.toChip)

/-! ### Management -/

/-- Sessions: a certificate that a claimed device's owner root vouches for opens a session of its role, on an unclaimed device one
that the claim CA vouches for opens an OWNER's; any other is refused with event 0x4D01, and a ninth session with 0x4D04; an idle
session closes, and the image it sends with it (R441–R443, R468). Events on sessions: SUBSCRIBE sets the lowest severity and the
subsystems a session hears, EVENT_ACK ends an event's resending, and an event without acknowledgement is sent again, at the tenth
time for the last (R445, R450). A request with a REQ_ID that the session has been answered already is answered again from what is
kept, and does nothing else; a request on no open session, or while management is not served, does nothing (R447). RESET of an OWNER
is answered and then resets the package, unless a shutdown is latched; a malformed message is answered BAD_MESSAGE; the UART is
served by the recovery loader alone, which takes IMAGE_ABORT there (R440, R444–R446, R472, R503). -/
def Obligations.Sessions_and_requests : Prop :=
  (∀ (s : State) (k : ClientCert), s.serving = true → s.mgmt.sessions.length < 8 → s.gives (.dtlsHandshake k) fun c =>
    match s.admits k with
    | none => c = s.toChip.raiseLimited 0x4D01 0 []
    | some (role, claim) => c = { s.toChip with mgmt := { s.mgmt with
        sessions := s.mgmt.sessions ++ [⟨s.mgmt.nextSession, role, claim, none, [], [], []⟩], nextSession := s.mgmt.nextSession + 1 } }) ∧
  (∀ (s : Chip) (k : ClientCert), s.mgmt.claimed = true →
    s.admits k = if Config.chainsTo s.mgmt.ownerRoot k.bytes then k.ou.map fun r => (r, false) else none) ∧
  (∀ (s : Chip) (k : ClientCert), s.mgmt.claimed = false →
    s.admits k = if Config.chainsTo Config.ryuverCa k.bytes = true ∧ k.serial = some (Config.dieUid 0) then some (.owner, true) else none) ∧
  (∀ (s : State) (k : ClientCert), s.serving = true → 8 ≤ s.mgmt.sessions.length →
    s.gives (.dtlsHandshake k) fun c => c = s.toChip.raise 0x4D04 []) ∧
  (∀ (s : State) (id : Nat) (v : Session), s.session id = some v → s.transferOf (some id) = none →
    s.gives (.sessionIdleTimeout id) fun c =>
    c = { s.toChip with mgmt := { s.mgmt with sessions := s.mgmt.sessions.filter (·.id != id) } }) ∧
  (∀ (s : State) (id : Nat) (v : Session) (t : Transfer), s.session id = some v → s.transferOf (some id) = some t →
    s.gives (.sessionIdleTimeout id) fun c =>
    c = { s.toChip with mgmt := { s.mgmt with sessions := s.mgmt.sessions.filter (·.id != id), transfer := none } }) ∧
  (∀ (s : State) (id : Nat) (q : Word32) (v : Session) (a : Byte) (b : Half), s.toChip.asks id q v → s.mgmt.loader = false →
    s.gives (.subscribe id q a b) fun c =>
    c = (s.toChip.setSession id fun v => { v with subscription := some (a, b) }).answers id 3 q .ok []) ∧
  (∀ (s : State) (id : Nat) (q : Word32) (v : Session) (n : Word), s.toChip.asks id q v → s.mgmt.loader = false →
    s.gives (.eventAck id q n) fun c =>
    c = (s.toChip.setSession id fun v => { v with unacked := v.unacked.filter (·.entry.seq != n) }).answers id 4 q .ok []) ∧
  (∀ (s : State) (id : Nat) (v : Session) (u : UnackedEvent), s.session id = some v → v.unacked = [u] → u.resends + 1 < 10 →
    s.gives (.eventResendTimer id u.entry.seq) fun c =>
    c.out = .event id u.entry :: s.out ∧ c.session id = some { v with unacked := [{ u with resends := u.resends + 1 }] } ∧
    c.mem = s.mem ∧ c.log = s.log) ∧
  (∀ (s : State) (id : Nat) (v : Session) (u : UnackedEvent), s.session id = some v → v.unacked = [u] → 10 ≤ u.resends + 1 →
    s.gives (.eventResendTimer id u.entry.seq) fun c =>
    c.out = .event id u.entry :: s.out ∧ c.session id = some { v with unacked := [] } ∧ c.mem = s.mem ∧ c.log = s.log) ∧
  (∀ (s : State) (i : Instr) (id : Nat) (q : Word32) (v : Session) (r : Response),
    ((∃ b e, i = .get id q b e) ∨ (∃ e, i = .set id q e) ∨ (∃ a b, i = .subscribe id q a b) ∨ (∃ a, i = .eventAck id q a) ∨
     (∃ a b, i = .memRead id q a b) ∨ (∃ a b, i = .memWrite id q a b) ∨ (∃ a, i = .attest id q a) ∨
     (∃ a b, i = .imageBegin id q a b) ∨ (∃ a b, i = .imageData id q a b) ∨ i = .imageEnd id q ∨ i = .imageAbort id q ∨
     i = .eulenReset id q ∨ (∃ a, i = .badMessage id q a)) →
    s.serving = true → s.session id = some v → v.kept.find? (·.reqId == q) = some r →
    s.gives i fun c => c = s.toChip.emit (.response id r)) ∧
  (∀ (s : State) (i : Instr) (id : Nat) (q : Word32),
    ((∃ b e, i = .get id q b e) ∨ (∃ e, i = .set id q e) ∨ (∃ a b, i = .subscribe id q a b) ∨ (∃ a, i = .eventAck id q a) ∨
     (∃ a b, i = .memRead id q a b) ∨ (∃ a b, i = .memWrite id q a b) ∨ (∃ a, i = .attest id q a) ∨
     (∃ a b, i = .imageBegin id q a b) ∨ (∃ a b, i = .imageData id q a b) ∨ i = .imageEnd id q ∨ i = .imageAbort id q ∨
     i = .eulenReset id q ∨ (∃ a, i = .badMessage id q a)) →
    (s.serving = false ∨ s.session id = none) → s.gives i fun c => c = s.toChip) ∧
  (∀ (s : State) (id : Nat) (q : Word32) (v : Session), s.toChip.asks id q v → v.owns = true → s.power.shutdown = none →
    s.gives (.eulenReset id q) fun c => c = (s.toChip.answers id 12 q .ok []).eulenReset) ∧
  (∀ (s : State) (id : Nat) (q : Word32) (v : Session), s.toChip.asks id q v → v.owns = true → s.power.shutdown.isSome = true →
    s.gives (.eulenReset id q) fun c => c = s.toChip.answers id 12 q .access []) ∧
  (∀ (s : State) (id : Nat) (q : Word32) (v : Session) (ty : Byte), s.toChip.asks id q v →
    s.gives (.badMessage id q ty) fun c => c = s.toChip.answers id ty.toNat q .badMessage []) ∧
  (∀ (s : State) (b : List Byte), s.mgmt.loader = false → s.gives (.uartFrame b) fun c => c = s.toChip) ∧
  (∀ (s : State) (b m : List Byte) (t : Transfer), s.mgmt.loader = true → uartMessage b = some m →
    m = eulenMessage 11 1 .ok [] → s.transferOf none = some t → s.gives (.uartFrame b) fun c =>
    c = ({ s.toChip with mgmt := { s.mgmt with transfer := none } } : Chip).emit (.uart (uartFrame (eulenMessage 0x8B 1 .ok []))))

/-- GET and SET: an entry of a readable object is answered with its value and the session's copies go; an entry of no object is
NO_OBJECT; a MONITOR's SET is refused with ROLE and changes nothing; a SET that may write an object takes it, and each entry has its
status (R442–R447, R452; the order of the statuses is the model's choice, log 76). Writes of objects: a plain object takes a value of its range, another
value is refused, a read-only object is never written, an RWL object only in Configure, and a service command that is refused leaves
ACCESS in SERVICE_RESULT (R452, R453, R481, R483). -/
def Obligations.Objects : Prop :=
  (∀ (s : State) (id : Nat) (q : Word32) (v : Session) (e : GetEntry) (r : DictRow), s.toChip.asks id q v → s.mgmt.loader = false →
    dictRow (256 * e.index.toNat + e.sub.toNat) = some r → r.acc ≠ .wo → r.ty.bytes.isSome = true → s.gives (.get id q false [e]) fun c =>
    c = (s.toChip.setSession id fun v => { v with snapshot := [] }).answers id 1 q .ok
      (getBytes e (.ok, s.value r (256 * e.index.toNat + e.sub.toNat)))) ∧
  (∀ (s : State) (id : Nat) (q : Word32) (v : Session) (e : GetEntry), s.toChip.asks id q v →
    dictRow (256 * e.index.toNat + e.sub.toNat) = none → e.sub ≠ 0 → s.gives (.get id q false [e]) fun c =>
    c = (s.toChip.setSession id fun v => { v with snapshot := [] }).answers id 1 q .ok (getBytes e (.noObject, []))) ∧
  (∀ (s : State) (id : Nat) (q : Word32) (v : Session) (e : SetEntry) (r : DictRow), s.toChip.asks id q v → s.mgmt.loader = false →
    v.role = .monitor → v.claim = false → e.value.length ≤ 64 → dictRow (256 * e.index.toNat + e.sub.toNat) = some r →
    s.gives (.set id q [e]) fun c =>
    c = s.toChip.answers id 2 q .ok (leBytes 2 e.index.toNat ++ [e.sub, EStatus.role.code])) ∧
  (∀ (s : State) (id : Nat) (q : Word32) (v : Session) (e : SetEntry) (st : EStatus) (t : Chip), s.toChip.asks id q v →
    s.mgmt.loader = false → e.value.length ≤ 64 →
    s.toChip.writeObject v.writer e.index.toNat e.sub.toNat e.type.toNat e.value = (st, t) → s.gives (.set id q [e]) fun c =>
    c = t.answers id 2 q .ok (leBytes 2 e.index.toNat ++ [e.sub, st.code])) ∧
  (∀ (s : State) (id : Nat), s.gives (.snapshotExpiry id) fun c =>
    c = s.toChip.setSession id fun v => { v with snapshot := v.snapshot.filter fun k => s.aon < k.time + 1000000000 }) ∧
  (∀ (s : State) (i : Half) (j : Byte) (b : List Byte) (r : DictRow) (n : Nat), s.awake = true →
    dictRow (256 * i.toNat + j.toNat) = some r → r.acc = .rwp → r.ty.bytes = some n → b.length = n →
    (actionsAon ++ actionsA ++ actionsB).find? (·.1 == r.key) = none → valueInRange r (leNat b) = true →
    s.valueAllowed r (leNat b) = true → s.gives (.objectWrite i j (BitVec.ofNat 8 r.ty.code) b) fun c =>
    c = s.toChip.setObj (256 * i.toNat + j.toNat) (leNat b)) ∧
  (∀ (s : State) (i : Half) (j : Byte) (b : List Byte) (r : DictRow) (n : Nat), s.awake = true →
    dictRow (256 * i.toNat + j.toNat) = some r → r.ty.bytes = some n → b.length = n →
    (actionsAon ++ actionsA ++ actionsB).find? (·.1 == r.key) = none → valueInRange r (leNat b) = false →
    s.gives (.objectWrite i j (BitVec.ofNat 8 r.ty.code) b) fun c => c = s.toChip) ∧
  (∀ (s : State) (i : Half) (j t : Byte) (b : List Byte), s.awake = true →
    (∀ r, dictRow (256 * i.toNat + j.toNat) = some r → r.acc = .ro ∨ (r.acc = .rwl ∧ s.mgmt.configOpen = false)) →
    s.gives (.objectWrite i j t b) fun c => c = s.toChip)

/-- Registers over management: MEM_READ answers the words of a range of the control and status blocks, MEM_WRITE writes them in
ascending order, another range is ACCESS, and a MONITOR is refused with ROLE (R442, R449). ATTEST answers the report over a nonce of
48 bytes with its signature, and BAD_MESSAGE to another nonce; the report is 864 bytes (R445, R464, R465). -/
def Obligations.Registers_and_attestation : Prop :=
  (∀ (s : State) (id : Nat) (q : Word32) (v : Session) (o : Word) (n : Half) (b : List Byte), s.toChip.asks id q v → v.operates = true →
    s.memRange o.toNat n.toNat = true → s.regBytes o.toNat n.toNat = some b → s.gives (.memRead id q o n) fun c =>
    c = s.toChip.answers id 5 q .ok b) ∧
  (∀ (s : State) (id : Nat) (q : Word32) (v : Session) (o : Word) (d : List Byte), s.toChip.asks id q v → v.operates = true →
    s.memRange o.toNat 8 = true → d.length = 8 → s.gives (.memWrite id q o d) fun c =>
    c = (s.toChip.regWrite o.toNat 8 (leNat d) .mgmt).answers id 6 q .ok []) ∧
  (∀ (s : State) (id : Nat) (q : Word32) (v : Session) (o : Word) (n : Half), s.toChip.asks id q v → v.operates = true →
    s.memRange o.toNat n.toNat = false → s.gives (.memRead id q o n) fun c => c = s.toChip.answers id 5 q .access []) ∧
  (∀ (s : State) (i : Instr) (id : Nat) (q : Word32) (v : Session) (ty : Nat), s.toChip.asks id q v → v.operates = false →
    ((∃ o n, i = .memRead id q o n ∧ ty = 5) ∨ (∃ o d, i = .memWrite id q o d ∧ ty = 6)) →
    s.gives i fun c => c = s.toChip.answers id ty q .role []) ∧
  (∀ (s : State) (id : Nat) (q : Word32) (v : Session) (n : List Byte), s.toChip.asks id q v → s.mgmt.loader = false → n.length = 48 →
    s.gives (.attest id q n) fun c =>
    c = s.toChip.drew.answers id 7 q .ok (s.report n ++ fit 96 (Config.aliasSign s.power.master s.freeCtr (s.report n)))) ∧
  (∀ (s : State) (id : Nat) (q : Word32) (v : Session) (n : List Byte), s.toChip.asks id q v → n.length ≠ 48 →
    s.gives (.attest id q n) fun c => c = s.toChip.answers id 7 q .badMessage []) ∧
  (∀ (s : Chip) (n b : List Byte), n.length = 48 → (s.report n ++ fit 96 b).length = 864)

/-- Image transfers: BEGIN opens the one transfer, DATA stages bytes within its total, ABORT, 10 s of silence and a failed check
discard it, BUSY answers a second BEGIN, and a role below OWNER is refused (R445, R459, R468, R474). Activation: the last unit of a
component makes it Active, its floor rises to its SVN and event 0x0D02 marks the end; a unit that does not run within twice its time
fails the activation with event 0x8D02, and of a command processor with 0x8501 too (the model's reading, log 162); a unit that
waits for nothing changes nothing (R460, R470, R471). -/
def Obligations.Images : Prop :=
  (∀ (s : State) (id : Nat) (q : Word32) (v : Session) (k : Byte) (n : Word32), s.toChip.asks id q v → v.owns = true →
    s.mgmt.transfer = none → s.mgmt.activation = none → (1 ≤ k.toNat ∧ k.toNat ≤ 7 ∨ k = 0x0F) → n.toNat ≤ 2 * 2 ^ 20 →
    s.gives (.imageBegin id q k n) fun c =>
    c = (s.toChip.setTransfer (some ⟨some id, k.toNat, n.toNat, []⟩)).answers id 8 q .ok []) ∧
  (∀ (s : State) (id : Nat) (q : Word32) (v : Session) (k : Byte) (n : Word32), s.toChip.asks id q v → v.owns = true →
    (s.mgmt.transfer.isSome = true ∨ s.mgmt.activation.isSome = true) →
    s.gives (.imageBegin id q k n) fun c => c = s.toChip.answers id 8 q .busy []) ∧
  (∀ (s : State) (id : Nat) (q : Word32) (v : Session) (t : Transfer) (o : Word32) (b : Byte), s.toChip.asks id q v → v.owns = true →
    s.mgmt.transfer = some t → t.session = some id → o.toNat < t.total → s.gives (.imageData id q o [b]) fun c =>
    c = (s.toChip.setTransfer (some { t with data := Tab.set none t.data o.toNat (some b) })).answers id 9 q .ok []) ∧
  (∀ (s : State) (id : Nat) (q : Word32) (v : Session) (t : Transfer), s.toChip.asks id q v → v.owns = true →
    s.mgmt.transfer = some t → t.session = some id → s.gives (.imageAbort id q) fun c =>
    c = ({ s.toChip with mgmt := { s.mgmt with transfer := none } } : Chip).answers id 11 q .ok []) ∧
  (∀ s : State, s.mgmt.transferAt + 10000000000 ≤ s.aon → s.gives .imageIdleTimeout fun c =>
    c = { s.toChip with mgmt := { s.mgmt with transfer := none } }) ∧
  (∀ (s : State) (id : Nat) (q : Word32) (v : Session) (t : Transfer), s.toChip.asks id q v → v.owns = true →
    s.mgmt.transfer = some t → t.session = some id → t.total < 256 → s.gives (.imageEnd id q) fun c =>
    c = (({ s.toChip with mgmt := { s.mgmt with transfer := none } } : Chip).raise 0x4D02 [.u8 t.component, .u8 7]).answers id 10 q
      .imageInvalid []) ∧
  (∀ (s : State) (id : Nat) (q : Word32) (v : Session) (t : Transfer), s.toChip.asks id q v → v.owns = true →
    s.mgmt.transfer = some t → t.session = some id → s.live = true → t.component ≠ 0x0F → s.gives (.imageEnd id q) fun c =>
    match s.mgmt.checkImage t.component (t.whole.getD []) with
    | .ok => c = ((({ s.toChip with mgmt := { s.mgmt with transfer := none } } : Chip).setComponent t.component fun x =>
        { x with image := some (imageWhole (t.whole.getD [])), state := .staged }).activate t.component
          ((s.mgmt.component t.component).state == .invalid)).answers id 10 q .ok []
    | st => c = (({ s.toChip with mgmt := { s.mgmt with transfer := none } } : Chip).raise 0x4D02
        [.u8 t.component, .u8 st.code.toNat]).answers id 10 q st []) ∧
  (∀ (s : State) (i : Instr) (id : Nat) (q : Word32) (v : Session) (ty : Nat), s.toChip.asks id q v → v.owns = false →
    ((∃ k n, i = .imageBegin id q k n ∧ ty = 8) ∨ (∃ o d, i = .imageData id q o d ∧ ty = 9) ∨ (i = .imageEnd id q ∧ ty = 10) ∨
     (i = .imageAbort id q ∧ ty = 11) ∨ (i = .eulenReset id q ∧ ty = 12)) →
    s.gives i fun c => c = s.toChip.answers id ty q .role []) ∧
  (∀ (s : State) (u k : Nat) (f : Bool), s.live = true → s.mgmt.activation = some ⟨k, [u], f⟩ → (k = 2 ∨ k = 6 ∧ (s.die u).midUpdate = false) →
    s.gives (.activationUnitDone u false) fun c =>
    c.mgmt.activation = none ∧ (c.mgmt.component k).state = .active ∧
    (c.mgmt.component k).floor = max (s.mgmt.component k).floor (imageSvn (s.mgmt.image k)) ∧
    (c.mgmt.component k).image = (s.mgmt.component k).image ∧ c.log.seq = s.log.seq + 1 ∧
    (Tab.get LogEntry.zero c.log.ring s.log.next).code = 0x0D02 ∧ c.mem = s.mem ∧ c.cores = s.cores ∧ c.queues = s.queues) ∧
  (∀ (s : State) (a : Activation) (u : Nat), s.awake = true → s.mgmt.activation = some a → a.component ≠ 2 → a.component ≠ 3 →
    (a.component = 4 → ∀ p, (s.port p).needs = [] ∧ s.obju O.portAdmin p ≠ 2) → u ∈ a.units → s.gives (.activationTimeout u) fun c =>
    c.mgmt.activation = none ∧ (c.mgmt.component a.component).state = .activationFailed ∧
    (c.mgmt.component a.component).image = (s.mgmt.component a.component).image ∧ c.log.seq = s.log.seq + 1 ∧
    (Tab.get LogEntry.zero c.log.ring s.log.next).code = 0x8D02 ∧ c.mem = s.mem ∧ c.cores = s.cores) ∧
  (∀ (s : State) (a : Activation) (u : Nat), s.awake = true → s.mgmt.activation = some a → a.component = 3 → u ∈ a.units →
    s.gives (.activationTimeout u) fun c => c.mgmt.activation = none ∧ (c.mgmt.component 3).state = .activationFailed ∧
    (∀ k, k ∈ a.units → (s.core k).state = .testing → (c.core k).state = .idle) ∧ (∀ k, k ∉ a.units → c.core k = s.core k) ∧
    c.log.seq = s.log.seq + 1 ∧ c.mem = s.mem) ∧
  (∀ (s : State) (a : Activation) (u : Nat), s.awake = true → s.mgmt.activation = some a → a.component = 2 → u ∈ a.units →
    s.queues = [] → s.gives (.activationTimeout u) fun c => c = (s.toChip.activationFail u).raise 0x8501 [.u8 u] ∧
    c.mgmt.activation = none ∧ (c.mgmt.component 2).state = .activationFailed) ∧
  (∀ (s : State) (i : Instr) (u : Nat), s.awake = true → (∀ a, s.mgmt.activation = some a → u ∉ a.units) →
    ((∃ b, i = .activationUnitDone u b) ∨ i = .activationTimeout u) → s.gives i fun c => c = s.toChip)

/-- The owner: OWNER_ROOT claims an unclaimed device with event 0x0D04 where the certificate is valid, and nothing else claims
one; OWNER_RELEASE of an idle device sanitises it and closes every session; RECOVERY_REQUEST is kept for the next boot (R443,
R472). Debug: a request for a scope of 1–3 makes a fresh challenge that names it and is live; a response opens its scope, with
event 0x0D03, only if the challenge is live and the scope's key has signed it, and uses the challenge up whatever it is (R466).
Which certificates are valid is an opaque function of their bytes (log 13). -/
def Obligations.Ownership_and_debug : Prop :=
  (∀ (s : State) (b : List Byte), s.awake = true → s.mgmt.claimed = false → b.length ≤ 2048 → s.gives (.ownerRootWrite b) fun c =>
    c = if Config.validCert b then
        ({ s.toChip with mgmt := { s.mgmt with claimed := true, ownerRoot := b } } : Chip).raise 0x0D04 []
      else s.toChip) ∧
  (∀ (s : State) (b : List Byte), s.awake = true → s.mgmt.claimed = true → s.gives (.ownerRootWrite b) fun c => c = s.toChip) ∧
  (∀ s : State, s.live = true → s.job.state = 0 → s.gives (.ownerRelease true) fun c =>
    c.mgmt.claimed = false ∧ c.mgmt.ownerRoot = [] ∧ c.mgmt.ownerDebugKey = [] ∧ c.mgmt.sessions = [] ∧ c.mem = [] ∧
    c.sync.counters = [] ∧ c.log = s.log ∧ c.mgmt.components = s.mgmt.components) ∧
  (∀ s : State, s.live = true → s.job.state ≠ 0 → s.gives (.ownerRelease true) fun c => c = s.toChip) ∧
  (∀ s : State, s.awake = true → s.gives (.recoveryRequest true) fun c =>
    c = { s.toChip with mgmt := { s.mgmt with recoveryRequest := true } }) ∧
  (∀ (s : State) (k : Byte), s.awake = true → 1 ≤ k.toNat → k.toNat ≤ 3 → s.gives (.debugRequest k) fun c =>
    c.mgmt.challengeLive = true ∧ c.mgmt.challengeScope = k.toNat ∧ nth 0 c.mgmt.challenge 56 = k ∧ c.mgmt.challenge.length = 64 ∧
    c.mgmt.debugScope = s.mgmt.debugScope ∧ c = { s.toChip with mgmt := c.mgmt, freeCtr := s.freeCtr + 6 }) ∧
  (∀ (s : State) (k : Byte), s.awake = true → (k.toNat = 0 ∨ 3 < k.toNat) → s.gives (.debugRequest k) fun c => c = s.toChip) ∧
  (∀ (s : State) (b : List Byte), s.awake = true → s.mgmt.challengeLive = false → s.gives (.debugResponse b) fun c =>
    c = s.toChip.raiseLimited 0x4D01 1 []) ∧
  (∀ (s : State) (b : List Byte) (k : Nat × Nat), s.awake = true → s.mgmt.challengeLive = true → s.mgmt.challengeScope = 1 →
    b.length = 96 → s.debugKey 1 = some k → s.gives (.debugResponse b) fun c =>
    c = let t : Chip := { s.toChip with mgmt := { s.mgmt with challengeLive := false } }
      if ecdsaVerify k s.mgmt.challenge (leNat (b.take 48)) (leNat ((b.drop 48).take 48)) then
        ({ t with mgmt := { t.mgmt with debugScope := 1 } } : Chip).raise 0x0D03 [.u8 1]
      else t.raiseLimited 0x4D01 1 [])

/-! ### Health and service -/

/-- Health: an evaluation scores the lowest margin in thousandths, suspects a chip whose score or lateness passes its limit, and
changes nothing of the work; SUSPECT_SET sets and clears the third cause, and the first one goes once the score has recovered
(R478–R480; rounding and the inputs the spec does not define are the model's choice, log 74). -/
def Obligations.Health : Prop :=
  (∀ s : State, s.live = true → s.gives .healthEvaluation fun c =>
    c.service.score = roundRat (1000 * leastOf 1 (s.margins.map fun m => 1 - m.2 * (1 - m.1))) ∧
    c.service.components = s.margins.map (fun m => roundRat (1000 * m.1)) ∧
    (c.service.score < s.obj O.suspectScore → c.service.suspect.getLsbD 0 = true) ∧
    (s.lateLimit ≤ s.lateness → c.service.suspect.getLsbD 1 = true) ∧ c.service.state = s.service.state ∧
    c = { s.toChip with service := c.service, log := c.log, mgmt := c.mgmt, out := c.out, pins := c.pins }) ∧
  (∀ s : State, s.live = true → s.service.suspect.getLsbD 2 = false → s.gives (.suspectSet 1) fun c =>
    c = ({ s.toChip with service := { s.service with suspect := s.service.suspect ||| 4#3 } } : Chip).raise 0x4E02 [.u8 2]) ∧
  (∀ s : State, s.live = true → s.gives (.suspectSet 0) fun c =>
    c = { s.toChip with service := { s.service with suspect := s.service.suspect &&& 3#3 } }) ∧
  (∀ (s : State) (v : Byte), s.live = true → 1 < v.toNat → s.gives (.suspectSet v) fun c => c = s.toChip) ∧
  (∀ s : State, s.live = true → s.obj O.suspectScore + 100 ≤ s.service.score → s.gives .suspectScoreClearTimer fun c =>
    c = { s.toChip with service := { s.service with suspect := s.service.suspect &&& 6#3 } }) ∧
  (∀ s : State, s.live = true → s.service.score < s.obj O.suspectScore + 100 →
    s.gives .suspectScoreClearTimer fun c => c = s.toChip)

/-- Drains: DRAIN of the chip from Serving stops its queues and cores, and the chip is Draining until nothing of it runs, then
Drained; a queue, a core, a port and a communicator slot drain alone in Serving and Source; SERVICE_RESULT holds the command and its
status, and a command that is not allowed only leaves ACCESS there (R481–R483). QUARANTINE sets QUARANTINED with event 0x8E02 and
drains the chip, from Drained it ends the job at once; PROMOTE of a Verified chip clears QUARANTINED and ends its job with event
0x0E02; each is refused in any other state (R481–R484; that both show at the write is the model's choice, log 71). -/
def Obligations.Drains_and_quarantine : Prop :=
  (∀ s : State, s.live = true → s.service.state = .serving → s.gives .drainChip fun c => c = s.toChip.drainChip.serviceDone 2 .ok) ∧
  (∀ s : State, s.live = true → s.service.state ≠ .serving → s.gives .drainChip fun c => c = s.toChip.serviceDone 2 .access) ∧
  (∀ s : State, s.live = true → s.service.state = .serving → s.queues = [] → s.cores = [] → s.gives .drainChip fun c =>
    c = { s.toChip with service := { s.service with state := .draining, result := (2, 0, s.timebase) } }) ∧
  (∀ (s : State) (i : Instr) (n : Half) (t : Chip),
    ((i = .drainQueue n ∧ n.toNat < 16384 ∧ t = s.toChip.drainQueue n.toNat) ∨
     (i = .drainCore n ∧ n.toNat < 256 ∧ t = s.toChip.coreStop n.toNat) ∨
     (i = .drainPort n ∧ n.toNat < 160 ∧ t = s.toChip.portDisable n.toNat) ∨
     (i = .drainSlot n ∧ n.toNat < 4096 ∧ t = s.toChip.commUnbind n.toNat)) → s.live = true →
    (s.service.state = .serving ∨ s.service.state = .source) → s.gives i fun c => c = t.serviceDone 2 .ok) ∧
  (∀ (s : State) (i : Instr) (n : Half), (i = .drainQueue n ∨ i = .drainCore n ∨ i = .drainPort n ∨ i = .drainSlot n) → s.live = true →
    s.service.state ≠ .serving → s.service.state ≠ .source → s.gives i fun c => c = s.toChip.serviceDone 2 .access) ∧
  (∀ (s : State) (n : Half), s.live = true → n.toNat < 256 → (s.core n.toNat).state = .running → s.service.state = .serving →
    s.gives (.drainCore n) fun c => (c.core n.toNat).state = .draining ∧ (∀ j, j ≠ n.toNat → c.core j = s.core j)) ∧
  (∀ s : State, s.live = true → s.service.state = .draining → s.drained = true → s.service.quarantining = false →
    s.gives .drainDone fun c =>
    c = { s.toChip with service := { s.service with state := .drained, result := (2, 0, s.timebase) } }) ∧
  (∀ s : State, s.live = true → s.service.state = .draining → s.drained = true → s.service.quarantining = true →
    s.gives .drainDone fun c => c = s.toChip.quarantineEnd.serviceDone 1 .ok) ∧
  (∀ s : State, s.live = true → (s.service.state ≠ .draining ∨ s.drained = false) → s.gives .drainDone fun c => c = s.toChip) ∧
  (∀ s : State, s.live = true → s.service.state = .serving → s.service.quarantining = false → s.gives .quarantine fun c =>
    c = ((({ s.toChip with service := { s.service with quarantined := true, quarantining := true } } : Chip).raise 0x8E02
      []).drainChip).serviceDone 1 .ok) ∧
  (∀ s : State, s.live = true → s.service.state = .draining → s.service.quarantining = false → s.gives .quarantine fun c =>
    c = (({ s.toChip with service := { s.service with quarantined := true, quarantining := true } } : Chip).raise 0x8E02
      []).serviceDone 1 .ok) ∧
  (∀ s : State, s.live = true → s.service.state = .drained → s.service.quarantining = false → s.gives .quarantine fun c =>
    c = ((({ s.toChip with service := { s.service with quarantined := true, quarantining := true } } : Chip).raise 0x8E02
      []).quarantineEnd).serviceDone 1 .ok) ∧
  (∀ s : State, s.live = true → (s.service.state = .quarantined ∨ s.service.quarantining = true) →
    s.gives .quarantine fun c => c = s.toChip.serviceDone 1 .access) ∧
  (∀ s : State, s.live = true → s.service.state = .verified → s.queues = [] → s.job.state < 2 → s.gives .promote fun c =>
    c.service.state = .serving ∧ c.service.quarantined = false ∧ c.service.pair = none ∧ c.service.result = (4, 0, s.timebase) ∧
    c.job.state = 2 ∧ c.log.seq = s.log.seq + 1 ∧ (Tab.get LogEntry.zero c.log.ring s.log.next).code = 0x0E02 ∧ c.mem = s.mem) ∧
  (∀ s : State, s.live = true → s.service.state ≠ .verified → s.gives .promote fun c => c = s.toChip.serviceDone 4 .access)

/-- Shadowing is set up and ended: SHADOW makes a quarantined or an idle chip the shadow of its peer, SOURCE makes a serving one
mirror to it, each with its ring and counter, and STOP ends either; refused in any other state (R481, R482, R488). Mirror records:
the source writes a command's record into the ring at the record's slot and adds 1 to COUNTER, while the ring has room; the shadow's
network-facing command completes as its record says, and one that differs makes the step unequal, with event 0x8E01 (R489–R492). -/
def Obligations.Shadowing : Prop :=
  (∀ (s : State) (p st : Word32) (ring : Word) (l : Byte) (n : Word32), s.live = true →
    (s.service.state = .quarantined ∨ s.service.state = .serving ∧ s.job.state = 0) → p.toNat < 0x10000 → 6 ≤ l.toNat → l.toNat ≤ 20 →
    n.toNat < 2 ^ 18 → ring.toNat % 4096 = 0 → ring.toNat + 32 * 2 ^ l.toNat ≤ s.hbmVisible → s.gives (.shadow p st ring l n) fun c =>
    c.service.state = .shadowing ∧ c.service.pair = some ⟨BitVec.ofNat 20 p.toNat, st, ring.toNat, l.toNat, n.toNat⟩ ∧
    c.service.pairActive = false ∧ c.service.shadowEqual = 0 ∧ c.service.shadowMismatches = 0 ∧ c.service.result = (3, 0, s.timebase) ∧
    c.service.counterBase = (s.counter n.toNat).value ∧ c.service.quarantined = s.service.quarantined ∧
    c = { s.toChip with service := c.service }) ∧
  (∀ (s : State) (p st : Word32) (ring : Word) (l : Byte) (n : Word32), s.live = true → s.service.state = .serving →
    p.toNat < 0x10000 → 6 ≤ l.toNat → l.toNat ≤ 20 → n.toNat < 2 ^ 18 → ring.toNat % 4096 = 0 →
    ring.toNat + 32 * 2 ^ l.toNat ≤ 0x30000000000 → s.gives (.source p st ring l n) fun c =>
    c.service.state = .source ∧ c.service.pair = some ⟨BitVec.ofNat 20 p.toNat, st, ring.toNat, l.toNat, n.toNat⟩ ∧
    c.service.pairActive = false ∧ c.service.result = (3, 0, s.timebase) ∧ c = { s.toChip with service := c.service }) ∧
  (∀ s : State, s.live = true → (s.service.state = .shadowing ∨ s.service.state = .verified ∨ s.service.state = .source) →
    s.gives .stop fun c =>
    c.service.state = (if s.service.state ≠ .source ∧ s.service.quarantined = true then .quarantined else .serving) ∧
    c.service.pair = none ∧ c.service.result = (3, 0, s.timebase) ∧ c = { s.toChip with service := c.service }) ∧
  (∀ (s : State) (i : Instr), s.live = true →
    (((∃ p st ring l n, i = .shadow p st ring l n) ∧ s.service.state ≠ .quarantined ∧ s.service.state ≠ .serving) ∨
     ((∃ p st ring l n, i = .source p st ring l n) ∧ s.service.state ≠ .serving) ∨
     (i = .stop ∧ s.service.state ≠ .shadowing ∧ s.service.state ≠ .verified ∧ s.service.state ≠ .source)) →
    s.gives i fun c => c = s.toChip.serviceDone 3 .access) ∧
  (∀ (s : State) (q : Fin 16384) (n : Word32) (t : Chip) (p : Pair) (r : MirrorRecord), s.live = true → s.mirroring = true →
    t = s.toChip.mirrorPump → t.service.pair = some p →
    t.service.mirrorRecords.find? (fun r => r.queue.toNat == q.val && r.index == n.setWidth 16) = some r →
    t.service.recordsWritten < t.announced p + 2 ^ p.ringLog2 → s.gives (.mirrorRecordWrite q n) fun c =>
    c = ({ t with service := { t.service with
      mirrorRecords := t.service.mirrorRecords.erase r
      recordsWritten := t.service.recordsWritten + 1
      mirrorQueue := t.service.mirrorQueue ++
        [.write (p.ring + 32 * (t.service.recordsWritten % 2 ^ p.ringLog2)) r.bytes, .atomic (counterOffset p.counter) 0 true 1 0] } } :
      Chip).mirrorPump) ∧
  (∀ (s : State) (q : Fin 16384) (n : Word32), s.live = true → s.mirroring = false →
    s.gives (.mirrorRecordWrite q n) fun c => c = s.toChip) ∧
  (∀ (s : State) (q : Fin 16384) (n : Word32), s.live = true → (s.service.pair = none ∨ s.isShadow = false ∨ s.service.pairActive = false) →
    s.gives (.shadowCommandComplete q n) fun c => c = s.toChip) ∧
  (∀ (s : State) (q : Fin 16384) (n : Word32) (p : Pair) (e own : QEntry) (k : Nat) (raw : List Byte), s.live = true →
    s.service.pair = some p → (s.queueAt q.val).entry n = some e → s.isShadow = true → s.service.pairActive = true → e.netFacing = true →
    e.phase = .started → e.opcode ≠ 5 → e.outstanding = 1 →
    (s.freshRecords p).find? (fun k => s.word (p.slot k) 4 == q.val + 65536 * (e.num.toNat % 65536)) = some k →
    raw = s.bytes (p.slot k) 32 → own = ({ e with outstanding := 0 } : QEntry).finishIf →
    leNat ((raw.drop 4).take 1) = own.status.code.toNat → leNat ((raw.drop 8).take 8) = own.segBits →
    leNat ((raw.drop 16).take 8) = (s.digestFor q.val e).1.toNat → leNat ((raw.drop 24).take 8) = (s.digestFor q.val e).2.toNat →
    s.gives (.shadowCommandComplete q n) fun c =>
    c = ((({ s.toChip with service := { s.service with
      recordsTaken := k :: (s.service.recordsTaken.filter fun j => s.announced p - 2 ^ p.ringLog2 ≤ j)
      digests := s.service.digests.filter fun d => !(d.1 == q.val && d.2.1 == e.num)
      mirrorQueue := s.service.mirrorQueue ++ [.atomic (counterOffset p.counter) 0 true 1 0] } } : Chip).setEntry q.val n fun e =>
        { e with phase := .finished, outstanding := 0, status := statusOf own.status.code.toNat,
                 segMap := some (BitVec.ofNat 64 own.segBits) }).mirrorPump).complete q.val n) ∧
  (∀ (s : Chip) (q : Nat) (e : QEntry) (raw : List Byte) (st : Status) (a b : Word), s.service.stepEqual = true →
    (s.shadowDiffers q e raw st a b).service.stepEqual = false ∧ (s.shadowDiffers q e raw st a b).service.shadowEqual = 0 ∧
    (s.shadowDiffers q e raw st a b).service.shadowMismatches = s.service.shadowMismatches + 1 ∧
    (s.shadowDiffers q e raw st a b).log.seq = s.log.seq + 1)
end

