-- ==== Sys2Proof/Laws/Tab.lean ====
section
/-! SUPPORT. The laws of sparse tables: read after write, other keys unchanged, the canonical form is kept. -/

namespace Sys2Proof.Machine

variable {α : Type}

@[simp] theorem Tab.get_nil (d : α) (k : Nat) : Tab.get d [] k = d := rfl

theorem Tab.get_erase_same (d : α) (t : Tab α) (k : Nat) : Tab.get d (Tab.erase t k) k = d := by
  induction t with
  | nil => rfl
  | cons p r ih =>
    obtain ⟨k', v⟩ := p
    by_cases h : k = k'
    · simp [Tab.erase, h]; subst h; exact ih
    · simp [Tab.erase, Tab.get, h, ih]

theorem Tab.get_erase_ne (d : α) (t : Tab α) (k j : Nat) (h : j ≠ k) :
    Tab.get d (Tab.erase t k) j = Tab.get d t j := by
  induction t with
  | nil => rfl
  | cons p r ih =>
    obtain ⟨k', v⟩ := p
    by_cases h1 : k = k'
    · subst h1; simp [Tab.erase, Tab.get, h, ih]
    · by_cases h2 : j = k' <;> simp [Tab.erase, Tab.get, h1, h2, ih]

theorem Tab.get_insert_same (d : α) (t : Tab α) (k : Nat) (v : α) : Tab.get d (Tab.insert t k v) k = v := by
  induction t with
  | nil => simp [Tab.insert, Tab.get]
  | cons p r ih =>
    obtain ⟨k', v'⟩ := p
    unfold Tab.insert
    split
    · simp [Tab.get]
    · split
      · simp [Tab.get]
      · rename_i h; simp [Tab.get, h, ih]

theorem Tab.get_insert_ne (d : α) (t : Tab α) (k j : Nat) (v : α) (h : j ≠ k) :
    Tab.get d (Tab.insert t k v) j = Tab.get d t j := by
  induction t with
  | nil => simp [Tab.insert, Tab.get, h]
  | cons p r ih =>
    obtain ⟨k', v'⟩ := p
    unfold Tab.insert
    split
    · simp [Tab.get, h]
    · split
      · rename_i h1; subst h1; simp [Tab.get, h]
      · simp [Tab.get, ih]

variable [DecidableEq α]

@[simp] theorem Tab.get_set_same (d : α) (t : Tab α) (k : Nat) (v : α) : Tab.get d (Tab.set d t k v) k = v := by
  unfold Tab.set
  split
  · rename_i h; rw [Tab.get_erase_same, h]
  · exact Tab.get_insert_same d t k v

theorem Tab.get_set_ne (d : α) (t : Tab α) (k j : Nat) (v : α) (h : j ≠ k) :
    Tab.get d (Tab.set d t k v) j = Tab.get d t j := by
  unfold Tab.set
  split
  · exact Tab.get_erase_ne d t k j h
  · exact Tab.get_insert_ne d t k j v h

theorem Tab.get_set (d : α) (t : Tab α) (k j : Nat) (v : α) :
    Tab.get d (Tab.set d t k v) j = if j = k then v else Tab.get d t j := by
  by_cases h : j = k
  · subst h; simp
  · simp [h, Tab.get_set_ne]

theorem Tab.get_modify (d : α) (t : Tab α) (k j : Nat) (f : α → α) :
    Tab.get d (Tab.modify d t k f) j = if j = k then f (Tab.get d t k) else Tab.get d t j := by
  simp [Tab.modify, Tab.get_set]

theorem Tab.mem_erase {t : Tab α} {k : Nat} {p : Nat × α} (h : p ∈ Tab.erase t k) : p ∈ t := by
  induction t with
  | nil => simp [Tab.erase] at h
  | cons q r ih =>
    obtain ⟨k', v⟩ := q
    unfold Tab.erase at h
    split at h
    · exact List.mem_cons_of_mem _ (ih h)
    · rcases List.mem_cons.mp h with h | h
      · simp [h]
      · exact List.mem_cons_of_mem _ (ih h)

theorem Tab.mem_insert {t : Tab α} {k : Nat} {v : α} {p : Nat × α} (h : p ∈ Tab.insert t k v) :
    p = (k, v) ∨ p ∈ t := by
  induction t with
  | nil => simpa [Tab.insert] using h
  | cons q r ih =>
    obtain ⟨k', v'⟩ := q
    unfold Tab.insert at h
    split at h
    · simpa using h
    · split at h
      · rcases List.mem_cons.mp h with h | h
        · exact .inl h
        · exact .inr (List.mem_cons_of_mem _ h)
      · rcases List.mem_cons.mp h with h | h
        · exact .inr (by simp [h])
        · rcases ih h with h | h
          · exact .inl h
          · exact .inr (List.mem_cons_of_mem _ h)

theorem Tab.pairwise_erase {t : Tab α} (k : Nat) (h : t.Pairwise (fun a b => a.1 < b.1)) :
    (Tab.erase t k).Pairwise (fun a b => a.1 < b.1) := by
  induction t with
  | nil => simp [Tab.erase]
  | cons q r ih =>
    obtain ⟨k', v⟩ := q
    rw [List.pairwise_cons] at h
    unfold Tab.erase
    split
    · exact ih h.2
    · exact List.pairwise_cons.mpr ⟨fun a ha => h.1 a (Tab.mem_erase ha), ih h.2⟩

theorem Tab.pairwise_insert {t : Tab α} (k : Nat) (v : α) (h : t.Pairwise (fun a b => a.1 < b.1)) :
    (Tab.insert t k v).Pairwise (fun a b => a.1 < b.1) := by
  induction t with
  | nil => simp [Tab.insert]
  | cons q r ih =>
    obtain ⟨k', v'⟩ := q
    have h' := List.pairwise_cons.mp h
    unfold Tab.insert
    split
    · rename_i hk
      refine List.pairwise_cons.mpr ⟨?_, h⟩
      intro a ha
      rcases List.mem_cons.mp ha with rfl | ha
      · exact hk
      · exact Nat.lt_trans hk (h'.1 a ha)
    · split
      · rename_i _ hk; subst hk
        exact List.pairwise_cons.mpr ⟨fun a ha => h'.1 a ha, h'.2⟩
      · rename_i h1 h2
        refine List.pairwise_cons.mpr ⟨?_, ih h'.2⟩
        intro a ha
        rcases Tab.mem_insert ha with rfl | ha
        · show k' < k; omega
        · exact h'.1 a ha

/-- Every table write keeps the canonical form. -/
theorem Tab.wf_set (d : α) (t : Tab α) (k : Nat) (v : α) (h : Tab.wf d t = true) :
    Tab.wf d (Tab.set d t k v) = true := by
  simp only [Tab.wf, Bool.and_eq_true, decide_eq_true_eq, List.all_eq_true] at h ⊢
  unfold Tab.set
  split
  · exact ⟨Tab.pairwise_erase k h.1, fun p hp => h.2 p (Tab.mem_erase hp)⟩
  · rename_i hv
    refine ⟨Tab.pairwise_insert k v h.1, fun p hp => ?_⟩
    rcases Tab.mem_insert hp with rfl | hp
    · exact hv
    · exact h.2 p hp

theorem Tab.wf_modify (d : α) (t : Tab α) (k : Nat) (f : α → α) (h : Tab.wf d t = true) :
    Tab.wf d (Tab.modify d t k f) = true :=
  Tab.wf_set d t k _ h

theorem Tab.wf_keep (d : α) (t : Tab α) (p : Nat → Bool) (h : Tab.wf d t = true) :
    Tab.wf d (Tab.keep p t) = true := by
  simp only [Tab.wf, Bool.and_eq_true, decide_eq_true_eq, List.all_eq_true] at h ⊢
  exact ⟨h.1.filter _, fun q hq => h.2 q (List.mem_filter.mp hq).1⟩

@[simp] theorem Tab.wf_nil (d : α) : Tab.wf d ([] : Tab α) = true := rfl

end Sys2Proof.Machine
end

