-- ==== Sys2Proof/Laws/State.lean ====
section
/-! SUPPORT. What each update of one part of the chip leaves as it was: one lemma per update and field, and per update and
reader; and what it makes of its own part. -/

namespace Sys2Proof.Machine

variable (s : Chip)

/-! ### Fields -/

section
variable (p : Nat) (f : Port → Port)
@[simp] theorem Chip.setPort_part : (s.setPort p f).part = s.part := rfl
@[simp] theorem Chip.setPort_now : (s.setPort p f).now = s.now := rfl
@[simp] theorem Chip.setPort_timebase : (s.setPort p f).timebase = s.timebase := rfl
@[simp] theorem Chip.setPort_pins : (s.setPort p f).pins = s.pins := rfl
@[simp] theorem Chip.setPort_objs : (s.setPort p f).objs = s.objs := rfl
@[simp] theorem Chip.setPort_mem : (s.setPort p f).mem = s.mem := rfl
@[simp] theorem Chip.setPort_hbm : (s.setPort p f).hbm = s.hbm := rfl
@[simp] theorem Chip.setPort_links : (s.setPort p f).links = s.links := rfl
@[simp] theorem Chip.setPort_engines : (s.setPort p f).engines = s.engines := rfl
@[simp] theorem Chip.setPort_tn : (s.setPort p f).tn = s.tn := rfl
@[simp] theorem Chip.setPort_gn : (s.setPort p f).gn = s.gn := rfl
@[simp] theorem Chip.setPort_queues : (s.setPort p f).queues = s.queues := rfl
@[simp] theorem Chip.setPort_job : (s.setPort p f).job = s.job := rfl
@[simp] theorem Chip.setPort_cpLast : (s.setPort p f).cpLast = s.cpLast := rfl
@[simp] theorem Chip.setPort_sync : (s.setPort p f).sync = s.sync := rfl
@[simp] theorem Chip.setPort_coll : (s.setPort p f).coll = s.coll := rfl
@[simp] theorem Chip.setPort_cores : (s.setPort p f).cores = s.cores := rfl
@[simp] theorem Chip.setPort_cellar : (s.setPort p f).cellar = s.cellar := rfl
@[simp] theorem Chip.setPort_power : (s.setPort p f).power = s.power := rfl
@[simp] theorem Chip.setPort_mgmt : (s.setPort p f).mgmt = s.mgmt := rfl
@[simp] theorem Chip.setPort_log : (s.setPort p f).log = s.log := rfl
@[simp] theorem Chip.setPort_service : (s.setPort p f).service = s.service := rfl
@[simp] theorem Chip.setPort_out : (s.setPort p f).out = s.out := rfl
@[simp] theorem Chip.setPort_freeCtr : (s.setPort p f).freeCtr = s.freeCtr := rfl
@[simp] theorem Chip.setPort_obj (j : Nat) : (s.setPort p f).obj j = s.obj j := rfl
@[simp] theorem Chip.setPort_objb (j : Nat) : (s.setPort p f).objb j = s.objb j := rfl
@[simp] theorem Chip.setPort_obju (j u : Nat) : (s.setPort p f).obju j u = s.obju j u := rfl
@[simp] theorem Chip.setPort_engine (j : Nat) : (s.setPort p f).engine j = s.engine j := rfl
@[simp] theorem Chip.setPort_core (j : Nat) : (s.setPort p f).core j = s.core j := rfl
@[simp] theorem Chip.setPort_queueAt (j : Nat) : (s.setPort p f).queueAt j = s.queueAt j := rfl
@[simp] theorem Chip.setPort_counter (j : Nat) : (s.setPort p f).counter j = s.counter j := rfl
@[simp] theorem Chip.setPort_comm (j : Nat) : (s.setPort p f).comm j = s.comm j := rfl
@[simp] theorem Chip.setPort_site (j : Nat) : (s.setPort p f).site j = s.site j := rfl
@[simp] theorem Chip.setPort_die (j : Nat) : (s.setPort p f).die j = s.die j := rfl
@[simp] theorem Chip.setPort_aon : (s.setPort p f).aon = s.aon := rfl
@[simp] theorem Chip.setPort_awake : (s.setPort p f).awake = s.awake := rfl
@[simp] theorem Chip.setPort_live : (s.setPort p f).live = s.live := rfl
end

section
variable (e : Nat) (f : Engine → Engine)
@[simp] theorem Chip.setEngine_part : (s.setEngine e f).part = s.part := rfl
@[simp] theorem Chip.setEngine_now : (s.setEngine e f).now = s.now := rfl
@[simp] theorem Chip.setEngine_timebase : (s.setEngine e f).timebase = s.timebase := rfl
@[simp] theorem Chip.setEngine_pins : (s.setEngine e f).pins = s.pins := rfl
@[simp] theorem Chip.setEngine_objs : (s.setEngine e f).objs = s.objs := rfl
@[simp] theorem Chip.setEngine_mem : (s.setEngine e f).mem = s.mem := rfl
@[simp] theorem Chip.setEngine_hbm : (s.setEngine e f).hbm = s.hbm := rfl
@[simp] theorem Chip.setEngine_links : (s.setEngine e f).links = s.links := rfl
@[simp] theorem Chip.setEngine_ports : (s.setEngine e f).ports = s.ports := rfl
@[simp] theorem Chip.setEngine_tn : (s.setEngine e f).tn = s.tn := rfl
@[simp] theorem Chip.setEngine_gn : (s.setEngine e f).gn = s.gn := rfl
@[simp] theorem Chip.setEngine_queues : (s.setEngine e f).queues = s.queues := rfl
@[simp] theorem Chip.setEngine_job : (s.setEngine e f).job = s.job := rfl
@[simp] theorem Chip.setEngine_cpLast : (s.setEngine e f).cpLast = s.cpLast := rfl
@[simp] theorem Chip.setEngine_sync : (s.setEngine e f).sync = s.sync := rfl
@[simp] theorem Chip.setEngine_coll : (s.setEngine e f).coll = s.coll := rfl
@[simp] theorem Chip.setEngine_cores : (s.setEngine e f).cores = s.cores := rfl
@[simp] theorem Chip.setEngine_cellar : (s.setEngine e f).cellar = s.cellar := rfl
@[simp] theorem Chip.setEngine_power : (s.setEngine e f).power = s.power := rfl
@[simp] theorem Chip.setEngine_mgmt : (s.setEngine e f).mgmt = s.mgmt := rfl
@[simp] theorem Chip.setEngine_log : (s.setEngine e f).log = s.log := rfl
@[simp] theorem Chip.setEngine_service : (s.setEngine e f).service = s.service := rfl
@[simp] theorem Chip.setEngine_out : (s.setEngine e f).out = s.out := rfl
@[simp] theorem Chip.setEngine_freeCtr : (s.setEngine e f).freeCtr = s.freeCtr := rfl
@[simp] theorem Chip.setEngine_obj (j : Nat) : (s.setEngine e f).obj j = s.obj j := rfl
@[simp] theorem Chip.setEngine_objb (j : Nat) : (s.setEngine e f).objb j = s.objb j := rfl
@[simp] theorem Chip.setEngine_obju (j u : Nat) : (s.setEngine e f).obju j u = s.obju j u := rfl
@[simp] theorem Chip.setEngine_port (j : Nat) : (s.setEngine e f).port j = s.port j := rfl
@[simp] theorem Chip.setEngine_core (j : Nat) : (s.setEngine e f).core j = s.core j := rfl
@[simp] theorem Chip.setEngine_queueAt (j : Nat) : (s.setEngine e f).queueAt j = s.queueAt j := rfl
@[simp] theorem Chip.setEngine_counter (j : Nat) : (s.setEngine e f).counter j = s.counter j := rfl
@[simp] theorem Chip.setEngine_comm (j : Nat) : (s.setEngine e f).comm j = s.comm j := rfl
@[simp] theorem Chip.setEngine_site (j : Nat) : (s.setEngine e f).site j = s.site j := rfl
@[simp] theorem Chip.setEngine_die (j : Nat) : (s.setEngine e f).die j = s.die j := rfl
@[simp] theorem Chip.setEngine_aon : (s.setEngine e f).aon = s.aon := rfl
@[simp] theorem Chip.setEngine_awake : (s.setEngine e f).awake = s.awake := rfl
@[simp] theorem Chip.setEngine_live : (s.setEngine e f).live = s.live := rfl
end

section
variable (l : Nat) (f : Link → Link)
@[simp] theorem Chip.setLink_part : (s.setLink l f).part = s.part := rfl
@[simp] theorem Chip.setLink_now : (s.setLink l f).now = s.now := rfl
@[simp] theorem Chip.setLink_timebase : (s.setLink l f).timebase = s.timebase := rfl
@[simp] theorem Chip.setLink_pins : (s.setLink l f).pins = s.pins := rfl
@[simp] theorem Chip.setLink_objs : (s.setLink l f).objs = s.objs := rfl
@[simp] theorem Chip.setLink_mem : (s.setLink l f).mem = s.mem := rfl
@[simp] theorem Chip.setLink_hbm : (s.setLink l f).hbm = s.hbm := rfl
@[simp] theorem Chip.setLink_ports : (s.setLink l f).ports = s.ports := rfl
@[simp] theorem Chip.setLink_engines : (s.setLink l f).engines = s.engines := rfl
@[simp] theorem Chip.setLink_tn : (s.setLink l f).tn = s.tn := rfl
@[simp] theorem Chip.setLink_gn : (s.setLink l f).gn = s.gn := rfl
@[simp] theorem Chip.setLink_queues : (s.setLink l f).queues = s.queues := rfl
@[simp] theorem Chip.setLink_job : (s.setLink l f).job = s.job := rfl
@[simp] theorem Chip.setLink_cpLast : (s.setLink l f).cpLast = s.cpLast := rfl
@[simp] theorem Chip.setLink_sync : (s.setLink l f).sync = s.sync := rfl
@[simp] theorem Chip.setLink_coll : (s.setLink l f).coll = s.coll := rfl
@[simp] theorem Chip.setLink_cores : (s.setLink l f).cores = s.cores := rfl
@[simp] theorem Chip.setLink_cellar : (s.setLink l f).cellar = s.cellar := rfl
@[simp] theorem Chip.setLink_power : (s.setLink l f).power = s.power := rfl
@[simp] theorem Chip.setLink_mgmt : (s.setLink l f).mgmt = s.mgmt := rfl
@[simp] theorem Chip.setLink_log : (s.setLink l f).log = s.log := rfl
@[simp] theorem Chip.setLink_service : (s.setLink l f).service = s.service := rfl
@[simp] theorem Chip.setLink_out : (s.setLink l f).out = s.out := rfl
@[simp] theorem Chip.setLink_freeCtr : (s.setLink l f).freeCtr = s.freeCtr := rfl
@[simp] theorem Chip.setLink_obj (j : Nat) : (s.setLink l f).obj j = s.obj j := rfl
@[simp] theorem Chip.setLink_objb (j : Nat) : (s.setLink l f).objb j = s.objb j := rfl
@[simp] theorem Chip.setLink_obju (j u : Nat) : (s.setLink l f).obju j u = s.obju j u := rfl
@[simp] theorem Chip.setLink_port (j : Nat) : (s.setLink l f).port j = s.port j := rfl
@[simp] theorem Chip.setLink_engine (j : Nat) : (s.setLink l f).engine j = s.engine j := rfl
@[simp] theorem Chip.setLink_core (j : Nat) : (s.setLink l f).core j = s.core j := rfl
@[simp] theorem Chip.setLink_queueAt (j : Nat) : (s.setLink l f).queueAt j = s.queueAt j := rfl
@[simp] theorem Chip.setLink_counter (j : Nat) : (s.setLink l f).counter j = s.counter j := rfl
@[simp] theorem Chip.setLink_comm (j : Nat) : (s.setLink l f).comm j = s.comm j := rfl
@[simp] theorem Chip.setLink_site (j : Nat) : (s.setLink l f).site j = s.site j := rfl
@[simp] theorem Chip.setLink_die (j : Nat) : (s.setLink l f).die j = s.die j := rfl
@[simp] theorem Chip.setLink_aon : (s.setLink l f).aon = s.aon := rfl
@[simp] theorem Chip.setLink_awake : (s.setLink l f).awake = s.awake := rfl
@[simp] theorem Chip.setLink_live : (s.setLink l f).live = s.live := rfl
end

section
variable (c : Nat) (f : CoreSt → CoreSt)
@[simp] theorem Chip.setCore_part : (s.setCore c f).part = s.part := rfl
@[simp] theorem Chip.setCore_now : (s.setCore c f).now = s.now := rfl
@[simp] theorem Chip.setCore_timebase : (s.setCore c f).timebase = s.timebase := rfl
@[simp] theorem Chip.setCore_pins : (s.setCore c f).pins = s.pins := rfl
@[simp] theorem Chip.setCore_objs : (s.setCore c f).objs = s.objs := rfl
@[simp] theorem Chip.setCore_mem : (s.setCore c f).mem = s.mem := rfl
@[simp] theorem Chip.setCore_hbm : (s.setCore c f).hbm = s.hbm := rfl
@[simp] theorem Chip.setCore_links : (s.setCore c f).links = s.links := rfl
@[simp] theorem Chip.setCore_ports : (s.setCore c f).ports = s.ports := rfl
@[simp] theorem Chip.setCore_engines : (s.setCore c f).engines = s.engines := rfl
@[simp] theorem Chip.setCore_tn : (s.setCore c f).tn = s.tn := rfl
@[simp] theorem Chip.setCore_gn : (s.setCore c f).gn = s.gn := rfl
@[simp] theorem Chip.setCore_queues : (s.setCore c f).queues = s.queues := rfl
@[simp] theorem Chip.setCore_job : (s.setCore c f).job = s.job := rfl
@[simp] theorem Chip.setCore_cpLast : (s.setCore c f).cpLast = s.cpLast := rfl
@[simp] theorem Chip.setCore_sync : (s.setCore c f).sync = s.sync := rfl
@[simp] theorem Chip.setCore_coll : (s.setCore c f).coll = s.coll := rfl
@[simp] theorem Chip.setCore_cellar : (s.setCore c f).cellar = s.cellar := rfl
@[simp] theorem Chip.setCore_power : (s.setCore c f).power = s.power := rfl
@[simp] theorem Chip.setCore_mgmt : (s.setCore c f).mgmt = s.mgmt := rfl
@[simp] theorem Chip.setCore_log : (s.setCore c f).log = s.log := rfl
@[simp] theorem Chip.setCore_service : (s.setCore c f).service = s.service := rfl
@[simp] theorem Chip.setCore_out : (s.setCore c f).out = s.out := rfl
@[simp] theorem Chip.setCore_freeCtr : (s.setCore c f).freeCtr = s.freeCtr := rfl
@[simp] theorem Chip.setCore_obj (j : Nat) : (s.setCore c f).obj j = s.obj j := rfl
@[simp] theorem Chip.setCore_objb (j : Nat) : (s.setCore c f).objb j = s.objb j := rfl
@[simp] theorem Chip.setCore_obju (j u : Nat) : (s.setCore c f).obju j u = s.obju j u := rfl
@[simp] theorem Chip.setCore_port (j : Nat) : (s.setCore c f).port j = s.port j := rfl
@[simp] theorem Chip.setCore_engine (j : Nat) : (s.setCore c f).engine j = s.engine j := rfl
@[simp] theorem Chip.setCore_queueAt (j : Nat) : (s.setCore c f).queueAt j = s.queueAt j := rfl
@[simp] theorem Chip.setCore_counter (j : Nat) : (s.setCore c f).counter j = s.counter j := rfl
@[simp] theorem Chip.setCore_comm (j : Nat) : (s.setCore c f).comm j = s.comm j := rfl
@[simp] theorem Chip.setCore_site (j : Nat) : (s.setCore c f).site j = s.site j := rfl
@[simp] theorem Chip.setCore_die (j : Nat) : (s.setCore c f).die j = s.die j := rfl
@[simp] theorem Chip.setCore_aon : (s.setCore c f).aon = s.aon := rfl
@[simp] theorem Chip.setCore_awake : (s.setCore c f).awake = s.awake := rfl
@[simp] theorem Chip.setCore_live : (s.setCore c f).live = s.live := rfl
end

section
variable (q : Nat) (f : Queue → Queue)
@[simp] theorem Chip.setQueue_part : (s.setQueue q f).part = s.part := rfl
@[simp] theorem Chip.setQueue_now : (s.setQueue q f).now = s.now := rfl
@[simp] theorem Chip.setQueue_timebase : (s.setQueue q f).timebase = s.timebase := rfl
@[simp] theorem Chip.setQueue_pins : (s.setQueue q f).pins = s.pins := rfl
@[simp] theorem Chip.setQueue_objs : (s.setQueue q f).objs = s.objs := rfl
@[simp] theorem Chip.setQueue_mem : (s.setQueue q f).mem = s.mem := rfl
@[simp] theorem Chip.setQueue_hbm : (s.setQueue q f).hbm = s.hbm := rfl
@[simp] theorem Chip.setQueue_links : (s.setQueue q f).links = s.links := rfl
@[simp] theorem Chip.setQueue_ports : (s.setQueue q f).ports = s.ports := rfl
@[simp] theorem Chip.setQueue_engines : (s.setQueue q f).engines = s.engines := rfl
@[simp] theorem Chip.setQueue_tn : (s.setQueue q f).tn = s.tn := rfl
@[simp] theorem Chip.setQueue_gn : (s.setQueue q f).gn = s.gn := rfl
@[simp] theorem Chip.setQueue_job : (s.setQueue q f).job = s.job := rfl
@[simp] theorem Chip.setQueue_cpLast : (s.setQueue q f).cpLast = s.cpLast := rfl
@[simp] theorem Chip.setQueue_sync : (s.setQueue q f).sync = s.sync := rfl
@[simp] theorem Chip.setQueue_coll : (s.setQueue q f).coll = s.coll := rfl
@[simp] theorem Chip.setQueue_cores : (s.setQueue q f).cores = s.cores := rfl
@[simp] theorem Chip.setQueue_cellar : (s.setQueue q f).cellar = s.cellar := rfl
@[simp] theorem Chip.setQueue_power : (s.setQueue q f).power = s.power := rfl
@[simp] theorem Chip.setQueue_mgmt : (s.setQueue q f).mgmt = s.mgmt := rfl
@[simp] theorem Chip.setQueue_log : (s.setQueue q f).log = s.log := rfl
@[simp] theorem Chip.setQueue_service : (s.setQueue q f).service = s.service := rfl
@[simp] theorem Chip.setQueue_out : (s.setQueue q f).out = s.out := rfl
@[simp] theorem Chip.setQueue_freeCtr : (s.setQueue q f).freeCtr = s.freeCtr := rfl
@[simp] theorem Chip.setQueue_obj (j : Nat) : (s.setQueue q f).obj j = s.obj j := rfl
@[simp] theorem Chip.setQueue_objb (j : Nat) : (s.setQueue q f).objb j = s.objb j := rfl
@[simp] theorem Chip.setQueue_obju (j u : Nat) : (s.setQueue q f).obju j u = s.obju j u := rfl
@[simp] theorem Chip.setQueue_port (j : Nat) : (s.setQueue q f).port j = s.port j := rfl
@[simp] theorem Chip.setQueue_engine (j : Nat) : (s.setQueue q f).engine j = s.engine j := rfl
@[simp] theorem Chip.setQueue_core (j : Nat) : (s.setQueue q f).core j = s.core j := rfl
@[simp] theorem Chip.setQueue_counter (j : Nat) : (s.setQueue q f).counter j = s.counter j := rfl
@[simp] theorem Chip.setQueue_comm (j : Nat) : (s.setQueue q f).comm j = s.comm j := rfl
@[simp] theorem Chip.setQueue_site (j : Nat) : (s.setQueue q f).site j = s.site j := rfl
@[simp] theorem Chip.setQueue_die (j : Nat) : (s.setQueue q f).die j = s.die j := rfl
@[simp] theorem Chip.setQueue_aon : (s.setQueue q f).aon = s.aon := rfl
@[simp] theorem Chip.setQueue_awake : (s.setQueue q f).awake = s.awake := rfl
@[simp] theorem Chip.setQueue_live : (s.setQueue q f).live = s.live := rfl
end

section
variable (q : Nat) (n : Word32) (f : QEntry → QEntry)
@[simp] theorem Chip.setEntry_part : (s.setEntry q n f).part = s.part := rfl
@[simp] theorem Chip.setEntry_now : (s.setEntry q n f).now = s.now := rfl
@[simp] theorem Chip.setEntry_timebase : (s.setEntry q n f).timebase = s.timebase := rfl
@[simp] theorem Chip.setEntry_pins : (s.setEntry q n f).pins = s.pins := rfl
@[simp] theorem Chip.setEntry_objs : (s.setEntry q n f).objs = s.objs := rfl
@[simp] theorem Chip.setEntry_mem : (s.setEntry q n f).mem = s.mem := rfl
@[simp] theorem Chip.setEntry_hbm : (s.setEntry q n f).hbm = s.hbm := rfl
@[simp] theorem Chip.setEntry_links : (s.setEntry q n f).links = s.links := rfl
@[simp] theorem Chip.setEntry_ports : (s.setEntry q n f).ports = s.ports := rfl
@[simp] theorem Chip.setEntry_engines : (s.setEntry q n f).engines = s.engines := rfl
@[simp] theorem Chip.setEntry_tn : (s.setEntry q n f).tn = s.tn := rfl
@[simp] theorem Chip.setEntry_gn : (s.setEntry q n f).gn = s.gn := rfl
@[simp] theorem Chip.setEntry_job : (s.setEntry q n f).job = s.job := rfl
@[simp] theorem Chip.setEntry_cpLast : (s.setEntry q n f).cpLast = s.cpLast := rfl
@[simp] theorem Chip.setEntry_sync : (s.setEntry q n f).sync = s.sync := rfl
@[simp] theorem Chip.setEntry_coll : (s.setEntry q n f).coll = s.coll := rfl
@[simp] theorem Chip.setEntry_cores : (s.setEntry q n f).cores = s.cores := rfl
@[simp] theorem Chip.setEntry_cellar : (s.setEntry q n f).cellar = s.cellar := rfl
@[simp] theorem Chip.setEntry_power : (s.setEntry q n f).power = s.power := rfl
@[simp] theorem Chip.setEntry_mgmt : (s.setEntry q n f).mgmt = s.mgmt := rfl
@[simp] theorem Chip.setEntry_log : (s.setEntry q n f).log = s.log := rfl
@[simp] theorem Chip.setEntry_service : (s.setEntry q n f).service = s.service := rfl
@[simp] theorem Chip.setEntry_out : (s.setEntry q n f).out = s.out := rfl
@[simp] theorem Chip.setEntry_freeCtr : (s.setEntry q n f).freeCtr = s.freeCtr := rfl
@[simp] theorem Chip.setEntry_obj (j : Nat) : (s.setEntry q n f).obj j = s.obj j := rfl
@[simp] theorem Chip.setEntry_objb (j : Nat) : (s.setEntry q n f).objb j = s.objb j := rfl
@[simp] theorem Chip.setEntry_obju (j u : Nat) : (s.setEntry q n f).obju j u = s.obju j u := rfl
@[simp] theorem Chip.setEntry_port (j : Nat) : (s.setEntry q n f).port j = s.port j := rfl
@[simp] theorem Chip.setEntry_engine (j : Nat) : (s.setEntry q n f).engine j = s.engine j := rfl
@[simp] theorem Chip.setEntry_core (j : Nat) : (s.setEntry q n f).core j = s.core j := rfl
@[simp] theorem Chip.setEntry_counter (j : Nat) : (s.setEntry q n f).counter j = s.counter j := rfl
@[simp] theorem Chip.setEntry_comm (j : Nat) : (s.setEntry q n f).comm j = s.comm j := rfl
@[simp] theorem Chip.setEntry_site (j : Nat) : (s.setEntry q n f).site j = s.site j := rfl
@[simp] theorem Chip.setEntry_die (j : Nat) : (s.setEntry q n f).die j = s.die j := rfl
@[simp] theorem Chip.setEntry_aon : (s.setEntry q n f).aon = s.aon := rfl
@[simp] theorem Chip.setEntry_awake : (s.setEntry q n f).awake = s.awake := rfl
@[simp] theorem Chip.setEntry_live : (s.setEntry q n f).live = s.live := rfl
end

section
variable (k v : Nat)
@[simp] theorem Chip.setObj_part : (s.setObj k v).part = s.part := rfl
@[simp] theorem Chip.setObj_now : (s.setObj k v).now = s.now := rfl
@[simp] theorem Chip.setObj_timebase : (s.setObj k v).timebase = s.timebase := rfl
@[simp] theorem Chip.setObj_pins : (s.setObj k v).pins = s.pins := rfl
@[simp] theorem Chip.setObj_mem : (s.setObj k v).mem = s.mem := rfl
@[simp] theorem Chip.setObj_hbm : (s.setObj k v).hbm = s.hbm := rfl
@[simp] theorem Chip.setObj_links : (s.setObj k v).links = s.links := rfl
@[simp] theorem Chip.setObj_ports : (s.setObj k v).ports = s.ports := rfl
@[simp] theorem Chip.setObj_engines : (s.setObj k v).engines = s.engines := rfl
@[simp] theorem Chip.setObj_tn : (s.setObj k v).tn = s.tn := rfl
@[simp] theorem Chip.setObj_gn : (s.setObj k v).gn = s.gn := rfl
@[simp] theorem Chip.setObj_queues : (s.setObj k v).queues = s.queues := rfl
@[simp] theorem Chip.setObj_job : (s.setObj k v).job = s.job := rfl
@[simp] theorem Chip.setObj_cpLast : (s.setObj k v).cpLast = s.cpLast := rfl
@[simp] theorem Chip.setObj_sync : (s.setObj k v).sync = s.sync := rfl
@[simp] theorem Chip.setObj_coll : (s.setObj k v).coll = s.coll := rfl
@[simp] theorem Chip.setObj_cores : (s.setObj k v).cores = s.cores := rfl
@[simp] theorem Chip.setObj_cellar : (s.setObj k v).cellar = s.cellar := rfl
@[simp] theorem Chip.setObj_power : (s.setObj k v).power = s.power := rfl
@[simp] theorem Chip.setObj_mgmt : (s.setObj k v).mgmt = s.mgmt := rfl
@[simp] theorem Chip.setObj_log : (s.setObj k v).log = s.log := rfl
@[simp] theorem Chip.setObj_service : (s.setObj k v).service = s.service := rfl
@[simp] theorem Chip.setObj_out : (s.setObj k v).out = s.out := rfl
@[simp] theorem Chip.setObj_freeCtr : (s.setObj k v).freeCtr = s.freeCtr := rfl
@[simp] theorem Chip.setObj_port (j : Nat) : (s.setObj k v).port j = s.port j := rfl
@[simp] theorem Chip.setObj_engine (j : Nat) : (s.setObj k v).engine j = s.engine j := rfl
@[simp] theorem Chip.setObj_core (j : Nat) : (s.setObj k v).core j = s.core j := rfl
@[simp] theorem Chip.setObj_queueAt (j : Nat) : (s.setObj k v).queueAt j = s.queueAt j := rfl
@[simp] theorem Chip.setObj_counter (j : Nat) : (s.setObj k v).counter j = s.counter j := rfl
@[simp] theorem Chip.setObj_comm (j : Nat) : (s.setObj k v).comm j = s.comm j := rfl
@[simp] theorem Chip.setObj_site (j : Nat) : (s.setObj k v).site j = s.site j := rfl
@[simp] theorem Chip.setObj_die (j : Nat) : (s.setObj k v).die j = s.die j := rfl
@[simp] theorem Chip.setObj_aon : (s.setObj k v).aon = s.aon := rfl
@[simp] theorem Chip.setObj_awake : (s.setObj k v).awake = s.awake := rfl
@[simp] theorem Chip.setObj_live : (s.setObj k v).live = s.live := rfl
end

section
variable (k n : Nat)
@[simp] theorem Chip.bump_part : (s.bump k n).part = s.part := rfl
@[simp] theorem Chip.bump_now : (s.bump k n).now = s.now := rfl
@[simp] theorem Chip.bump_timebase : (s.bump k n).timebase = s.timebase := rfl
@[simp] theorem Chip.bump_pins : (s.bump k n).pins = s.pins := rfl
@[simp] theorem Chip.bump_mem : (s.bump k n).mem = s.mem := rfl
@[simp] theorem Chip.bump_hbm : (s.bump k n).hbm = s.hbm := rfl
@[simp] theorem Chip.bump_links : (s.bump k n).links = s.links := rfl
@[simp] theorem Chip.bump_ports : (s.bump k n).ports = s.ports := rfl
@[simp] theorem Chip.bump_engines : (s.bump k n).engines = s.engines := rfl
@[simp] theorem Chip.bump_tn : (s.bump k n).tn = s.tn := rfl
@[simp] theorem Chip.bump_gn : (s.bump k n).gn = s.gn := rfl
@[simp] theorem Chip.bump_queues : (s.bump k n).queues = s.queues := rfl
@[simp] theorem Chip.bump_job : (s.bump k n).job = s.job := rfl
@[simp] theorem Chip.bump_cpLast : (s.bump k n).cpLast = s.cpLast := rfl
@[simp] theorem Chip.bump_sync : (s.bump k n).sync = s.sync := rfl
@[simp] theorem Chip.bump_coll : (s.bump k n).coll = s.coll := rfl
@[simp] theorem Chip.bump_cores : (s.bump k n).cores = s.cores := rfl
@[simp] theorem Chip.bump_cellar : (s.bump k n).cellar = s.cellar := rfl
@[simp] theorem Chip.bump_power : (s.bump k n).power = s.power := rfl
@[simp] theorem Chip.bump_mgmt : (s.bump k n).mgmt = s.mgmt := rfl
@[simp] theorem Chip.bump_log : (s.bump k n).log = s.log := rfl
@[simp] theorem Chip.bump_service : (s.bump k n).service = s.service := rfl
@[simp] theorem Chip.bump_out : (s.bump k n).out = s.out := rfl
@[simp] theorem Chip.bump_freeCtr : (s.bump k n).freeCtr = s.freeCtr := rfl
@[simp] theorem Chip.bump_port (j : Nat) : (s.bump k n).port j = s.port j := rfl
@[simp] theorem Chip.bump_engine (j : Nat) : (s.bump k n).engine j = s.engine j := rfl
@[simp] theorem Chip.bump_core (j : Nat) : (s.bump k n).core j = s.core j := rfl
@[simp] theorem Chip.bump_queueAt (j : Nat) : (s.bump k n).queueAt j = s.queueAt j := rfl
@[simp] theorem Chip.bump_counter (j : Nat) : (s.bump k n).counter j = s.counter j := rfl
@[simp] theorem Chip.bump_comm (j : Nat) : (s.bump k n).comm j = s.comm j := rfl
@[simp] theorem Chip.bump_site (j : Nat) : (s.bump k n).site j = s.site j := rfl
@[simp] theorem Chip.bump_die (j : Nat) : (s.bump k n).die j = s.die j := rfl
@[simp] theorem Chip.bump_aon : (s.bump k n).aon = s.aon := rfl
@[simp] theorem Chip.bump_awake : (s.bump k n).awake = s.awake := rfl
@[simp] theorem Chip.bump_live : (s.bump k n).live = s.live := rfl
end

section
variable (i : Nat) (f : Site → Site)
@[simp] theorem Chip.setSite_part : (s.setSite i f).part = s.part := rfl
@[simp] theorem Chip.setSite_now : (s.setSite i f).now = s.now := rfl
@[simp] theorem Chip.setSite_timebase : (s.setSite i f).timebase = s.timebase := rfl
@[simp] theorem Chip.setSite_pins : (s.setSite i f).pins = s.pins := rfl
@[simp] theorem Chip.setSite_objs : (s.setSite i f).objs = s.objs := rfl
@[simp] theorem Chip.setSite_mem : (s.setSite i f).mem = s.mem := rfl
@[simp] theorem Chip.setSite_hbm : (s.setSite i f).hbm = s.hbm := rfl
@[simp] theorem Chip.setSite_links : (s.setSite i f).links = s.links := rfl
@[simp] theorem Chip.setSite_ports : (s.setSite i f).ports = s.ports := rfl
@[simp] theorem Chip.setSite_engines : (s.setSite i f).engines = s.engines := rfl
@[simp] theorem Chip.setSite_tn : (s.setSite i f).tn = s.tn := rfl
@[simp] theorem Chip.setSite_gn : (s.setSite i f).gn = s.gn := rfl
@[simp] theorem Chip.setSite_queues : (s.setSite i f).queues = s.queues := rfl
@[simp] theorem Chip.setSite_job : (s.setSite i f).job = s.job := rfl
@[simp] theorem Chip.setSite_cpLast : (s.setSite i f).cpLast = s.cpLast := rfl
@[simp] theorem Chip.setSite_sync : (s.setSite i f).sync = s.sync := rfl
@[simp] theorem Chip.setSite_coll : (s.setSite i f).coll = s.coll := rfl
@[simp] theorem Chip.setSite_cores : (s.setSite i f).cores = s.cores := rfl
@[simp] theorem Chip.setSite_cellar : (s.setSite i f).cellar = s.cellar := rfl
@[simp] theorem Chip.setSite_mgmt : (s.setSite i f).mgmt = s.mgmt := rfl
@[simp] theorem Chip.setSite_log : (s.setSite i f).log = s.log := rfl
@[simp] theorem Chip.setSite_service : (s.setSite i f).service = s.service := rfl
@[simp] theorem Chip.setSite_out : (s.setSite i f).out = s.out := rfl
@[simp] theorem Chip.setSite_freeCtr : (s.setSite i f).freeCtr = s.freeCtr := rfl
@[simp] theorem Chip.setSite_obj (j : Nat) : (s.setSite i f).obj j = s.obj j := rfl
@[simp] theorem Chip.setSite_objb (j : Nat) : (s.setSite i f).objb j = s.objb j := rfl
@[simp] theorem Chip.setSite_obju (j u : Nat) : (s.setSite i f).obju j u = s.obju j u := rfl
@[simp] theorem Chip.setSite_port (j : Nat) : (s.setSite i f).port j = s.port j := rfl
@[simp] theorem Chip.setSite_engine (j : Nat) : (s.setSite i f).engine j = s.engine j := rfl
@[simp] theorem Chip.setSite_core (j : Nat) : (s.setSite i f).core j = s.core j := rfl
@[simp] theorem Chip.setSite_queueAt (j : Nat) : (s.setSite i f).queueAt j = s.queueAt j := rfl
@[simp] theorem Chip.setSite_counter (j : Nat) : (s.setSite i f).counter j = s.counter j := rfl
@[simp] theorem Chip.setSite_comm (j : Nat) : (s.setSite i f).comm j = s.comm j := rfl
@[simp] theorem Chip.setSite_die (j : Nat) : (s.setSite i f).die j = s.die j := rfl
@[simp] theorem Chip.setSite_aon : (s.setSite i f).aon = s.aon := rfl
@[simp] theorem Chip.setSite_awake : (s.setSite i f).awake = s.awake := rfl
@[simp] theorem Chip.setSite_live : (s.setSite i f).live = s.live := rfl
end

section
variable (g : Nat) (f : Group → Group)
@[simp] theorem Chip.setGroup_part : (s.setGroup g f).part = s.part := rfl
@[simp] theorem Chip.setGroup_now : (s.setGroup g f).now = s.now := rfl
@[simp] theorem Chip.setGroup_timebase : (s.setGroup g f).timebase = s.timebase := rfl
@[simp] theorem Chip.setGroup_pins : (s.setGroup g f).pins = s.pins := rfl
@[simp] theorem Chip.setGroup_objs : (s.setGroup g f).objs = s.objs := rfl
@[simp] theorem Chip.setGroup_mem : (s.setGroup g f).mem = s.mem := rfl
@[simp] theorem Chip.setGroup_hbm : (s.setGroup g f).hbm = s.hbm := rfl
@[simp] theorem Chip.setGroup_links : (s.setGroup g f).links = s.links := rfl
@[simp] theorem Chip.setGroup_ports : (s.setGroup g f).ports = s.ports := rfl
@[simp] theorem Chip.setGroup_engines : (s.setGroup g f).engines = s.engines := rfl
@[simp] theorem Chip.setGroup_tn : (s.setGroup g f).tn = s.tn := rfl
@[simp] theorem Chip.setGroup_gn : (s.setGroup g f).gn = s.gn := rfl
@[simp] theorem Chip.setGroup_queues : (s.setGroup g f).queues = s.queues := rfl
@[simp] theorem Chip.setGroup_job : (s.setGroup g f).job = s.job := rfl
@[simp] theorem Chip.setGroup_cpLast : (s.setGroup g f).cpLast = s.cpLast := rfl
@[simp] theorem Chip.setGroup_sync : (s.setGroup g f).sync = s.sync := rfl
@[simp] theorem Chip.setGroup_coll : (s.setGroup g f).coll = s.coll := rfl
@[simp] theorem Chip.setGroup_cores : (s.setGroup g f).cores = s.cores := rfl
@[simp] theorem Chip.setGroup_cellar : (s.setGroup g f).cellar = s.cellar := rfl
@[simp] theorem Chip.setGroup_mgmt : (s.setGroup g f).mgmt = s.mgmt := rfl
@[simp] theorem Chip.setGroup_log : (s.setGroup g f).log = s.log := rfl
@[simp] theorem Chip.setGroup_service : (s.setGroup g f).service = s.service := rfl
@[simp] theorem Chip.setGroup_out : (s.setGroup g f).out = s.out := rfl
@[simp] theorem Chip.setGroup_freeCtr : (s.setGroup g f).freeCtr = s.freeCtr := rfl
@[simp] theorem Chip.setGroup_obj (j : Nat) : (s.setGroup g f).obj j = s.obj j := rfl
@[simp] theorem Chip.setGroup_objb (j : Nat) : (s.setGroup g f).objb j = s.objb j := rfl
@[simp] theorem Chip.setGroup_obju (j u : Nat) : (s.setGroup g f).obju j u = s.obju j u := rfl
@[simp] theorem Chip.setGroup_port (j : Nat) : (s.setGroup g f).port j = s.port j := rfl
@[simp] theorem Chip.setGroup_engine (j : Nat) : (s.setGroup g f).engine j = s.engine j := rfl
@[simp] theorem Chip.setGroup_core (j : Nat) : (s.setGroup g f).core j = s.core j := rfl
@[simp] theorem Chip.setGroup_queueAt (j : Nat) : (s.setGroup g f).queueAt j = s.queueAt j := rfl
@[simp] theorem Chip.setGroup_counter (j : Nat) : (s.setGroup g f).counter j = s.counter j := rfl
@[simp] theorem Chip.setGroup_comm (j : Nat) : (s.setGroup g f).comm j = s.comm j := rfl
@[simp] theorem Chip.setGroup_die (j : Nat) : (s.setGroup g f).die j = s.die j := rfl
@[simp] theorem Chip.setGroup_aon : (s.setGroup g f).aon = s.aon := rfl
@[simp] theorem Chip.setGroup_awake : (s.setGroup g f).awake = s.awake := rfl
@[simp] theorem Chip.setGroup_live : (s.setGroup g f).live = s.live := rfl
end

section
variable (p : Nat) (f : PseudoChannel → PseudoChannel)
@[simp] theorem Chip.setPc_part : (s.setPc p f).part = s.part := rfl
@[simp] theorem Chip.setPc_now : (s.setPc p f).now = s.now := rfl
@[simp] theorem Chip.setPc_timebase : (s.setPc p f).timebase = s.timebase := rfl
@[simp] theorem Chip.setPc_pins : (s.setPc p f).pins = s.pins := rfl
@[simp] theorem Chip.setPc_objs : (s.setPc p f).objs = s.objs := rfl
@[simp] theorem Chip.setPc_mem : (s.setPc p f).mem = s.mem := rfl
@[simp] theorem Chip.setPc_links : (s.setPc p f).links = s.links := rfl
@[simp] theorem Chip.setPc_ports : (s.setPc p f).ports = s.ports := rfl
@[simp] theorem Chip.setPc_engines : (s.setPc p f).engines = s.engines := rfl
@[simp] theorem Chip.setPc_tn : (s.setPc p f).tn = s.tn := rfl
@[simp] theorem Chip.setPc_gn : (s.setPc p f).gn = s.gn := rfl
@[simp] theorem Chip.setPc_queues : (s.setPc p f).queues = s.queues := rfl
@[simp] theorem Chip.setPc_job : (s.setPc p f).job = s.job := rfl
@[simp] theorem Chip.setPc_cpLast : (s.setPc p f).cpLast = s.cpLast := rfl
@[simp] theorem Chip.setPc_sync : (s.setPc p f).sync = s.sync := rfl
@[simp] theorem Chip.setPc_coll : (s.setPc p f).coll = s.coll := rfl
@[simp] theorem Chip.setPc_cores : (s.setPc p f).cores = s.cores := rfl
@[simp] theorem Chip.setPc_cellar : (s.setPc p f).cellar = s.cellar := rfl
@[simp] theorem Chip.setPc_power : (s.setPc p f).power = s.power := rfl
@[simp] theorem Chip.setPc_mgmt : (s.setPc p f).mgmt = s.mgmt := rfl
@[simp] theorem Chip.setPc_log : (s.setPc p f).log = s.log := rfl
@[simp] theorem Chip.setPc_service : (s.setPc p f).service = s.service := rfl
@[simp] theorem Chip.setPc_out : (s.setPc p f).out = s.out := rfl
@[simp] theorem Chip.setPc_freeCtr : (s.setPc p f).freeCtr = s.freeCtr := rfl
@[simp] theorem Chip.setPc_obj (j : Nat) : (s.setPc p f).obj j = s.obj j := rfl
@[simp] theorem Chip.setPc_objb (j : Nat) : (s.setPc p f).objb j = s.objb j := rfl
@[simp] theorem Chip.setPc_obju (j u : Nat) : (s.setPc p f).obju j u = s.obju j u := rfl
@[simp] theorem Chip.setPc_port (j : Nat) : (s.setPc p f).port j = s.port j := rfl
@[simp] theorem Chip.setPc_engine (j : Nat) : (s.setPc p f).engine j = s.engine j := rfl
@[simp] theorem Chip.setPc_core (j : Nat) : (s.setPc p f).core j = s.core j := rfl
@[simp] theorem Chip.setPc_queueAt (j : Nat) : (s.setPc p f).queueAt j = s.queueAt j := rfl
@[simp] theorem Chip.setPc_counter (j : Nat) : (s.setPc p f).counter j = s.counter j := rfl
@[simp] theorem Chip.setPc_comm (j : Nat) : (s.setPc p f).comm j = s.comm j := rfl
@[simp] theorem Chip.setPc_site (j : Nat) : (s.setPc p f).site j = s.site j := rfl
@[simp] theorem Chip.setPc_die (j : Nat) : (s.setPc p f).die j = s.die j := rfl
@[simp] theorem Chip.setPc_aon : (s.setPc p f).aon = s.aon := rfl
@[simp] theorem Chip.setPc_awake : (s.setPc p f).awake = s.awake := rfl
@[simp] theorem Chip.setPc_live : (s.setPc p f).live = s.live := rfl
end

section
variable (n : Nat) (f : Channel → Channel)
@[simp] theorem Chip.setChannel_part : (s.setChannel n f).part = s.part := rfl
@[simp] theorem Chip.setChannel_now : (s.setChannel n f).now = s.now := rfl
@[simp] theorem Chip.setChannel_timebase : (s.setChannel n f).timebase = s.timebase := rfl
@[simp] theorem Chip.setChannel_pins : (s.setChannel n f).pins = s.pins := rfl
@[simp] theorem Chip.setChannel_objs : (s.setChannel n f).objs = s.objs := rfl
@[simp] theorem Chip.setChannel_mem : (s.setChannel n f).mem = s.mem := rfl
@[simp] theorem Chip.setChannel_links : (s.setChannel n f).links = s.links := rfl
@[simp] theorem Chip.setChannel_ports : (s.setChannel n f).ports = s.ports := rfl
@[simp] theorem Chip.setChannel_engines : (s.setChannel n f).engines = s.engines := rfl
@[simp] theorem Chip.setChannel_tn : (s.setChannel n f).tn = s.tn := rfl
@[simp] theorem Chip.setChannel_gn : (s.setChannel n f).gn = s.gn := rfl
@[simp] theorem Chip.setChannel_queues : (s.setChannel n f).queues = s.queues := rfl
@[simp] theorem Chip.setChannel_job : (s.setChannel n f).job = s.job := rfl
@[simp] theorem Chip.setChannel_cpLast : (s.setChannel n f).cpLast = s.cpLast := rfl
@[simp] theorem Chip.setChannel_sync : (s.setChannel n f).sync = s.sync := rfl
@[simp] theorem Chip.setChannel_coll : (s.setChannel n f).coll = s.coll := rfl
@[simp] theorem Chip.setChannel_cores : (s.setChannel n f).cores = s.cores := rfl
@[simp] theorem Chip.setChannel_cellar : (s.setChannel n f).cellar = s.cellar := rfl
@[simp] theorem Chip.setChannel_power : (s.setChannel n f).power = s.power := rfl
@[simp] theorem Chip.setChannel_mgmt : (s.setChannel n f).mgmt = s.mgmt := rfl
@[simp] theorem Chip.setChannel_log : (s.setChannel n f).log = s.log := rfl
@[simp] theorem Chip.setChannel_service : (s.setChannel n f).service = s.service := rfl
@[simp] theorem Chip.setChannel_out : (s.setChannel n f).out = s.out := rfl
@[simp] theorem Chip.setChannel_freeCtr : (s.setChannel n f).freeCtr = s.freeCtr := rfl
@[simp] theorem Chip.setChannel_obj (j : Nat) : (s.setChannel n f).obj j = s.obj j := rfl
@[simp] theorem Chip.setChannel_objb (j : Nat) : (s.setChannel n f).objb j = s.objb j := rfl
@[simp] theorem Chip.setChannel_obju (j u : Nat) : (s.setChannel n f).obju j u = s.obju j u := rfl
@[simp] theorem Chip.setChannel_port (j : Nat) : (s.setChannel n f).port j = s.port j := rfl
@[simp] theorem Chip.setChannel_engine (j : Nat) : (s.setChannel n f).engine j = s.engine j := rfl
@[simp] theorem Chip.setChannel_core (j : Nat) : (s.setChannel n f).core j = s.core j := rfl
@[simp] theorem Chip.setChannel_queueAt (j : Nat) : (s.setChannel n f).queueAt j = s.queueAt j := rfl
@[simp] theorem Chip.setChannel_counter (j : Nat) : (s.setChannel n f).counter j = s.counter j := rfl
@[simp] theorem Chip.setChannel_comm (j : Nat) : (s.setChannel n f).comm j = s.comm j := rfl
@[simp] theorem Chip.setChannel_site (j : Nat) : (s.setChannel n f).site j = s.site j := rfl
@[simp] theorem Chip.setChannel_die (j : Nat) : (s.setChannel n f).die j = s.die j := rfl
@[simp] theorem Chip.setChannel_aon : (s.setChannel n f).aon = s.aon := rfl
@[simp] theorem Chip.setChannel_awake : (s.setChannel n f).awake = s.awake := rfl
@[simp] theorem Chip.setChannel_live : (s.setChannel n f).live = s.live := rfl
end

section
variable (n : Nat) (v : CommSlot)
@[simp] theorem Chip.setComm_part : (s.setComm n v).part = s.part := rfl
@[simp] theorem Chip.setComm_now : (s.setComm n v).now = s.now := rfl
@[simp] theorem Chip.setComm_timebase : (s.setComm n v).timebase = s.timebase := rfl
@[simp] theorem Chip.setComm_pins : (s.setComm n v).pins = s.pins := rfl
@[simp] theorem Chip.setComm_objs : (s.setComm n v).objs = s.objs := rfl
@[simp] theorem Chip.setComm_mem : (s.setComm n v).mem = s.mem := rfl
@[simp] theorem Chip.setComm_hbm : (s.setComm n v).hbm = s.hbm := rfl
@[simp] theorem Chip.setComm_links : (s.setComm n v).links = s.links := rfl
@[simp] theorem Chip.setComm_ports : (s.setComm n v).ports = s.ports := rfl
@[simp] theorem Chip.setComm_engines : (s.setComm n v).engines = s.engines := rfl
@[simp] theorem Chip.setComm_tn : (s.setComm n v).tn = s.tn := rfl
@[simp] theorem Chip.setComm_gn : (s.setComm n v).gn = s.gn := rfl
@[simp] theorem Chip.setComm_queues : (s.setComm n v).queues = s.queues := rfl
@[simp] theorem Chip.setComm_job : (s.setComm n v).job = s.job := rfl
@[simp] theorem Chip.setComm_cpLast : (s.setComm n v).cpLast = s.cpLast := rfl
@[simp] theorem Chip.setComm_sync : (s.setComm n v).sync = s.sync := rfl
@[simp] theorem Chip.setComm_cores : (s.setComm n v).cores = s.cores := rfl
@[simp] theorem Chip.setComm_cellar : (s.setComm n v).cellar = s.cellar := rfl
@[simp] theorem Chip.setComm_power : (s.setComm n v).power = s.power := rfl
@[simp] theorem Chip.setComm_mgmt : (s.setComm n v).mgmt = s.mgmt := rfl
@[simp] theorem Chip.setComm_log : (s.setComm n v).log = s.log := rfl
@[simp] theorem Chip.setComm_service : (s.setComm n v).service = s.service := rfl
@[simp] theorem Chip.setComm_out : (s.setComm n v).out = s.out := rfl
@[simp] theorem Chip.setComm_freeCtr : (s.setComm n v).freeCtr = s.freeCtr := rfl
@[simp] theorem Chip.setComm_obj (j : Nat) : (s.setComm n v).obj j = s.obj j := rfl
@[simp] theorem Chip.setComm_objb (j : Nat) : (s.setComm n v).objb j = s.objb j := rfl
@[simp] theorem Chip.setComm_obju (j u : Nat) : (s.setComm n v).obju j u = s.obju j u := rfl
@[simp] theorem Chip.setComm_port (j : Nat) : (s.setComm n v).port j = s.port j := rfl
@[simp] theorem Chip.setComm_engine (j : Nat) : (s.setComm n v).engine j = s.engine j := rfl
@[simp] theorem Chip.setComm_core (j : Nat) : (s.setComm n v).core j = s.core j := rfl
@[simp] theorem Chip.setComm_queueAt (j : Nat) : (s.setComm n v).queueAt j = s.queueAt j := rfl
@[simp] theorem Chip.setComm_counter (j : Nat) : (s.setComm n v).counter j = s.counter j := rfl
@[simp] theorem Chip.setComm_site (j : Nat) : (s.setComm n v).site j = s.site j := rfl
@[simp] theorem Chip.setComm_die (j : Nat) : (s.setComm n v).die j = s.die j := rfl
@[simp] theorem Chip.setComm_aon : (s.setComm n v).aon = s.aon := rfl
@[simp] theorem Chip.setComm_awake : (s.setComm n v).awake = s.awake := rfl
@[simp] theorem Chip.setComm_live : (s.setComm n v).live = s.live := rfl
end

section
variable (i : Nat) (r : CounterRec)
@[simp] theorem Chip.setCounter_part : (s.setCounter i r).part = s.part := rfl
@[simp] theorem Chip.setCounter_now : (s.setCounter i r).now = s.now := rfl
@[simp] theorem Chip.setCounter_timebase : (s.setCounter i r).timebase = s.timebase := rfl
@[simp] theorem Chip.setCounter_pins : (s.setCounter i r).pins = s.pins := rfl
@[simp] theorem Chip.setCounter_objs : (s.setCounter i r).objs = s.objs := rfl
@[simp] theorem Chip.setCounter_mem : (s.setCounter i r).mem = s.mem := rfl
@[simp] theorem Chip.setCounter_hbm : (s.setCounter i r).hbm = s.hbm := rfl
@[simp] theorem Chip.setCounter_links : (s.setCounter i r).links = s.links := rfl
@[simp] theorem Chip.setCounter_ports : (s.setCounter i r).ports = s.ports := rfl
@[simp] theorem Chip.setCounter_engines : (s.setCounter i r).engines = s.engines := rfl
@[simp] theorem Chip.setCounter_tn : (s.setCounter i r).tn = s.tn := rfl
@[simp] theorem Chip.setCounter_gn : (s.setCounter i r).gn = s.gn := rfl
@[simp] theorem Chip.setCounter_queues : (s.setCounter i r).queues = s.queues := rfl
@[simp] theorem Chip.setCounter_job : (s.setCounter i r).job = s.job := rfl
@[simp] theorem Chip.setCounter_cpLast : (s.setCounter i r).cpLast = s.cpLast := rfl
@[simp] theorem Chip.setCounter_coll : (s.setCounter i r).coll = s.coll := rfl
@[simp] theorem Chip.setCounter_cores : (s.setCounter i r).cores = s.cores := rfl
@[simp] theorem Chip.setCounter_cellar : (s.setCounter i r).cellar = s.cellar := rfl
@[simp] theorem Chip.setCounter_power : (s.setCounter i r).power = s.power := rfl
@[simp] theorem Chip.setCounter_mgmt : (s.setCounter i r).mgmt = s.mgmt := rfl
@[simp] theorem Chip.setCounter_log : (s.setCounter i r).log = s.log := rfl
@[simp] theorem Chip.setCounter_service : (s.setCounter i r).service = s.service := rfl
@[simp] theorem Chip.setCounter_out : (s.setCounter i r).out = s.out := rfl
@[simp] theorem Chip.setCounter_freeCtr : (s.setCounter i r).freeCtr = s.freeCtr := rfl
@[simp] theorem Chip.setCounter_obj (j : Nat) : (s.setCounter i r).obj j = s.obj j := rfl
@[simp] theorem Chip.setCounter_objb (j : Nat) : (s.setCounter i r).objb j = s.objb j := rfl
@[simp] theorem Chip.setCounter_obju (j u : Nat) : (s.setCounter i r).obju j u = s.obju j u := rfl
@[simp] theorem Chip.setCounter_port (j : Nat) : (s.setCounter i r).port j = s.port j := rfl
@[simp] theorem Chip.setCounter_engine (j : Nat) : (s.setCounter i r).engine j = s.engine j := rfl
@[simp] theorem Chip.setCounter_core (j : Nat) : (s.setCounter i r).core j = s.core j := rfl
@[simp] theorem Chip.setCounter_queueAt (j : Nat) : (s.setCounter i r).queueAt j = s.queueAt j := rfl
@[simp] theorem Chip.setCounter_comm (j : Nat) : (s.setCounter i r).comm j = s.comm j := rfl
@[simp] theorem Chip.setCounter_site (j : Nat) : (s.setCounter i r).site j = s.site j := rfl
@[simp] theorem Chip.setCounter_die (j : Nat) : (s.setCounter i r).die j = s.die j := rfl
@[simp] theorem Chip.setCounter_aon : (s.setCounter i r).aon = s.aon := rfl
@[simp] theorem Chip.setCounter_awake : (s.setCounter i r).awake = s.awake := rfl
@[simp] theorem Chip.setCounter_live : (s.setCounter i r).live = s.live := rfl
end

section
variable (c j : Nat) (r : CounterRec)
@[simp] theorem Chip.setCoreCounter_part : (s.setCoreCounter c j r).part = s.part := rfl
@[simp] theorem Chip.setCoreCounter_now : (s.setCoreCounter c j r).now = s.now := rfl
@[simp] theorem Chip.setCoreCounter_timebase : (s.setCoreCounter c j r).timebase = s.timebase := rfl
@[simp] theorem Chip.setCoreCounter_pins : (s.setCoreCounter c j r).pins = s.pins := rfl
@[simp] theorem Chip.setCoreCounter_objs : (s.setCoreCounter c j r).objs = s.objs := rfl
@[simp] theorem Chip.setCoreCounter_mem : (s.setCoreCounter c j r).mem = s.mem := rfl
@[simp] theorem Chip.setCoreCounter_hbm : (s.setCoreCounter c j r).hbm = s.hbm := rfl
@[simp] theorem Chip.setCoreCounter_links : (s.setCoreCounter c j r).links = s.links := rfl
@[simp] theorem Chip.setCoreCounter_ports : (s.setCoreCounter c j r).ports = s.ports := rfl
@[simp] theorem Chip.setCoreCounter_engines : (s.setCoreCounter c j r).engines = s.engines := rfl
@[simp] theorem Chip.setCoreCounter_tn : (s.setCoreCounter c j r).tn = s.tn := rfl
@[simp] theorem Chip.setCoreCounter_gn : (s.setCoreCounter c j r).gn = s.gn := rfl
@[simp] theorem Chip.setCoreCounter_queues : (s.setCoreCounter c j r).queues = s.queues := rfl
@[simp] theorem Chip.setCoreCounter_job : (s.setCoreCounter c j r).job = s.job := rfl
@[simp] theorem Chip.setCoreCounter_cpLast : (s.setCoreCounter c j r).cpLast = s.cpLast := rfl
@[simp] theorem Chip.setCoreCounter_coll : (s.setCoreCounter c j r).coll = s.coll := rfl
@[simp] theorem Chip.setCoreCounter_cores : (s.setCoreCounter c j r).cores = s.cores := rfl
@[simp] theorem Chip.setCoreCounter_cellar : (s.setCoreCounter c j r).cellar = s.cellar := rfl
@[simp] theorem Chip.setCoreCounter_power : (s.setCoreCounter c j r).power = s.power := rfl
@[simp] theorem Chip.setCoreCounter_mgmt : (s.setCoreCounter c j r).mgmt = s.mgmt := rfl
@[simp] theorem Chip.setCoreCounter_log : (s.setCoreCounter c j r).log = s.log := rfl
@[simp] theorem Chip.setCoreCounter_service : (s.setCoreCounter c j r).service = s.service := rfl
@[simp] theorem Chip.setCoreCounter_out : (s.setCoreCounter c j r).out = s.out := rfl
@[simp] theorem Chip.setCoreCounter_freeCtr : (s.setCoreCounter c j r).freeCtr = s.freeCtr := rfl
@[simp] theorem Chip.setCoreCounter_obj (j : Nat) : (s.setCoreCounter c j r).obj j = s.obj j := rfl
@[simp] theorem Chip.setCoreCounter_objb (j : Nat) : (s.setCoreCounter c j r).objb j = s.objb j := rfl
@[simp] theorem Chip.setCoreCounter_obju (j u : Nat) : (s.setCoreCounter c j r).obju j u = s.obju j u := rfl
@[simp] theorem Chip.setCoreCounter_port (j : Nat) : (s.setCoreCounter c j r).port j = s.port j := rfl
@[simp] theorem Chip.setCoreCounter_engine (j : Nat) : (s.setCoreCounter c j r).engine j = s.engine j := rfl
@[simp] theorem Chip.setCoreCounter_core (j : Nat) : (s.setCoreCounter c j r).core j = s.core j := rfl
@[simp] theorem Chip.setCoreCounter_queueAt (j : Nat) : (s.setCoreCounter c j r).queueAt j = s.queueAt j := rfl
@[simp] theorem Chip.setCoreCounter_comm (j : Nat) : (s.setCoreCounter c j r).comm j = s.comm j := rfl
@[simp] theorem Chip.setCoreCounter_site (j : Nat) : (s.setCoreCounter c j r).site j = s.site j := rfl
@[simp] theorem Chip.setCoreCounter_die (j : Nat) : (s.setCoreCounter c j r).die j = s.die j := rfl
@[simp] theorem Chip.setCoreCounter_aon : (s.setCoreCounter c j r).aon = s.aon := rfl
@[simp] theorem Chip.setCoreCounter_awake : (s.setCoreCounter c j r).awake = s.awake := rfl
@[simp] theorem Chip.setCoreCounter_live : (s.setCoreCounter c j r).live = s.live := rfl
end

section
variable (b : Nat) (r : Barrier)
@[simp] theorem Chip.setBarrier_part : (s.setBarrier b r).part = s.part := rfl
@[simp] theorem Chip.setBarrier_now : (s.setBarrier b r).now = s.now := rfl
@[simp] theorem Chip.setBarrier_timebase : (s.setBarrier b r).timebase = s.timebase := rfl
@[simp] theorem Chip.setBarrier_pins : (s.setBarrier b r).pins = s.pins := rfl
@[simp] theorem Chip.setBarrier_objs : (s.setBarrier b r).objs = s.objs := rfl
@[simp] theorem Chip.setBarrier_mem : (s.setBarrier b r).mem = s.mem := rfl
@[simp] theorem Chip.setBarrier_hbm : (s.setBarrier b r).hbm = s.hbm := rfl
@[simp] theorem Chip.setBarrier_links : (s.setBarrier b r).links = s.links := rfl
@[simp] theorem Chip.setBarrier_ports : (s.setBarrier b r).ports = s.ports := rfl
@[simp] theorem Chip.setBarrier_engines : (s.setBarrier b r).engines = s.engines := rfl
@[simp] theorem Chip.setBarrier_tn : (s.setBarrier b r).tn = s.tn := rfl
@[simp] theorem Chip.setBarrier_gn : (s.setBarrier b r).gn = s.gn := rfl
@[simp] theorem Chip.setBarrier_queues : (s.setBarrier b r).queues = s.queues := rfl
@[simp] theorem Chip.setBarrier_job : (s.setBarrier b r).job = s.job := rfl
@[simp] theorem Chip.setBarrier_cpLast : (s.setBarrier b r).cpLast = s.cpLast := rfl
@[simp] theorem Chip.setBarrier_coll : (s.setBarrier b r).coll = s.coll := rfl
@[simp] theorem Chip.setBarrier_cores : (s.setBarrier b r).cores = s.cores := rfl
@[simp] theorem Chip.setBarrier_cellar : (s.setBarrier b r).cellar = s.cellar := rfl
@[simp] theorem Chip.setBarrier_power : (s.setBarrier b r).power = s.power := rfl
@[simp] theorem Chip.setBarrier_mgmt : (s.setBarrier b r).mgmt = s.mgmt := rfl
@[simp] theorem Chip.setBarrier_log : (s.setBarrier b r).log = s.log := rfl
@[simp] theorem Chip.setBarrier_service : (s.setBarrier b r).service = s.service := rfl
@[simp] theorem Chip.setBarrier_out : (s.setBarrier b r).out = s.out := rfl
@[simp] theorem Chip.setBarrier_freeCtr : (s.setBarrier b r).freeCtr = s.freeCtr := rfl
@[simp] theorem Chip.setBarrier_obj (j : Nat) : (s.setBarrier b r).obj j = s.obj j := rfl
@[simp] theorem Chip.setBarrier_objb (j : Nat) : (s.setBarrier b r).objb j = s.objb j := rfl
@[simp] theorem Chip.setBarrier_obju (j u : Nat) : (s.setBarrier b r).obju j u = s.obju j u := rfl
@[simp] theorem Chip.setBarrier_port (j : Nat) : (s.setBarrier b r).port j = s.port j := rfl
@[simp] theorem Chip.setBarrier_engine (j : Nat) : (s.setBarrier b r).engine j = s.engine j := rfl
@[simp] theorem Chip.setBarrier_core (j : Nat) : (s.setBarrier b r).core j = s.core j := rfl
@[simp] theorem Chip.setBarrier_queueAt (j : Nat) : (s.setBarrier b r).queueAt j = s.queueAt j := rfl
@[simp] theorem Chip.setBarrier_comm (j : Nat) : (s.setBarrier b r).comm j = s.comm j := rfl
@[simp] theorem Chip.setBarrier_site (j : Nat) : (s.setBarrier b r).site j = s.site j := rfl
@[simp] theorem Chip.setBarrier_die (j : Nat) : (s.setBarrier b r).die j = s.die j := rfl
@[simp] theorem Chip.setBarrier_aon : (s.setBarrier b r).aon = s.aon := rfl
@[simp] theorem Chip.setBarrier_awake : (s.setBarrier b r).awake = s.awake := rfl
@[simp] theorem Chip.setBarrier_live : (s.setBarrier b r).live = s.live := rfl
end

section
variable (d : Nat) (f : CellarDie → CellarDie)
@[simp] theorem Chip.setDie_part : (s.setDie d f).part = s.part := rfl
@[simp] theorem Chip.setDie_now : (s.setDie d f).now = s.now := rfl
@[simp] theorem Chip.setDie_timebase : (s.setDie d f).timebase = s.timebase := rfl
@[simp] theorem Chip.setDie_pins : (s.setDie d f).pins = s.pins := rfl
@[simp] theorem Chip.setDie_objs : (s.setDie d f).objs = s.objs := rfl
@[simp] theorem Chip.setDie_mem : (s.setDie d f).mem = s.mem := rfl
@[simp] theorem Chip.setDie_hbm : (s.setDie d f).hbm = s.hbm := rfl
@[simp] theorem Chip.setDie_links : (s.setDie d f).links = s.links := rfl
@[simp] theorem Chip.setDie_ports : (s.setDie d f).ports = s.ports := rfl
@[simp] theorem Chip.setDie_engines : (s.setDie d f).engines = s.engines := rfl
@[simp] theorem Chip.setDie_tn : (s.setDie d f).tn = s.tn := rfl
@[simp] theorem Chip.setDie_gn : (s.setDie d f).gn = s.gn := rfl
@[simp] theorem Chip.setDie_queues : (s.setDie d f).queues = s.queues := rfl
@[simp] theorem Chip.setDie_job : (s.setDie d f).job = s.job := rfl
@[simp] theorem Chip.setDie_cpLast : (s.setDie d f).cpLast = s.cpLast := rfl
@[simp] theorem Chip.setDie_sync : (s.setDie d f).sync = s.sync := rfl
@[simp] theorem Chip.setDie_coll : (s.setDie d f).coll = s.coll := rfl
@[simp] theorem Chip.setDie_cores : (s.setDie d f).cores = s.cores := rfl
@[simp] theorem Chip.setDie_power : (s.setDie d f).power = s.power := rfl
@[simp] theorem Chip.setDie_mgmt : (s.setDie d f).mgmt = s.mgmt := rfl
@[simp] theorem Chip.setDie_log : (s.setDie d f).log = s.log := rfl
@[simp] theorem Chip.setDie_service : (s.setDie d f).service = s.service := rfl
@[simp] theorem Chip.setDie_out : (s.setDie d f).out = s.out := rfl
@[simp] theorem Chip.setDie_freeCtr : (s.setDie d f).freeCtr = s.freeCtr := rfl
@[simp] theorem Chip.setDie_obj (j : Nat) : (s.setDie d f).obj j = s.obj j := rfl
@[simp] theorem Chip.setDie_objb (j : Nat) : (s.setDie d f).objb j = s.objb j := rfl
@[simp] theorem Chip.setDie_obju (j u : Nat) : (s.setDie d f).obju j u = s.obju j u := rfl
@[simp] theorem Chip.setDie_port (j : Nat) : (s.setDie d f).port j = s.port j := rfl
@[simp] theorem Chip.setDie_engine (j : Nat) : (s.setDie d f).engine j = s.engine j := rfl
@[simp] theorem Chip.setDie_core (j : Nat) : (s.setDie d f).core j = s.core j := rfl
@[simp] theorem Chip.setDie_queueAt (j : Nat) : (s.setDie d f).queueAt j = s.queueAt j := rfl
@[simp] theorem Chip.setDie_counter (j : Nat) : (s.setDie d f).counter j = s.counter j := rfl
@[simp] theorem Chip.setDie_comm (j : Nat) : (s.setDie d f).comm j = s.comm j := rfl
@[simp] theorem Chip.setDie_site (j : Nat) : (s.setDie d f).site j = s.site j := rfl
@[simp] theorem Chip.setDie_aon : (s.setDie d f).aon = s.aon := rfl
@[simp] theorem Chip.setDie_awake : (s.setDie d f).awake = s.awake := rfl
@[simp] theorem Chip.setDie_live : (s.setDie d f).live = s.live := rfl
end

section
variable (k : Nat) (f : Component → Component)
@[simp] theorem Chip.setComponent_part : (s.setComponent k f).part = s.part := rfl
@[simp] theorem Chip.setComponent_now : (s.setComponent k f).now = s.now := rfl
@[simp] theorem Chip.setComponent_timebase : (s.setComponent k f).timebase = s.timebase := rfl
@[simp] theorem Chip.setComponent_pins : (s.setComponent k f).pins = s.pins := rfl
@[simp] theorem Chip.setComponent_objs : (s.setComponent k f).objs = s.objs := rfl
@[simp] theorem Chip.setComponent_mem : (s.setComponent k f).mem = s.mem := rfl
@[simp] theorem Chip.setComponent_hbm : (s.setComponent k f).hbm = s.hbm := rfl
@[simp] theorem Chip.setComponent_links : (s.setComponent k f).links = s.links := rfl
@[simp] theorem Chip.setComponent_ports : (s.setComponent k f).ports = s.ports := rfl
@[simp] theorem Chip.setComponent_engines : (s.setComponent k f).engines = s.engines := rfl
@[simp] theorem Chip.setComponent_tn : (s.setComponent k f).tn = s.tn := rfl
@[simp] theorem Chip.setComponent_gn : (s.setComponent k f).gn = s.gn := rfl
@[simp] theorem Chip.setComponent_queues : (s.setComponent k f).queues = s.queues := rfl
@[simp] theorem Chip.setComponent_job : (s.setComponent k f).job = s.job := rfl
@[simp] theorem Chip.setComponent_cpLast : (s.setComponent k f).cpLast = s.cpLast := rfl
@[simp] theorem Chip.setComponent_sync : (s.setComponent k f).sync = s.sync := rfl
@[simp] theorem Chip.setComponent_coll : (s.setComponent k f).coll = s.coll := rfl
@[simp] theorem Chip.setComponent_cores : (s.setComponent k f).cores = s.cores := rfl
@[simp] theorem Chip.setComponent_cellar : (s.setComponent k f).cellar = s.cellar := rfl
@[simp] theorem Chip.setComponent_power : (s.setComponent k f).power = s.power := rfl
@[simp] theorem Chip.setComponent_log : (s.setComponent k f).log = s.log := rfl
@[simp] theorem Chip.setComponent_service : (s.setComponent k f).service = s.service := rfl
@[simp] theorem Chip.setComponent_out : (s.setComponent k f).out = s.out := rfl
@[simp] theorem Chip.setComponent_freeCtr : (s.setComponent k f).freeCtr = s.freeCtr := rfl
@[simp] theorem Chip.setComponent_obj (j : Nat) : (s.setComponent k f).obj j = s.obj j := rfl
@[simp] theorem Chip.setComponent_objb (j : Nat) : (s.setComponent k f).objb j = s.objb j := rfl
@[simp] theorem Chip.setComponent_obju (j u : Nat) : (s.setComponent k f).obju j u = s.obju j u := rfl
@[simp] theorem Chip.setComponent_port (j : Nat) : (s.setComponent k f).port j = s.port j := rfl
@[simp] theorem Chip.setComponent_engine (j : Nat) : (s.setComponent k f).engine j = s.engine j := rfl
@[simp] theorem Chip.setComponent_core (j : Nat) : (s.setComponent k f).core j = s.core j := rfl
@[simp] theorem Chip.setComponent_queueAt (j : Nat) : (s.setComponent k f).queueAt j = s.queueAt j := rfl
@[simp] theorem Chip.setComponent_counter (j : Nat) : (s.setComponent k f).counter j = s.counter j := rfl
@[simp] theorem Chip.setComponent_comm (j : Nat) : (s.setComponent k f).comm j = s.comm j := rfl
@[simp] theorem Chip.setComponent_site (j : Nat) : (s.setComponent k f).site j = s.site j := rfl
@[simp] theorem Chip.setComponent_die (j : Nat) : (s.setComponent k f).die j = s.die j := rfl
@[simp] theorem Chip.setComponent_aon : (s.setComponent k f).aon = s.aon := rfl
@[simp] theorem Chip.setComponent_awake : (s.setComponent k f).awake = s.awake := rfl
@[simp] theorem Chip.setComponent_live : (s.setComponent k f).live = s.live := rfl
end

section
variable (i : Nat) (f : Session → Session)
@[simp] theorem Chip.setSession_part : (s.setSession i f).part = s.part := rfl
@[simp] theorem Chip.setSession_now : (s.setSession i f).now = s.now := rfl
@[simp] theorem Chip.setSession_timebase : (s.setSession i f).timebase = s.timebase := rfl
@[simp] theorem Chip.setSession_pins : (s.setSession i f).pins = s.pins := rfl
@[simp] theorem Chip.setSession_objs : (s.setSession i f).objs = s.objs := rfl
@[simp] theorem Chip.setSession_mem : (s.setSession i f).mem = s.mem := rfl
@[simp] theorem Chip.setSession_hbm : (s.setSession i f).hbm = s.hbm := rfl
@[simp] theorem Chip.setSession_links : (s.setSession i f).links = s.links := rfl
@[simp] theorem Chip.setSession_ports : (s.setSession i f).ports = s.ports := rfl
@[simp] theorem Chip.setSession_engines : (s.setSession i f).engines = s.engines := rfl
@[simp] theorem Chip.setSession_tn : (s.setSession i f).tn = s.tn := rfl
@[simp] theorem Chip.setSession_gn : (s.setSession i f).gn = s.gn := rfl
@[simp] theorem Chip.setSession_queues : (s.setSession i f).queues = s.queues := rfl
@[simp] theorem Chip.setSession_job : (s.setSession i f).job = s.job := rfl
@[simp] theorem Chip.setSession_cpLast : (s.setSession i f).cpLast = s.cpLast := rfl
@[simp] theorem Chip.setSession_sync : (s.setSession i f).sync = s.sync := rfl
@[simp] theorem Chip.setSession_coll : (s.setSession i f).coll = s.coll := rfl
@[simp] theorem Chip.setSession_cores : (s.setSession i f).cores = s.cores := rfl
@[simp] theorem Chip.setSession_cellar : (s.setSession i f).cellar = s.cellar := rfl
@[simp] theorem Chip.setSession_power : (s.setSession i f).power = s.power := rfl
@[simp] theorem Chip.setSession_log : (s.setSession i f).log = s.log := rfl
@[simp] theorem Chip.setSession_service : (s.setSession i f).service = s.service := rfl
@[simp] theorem Chip.setSession_out : (s.setSession i f).out = s.out := rfl
@[simp] theorem Chip.setSession_freeCtr : (s.setSession i f).freeCtr = s.freeCtr := rfl
@[simp] theorem Chip.setSession_obj (j : Nat) : (s.setSession i f).obj j = s.obj j := rfl
@[simp] theorem Chip.setSession_objb (j : Nat) : (s.setSession i f).objb j = s.objb j := rfl
@[simp] theorem Chip.setSession_obju (j u : Nat) : (s.setSession i f).obju j u = s.obju j u := rfl
@[simp] theorem Chip.setSession_port (j : Nat) : (s.setSession i f).port j = s.port j := rfl
@[simp] theorem Chip.setSession_engine (j : Nat) : (s.setSession i f).engine j = s.engine j := rfl
@[simp] theorem Chip.setSession_core (j : Nat) : (s.setSession i f).core j = s.core j := rfl
@[simp] theorem Chip.setSession_queueAt (j : Nat) : (s.setSession i f).queueAt j = s.queueAt j := rfl
@[simp] theorem Chip.setSession_counter (j : Nat) : (s.setSession i f).counter j = s.counter j := rfl
@[simp] theorem Chip.setSession_comm (j : Nat) : (s.setSession i f).comm j = s.comm j := rfl
@[simp] theorem Chip.setSession_site (j : Nat) : (s.setSession i f).site j = s.site j := rfl
@[simp] theorem Chip.setSession_die (j : Nat) : (s.setSession i f).die j = s.die j := rfl
@[simp] theorem Chip.setSession_aon : (s.setSession i f).aon = s.aon := rfl
@[simp] theorem Chip.setSession_awake : (s.setSession i f).awake = s.awake := rfl
@[simp] theorem Chip.setSession_live : (s.setSession i f).live = s.live := rfl
end

section
variable (o : Output)
@[simp] theorem Chip.emit_part : (s.emit o).part = s.part := rfl
@[simp] theorem Chip.emit_now : (s.emit o).now = s.now := rfl
@[simp] theorem Chip.emit_timebase : (s.emit o).timebase = s.timebase := rfl
@[simp] theorem Chip.emit_pins : (s.emit o).pins = s.pins := rfl
@[simp] theorem Chip.emit_objs : (s.emit o).objs = s.objs := rfl
@[simp] theorem Chip.emit_mem : (s.emit o).mem = s.mem := rfl
@[simp] theorem Chip.emit_hbm : (s.emit o).hbm = s.hbm := rfl
@[simp] theorem Chip.emit_links : (s.emit o).links = s.links := rfl
@[simp] theorem Chip.emit_ports : (s.emit o).ports = s.ports := rfl
@[simp] theorem Chip.emit_engines : (s.emit o).engines = s.engines := rfl
@[simp] theorem Chip.emit_tn : (s.emit o).tn = s.tn := rfl
@[simp] theorem Chip.emit_gn : (s.emit o).gn = s.gn := rfl
@[simp] theorem Chip.emit_queues : (s.emit o).queues = s.queues := rfl
@[simp] theorem Chip.emit_job : (s.emit o).job = s.job := rfl
@[simp] theorem Chip.emit_cpLast : (s.emit o).cpLast = s.cpLast := rfl
@[simp] theorem Chip.emit_sync : (s.emit o).sync = s.sync := rfl
@[simp] theorem Chip.emit_coll : (s.emit o).coll = s.coll := rfl
@[simp] theorem Chip.emit_cores : (s.emit o).cores = s.cores := rfl
@[simp] theorem Chip.emit_cellar : (s.emit o).cellar = s.cellar := rfl
@[simp] theorem Chip.emit_power : (s.emit o).power = s.power := rfl
@[simp] theorem Chip.emit_mgmt : (s.emit o).mgmt = s.mgmt := rfl
@[simp] theorem Chip.emit_log : (s.emit o).log = s.log := rfl
@[simp] theorem Chip.emit_service : (s.emit o).service = s.service := rfl
@[simp] theorem Chip.emit_freeCtr : (s.emit o).freeCtr = s.freeCtr := rfl
@[simp] theorem Chip.emit_obj (j : Nat) : (s.emit o).obj j = s.obj j := rfl
@[simp] theorem Chip.emit_objb (j : Nat) : (s.emit o).objb j = s.objb j := rfl
@[simp] theorem Chip.emit_obju (j u : Nat) : (s.emit o).obju j u = s.obju j u := rfl
@[simp] theorem Chip.emit_port (j : Nat) : (s.emit o).port j = s.port j := rfl
@[simp] theorem Chip.emit_engine (j : Nat) : (s.emit o).engine j = s.engine j := rfl
@[simp] theorem Chip.emit_core (j : Nat) : (s.emit o).core j = s.core j := rfl
@[simp] theorem Chip.emit_queueAt (j : Nat) : (s.emit o).queueAt j = s.queueAt j := rfl
@[simp] theorem Chip.emit_counter (j : Nat) : (s.emit o).counter j = s.counter j := rfl
@[simp] theorem Chip.emit_comm (j : Nat) : (s.emit o).comm j = s.comm j := rfl
@[simp] theorem Chip.emit_site (j : Nat) : (s.emit o).site j = s.site j := rfl
@[simp] theorem Chip.emit_die (j : Nat) : (s.emit o).die j = s.die j := rfl
@[simp] theorem Chip.emit_aon : (s.emit o).aon = s.aon := rfl
@[simp] theorem Chip.emit_awake : (s.emit o).awake = s.awake := rfl
@[simp] theorem Chip.emit_live : (s.emit o).live = s.live := rfl
end

section
@[simp] theorem Chip.drew_part : (s.drew).part = s.part := rfl
@[simp] theorem Chip.drew_now : (s.drew).now = s.now := rfl
@[simp] theorem Chip.drew_timebase : (s.drew).timebase = s.timebase := rfl
@[simp] theorem Chip.drew_pins : (s.drew).pins = s.pins := rfl
@[simp] theorem Chip.drew_objs : (s.drew).objs = s.objs := rfl
@[simp] theorem Chip.drew_mem : (s.drew).mem = s.mem := rfl
@[simp] theorem Chip.drew_hbm : (s.drew).hbm = s.hbm := rfl
@[simp] theorem Chip.drew_links : (s.drew).links = s.links := rfl
@[simp] theorem Chip.drew_ports : (s.drew).ports = s.ports := rfl
@[simp] theorem Chip.drew_engines : (s.drew).engines = s.engines := rfl
@[simp] theorem Chip.drew_tn : (s.drew).tn = s.tn := rfl
@[simp] theorem Chip.drew_gn : (s.drew).gn = s.gn := rfl
@[simp] theorem Chip.drew_queues : (s.drew).queues = s.queues := rfl
@[simp] theorem Chip.drew_job : (s.drew).job = s.job := rfl
@[simp] theorem Chip.drew_cpLast : (s.drew).cpLast = s.cpLast := rfl
@[simp] theorem Chip.drew_sync : (s.drew).sync = s.sync := rfl
@[simp] theorem Chip.drew_coll : (s.drew).coll = s.coll := rfl
@[simp] theorem Chip.drew_cores : (s.drew).cores = s.cores := rfl
@[simp] theorem Chip.drew_cellar : (s.drew).cellar = s.cellar := rfl
@[simp] theorem Chip.drew_power : (s.drew).power = s.power := rfl
@[simp] theorem Chip.drew_mgmt : (s.drew).mgmt = s.mgmt := rfl
@[simp] theorem Chip.drew_log : (s.drew).log = s.log := rfl
@[simp] theorem Chip.drew_service : (s.drew).service = s.service := rfl
@[simp] theorem Chip.drew_out : (s.drew).out = s.out := rfl
@[simp] theorem Chip.drew_obj (j : Nat) : (s.drew).obj j = s.obj j := rfl
@[simp] theorem Chip.drew_objb (j : Nat) : (s.drew).objb j = s.objb j := rfl
@[simp] theorem Chip.drew_obju (j u : Nat) : (s.drew).obju j u = s.obju j u := rfl
@[simp] theorem Chip.drew_port (j : Nat) : (s.drew).port j = s.port j := rfl
@[simp] theorem Chip.drew_engine (j : Nat) : (s.drew).engine j = s.engine j := rfl
@[simp] theorem Chip.drew_core (j : Nat) : (s.drew).core j = s.core j := rfl
@[simp] theorem Chip.drew_queueAt (j : Nat) : (s.drew).queueAt j = s.queueAt j := rfl
@[simp] theorem Chip.drew_counter (j : Nat) : (s.drew).counter j = s.counter j := rfl
@[simp] theorem Chip.drew_comm (j : Nat) : (s.drew).comm j = s.comm j := rfl
@[simp] theorem Chip.drew_site (j : Nat) : (s.drew).site j = s.site j := rfl
@[simp] theorem Chip.drew_die (j : Nat) : (s.drew).die j = s.die j := rfl
@[simp] theorem Chip.drew_aon : (s.drew).aon = s.aon := rfl
@[simp] theorem Chip.drew_awake : (s.drew).awake = s.awake := rfl
@[simp] theorem Chip.drew_live : (s.drew).live = s.live := rfl
end

section
variable (code n : Nat) (args : List Arg)
@[simp] theorem Chip.raiseCount_part : (s.raiseCount code n args).part = s.part := rfl
@[simp] theorem Chip.raiseCount_now : (s.raiseCount code n args).now = s.now := rfl
@[simp] theorem Chip.raiseCount_timebase : (s.raiseCount code n args).timebase = s.timebase := rfl
@[simp] theorem Chip.raiseCount_objs : (s.raiseCount code n args).objs = s.objs := rfl
@[simp] theorem Chip.raiseCount_mem : (s.raiseCount code n args).mem = s.mem := rfl
@[simp] theorem Chip.raiseCount_hbm : (s.raiseCount code n args).hbm = s.hbm := rfl
@[simp] theorem Chip.raiseCount_links : (s.raiseCount code n args).links = s.links := rfl
@[simp] theorem Chip.raiseCount_ports : (s.raiseCount code n args).ports = s.ports := rfl
@[simp] theorem Chip.raiseCount_engines : (s.raiseCount code n args).engines = s.engines := rfl
@[simp] theorem Chip.raiseCount_tn : (s.raiseCount code n args).tn = s.tn := rfl
@[simp] theorem Chip.raiseCount_gn : (s.raiseCount code n args).gn = s.gn := rfl
@[simp] theorem Chip.raiseCount_queues : (s.raiseCount code n args).queues = s.queues := rfl
@[simp] theorem Chip.raiseCount_job : (s.raiseCount code n args).job = s.job := rfl
@[simp] theorem Chip.raiseCount_cpLast : (s.raiseCount code n args).cpLast = s.cpLast := rfl
@[simp] theorem Chip.raiseCount_sync : (s.raiseCount code n args).sync = s.sync := rfl
@[simp] theorem Chip.raiseCount_coll : (s.raiseCount code n args).coll = s.coll := rfl
@[simp] theorem Chip.raiseCount_cores : (s.raiseCount code n args).cores = s.cores := rfl
@[simp] theorem Chip.raiseCount_cellar : (s.raiseCount code n args).cellar = s.cellar := rfl
@[simp] theorem Chip.raiseCount_power : (s.raiseCount code n args).power = s.power := rfl
@[simp] theorem Chip.raiseCount_service : (s.raiseCount code n args).service = s.service := rfl
@[simp] theorem Chip.raiseCount_freeCtr : (s.raiseCount code n args).freeCtr = s.freeCtr := rfl
@[simp] theorem Chip.raiseCount_obj (j : Nat) : (s.raiseCount code n args).obj j = s.obj j := rfl
@[simp] theorem Chip.raiseCount_objb (j : Nat) : (s.raiseCount code n args).objb j = s.objb j := rfl
@[simp] theorem Chip.raiseCount_obju (j u : Nat) : (s.raiseCount code n args).obju j u = s.obju j u := rfl
@[simp] theorem Chip.raiseCount_port (j : Nat) : (s.raiseCount code n args).port j = s.port j := rfl
@[simp] theorem Chip.raiseCount_engine (j : Nat) : (s.raiseCount code n args).engine j = s.engine j := rfl
@[simp] theorem Chip.raiseCount_core (j : Nat) : (s.raiseCount code n args).core j = s.core j := rfl
@[simp] theorem Chip.raiseCount_queueAt (j : Nat) : (s.raiseCount code n args).queueAt j = s.queueAt j := rfl
@[simp] theorem Chip.raiseCount_counter (j : Nat) : (s.raiseCount code n args).counter j = s.counter j := rfl
@[simp] theorem Chip.raiseCount_comm (j : Nat) : (s.raiseCount code n args).comm j = s.comm j := rfl
@[simp] theorem Chip.raiseCount_site (j : Nat) : (s.raiseCount code n args).site j = s.site j := rfl
@[simp] theorem Chip.raiseCount_die (j : Nat) : (s.raiseCount code n args).die j = s.die j := rfl
@[simp] theorem Chip.raiseCount_awake : (s.raiseCount code n args).awake = s.awake := rfl
@[simp] theorem Chip.raiseCount_live : (s.raiseCount code n args).live = s.live := rfl
end

section
variable (code : Nat) (args : List Arg)
@[simp] theorem Chip.raise_part : (s.raise code args).part = s.part := rfl
@[simp] theorem Chip.raise_now : (s.raise code args).now = s.now := rfl
@[simp] theorem Chip.raise_timebase : (s.raise code args).timebase = s.timebase := rfl
@[simp] theorem Chip.raise_objs : (s.raise code args).objs = s.objs := rfl
@[simp] theorem Chip.raise_mem : (s.raise code args).mem = s.mem := rfl
@[simp] theorem Chip.raise_hbm : (s.raise code args).hbm = s.hbm := rfl
@[simp] theorem Chip.raise_links : (s.raise code args).links = s.links := rfl
@[simp] theorem Chip.raise_ports : (s.raise code args).ports = s.ports := rfl
@[simp] theorem Chip.raise_engines : (s.raise code args).engines = s.engines := rfl
@[simp] theorem Chip.raise_tn : (s.raise code args).tn = s.tn := rfl
@[simp] theorem Chip.raise_gn : (s.raise code args).gn = s.gn := rfl
@[simp] theorem Chip.raise_queues : (s.raise code args).queues = s.queues := rfl
@[simp] theorem Chip.raise_job : (s.raise code args).job = s.job := rfl
@[simp] theorem Chip.raise_cpLast : (s.raise code args).cpLast = s.cpLast := rfl
@[simp] theorem Chip.raise_sync : (s.raise code args).sync = s.sync := rfl
@[simp] theorem Chip.raise_coll : (s.raise code args).coll = s.coll := rfl
@[simp] theorem Chip.raise_cores : (s.raise code args).cores = s.cores := rfl
@[simp] theorem Chip.raise_cellar : (s.raise code args).cellar = s.cellar := rfl
@[simp] theorem Chip.raise_power : (s.raise code args).power = s.power := rfl
@[simp] theorem Chip.raise_service : (s.raise code args).service = s.service := rfl
@[simp] theorem Chip.raise_freeCtr : (s.raise code args).freeCtr = s.freeCtr := rfl
@[simp] theorem Chip.raise_obj (j : Nat) : (s.raise code args).obj j = s.obj j := rfl
@[simp] theorem Chip.raise_objb (j : Nat) : (s.raise code args).objb j = s.objb j := rfl
@[simp] theorem Chip.raise_obju (j u : Nat) : (s.raise code args).obju j u = s.obju j u := rfl
@[simp] theorem Chip.raise_port (j : Nat) : (s.raise code args).port j = s.port j := rfl
@[simp] theorem Chip.raise_engine (j : Nat) : (s.raise code args).engine j = s.engine j := rfl
@[simp] theorem Chip.raise_core (j : Nat) : (s.raise code args).core j = s.core j := rfl
@[simp] theorem Chip.raise_queueAt (j : Nat) : (s.raise code args).queueAt j = s.queueAt j := rfl
@[simp] theorem Chip.raise_counter (j : Nat) : (s.raise code args).counter j = s.counter j := rfl
@[simp] theorem Chip.raise_comm (j : Nat) : (s.raise code args).comm j = s.comm j := rfl
@[simp] theorem Chip.raise_site (j : Nat) : (s.raise code args).site j = s.site j := rfl
@[simp] theorem Chip.raise_die (j : Nat) : (s.raise code args).die j = s.die j := rfl
@[simp] theorem Chip.raise_awake : (s.raise code args).awake = s.awake := rfl
@[simp] theorem Chip.raise_live : (s.raise code args).live = s.live := rfl
end

/-! ### An event's effect on the pins and on management -/

@[simp] theorem Chip.raiseCount_vaon (code n : Nat) (args : List Arg) : (s.raiseCount code n args).pins.vaon = s.pins.vaon := by
  simp only [Chip.raiseCount]; split <;> rfl
@[simp] theorem Chip.raise_vaon (code : Nat) (args : List Arg) : (s.raise code args).pins.vaon = s.pins.vaon :=
  Chip.raiseCount_vaon s code 1 args
@[simp] theorem Chip.raiseCount_vaonSince (code n : Nat) (args : List Arg) :
    (s.raiseCount code n args).pins.vaonSince = s.pins.vaonSince := by
  simp only [Chip.raiseCount]; split <;> rfl
@[simp] theorem Chip.raise_vaonSince (code : Nat) (args : List Arg) :
    (s.raise code args).pins.vaonSince = s.pins.vaonSince := Chip.raiseCount_vaonSince s code 1 args
@[simp] theorem Chip.raiseCount_resetLow (code n : Nat) (args : List Arg) :
    (s.raiseCount code n args).pins.resetLow = s.pins.resetLow := by
  simp only [Chip.raiseCount]; split <;> rfl
@[simp] theorem Chip.raise_resetLow (code : Nat) (args : List Arg) :
    (s.raise code args).pins.resetLow = s.pins.resetLow := Chip.raiseCount_resetLow s code 1 args
@[simp] theorem Chip.raiseCount_aon (code n : Nat) (args : List Arg) : (s.raiseCount code n args).aon = s.aon := by
  simp [Chip.aon]
@[simp] theorem Chip.raise_aon (code : Nat) (args : List Arg) : (s.raise code args).aon = s.aon := by simp [Chip.aon]
@[simp] theorem Chip.raiseCount_stage (code n : Nat) (args : List Arg) :
    (s.raiseCount code n args).mgmt.stage = s.mgmt.stage := rfl
@[simp] theorem Chip.raise_stage (code : Nat) (args : List Arg) : (s.raise code args).mgmt.stage = s.mgmt.stage := rfl
@[simp] theorem Chip.raise_seq (code : Nat) (args : List Arg) : (s.raise code args).log.seq = s.log.seq + 1 := rfl
@[simp] theorem Chip.raise_next (code : Nat) (args : List Arg) : (s.raise code args).log.next = (s.log.next + 1) % 65536 := rfl

/-! ### An update's own part -/

@[simp] theorem Chip.setPort_same (p : Nat) (f : Port → Port) : (s.setPort p f).port p = f (s.port p) :=
  Tab.get_set_same ..
@[simp] theorem Chip.setEngine_same (e : Nat) (f : Engine → Engine) : (s.setEngine e f).engine e = f (s.engine e) :=
  Tab.get_set_same ..
@[simp] theorem Chip.setCore_same (c : Nat) (f : CoreSt → CoreSt) : (s.setCore c f).core c = f (s.core c) :=
  Tab.get_set_same ..
@[simp] theorem Chip.setQueue_same (q : Nat) (f : Queue → Queue) : (s.setQueue q f).queueAt q = f (s.queueAt q) :=
  Tab.get_set_same ..
@[simp] theorem Chip.setSite_same (i : Nat) (f : Site → Site) : (s.setSite i f).site i = f (s.site i) :=
  Tab.get_set_same ..
@[simp] theorem Chip.setDie_same (d : Nat) (f : CellarDie → CellarDie) : (s.setDie d f).die d = f (s.die d) :=
  Tab.get_set_same ..
@[simp] theorem Chip.setComm_same (n : Nat) (v : CommSlot) : (s.setComm n v).comm n = v := Tab.get_set_same ..
@[simp] theorem Chip.setCounter_same (i : Nat) (r : CounterRec) : (s.setCounter i r).counter i = r := Tab.get_set_same ..
@[simp] theorem Chip.setObj_same (k v : Nat) : (s.setObj k v).obj k = v := Tab.get_set_same ..
@[simp] theorem Chip.setLink_same (l : Nat) (f : Link → Link) : (s.setLink l f).link l = f (s.link l) := by
  simp [Chip.setLink, Chip.link]

theorem Chip.setPort_other (p q : Nat) (f : Port → Port) (h : q ≠ p) : (s.setPort p f).port q = s.port q :=
  Tab.get_set_ne _ _ _ _ _ h
theorem Chip.setCore_other (c d : Nat) (f : CoreSt → CoreSt) (h : d ≠ c) : (s.setCore c f).core d = s.core d :=
  Tab.get_set_ne _ _ _ _ _ h
theorem Chip.setQueue_other (q r : Nat) (f : Queue → Queue) (h : r ≠ q) : (s.setQueue q f).queueAt r = s.queueAt r :=
  Tab.get_set_ne _ _ _ _ _ h
theorem Chip.setSite_other (i j : Nat) (f : Site → Site) (h : j ≠ i) : (s.setSite i f).site j = s.site j :=
  Tab.get_set_ne _ _ _ _ _ h
theorem Chip.setObj_other (k j v : Nat) (h : j ≠ k) : (s.setObj k v).obj j = s.obj j := by
  unfold Chip.setObj Chip.obj
  by_cases e : v = objDefault s.part k
  · simp [Tab.set, e, Tab.get_erase_ne _ _ _ _ h]
  · simp [Tab.set, e, Tab.get_insert_ne _ _ _ _ _ h]
theorem Chip.setCounter_other (i j : Nat) (r : CounterRec) (h : j ≠ i) : (s.setCounter i r).counter j = s.counter j :=
  Tab.get_set_ne _ _ _ _ _ h

/-! ### A list of updates -/

/-- What each update of a list keeps, the list keeps. -/
theorem Chip.each_keeps {α β : Type} (p : Chip → β) (f : Chip → α → Chip) (h : ∀ s a, p (f s a) = p s) (l : List α) :
    p (s.each l f) = p s := by
  induction l generalizing s with
  | nil => rfl
  | cons a r ih => exact (ih (f s a)).trans (h s a)

/-- A conditional update keeps what its update keeps. -/
theorem Chip.when_keeps {β : Type} (p : Chip → β) (b : Bool) (f : Chip → Chip) (h : p (f s) = p s) : p (s.when b f) = p s := by
  cases b <;> simp [Chip.when, h]

@[simp] theorem Chip.when_true (f : Chip → Chip) : s.when true f = f s := rfl
@[simp] theorem Chip.when_false (f : Chip → Chip) : s.when false f = s := rfl
@[simp] theorem Chip.each_nil {α : Type} (f : Chip → α → Chip) : s.each [] f = s := rfl
@[simp] theorem Chip.each_cons {α : Type} (a : α) (l : List α) (f : Chip → α → Chip) :
    s.each (a :: l) f = (f s a).each l f := rfl

/-! ### How a command acts -/

/-- A command's effect whatever the package does: always a next state, with the waiting commands as they were. -/
@[simp] theorem State.always_next (s : State) (f : Chip → Chip) : s.always f = .next { s with toChip := f s.toChip } := rfl
theorem State.actAwake_next (s : State) (f : Chip → Chip) (h : s.awake = true) :
    s.actAwake f = .next { s with toChip := f s.toChip } := by simp [State.actAwake, h]
theorem State.act_next (s : State) (f : Chip → Chip) (h : s.live = true) :
    s.act f = .next { s with toChip := f s.toChip } := by simp [State.act, h]
theorem State.actAwake_idle (s : State) (f : Chip → Chip) (h : s.awake = false) : s.actAwake f = .next s := by
  simp [State.actAwake, h]
theorem State.act_idle (s : State) (f : Chip → Chip) (h : s.live = false) : s.act f = .next s := by simp [State.act, h]

/-- A chip whose dies run has its firmware running. -/
theorem Chip.awake_of_live (h : s.live = true) : s.awake = true := by
  simp [Chip.live] at h; exact h.1
theorem Chip.live_of_latched (h : s.power.shutdown.isSome = true) : s.live = false := by
  simp [Chip.live, h]

end Sys2Proof.Machine
end

