-- ==== Sys2Proof/Laws/Gives.lean ====
section
/-! SUPPORT. From what a command does to the chip to what it gives: one lemma for each way a command acts. -/

namespace Sys2Proof.Machine

theorem State.gives_always {s : State} {c : Instr} {f : Chip → Chip} {P : Chip → Prop} (he : exec c s = s.always f)
    (hp : P (f s.toChip)) : s.gives c P := ⟨_, he, rfl, hp⟩

theorem State.gives_awake {s : State} {c : Instr} {f : Chip → Chip} {P : Chip → Prop} (he : exec c s = s.actAwake f)
    (h : s.awake = true) (hp : P (f s.toChip)) : s.gives c P :=
  ⟨_, he.trans (State.actAwake_next s f h), rfl, hp⟩

theorem State.gives_live {s : State} {c : Instr} {f : Chip → Chip} {P : Chip → Prop} (he : exec c s = s.act f)
    (h : s.live = true) (hp : P (f s.toChip)) : s.gives c P :=
  ⟨_, he.trans (State.act_next s f h), rfl, hp⟩

end Sys2Proof.Machine
end

