-- ==== Sys2Proof/Laws/Memory.lean ====
section
/-! SUPPORT. The laws of memory: a read after a write, other bytes unchanged, and the canonical form, which every operation
that touches memory keeps. -/

namespace Sys2Proof.Machine

/-- Storing bytes leaves every byte outside them as it was. -/
theorem memPut_other (m : List Host.Cell) (a b : Nat) (bs : List Byte) (h : b < a ∨ a + bs.length ≤ b) :
    Tab.get 0 (memPut m a bs) b = Tab.get 0 m b := by
  induction bs generalizing m a with
  | nil => rfl
  | cons x r ih =>
    have hb : b ≠ a := by simp at h; omega
    have h' : b < a + 1 ∨ a + 1 + r.length ≤ b := by simp at h; omega
    exact (ih (Tab.set 0 m a x) (a + 1) h').trans (Tab.get_set_ne 0 m a b x hb)

/-- A stored byte reads back. -/
theorem memPut_same (m : List Host.Cell) (a k : Nat) (bs : List Byte) (h : k < bs.length) :
    Tab.get 0 (memPut m a bs) (a + k) = bs[k] := by
  induction bs generalizing m a k with
  | nil => simp at h
  | cons x r ih =>
    cases k with
    | zero =>
      have : Tab.get 0 (memPut (Tab.set 0 m a x) (a + 1) r) a = Tab.get 0 (Tab.set 0 m a x) a :=
        memPut_other _ _ _ _ (.inl (Nat.lt_succ_self a))
      simpa [memPut] using this
    | succ k =>
      have := ih (Tab.set 0 m a x) (a + 1) k (by simpa using h)
      simpa [memPut, Nat.add_assoc, Nat.add_comm 1 k] using this

/-- Storing bytes keeps the canonical form. -/
theorem memPut_wf (m : List Host.Cell) (a : Nat) (bs : List Byte) (h : Memory.wf m = true) :
    Memory.wf (memPut m a bs) = true := by
  induction bs generalizing m a with
  | nil => exact h
  | cons x r ih => exact ih _ _ (Tab.wf_set 0 m a x h)

theorem Chip.putBytes_byte_same (s : Chip) (a k : Nat) (bs : List Byte) (h : k < bs.length) :
    (s.putBytes a bs).byte (a + k) = bs[k] := memPut_same s.mem a k bs h
theorem Chip.putBytes_byte_other (s : Chip) (a b : Nat) (bs : List Byte) (h : b < a ∨ a + bs.length ≤ b) :
    (s.putBytes a bs).byte b = s.byte b := memPut_other s.mem a b bs h
theorem Chip.putBytes_wf (s : Chip) (a : Nat) (bs : List Byte) (h : Memory.wf s.mem = true) :
    Memory.wf (s.putBytes a bs).mem = true := memPut_wf s.mem a bs h

/-- Emptying memory, and dropping bytes of it, keep the form. -/
theorem memory_empty_wf : Memory.wf ([] : List Host.Cell) = true := rfl
theorem memory_filter_wf (m : List Host.Cell) (p : Nat → Bool) (h : Memory.wf m = true) :
    Memory.wf (m.filter fun e => p e.1) = true := Tab.wf_keep 0 m p h

/-- A new interleave table keeps the form of the memory it rearranges. -/
theorem memory_fold_wf (table : Tab Word) (l : List Host.Cell) (m : List Host.Cell) (hid : Tab Byte)
    (h : Memory.wf m = true) :
    Memory.wf (l.foldl (fun (r : List Host.Cell × Tab Byte) e =>
      match offsetOf table e.1 with
      | some o => (Tab.set 0 r.1 o e.2, r.2)
      | none => (r.1, Tab.set 0 r.2 e.1 e.2)) (m, hid)).1 = true := by
  induction l generalizing m hid with
  | nil => exact h
  | cons e r ih =>
    simp only [List.foldl_cons]
    cases offsetOf table e.1 with
    | none => exact ih m _ h
    | some o => exact ih _ hid (Tab.wf_set 0 m o e.2 h)

theorem reset_memory_wf : Memory.wf State.reset.mem = true := rfl

end Sys2Proof.Machine
end

