-- ==== Sys2Proof/Machine/Vectors.lean ====
section
/-! DEFINITION. The Numerics Vectors (R376–R379): packages of records, when a package is accepted, and what this model's
numerics give for the records of collective reductions, of the generator and of FADD32. Records of array passes and of vector
instructions are those instructions' meanings. How a self-test ends comes with its command (R379, DESIGN CHOICE log 170). -/

namespace Sys2Proof.Machine

/-! ### Packages (R376) -/

/-- A field of the 64-byte header of a package. -/
def packageField (b : List Byte) (off len : Nat) : Nat := leNat (slice b off len)

/-- BODY_LEN, and the header with the records: what the trailer covers. -/
def packageBody (b : List Byte) : Nat := packageField b 16 8
def packageSigned (b : List Byte) : List Byte := b.take (64 + packageBody b)

/-- PKG_FLAGS [0]: the boot subset (R379). -/
def packageBoot (b : List Byte) : Bool := packageField b 12 4 == 1

/-- MAGIC, HDR_LEN, the flags, the reserved bytes and the lengths. -/
def packageShape (b : List Byte) : Bool :=
  packageField b 0 4 == 0x564E5844 && packageField b 6 2 == 64 && packageField b 12 4 ≤ 1 && packageBody b % 64 == 0 &&
  packageField b 24 40 == 0 && b.length == 64 + packageBody b + 144

/-- A package is accepted whose trailer is the digest of header and records with Ryuver's signature over it, by one of the
firmware keys that are not revoked (R376, R459). -/
def Mgmt.packageOk (m : Mgmt) (b : List Byte) : Bool :=
  let trailer := b.drop (64 + packageBody b)
  let signed := packageSigned b
  packageShape b && trailer.take 48 == sha384 signed && (List.range 4).any fun k =>
    !(m.keysRevoked.getLsbD k) && ecdsaVerify (Config.romKey k) signed (leNat (slice trailer 48 48)) (leNat (slice trailer 96 48))

/-! ### Records (R377) -/

/-- A record: its header's fields, its inputs and its expected output. -/
structure VectorRecord where
  op : Nat
  fmtA : Nat
  fmtB : Nat
  fmtD : Nat
  rm : Nat
  cls : Nat
  expect : Nat
  count : Nat
  p0 : Nat
  p1 : Nat
  p2 : Nat
  p3 : Nat
  id : Nat
  input : List Byte
  output : List Byte
  deriving DecidableEq, Repr

/-- The record that bytes begin with. -/
def VectorRecord.of (b : List Byte) : VectorRecord :=
  let f (off len : Nat) : Nat := leNat (slice b off len)
  { op := f 4 2, fmtA := f 6 1, fmtB := f 7 1, fmtD := f 8 1, rm := f 9 1, cls := f 10 1, expect := f 11 1, count := f 12 4
    p0 := f 16 8, p1 := f 24 8, p2 := f 32 8, p3 := f 56 8, id := f 48 8
    input := slice b 64 (f 40 4), output := slice b (64 + f 40 4) (f 44 4) }

/-- REC_LEN holds a header, the inputs and the output, in whole multiples of 64 bytes. -/
def recordSound (b : List Byte) : Bool :=
  let f (off len : Nat) : Nat := leNat (slice b off len)
  f 0 4 % 64 == 0 && 64 + f 40 4 + f 44 4 ≤ f 0 4 && f 0 4 ≤ b.length

/-- At most n records, one after the other by REC_LEN, up to bytes that begin with none. -/
def recordsOf : Nat → List Byte → List VectorRecord
  | 0, _ => []
  | n + 1, b => if recordSound b then .of b :: recordsOf n (b.drop (leNat (slice b 0 4))) else []

/-- RECORDS records of a package. -/
def packageRecords (b : List Byte) : List VectorRecord := recordsOf (packageField b 8 4) ((packageSigned b).drop 64)

/-! ### What records expect (R378) -/

/-- The DTYPE that reduces elements of a format (R219, R285). -/
def dtypeOfFormat (code : Nat) : Option Nat :=
  if code = 0 then some 5 else if code = 1 then some 6 else if code = 2 then some 7
  else if code = 0xD then some 1 else if code = 0xE then some 3 else none

/-- The first of some contributions reduced with the others in member order. -/
def reduceMembers (d op size : Nat) : Nat → List Byte → List Byte
  | 0, _ => []
  | n + 1, b => (List.range n).foldl (fun r k => reduceBytes d op r (slice b (size * (k + 1)) size)) (b.take size)

/-- The output of a record of class 3 (collective reduction), 5 (generator) or 6 (FADD32 atomic). -/
def VectorRecord.result (r : VectorRecord) : Option (List Byte) :=
  match r.op / 256 with
  | 3 => (dtypeOfFormat r.fmtA).map fun d => reduceMembers d (r.op % 256) (r.count * dtypeBytes d) (r.p0 % 2 ^ 32) r.input
  | 5 => some ((List.range r.count).flatMap fun k =>
      leBytes 4 (srBits (BitVec.ofNat 64 r.p0) (BitVec.ofNat 32 (r.p1 / 2 ^ 32)) (BitVec.ofNat 64 (r.p2 + k))
        (BitVec.ofNat 32 r.p1)).toNat)
  | 6 => some (leBytes 4 (fadd (leNat (r.input.take 4)) (leNat ((r.input.drop 4).take 4))))
  | _ => none

/-- This model gives the output a record expects; a reserved OP, or one that an instruction answers for, is passed over. -/
def VectorRecord.holds (r : VectorRecord) : Bool := match r.result with
  | some b => b == r.output
  | none => true

end Sys2Proof.Machine
end

