-- ==== Sys2Proof/Tests/Slice0.lean ====
section
/-! SUPPORT. Tests: for every statement with hypotheses states and operands that meet them, words and numbers of the spec's own
examples, and ill-formed commands that the check refuses. -/

namespace Sys2Proof.Tests

set_option maxRecDepth 20000
set_option Elab.async false
set_option linter.unusedVariables false
set_option linter.unreachableTactic false
set_option linter.unusedTactic false
set_option linter.unnecessarySeqFocus false

open Sys2Proof.Machine

/-! ### Small states -/

/-- A chip that serves jobs: out of reset, with the boot behind it. -/
def chip : Chip :=
  { Chip.reset with
    pins := { Chip.reset.pins with resetLow := false }
    mgmt := { Mgmt.reset with stage := 6, linkUp := true, coldBoot := false, configEnded := true } }

/-- A chip with no command waiting. -/
def on (c : Chip) : State := { c with pending := [] }

def up : State := on chip

/-- A chip whose package shutdown is latched. -/
def off : State := on { chip with power := { Power.reset with shutdown := some 1 } }

/-- A link in service with all features settled, but for what f changes. -/
def linkSet : Settle := ⟨0x0100, 0xFF, true, 3, 5, 24, 0⟩
def linked (l : Nat) (f : Link → Link) : State :=
  on { chip with links := [(l, some (f { Link.reset l with state := .active, settled := some linkSet, modules := (Link.modulesOf l).1, credits := [64, 64, 64, 64] }))] }

def gdp (op : GdpOp) : GdpMsg :=
  { op := op, prio := 1, hint := 0, poison := false, tag := 0, src := 0, dst := 0, status := 0, aop := 0, addr := 0, len := 8
    payload := [] }


/-- A chip one port of which is in the state that f gives it. -/
def porting (p : Nat) (f : Port → Port) : State := on { chip with ports := [(p, f Port.reset)] }
def active (p : Nat) (f : Port → Port) : State := porting p fun x => f { x with state := .active }
def powered (e : Nat) (s : State) : State :=
  { s with engines := [(e, { Engine.reset with powered := true, lasers := List.replicate 18 .locked })] }

/-- A link-control slot whose arguments begin with the three bytes of n. -/
def slot (code : Byte) (n : Nat) : CtrlSlot := ⟨code, 0, 0, 0, false, BitVec.ofNat 448 (n * 2 ^ 424)⟩

/-- A lane's frame with a sound check word, and one without. -/
def laneOf (check : Nat) : LaneFrame := ⟨List.replicate 16 0, BitVec.ofNat 32 check⟩
def sound : LaneFrame := frameOf (List.replicate 16 0) true

/-- A superframe of one frame on all 16 lanes, as the scramblers send it, and a receiver whose boundary is found. -/
def sent (f : LaneFrame) : List (Nat × LaneFrame) := (scrambleAll [] ((mapChannels Port.factoryMap).map fun c => (c, f))).2
def tuned : RxChannel := { RxChannel.reset with run := 64 }
def hearing (p : Nat) : State := active p fun x => { x with receivers := (List.range 18).map fun c => (c, tuned) }

/-- A probe word of a foreign chip with SEEN. -/
def probeOf (n : Nat) : BitVec 128 :=
  let w := 0xD3B0 * 2 ^ 112 + n
  BitVec.ofNat 128 (w + crc16 (beBytes 14 (w / 65536)))

def warm : LaneProc := ⟨.move, .warming, 0, 1, 0, 1, 0, [0], Port.factoryMap, 16, false⟩

/-- A cell to this chip, of a given type, with nothing else in it. -/
def cellOf (type : BitVec 4) : Cell := ⟨type, 0, BitVec.ofNat 16 chip.chipNumber, 7, 0, 0, 3, 0, 0, 0, 0⟩
def contextOf : RxContext := ⟨7, 3, 0xFFFF, [], 0, []⟩
def streamOf : SendStream := ⟨.queue 0, 7, 1, [], [], false, false, false, 0⟩
def sentCell : TxCell := ⟨cellOf 0, .none, 0, 0, none⟩
def heads (f : Tn → Tn) : State := on { chip with tn := f Tn.reset }
def sending (f : SendStream → SendStream) : State := heads fun t => { t with streams := [(3, some (f streamOf))] }

/-- A node of the rack whose port 4 carries traffic. -/
def node (f : Gn → Gn) : State := { active 4 id with objs := [(O.gnNode, 5)], gn := f Gn.reset }
def packet (ptype : BitVec 4) (f : GnPacket → GnPacket) : GnPacket := gnSeal (f { gnBlank with ptype := ptype })
def asked : GnReq := ⟨9, packet 2 fun p => { p with tag := 9, dest := 6 }, 0x1000, 4, none, .none, .none⟩

/-- A queue in the state that f gives it, and a command on it. -/
def queued (f : Queue → Queue) : State := on { chip with queues := [(0, f Queue.reset)] }
def queueing (l : List QEntry) : State := queued fun v => { v with state := .active, entries := l }
def entryOf (op : Nat) (ph : Phase) : QEntry :=
  ⟨0, BitVec.ofNat 512 op, ph, some 0, 0, [], 0, none, .ok, 0, .notSent, none, []⟩

/-- Synchronisation, and a barrier of two participants on counters 1 and 2. -/
def syncing (f : Sync → Sync) : State := on { chip with sync := f Sync.reset }
def gate : Barrier := { Barrier.zero with enable := true, arriveCtr := 1, doneCtr := 2, participants := 2 }
def gated (f : Barrier → Barrier) : State := syncing fun y => { y with barriers := [(0, f gate)] }

/-- A communicator of this chip alone and of a second member, and a sequence on it. -/
def group : CommSlot := { CommSlot.zero with enable := true, nmembers := 2, state := .bound, list := [0, 1] }
def collOn (f : CommSlot → CommSlot) (l : List Collective) : State :=
  on { chip with coll := { Coll.reset with comms := [(0, f group)], active := l } }
def sequenceOf : Collective :=
  ⟨0, 0, 0, 0, ⟨0, 0, 1, 0, 0, 0, 0, 0, 0, false, false, 0⟩, 0, 0, [], false, [], [], 0, [], [], [], false, false⟩
/-- A WAIT of which counter 0 has to reach 1. -/
def waitOne : QEntry := { entryOf 6 .waiting with raw := BitVec.ofNat 512 (6 + 2 ^ 30 + 2 ^ 64), ready := none }

/-- Core k runs an image at offset 0, from its first instruction on. -/
def runningOn (k : Nat) (f : CoreSt → CoreSt) : State :=
  on { chip with cores := [(k, f { CoreSt.reset with state := .running, kernel := some ⟨0, 0, 0, 4096, 0, false⟩, pc := 64 })] }
def running (f : CoreSt → CoreSt) : State := runningOn 0 f
/-- x1 points into the core's own memory. -/
def inOwn (n : Nat) : CoreSt → CoreSt := fun x => { x with x := [(1, BitVec.ofNat 64 (2 ^ 57 + n))] }
def unitOf (op : UnitOp) : UnitInstr := ⟨0, op, none, 0, none, 0⟩
def coreIn (k : Nat) (st : CoreState) (f : CoreSt → CoreSt) : State := on { chip with cores := [(k, f { CoreSt.reset with state := st })] }

/-- A small HBM, and one sixteen channels of which are mapped out. -/
def hbmSmall : State := on { chip with hbm := { Hbm.reset with v := 1, vBoot := 1 } }
def hbmWorn : State :=
  on { chip with hbm := { Hbm.reset with channels := (List.range 16).map fun k => (k, { Channel.reset with state := .mappedOut }) } }
def moving (f : Migration → Migration) : State :=
  on { chip with hbm := { Hbm.reset with v := 1, vBoot := 1, migration := some (f ⟨0, .request, false, 0, true, [], []⟩) } }
def firstPlace : Place := ⟨0, Hbm.entry0 1008, 0, 0, 0, 0⟩
/-- A core that works on FP8 tiles in its own memory, with bank 0 loaded. -/
def tiling : State := running fun x => { inOwn 0 x with
  csrs := [(0x804, 0x33)], array := { ArraySt.reset with shadow := [(0, (true, 3, 1, 1))] } }

/-- An open session of an OWNER, one of a MONITOR, and a chip with one of them open. -/
def owner : Session := ⟨1, .owner, false, none, [], [], []⟩
def monitor : Session := { owner with role := .monitor }
def opened (v : Session) (f : Mgmt → Mgmt) : State := on { chip with mgmt := f { chip.mgmt with sessions := [v] } }
def served (f : Service → Service) : State := on { chip with service := f Service.reset }
def sending1 (v : Session) : Transfer := ⟨some v.id, 2, 100, []⟩
def peakRow : DictRow := ⟨O.powerPeak, 1, .u32, .rwp, 6300, 0, 4294967295⟩
def certOf : ClientCert := ⟨[], none, none⟩

/-- A parameter update on die 0: one layer of SGD with one element, whose gradient lies in line 0. -/
def layerDesc : BitVec 1024 := BitVec.ofNat 1024 (2 ^ 928 + 2 ^ 896)
def updateOf : UpdateJob := ⟨0, 0, 1, 0, 0, 0, 0, true, true, [(0, layerDesc, 0)], false⟩
def updating (f : CellarDie → CellarDie) : State :=
  on { chip with cellar := { Cellar.reset with dies := [(0, f { CellarDie.reset with jobs := [updateOf] })] } }
def cellarUp : State :=
  on { chip with links := [(10, some { Link.reset 10 with state := .active }), (11, some { Link.reset 11 with state := .active })] }

/-- A shadow whose peer has written the record of command 0 of queue 0. -/
def pairOf : Pair := ⟨7, 0, 0, 6, 0⟩
def shadowed : State :=
  { queueing [{ entryOf 4 .started with outstanding := 1 }] with
    sync := { Sync.reset with counters := [(0, { CounterRec.zero with value := 1 })] }
    service := { Service.reset with state := .shadowing, pair := some pairOf, pairActive := true, digests := [(0, 0, 0, 0)] } }
def mirrored : State :=
  served fun v => { v with state := .source, pair := some pairOf, pairActive := true, mirrorRecords := [⟨0, 0, 0, 4, 0, 0, 0⟩] }

/-- Link 0 is down with a read outstanding, and the way round it over the other row carries messages. -/
def detour : State :=
  on { chip with links := (0, some { Link.reset 0 with outstanding := [gdp .read] }) ::
    [6, 3, 7].map fun l => (l, some { Link.reset l with state := .active }) }

/-- The descriptor of site 1 on link 0, its UID and grants zero but for four credits of P0. -/
def peerDesc : List Byte :=
  let d := fit 252 (leBytes 2 0x4744 ++ [1, 0] ++ leBytes 2 0x0100 ++ leBytes 2 1 ++ leBytes 2 1 ++
    [3, BitVec.ofNat 8 (descSite 1), BitVec.ofNat 8 (descOrient 1), BitVec.ofNat 8 (farEnd 0).2, 3, 2] ++ leBytes 2 1536 ++
    [24, 2, 5, 0, 0x2C, 0] ++ leBytes 8 7 ++ leBytes 2 4 ++ leBytes 6 0 ++ leBytes 8 (linkFeatures 0))
  d ++ leBytes 4 (crc32c d)

/-- The key of an image as manufactured. -/
theorem factory_key (k : Nat) : imageKey (Config.factoryImage k) = (Config.factoryKey k).val := by
  let b := Config.factoryBytes k
  have hx : (b.take 80 ++ List.replicate (80 - b.length) 0#8).length = 80 := by simp; omega
  have hd : (Config.factoryImage k).drop 80 = BitVec.ofNat 8 (Config.factoryKey k).val :: b.drop 81 := by
    simp only [Config.factoryImage]
    rw [List.append_assoc]
    exact List.drop_left' hx
  simp only [imageKey, imageField, slice, hd, List.take_succ_cons, List.take_zero, List.length_singleton, Nat.sub_self,
    List.replicate_zero, List.append_nil, leNat, BitVec.toNat_ofNat]
  omega

/-- An image as manufactured passes at boot: its key is one of the four, and none is revoked. -/
theorem slot_sound : State.reset.mgmt.slotOk 1 = true := by
  simp [Mgmt.slotOk, Mgmt.keyLives, factory_key, State.reset, Chip.reset, Mgmt.reset, Mgmt.component, Component.reset, Tab.get]

/-- Link 0 settles with that descriptor, whatever the chip's own UID and grants are. -/
theorem settles :
    let s := linked 0 (fun x => { x with state := .exchange })
    s.live = true ∧ (s.link 0).state = .exchange ∧ descValid (fit 256 peerDesc) = true ∧
      settlement 0 (s.localDesc 0) (fit 256 peerDesc) = .settled (settleOf (chip.localDesc 0) (fit 256 peerDesc)) := by
  intro s
  refine ⟨by decide +kernel, by decide +kernel, by decide +kernel, ?_⟩
  have h : ¬ descField (s.localDesc 0) 32 2 < 4 := by
    have e : descField (s.localDesc 0) 32 2 = (max 4 (Config.gdpCredits 0 0).toNat) % 256 +
        256 * ((max 4 (Config.gdpCredits 0 0).toNat) / 256 % 256 + 256 * 0) := rfl
    have := (Config.gdpCredits 0 0).isLt
    omega
  unfold settlement
  rw [if_neg (by decide +kernel), if_neg]
  · rfl
  · simp only [h]
    decide +kernel

/-- The slots of that superframe: cells of zeros. -/
def hearingSlots : List (Bool × BitVec 512) := List.replicate 16 (true, 0)

/-- A chip of a 4 by 4 domain one port of which reaches chip 1. -/
def cabled (t : Tn) : State :=
  { active 0 (fun x => { x with peerIdent := 0x00010001 }) with
    objs := [(O.chipNumber, 0), (O.chipAssigned, 1), (O.domainX, 4), (O.domainY, 4)], tn := t }

/-- A bulk packet that waits at port 4. -/
def outOf : OutPacket := { port := 4, pkt := { gnBlank with vc := 4 }, aged := false }

def cellarsUp : State :=
  on { chip with links := (List.range 14).map fun l => (l, some { Link.reset l with state := .active, credits := [64, 64, 64, 64] }) }

/-- A COLLECTIVE at the head of queue 0. -/
def collHead : QEntry := entryOf 8 .waiting
def collecting : State := { queueing [collHead] with coll := { Coll.reset with comms := [(0, group)] } }

/-! ### States and operands that meet the hypotheses, clause by clause -/

theorem meets_Step_runs_the_front_command :
    (∃ (c : Instr) (rest : List Instr) (s : State), s.pending = c :: rest) ∧
    (∃ (s : State), s.pending = []) :=
  ⟨⟨.jobReady, [], { up with pending := [.jobReady] }, by decide +kernel⟩,
   ⟨up, by decide +kernel⟩⟩

theorem meets_Every_command_answers_a_next_state :
    ∃ (s t : State), step s = .next t :=
  ⟨up, { up with toChip := up.toChip.nanosecond }, by and_intros <;> first | decide +kernel | rfl⟩

theorem meets_Held_in_reset_is_kept :
    ∃ (s t : State), s.inReset ∧ step s = .next t :=
  ⟨State.reset, { State.reset with toChip := State.reset.toChip.nanosecond }, by and_intros <;> first | decide +kernel | rfl⟩

theorem meets_Latched_shutdown_is_kept :
    ∃ (s t : State), s.heldOff ∧ step s = .next t :=
  ⟨off, { off with toChip := off.toChip.nanosecond }, by and_intros <;> first | decide +kernel | rfl⟩

theorem meets_Dies_without_power_do_nothing :
    ∃ (s : State), s.live = false :=
  ⟨State.reset, by decide +kernel⟩

theorem meets_Reset_and_boot :
    (∃ (s : State) (w : Nat), s.pins.vaon = true ∧ 10000 ≤ w ∧ s.power.shutdown = none) ∧
    (∃ (s : State) (w : Nat), s.pins.vaon = true ∧ 10000 ≤ w ∧ s.power.shutdown.isSome = true) ∧
    (∃ (s : State) (w : Nat), (s.pins.vaon = false ∨ w < 1000)) ∧
    (∃ (s : State) (w : Nat), 1000 ≤ w ∧ w < 10000) ∧
    (∃ (s : State) (e u : Bool), s.pins.vaon = true ∧ s.pins.resetLow = true ∧ (e = true ∨ s.pins.shutdownHigh = false ∨
      s.power.shutdown.isSome = true)) ∧
    (∃ (s : State) (e u : Bool), (s.pins.vaon = false ∨ s.pins.resetLow = false)) ∧
    (∃ (s : State) (u : Bool), s.pins.vaon = true ∧ s.pins.resetLow = true ∧ s.pins.shutdownHigh = true ∧ s.power.shutdown =
      none ∧ s.mgmt.slotOk 1 = true ∧ (u = true ∨ s.mgmt.recoveryRequest = true)) ∧
    (∃ (s : State) (u : Bool), s.pins.vaon = true ∧ s.pins.resetLow = true ∧ s.pins.shutdownHigh = true ∧ s.power.shutdown =
      none ∧ s.mgmt.slotOk 1 = false) ∧
    (∃ (s : State), s.pins.vaon = true ∧ s.pins.resetLow = true ∧ s.pins.shutdownHigh = true ∧ s.power.shutdown = none ∧
      s.mgmt.slotOk 1 = true ∧ s.mgmt.recoveryRequest = false ∧ s.hbm.cache = []) ∧
    (∃ (s : State), s.awake = true ∧ s.mgmt.linkUp = false) ∧
    (∃ (s : State), s.awake = true ∧ s.mgmt.configOpen = true ∧ s.obj O.safetyMode = 0) ∧
    (∃ (s : State), s.awake = true ∧ s.mgmt.configOpen = true ∧ s.mgmt.configSince + 1000000 * s.obj O.configWindow ≤ s.aon ∧
      s.obj O.safetyMode = 1 ∧ s.objb O.enclosedDecl = false) ∧
    (∃ (s : State), s.live = true ∧ s.mayBeReady = true) :=
  ⟨⟨up, 10000, by decide +kernel⟩,
   ⟨off, 10000, by decide +kernel⟩,
   ⟨up, 999, by decide +kernel⟩,
   ⟨up, 5000, by decide +kernel⟩,
   ⟨State.reset, true, false, by decide +kernel⟩,
   ⟨up, false, false, by decide +kernel⟩,
   ⟨State.reset, true, by exact ⟨rfl, rfl, rfl, rfl, slot_sound, .inl rfl⟩⟩,
   ⟨{ State.reset with mgmt := { Mgmt.reset with components := [(1, { Component.reset with image := some [] })] } }, false,
     by decide +kernel⟩,
   ⟨State.reset, by exact ⟨rfl, rfl, rfl, rfl, slot_sound, rfl, rfl⟩⟩,
   ⟨on { chip with mgmt := { chip.mgmt with linkUp := false } }, by decide +kernel⟩,
   ⟨on { chip with mgmt := { chip.mgmt with configOpen := true } }, by decide +kernel⟩,
   ⟨on { chip with now := 60000000000000, objs := [(O.safetyMode, 1)], mgmt := { chip.mgmt with configOpen := true } },
     by decide +kernel⟩,
   ⟨on { chip with mgmt := { chip.mgmt with stage := 3 } }, by decide +kernel⟩⟩

theorem meets_Supply_and_shutdown :
    (∃ (s : State), s.pins.vaon = false) ∧
    (∃ (s : State), s.pins.vaon = true ∧ s.pins.vaonSince + 5000000 ≤ s.now ∧ s.power.shutdown = none) ∧
    (∃ (s : State), s.pins.vaon = true) ∧
    (∃ (s : State), s.pins.alertSince + 10000000 ≤ s.now ∧ s.power.shutdown = none) ∧
    (∃ (s : State), s.live = true) ∧
    (∃ (s : State) (r : Fin 27), s.live = true ∧ ((s.sensor (railVolt r.val)).samples.take 10).length = 10 ∧ (((s.sensor
      (railVolt r.val)).samples.take 10).all fun v => decide (v < (railRange r.val).1) || decide (v > (railRange r.val).2)) =
      true) ∧
    (∃ (s : State), s.live = true ∧ (s.power.samples.take 1000).length = 1000 ∧ ((s.power.samples.take 1000).all fun p =>
      decide (p > (s.obj O.powerPeak : Rat))) = true ∧ ((List.range 8).all fun i => (s.site i).step == 7) = true) ∧
    (∃ (s : State), s.live = true ∧ s.power.aonRc = false) ∧
    (∃ (s : State), s.live = true) ∧
    (∃ (s : State), s.live = true ∧ s.power.master = 0 ∧ s.power.standbyOk = true) ∧
    (∃ (s : State) (i : Fin 8), s.live = true ∧ i ≠ 0 ∧ i ≠ 7) ∧
    (∃ (s : State), s.awake = true ∧ s.power.shutdown.isSome = true ∧ s.coolEnough = true ∧ s.pins.resetLow = true) ∧
    (∃ (s : State), s.coolEnough = false) :=
  ⟨⟨on { chip with pins := { chip.pins with vaon := false } }, by decide +kernel⟩,
   ⟨on { chip with now := 5000000 }, by decide +kernel⟩,
   ⟨up, by decide +kernel⟩,
   ⟨on { chip with now := 10000000 }, by decide +kernel⟩,
   ⟨up, by decide +kernel⟩,
   ⟨on { chip with power := { Power.reset with sensors := [(railVolt 0, { Sensor.reset with samples := List.replicate 10 1 })] } },
     0, by decide +kernel⟩,
   ⟨on { chip with power := { Power.reset with samples := List.replicate 1000 7000, sites := (List.range 8).map fun i => (i, { Site.reset with step := 7 }) } },
     by decide +kernel⟩,
   ⟨up, by decide +kernel⟩,
   ⟨up, by decide +kernel⟩,
   ⟨up, by decide +kernel⟩,
   ⟨up, 3, by decide +kernel⟩,
   ⟨on { chip with power := { Power.reset with shutdown := some 1 }, pins := { chip.pins with resetLow := true } },
     by decide +kernel⟩,
   ⟨on { chip with power := { Power.reset with sensors := [(0, { Sensor.reset with samples := [110] })] } },
     by decide +kernel⟩⟩

theorem meets_Power_limits :
    (∃ (s : State) (i : Fin 8) (d : Fin 4), s.live = true ∧ nth 0 (s.site i.val).phases d.val = 0 ∧ (s.site i.val).demands =
      []) ∧
    (∃ (s : State) (i : Fin 8) (d : Fin 4), s.live = true ∧ 0 < nth 0 (s.site i.val).phases d.val ∧ nth 0 (s.site
      i.val).phases d.val < phasesOf d.val ∧ 2 * (phasesOf d.val - (nth 0 (s.site i.val).phases d.val + 1)) < phasesNeeded
      d.val) ∧
    (∃ (s : State) (i : Fin 8), s.live = true ∧ (s.site i.val).rising = true ∧ (s.site i.val).episode = false) ∧
    (∃ (s : State) (i : Fin 8), s.live = true ∧ (s.site i.val).rising = false) ∧
    (∃ (s : State) (i : Fin 8) (f : Nat), s.live = true ∧ f ≤ 6 ∧ s.topStep i.val ≤ f ∧ (s.site i.val).step = f ∧ (s.site
      i.val).demands = [⟨causeThreshold, f, true⟩]) ∧
    (∃ (s : State) (i : Fin 8), s.live = true ∧ (s.site i.val).demands = [] ∧ (s.site i.val).rising = false ∧ s.topStep i.val
      < (s.site i.val).step) ∧
    (∃ (s : State) (i : Fin 8) (v : Byte), s.live = true ∧ (v.toNat < s.part.topStep ∨ 7 < v.toNat)) ∧
    (∃ (s : State) (i : Fin 8) (v : Byte), s.live = true ∧ s.part.topStep ≤ v.toNat ∧ v.toNat ≤ 7 ∧ (s.site i.val).demands =
      [] ∧ (s.site i.val).step < v.toNat) ∧
    (∃ (s : State), s.live = true ∧ s.inputPower ≤ (s.obj O.powerPeak : Rat) ∧ s.power.peakActing = false ∧
      s.power.excursionActing = false ∧ s.power.averageActing = false ∧
      (({ s.toChip with power := { s.power with samples := (s.inputPower :: s.power.samples).take 100000 } } : Chip).excursion
      = false) ∧ s.inputPower ≤ (s.obj O.powerLimit : Rat)) ∧
    (∃ (s : State) (i : Nat), s.live = true ∧ s.power.excursionActing = true ∧ s.hungriest = some i ∧ (s.site i).episode =
      true ∧ (s.site i).demands = [] ∧ s.topStep i ≤ (s.site i).step ∧ (s.site i).step ≤ 6) :=
  ⟨⟨up, 0, 0, by decide +kernel⟩,
   ⟨on { chip with power := { Power.reset with sites := [(0, { Site.reset with phases := [0, 0, 0, 7] })] } }, 0, 3,
     by decide +kernel⟩,
   ⟨on { chip with power := { Power.reset with sites := [(0, { Site.reset with rising := true })] } }, 0, by decide +kernel⟩,
   ⟨up, 0, by decide +kernel⟩,
   ⟨on { chip with power := { Power.reset with sites := [(0, { Site.reset with demands := [⟨causeThreshold, 3, true⟩], step := 3 })] } },
     0, 3, by decide +kernel⟩,
   ⟨on { chip with power := { Power.reset with sites := [(0, { Site.reset with step := 3 })] } }, 0, by decide +kernel⟩,
   ⟨up, 0, 8, by decide +kernel⟩,
   ⟨up, 0, 7, by decide +kernel⟩,
   ⟨up, by decide +kernel⟩,
   ⟨on { chip with power := { Power.reset with excursionActing := true, sites := [(0, { Site.reset with episode := true })] } },
     0, by decide +kernel⟩⟩

theorem meets_Temperatures :
    (∃ (s : State) (f : SensorFrame), s.awake = true ∧ (s.frameSensors f).Nodup) ∧
    (∃ (s : State) (g : Fin 61) (x : Word32) (v : Rat), s.awake = true ∧ f32ToRat x.toNat = some v ∧ v < s.groupRat
      O.thermThrottle g.val ∧ s.groupRat O.thermThrottle g.val < s.groupRat O.thermShutdown g.val) ∧
    (∃ (s : State) (g : Fin 61) (x : Word32) (v : Rat), s.awake = true ∧ f32ToRat x.toNat = some v ∧ s.groupRat O.thermWarn
      g.val < v ∧ v < s.groupRat O.thermShutdown g.val) ∧
    (∃ (s : State) (g : Fin 61) (x : Word32) (v w : Rat), s.awake = true ∧ f32ToRat x.toNat = some v ∧ f32ToRat (objDefault
      s.part (O.thermShutdown + 256 * g.val)) = some w ∧ v ≤ w ∧ s.groupRat O.thermWarn g.val < s.groupRat O.thermThrottle
      g.val ∧ s.groupRat O.thermThrottle g.val < v) ∧
    (∃ (s : State) (g : Fin 61) (k : ThermLevel) (x : Word32) (v : Rat), s.awake = true ∧ f32ToRat x.toNat = some v ∧ (k
      = .warning ∧ ¬ v < s.groupRat O.thermThrottle g.val ∨ k = .throttle ∧ (¬ s.groupRat O.thermWarn g.val < v ∨ ¬ v <
      s.groupRat O.thermShutdown g.val) ∨ k = .shutdown ∧ ¬ s.groupRat O.thermThrottle g.val < v ∨ k = .shutdown ∧ (∃ w,
      f32ToRat (objDefault s.part (O.thermShutdown + 256 * g.val)) = some w ∧ w < v))) ∧
    (∃ (s : State) (g : Fin 61) (k : ThermLevel) (x : Word32), s.awake = true ∧ f32ToRat x.toNat = none) :=
  ⟨⟨up, ⟨[], []⟩, by decide +kernel⟩,
   ⟨up, 0, 0x42A00000, 80, by decide +kernel⟩,
   ⟨up, 0, 0x42C80000, 100, by decide +kernel⟩,
   ⟨up, 0, 0x42DC0000, 110, 120, by decide +kernel⟩,
   ⟨up, 0, .warning, 0x42F00000, 120, by decide +kernel⟩,
   ⟨up, 0, .throttle, 0x7FC00000, by decide +kernel⟩⟩

theorem meets_Ditchrider_and_fallow :
    (∃ (s : State), s.awake = true ∧ (s.site s.power.master).unitPresent = true) ∧
    (∃ (s : State), s.awake = true ∧ s.power.master = 0 ∧ s.power.standbyOk = true) ∧
    (∃ (s : State) (i : Fin 8) (t : Rat), s.awake = true ∧ s.hottest (baseSensors i.val) = some t) ∧
    (∃ (s : State) (i : Fin 8), s.live = true ∧ s.objb O.fallowEnable = true ∧ (s.site i.val).cpFallow = false ∧ s.cpIdle
      i.val = true) ∧
    (∃ (s : State) (k : Fin 256), s.live = true ∧ s.objb O.fallowEnable = true ∧ (s.core k.val).fallow = false ∧ (s.core
      k.val).onlyWaits = true) ∧
    (∃ (s : State) (i : Fin 8), s.live = true) ∧
    (∃ (s : State) (t : Fin 34), s.live = true ∧ t.val < 32 ∧ s.siteFallow (t.val / 4) = true) :=
  ⟨⟨up, by decide +kernel⟩,
   ⟨up, by decide +kernel⟩,
   ⟨on { chip with power := { Power.reset with sensors := [(512, { Sensor.reset with samples := [50] })] } }, 0, 50,
     by decide +kernel⟩,
   ⟨up, 0, by decide +kernel⟩,
   ⟨up, 0, by decide +kernel⟩,
   ⟨up, 0, by decide +kernel⟩,
   ⟨on { chip with power := { Power.reset with sites := [(0, { Site.reset with cpFallow := true })] }, cores := (List.range 32).map fun k => (k, { CoreSt.reset with fallow := true, unitFallow := 14 }) },
     0, by decide +kernel⟩⟩

theorem meets_Links :
    (∃ (s : State) (l : Fin 34) (m : Nat) (r : Byte), s.live = true ∧ ((s.link l.val).state = .down ∨ (s.link l.val).state
      = .training) ∧ (s.link l.val).agreed = false ∧ 1 ≤ m ∧ m ≤ (Link.modulesOf l.val).1 ∧ r.toNat ≤ 5) ∧
    (∃ (s : State) (l : Fin 34) (d : List Byte) (v : Settle), s.live = true ∧ (s.link l.val).state = .exchange ∧ descValid
      (fit 256 d) = true ∧ settlement l.val (s.localDesc l.val) (fit 256 d) = .settled v) ∧
    (∃ (s : State) (l : Fin 34) (v : Settle), s.live = true ∧ (s.link l.val).state = .exchange ∧ (s.link l.val).settled = some
      v) ∧
    (∃ (s : State) (l : Fin 34) (v : Settle), s.live = true ∧ (s.link l.val).state = .training ∧ (s.link l.val).settled = some
      v ∧ (s.link l.val).agreed = true ∧ 1 ≤ v.modules.toNat ∧ v.modules.toNat ≤ (Link.modulesOf l.val).1 ∧ v.rate.toNat ≤ 5) ∧
    (∃ (s : State) (l : Fin 34) (v : Settle), s.live = true ∧ (s.link l.val).state = .exchange ∧ (s.link l.val).settled = some
      v ∧ (s.link l.val).agreed = true ∧ (s.link l.val).trainedModules = v.modules.toNat ∧ (s.link l.val).trainedRate = v.rate
      ∧ (s.link l.val).waiting = []) ∧
    (∃ (s : State) (l : Fin 34), s.live = true ∧ (s.link l.val).state = .active) ∧
    (∃ (s : State) (l : Fin 34), s.live = true ∧ l.val < 10 ∧ (s.link l.val).state = .training ∧ (s.link l.val).attempts = 2) ∧
    (∃ (s : State) (l : Fin 34), s.live = true ∧ (s.link l.val).state = .exchange ∧ s.aon < s.mgmt.bootOrigin + 100000000) ∧
    (∃ (s : State) (l : Fin 34) (d : List Byte), s.live = true ∧ (s.link l.val).state = .exchange ∧ descValid (fit 256 d) =
      true ∧ descMisplaced l.val (fit 256 d) = true) ∧
    (∃ (s : State) (l : Fin 34) (m : Fin 26), s.live = true ∧ (s.link l.val).state = .active ∧ m.val < (Link.modulesOf
      l.val).1 + (Link.modulesOf l.val).2 ∧ (s.link l.val).swap = none ∧ (s.link l.val).feature 7 = true ∧ 0 < (s.link
      l.val).sparesLeft) ∧
    (∃ (s : State) (l : Fin 34) (m : Fin 26), s.live = true ∧ (s.link l.val).state = .active ∧ (s.link l.val).swap = none ∧
      (s.link l.val).feature 7 = true ∧ 0 < (s.link l.val).sparesLeft) ∧
    (∃ (s : State) (l : Fin 34) (n : Nat) (w : Swap), s.live = true ∧ (s.link l.val).swap = some w ∧ w.trained = false ∧ w.own
      = true) ∧
    (∃ (s : State) (l : Fin 34) (n : Nat) (w : Swap), s.live = true ∧ (s.link l.val).swap = some w ∧ w.trained = false ∧ w.own
      = false) ∧
    (∃ (s : State) (l : Fin 34) (n : Nat) (w : Swap), s.live = true ∧ (s.link l.val).swap = some w ∧ w.trained = true ∧ (w.own
      = true → w.switchAt = some n) ∧ (s.link l.val).queued = []) ∧
    (∃ (s : State) (l : Fin 34) (m : Fin 26) (k : Fin 64) (n : Nat), s.live = true ∧ (s.link l.val).state = .active ∧ s.obj
      O.laneRetryLimit < n ∧ (s.link l.val).lanesDue = []) :=
  ⟨⟨up, 0, 24, 5, by decide +kernel⟩,
   ⟨linked 0 (fun x => { x with state := .exchange }), 0, peerDesc, settleOf (chip.localDesc 0) (fit 256 peerDesc), settles⟩,
   ⟨linked 0 (fun x => { x with state := .exchange }), 0, linkSet, by decide +kernel⟩,
   ⟨linked 0 (fun x => { x with state := .training, agreed := true }), 0, linkSet, by decide +kernel⟩,
   ⟨linked 0 (fun x => { x with state := .exchange, agreed := true, trainedModules := 24, trainedRate := linkSet.rate }), 0,
     linkSet, by decide +kernel⟩,
   ⟨linked 0 id, 0, by decide +kernel⟩,
   ⟨linked 0 (fun x => { x with state := .training, attempts := 2 }), 0, by decide +kernel⟩,
   ⟨linked 0 (fun x => { x with state := .exchange }), 0, by decide +kernel⟩,
   ⟨linked 0 (fun x => { x with state := .exchange }), 0,
     fit 252 (leBytes 2 0x4744 ++ [1, 9]) ++ leBytes 4 (crc32c (fit 252 (leBytes 2 0x4744 ++ [1, 9]))), by decide +kernel⟩,
   ⟨linked 0 id, 0, 3, by decide +kernel⟩,
   ⟨linked 0 id, 0, 3, by decide +kernel⟩,
   ⟨linked 0 (fun x => { x with swap := some ⟨3, true, false, none⟩ }), 0, 7, ⟨3, true, false, none⟩, by decide +kernel⟩,
   ⟨linked 0 (fun x => { x with swap := some ⟨3, false, false, none⟩ }), 0, 7, ⟨3, false, false, none⟩, by decide +kernel⟩,
   ⟨linked 0 (fun x => { x with swap := some ⟨3, true, true, some 7⟩ }), 0, 7, ⟨3, true, true, some 7⟩, by decide +kernel⟩,
   ⟨linked 0 id, 0, 3, 5, 100, by decide +kernel⟩⟩

theorem meets_Gdp_messages :
    (∃ (s : Chip) (l : Nat) (m : GdpMsg), gdpSlots m ≤ nth 0 (s.link l).credits m.prio.toNat) ∧
    (∃ (s : Chip) (l : Nat) (m : GdpMsg), nth 0 (s.link l).credits m.prio.toNat < gdpSlots m) ∧
    (∃ (s : State) (l : Fin 34) (m : GdpMsg), s.live = true ∧ (s.link l.val).state = .active ∧ m.op = .atomic ∧ (s.link
      l.val).settled = none) ∧
    (∃ (s : State) (l : Fin 34) (m : GdpMsg), s.live = true ∧ (s.link l.val).state = .active ∧ m.op = .cell ∧ (s.link
      l.val).feature 5 = false) ∧
    (∃ (s : State) (l : Fin 34) (m : GdpMsg), s.gdpTakes l.val m ∧ m.op = .read ∧ m.len.toNat ≤ 256 ∧ s.rangeData m.addr.toNat
      m.len.toNat = true ∧ s.cutOff (linkEnd l.val).1 m.addr.toNat = false) ∧
    (∃ (s : State) (l : Fin 34) (m : GdpMsg), s.gdpTakes l.val m ∧ m.op = .read ∧ m.len.toNat ≤ 256 ∧ s.rangeData m.addr.toNat
      m.len.toNat = true ∧ s.cutOff (linkEnd l.val).1 m.addr.toNat = true) ∧
    (∃ (s : State) (l : Fin 34) (m : GdpMsg) (bs : List Byte), s.gdpTakes l.val m ∧ m.op = .read ∧ m.len.toNat ≤ 256 ∧
      s.rangeData m.addr.toNat m.len.toNat = false ∧ ((s.region m.addr.toNat).isCsr && wordSized m.addr.toNat m.len.toNat ||
      inCounterRange m.addr.toNat) = true ∧ s.regBytes m.addr.toNat m.len.toNat = some bs) ∧
    (∃ (s : State) (l : Fin 34) (m : GdpMsg), s.gdpTakes l.val m ∧ m.op = .read ∧ (256 < m.len.toNat ∨ s.rangeData
      m.addr.toNat m.len.toNat = false ∧ ((s.region m.addr.toNat).isCsr && wordSized m.addr.toNat m.len.toNat ||
      inCounterRange m.addr.toNat) = false)) ∧
    (∃ (s : State) (l : Fin 34) (m : GdpMsg), s.gdpTakes l.val m ∧ m.op = .write ∧ m.len.toNat ≤ 256 ∧ s.rangeData
      m.addr.toNat m.len.toNat = true ∧ s.cutOff (linkEnd l.val).1 m.addr.toNat = false) ∧
    (∃ (s : State) (l : Fin 34) (m : GdpMsg), s.gdpTakes l.val m ∧ m.op = .write ∧ m.len.toNat ≤ 256 ∧ s.rangeData
      m.addr.toNat m.len.toNat = false ∧ ((s.region m.addr.toNat).isCsr && wordSized m.addr.toNat m.len.toNat) = true) ∧
    (∃ (s : State) (l : Fin 34) (m : GdpMsg), s.gdpTakes l.val m ∧ m.op = .write ∧ m.len.toNat ≤ 256 ∧ s.rangeData
      m.addr.toNat m.len.toNat = true ∧ s.cutOff (linkEnd l.val).1 m.addr.toNat = true) ∧
    (∃ (s : State) (l : Fin 34) (m : GdpMsg), s.gdpTakes l.val m ∧ m.op = .write ∧ m.len = 8 ∧ s.rangeData m.addr.toNat 8 =
      false ∧ (s.region m.addr.toNat).isCsr = false ∧ inBarriers m.addr.toNat = true ∧ m.addr.toNat % 8 = 0) ∧
    (∃ (s : State) (l : Fin 34) (m : GdpMsg), s.gdpTakes l.val m ∧ m.op = .write ∧ m.len.toNat ≤ 256 ∧ s.rangeData
      m.addr.toNat m.len.toNat = false ∧ (s.region m.addr.toNat).isCsr = false ∧ inCounterRange m.addr.toNat = false ∧
      inBarriers m.addr.toNat = false) ∧
    (∃ (s : State) (l : Fin 34) (m : GdpMsg) (n : Nat), s.gdpTakes l.val m ∧ m.op = .atomic ∧ n = (if m.aop = 8 then 4 else 8)
      ∧ (m.aop = 8 → s.objb O.detMode = false) ∧ m.addr.toNat % n = 0 ∧ s.rangeData m.addr.toNat n = true ∧ s.cutOff (linkEnd
      l.val).1 m.addr.toNat = false) ∧
    (∃ (s : State) (l : Fin 34) (m : GdpMsg), s.gdpTakes l.val m ∧ m.op = .atomic ∧ m.aop = 8 ∧ s.objb O.detMode = true) ∧
    (∃ (s : State) (l : Fin 34) (m : GdpMsg), s.gdpTakes l.val m ∧ m.op = .counterSignal ∧ m.poison = false ∧ namesCounter
      m.addr.toNat = true ∧ s.arriveOf (counterOfOffset m.addr.toNat) = none ∧ s.doneOf (counterOfOffset m.addr.toNat) = none) ∧
    (∃ (s : State) (l : Fin 34) (m : GdpMsg), s.gdpTakes l.val m ∧ m.op = .cell ∧ m.poison = false) ∧
    (∃ (s : State) (l : Fin 34) (m : GdpMsg), s.gdpTakes l.val m ∧ m.op = .mgmt) ∧
    (∃ (s : State) (l : Fin 34) (m : GdpMsg) (rs good : List (Nat × Rat)), s.gdpTakes l.val m ∧ m.op = .telemetry ∧ 10 ≤ l.val
      ∧ good = rs.filter (fun r => if l.val < 14 then cellarSensor ((l.val - 10) / 2) r.1 else engineSensor (l.val - 14) r.1)) ∧
    (∃ (s : State) (l : Fin 34) (m r : GdpMsg), s.live = true ∧ (s.link l.val).state = .active ∧ (s.link l.val).outstanding =
      [r] ∧ r.tag = m.tag ∧ gdpResponseOp r.op = some m.op ∧ r.op ≠ .write ∧ (m.status = 0 ∨ m.status = 1)) ∧
    (∃ (s : State) (l : Fin 34) (m r : GdpMsg), s.live = true ∧ (s.link l.val).state = .active ∧ (s.link l.val).outstanding =
      [r] ∧ r.tag = m.tag ∧ gdpResponseOp r.op = some m.op ∧ r.op ≠ .write ∧ m.status ≠ 0 ∧ m.status ≠ 1) ∧
    (∃ (s : State) (l : Fin 34) (m r : GdpMsg), s.live = true ∧ (s.link l.val).state = .active ∧ (s.link l.val).outstanding =
      [r] ∧ r.tag = m.tag ∧ r.op = .write ∧ m.op = .writeAck) ∧
    (∃ (s : State) (l : Fin 34) (m : GdpMsg), s.live = true ∧ (s.link l.val).outstanding = []) ∧
    (∃ (s : State) (l : Fin 34) (r : GdpMsg), s.live = true ∧ (s.link l.val).state = .active ∧ (s.link l.val).outstanding =
      [r] ∧ r.op = .read) ∧
    (∃ (s : State) (l : Fin 34) (r : GdpMsg), s.live = true ∧ (s.link l.val).state = .active ∧ (s.link l.val).outstanding =
      [r] ∧ r.op ≠ .read ∧ r.op ≠ .write) ∧
    (∃ (s : State) (l : Fin 34) (r : GdpMsg), s.live = true ∧ (s.link l.val).state = .active ∧ (s.link l.val).outstanding =
      [r] ∧ r.op = .write) ∧
    (∃ (s : State) (l : Fin 34) (r : GdpMsg) (k : Nat) (w : List Nat), s.live = true ∧ l.val < 10 ∧ (s.link l.val).state
      = .down ∧ (s.link l.val).outstanding = [r] ∧ r.op = .read ∧ s.path (linkEnd l.val).1 (farEnd l.val).1 = some (k :: w) ∧
      (s.link k).outstanding = []) :=
  ⟨⟨(linked 0 id).toChip, 0, gdp .read, by decide +kernel⟩,
   ⟨(linked 0 fun x => { x with credits := [] }).toChip, 0, gdp .read, by decide +kernel⟩,
   ⟨linked 0 (fun x => { x with settled := none }), 0, gdp .atomic, by decide +kernel⟩,
   ⟨linked 0 (fun x => { x with settled := none }), 0, gdp .cell, by decide +kernel⟩,
   ⟨linked 0 id, 0, gdp .read, by and_intros <;> decide +kernel⟩,
   ⟨linked 0 id, 0, { gdp .read with addr := 0x40000000000 }, by and_intros <;> decide +kernel⟩,
   ⟨linked 0 id, 0, { gdp .read with addr := 0xF0000000000 }, List.replicate 8 0, by and_intros <;> decide +kernel⟩,
   ⟨linked 0 id, 0, { gdp .read with len := 300 }, by and_intros <;> decide +kernel⟩,
   ⟨linked 0 id, 0, { gdp .write with payload := List.replicate 8 5 }, by and_intros <;> decide +kernel⟩,
   ⟨linked 0 id, 0, { gdp .write with addr := 0xC0000020080, payload := List.replicate 8 5 },
     by and_intros <;> decide +kernel⟩,
   ⟨linked 0 id, 0, { gdp .write with addr := 0x40000000000, payload := List.replicate 8 5 },
     by and_intros <;> decide +kernel⟩,
   ⟨linked 0 id, 0, { gdp .write with addr := 0xF0000200000, payload := List.replicate 8 0 },
     by and_intros <;> decide +kernel⟩,
   ⟨linked 0 id, 0, { gdp .write with addr := 0x70000000000, payload := List.replicate 8 0 },
     by and_intros <;> decide +kernel⟩,
   ⟨linked 0 id, 0, gdp .atomic, 8, by and_intros <;> decide +kernel⟩,
   ⟨{ linked 0 id with objs := [(O.detMode, 1)] }, 0, { gdp .atomic with aop := 8 }, by and_intros <;> decide +kernel⟩,
   ⟨linked 0 id, 0, { gdp .counterSignal with addr := 0xF0000000000 }, by and_intros <;> decide +kernel⟩,
   ⟨linked 0 id, 0, gdp .cell, by and_intros <;> decide +kernel⟩,
   ⟨linked 0 id, 0, { gdp .mgmt with prio := 0 }, by and_intros <;> decide +kernel⟩,
   ⟨linked 14 id, 14, { gdp .telemetry with prio := 0 }, [(1648, 50)], [(1648, 50)], by and_intros <;> decide +kernel⟩,
   ⟨linked 0 (fun x => { x with outstanding := [gdp .read] }), 0, gdp .readResp, gdp .read, by decide +kernel⟩,
   ⟨linked 0 (fun x => { x with outstanding := [gdp .read] }), 0, { gdp .readResp with status := 4 }, gdp .read,
     by decide +kernel⟩,
   ⟨linked 0 (fun x => { x with outstanding := [gdp .write] }), 0, gdp .writeAck, gdp .write, by decide +kernel⟩,
   ⟨linked 0 id, 0, gdp .readResp, by decide +kernel⟩,
   ⟨linked 0 (fun x => { x with outstanding := [gdp .read] }), 0, gdp .read, by decide +kernel⟩,
   ⟨linked 0 (fun x => { x with outstanding := [gdp .atomic] }), 0, gdp .atomic, by decide +kernel⟩,
   ⟨linked 0 (fun x => { x with outstanding := [gdp .write] }), 0, gdp .write, by decide +kernel⟩,
   ⟨detour, 0, gdp .read, 6, [3, 7], by decide +kernel⟩⟩

theorem meets_Engines_and_port_bring_up :
    (∃ (s : State) (e : Fin 20), s.live = true ∧ (s.engine e.val).powered = false ∧ s.power.enginesDown.getLsbD e.val = false
      ∧ (∀ k, k < 8 → s.obju O.portAdmin (8 * e.val + k) = 0)) ∧
    (∃ (s : State) (e : Fin 20) (v : EngineSample), s.live = true ∧ (s.engine e.val).powered = true) ∧
    (∃ (s : Chip) (e k : Nat), s.laser e k = .locked ∧ (∀ p, p ∈ enginePorts e → (s.port p).txMap.contains k = false)) ∧
    (∃ (s : State) (p : Fin 160), s.live = true ∧ (s.port p.val).state = .probing ∧ (s.port p.val).bursts = []) ∧
    (∃ (s : State) (p : Fin 160) (w : BitVec 128), s.live = true ∧ (s.port p.val).state = .probing ∧ bitsOf w.toNat 127 112 =
      0xD3B0 ∧ bitsOf w.toNat 15 0 = crc16 (beBytes 14 (bitsOf w.toNat 127 16)) ∧ s.obju O.expectedPeer p.val = 0xFFFFFFFF ∧
      bitsOf w.toNat 86 86 = s.obj O.safetyMode ∧ bitOf w.toNat 87 = true ∧ s.engineRestarts p.val = false) ∧
    (∃ (s : State) (p : Fin 160), s.live = true ∧ (s.port p.val).state = .tuning ∧ (s.port p.val).retraining = false) ∧
    (∃ (s : State) (p : Fin 160) (n : Nat), s.live = true ∧ (s.port p.val).state = .aligning ∧ n ≤ 1 ∧ s.obju O.portAdmin
      p.val = 1 ∧ s.objb O.circuitAtBoot = false ∧ (s.port p.val).drains = false ∧ (s.port p.val).proc = none ∧ s.soundLanes
      p.val) ∧
    (∃ (s : State) (p : Fin 160) (n : Nat), s.live = true ∧ (s.port p.val).state = .aligning ∧ 2 ≤ n ∧ (s.port p.val).attempts
      ≤ 1) ∧
    (∃ (s : State) (p : Fin 160) (n : Nat), s.live = true ∧ (s.port p.val).state = .aligning ∧ 2 ≤ n ∧ (s.port p.val).attempts
      = 2) ∧
    (∃ (s : State) (p : Fin 160) (w : BitVec 128), s.live = true ∧ (s.port p.val).state = .probing ∧ bitsOf w.toNat 127 112 =
      0xD3B0 ∧ bitsOf w.toNat 15 0 = crc16 (beBytes 14 (bitsOf w.toNat 127 16)) ∧ s.obju O.expectedPeer p.val ≠ 0xFFFFFFFF ∧
      bitOf w.toNat 85 = false) :=
  ⟨⟨on { chip with objs := (List.range 8).map fun k => (O.portAdmin + 256 * k, 0) }, 0, by decide +kernel⟩,
   ⟨powered 0 up, 0, EngineSample.zero, by decide +kernel⟩,
   ⟨(powered 0 up).toChip, 0, 0, by decide +kernel⟩,
   ⟨porting 0 fun x => { x with state := .probing }, 0, by decide +kernel⟩,
   ⟨porting 0 fun x => { x with state := .probing }, 0, probeOf (2 ^ 87), by decide +kernel⟩,
   ⟨porting 0 fun x => { x with state := .tuning }, 0, by decide +kernel⟩,
   ⟨{ (porting 0 fun x => { x with state := .aligning }) with objs := [(O.circuitAtBoot, 0)] }, 0, 1,
     by and_intros <;> first | decide +kernel | (intro c; revert c; decide +kernel)⟩,
   ⟨porting 0 fun x => { x with state := .aligning }, 0, 2, by decide +kernel⟩,
   ⟨porting 0 fun x => { x with state := .aligning, attempts := 2 }, 0, 2, by decide +kernel⟩,
   ⟨{ (porting 0 fun x => { x with state := .probing }) with objs := [(O.expectedPeer, 5)] }, 0, probeOf 0, by decide +kernel⟩⟩

theorem meets_Superframes_and_link_control :
    (∃ (s : State) (p : Fin 160) (l : List (Nat × LaneFrame)) (b : List (Bool × BitVec 512)), s.readsFrames p.val ∧
      slotsOfFrames (lanesOf (s.port p.val).rxMap (receiveAll (s.port p.val).receivers l).2) = some b ∧ unnumbered false
      (lanesOf (s.port p.val).rxMap (receiveAll (s.port p.val).receivers l).2) b = false ∧ seqCovers (s.port p.val).rxLast
      (s.port p.val).rxNext = false) ∧
    (∃ (s : State) (p : Fin 160) (l : List (Nat × LaneFrame)), s.readsFrames p.val ∧ slotsOfFrames (lanesOf (s.port
      p.val).rxMap (receiveAll (s.port p.val).receivers l).2) = none) ∧
    (∃ (s : State) (p : Fin 160) (l : List (Nat × LaneFrame)), s.live = true ∧ (s.port p.val).looping = true) ∧
    (∃ (s : Chip) (p : Nat) (v : CtrlSlot), (s.port p).rxChange = none ∧ s.isGnPort p = false ∧ (s.port p).txPending = []) ∧
    (∃ (s : State) (p : Fin 160) (v : CtrlSlot), s.live = true ∧ (s.port p.val).state.linked = true ∧ v.ctrl = 0x00) ∧
    (∃ (s : State) (p : Fin 160) (v : CtrlSlot), s.live = true ∧ (s.port p.val).state.linked = true ∧ v.ctrl = 0x01 ∧
      seqCovers ((s.toChip.takeSlot p.val v).port p.val).txSeq (BitVec.ofNat 16 (argField v 447 432)) = true) ∧
    (∃ (s : State) (p : Fin 160) (v : CtrlSlot), s.live = true ∧ (s.port p.val).state.linked = true ∧ v.ctrl = 0x02) ∧
    (∃ (s : State) (p : Fin 160), s.live = true ∧ (s.port p.val).state.linked = true) ∧
    (∃ (s : State) (p : Fin 160) (v : CtrlSlot), s.live = true ∧ (s.port p.val).state.linked = true ∧ v.ctrl = 0x03 ∧
      s.isGnPort p.val = false ∧ (s.port p.val).txPending = []) ∧
    (∃ (s : State) (p : Fin 160), s.live = true ∧ (s.port p.val).state = .active ∧ (16 ≤ (s.port p.val).failedReplays ∨ 10000
      < (s.port p.val).failTimes.length) ∧ s.engineRestarts p.val = false) :=
  ⟨⟨hearing 4, 4, sent sound, hearingSlots, by and_intros <;> decide +kernel⟩,
   ⟨hearing 4, 4, sent (laneOf 1), by and_intros <;> decide +kernel⟩,
   ⟨active 0 fun x => { x with looping := true }, 0, [], by decide +kernel⟩,
   ⟨(active 0 id).toChip, 0, slot 0 0, by decide +kernel⟩,
   ⟨active 0 id, 0, slot 0 0, by decide +kernel⟩,
   ⟨active 0 id, 0, slot 1 0, by decide +kernel⟩,
   ⟨active 0 id, 0, slot 2 0, by decide +kernel⟩,
   ⟨active 0 id, 0, by decide +kernel⟩,
   ⟨active 0 id, 0, slot 3 0, by decide +kernel⟩,
   ⟨active 0 fun x => { x with failedReplays := 16 }, 0, by decide +kernel⟩⟩

theorem meets_Lanes :
    (∃ (s : State) (p : Fin 160) (v : CtrlSlot), s.live = true ∧ (s.port p.val).state.linked = true ∧ v.ctrl = 0x14) ∧
    (∃ (s : State) (p : Fin 160) (v : CtrlSlot), s.live = true ∧ (s.port p.val).state.linked = true ∧ v.ctrl = 0x15) ∧
    (∃ (s : Chip) (p lane : Nat), (s.port p).state = .active ∧ nth 255 (s.port p).txMap lane ≠ 255 ∧ (s.port p).proc = none ∧
      s.engineRestarts p = false ∧ s.nextSpare p = none) ∧
    (∃ (s : Chip) (p lane c : Nat) (k : LaneNeed), (s.port p).state = .active ∧ nth 255 (s.port p).txMap lane ≠ 255 ∧ (s.port
      p).proc = none ∧ s.engineRestarts p = false ∧ s.nextSpare p = some c) ∧
    (∃ (s : State) (p : Fin 160) (w : LaneProc), s.live = true ∧ (s.port p.val).proc = some w ∧ w.step = .warming ∧ s.laser
      (p.val / 8) w.channel = .warming) ∧
    (∃ (s : State) (p : Fin 160) (v : CtrlSlot), s.live = true ∧ (s.port p.val).state.linked = true ∧ v.ctrl = 0x10 ∧ argField
      v 447 440 < 16 ∧ ((s.toChip.takeSlot p.val v).port p.val).state.carries = true ∧ ((s.toChip.takeSlot p.val v).port
      p.val).rxDead = []) ∧
    (∃ (s : State) (p : Fin 160) (v : CtrlSlot) (w : LaneProc), s.live = true ∧ (s.port p.val).state.linked = true ∧ v.ctrl =
      0x11 ∧ ((s.toChip.takeSlot p.val v).port p.val).proc = some w ∧ w.step = .offered ∧ argField v 447 440 = w.lane ∧
      argField v 431 424 = w.epoch.toNat) ∧
    (∃ (s : State) (p : Fin 160) (v : CtrlSlot) (w : RxChange), s.live = true ∧ (s.port p.val).state.linked = true ∧ v.ctrl =
      0x12 ∧ ((s.toChip.takeSlot p.val v).port p.val).rxChange = some w ∧ argField v 431 424 = w.epoch.toNat) ∧
    (∃ (s : State) (p : Fin 160) (v : CtrlSlot) (w : LaneProc), s.live = true ∧ (s.port p.val).state.linked = true ∧ v.ctrl =
      0x13 ∧ ((s.toChip.takeSlot p.val v).port p.val).proc = some w ∧ w.step = .switchSent ∧ w.kind = .move ∧ argField v 431
      424 = w.epoch.toNat ∧ ((s.toChip.takeSlot p.val v).port p.val).needs = [] ∧ (s.toChip.takeSlot p.val v).laser (p.val /
      8) w.oldChannel ≠ .fading) ∧
    (∃ (s : State) (p : Fin 160) (w : LaneProc), s.live = true ∧ (s.port p.val).proc = some w ∧ w.step = .offered ∧ w.retried
      = false) ∧
    (∃ (s : State) (p : Fin 160) (v : CtrlSlot), s.live = true ∧ (s.port p.val).state.linked = true ∧ v.ctrl = 0x17) ∧
    (∃ (s : State) (p : Fin 160) (v : CtrlSlot), s.live = true ∧ (s.port p.val).state.linked = true ∧ v.ctrl = 0x16 ∧
      ((s.toChip.takeSlot p.val v).port p.val).state.carries = true ∧ (s.toChip.takeSlot p.val v).obj O.minWidth ≤ argField v
      447 440) ∧
    (∃ (s : State) (p : Fin 160) (v : CtrlSlot), s.live = true ∧ (s.port p.val).state.linked = true ∧ v.ctrl = 0x16 ∧
      ((s.toChip.takeSlot p.val v).port p.val).state.carries = true ∧ argField v 447 440 < (s.toChip.takeSlot p.val v).obj
      O.minWidth) :=
  ⟨⟨active 0 id, 0, slot 0x14 0, by decide +kernel⟩,
   ⟨active 0 id, 0, slot 0x15 0, by decide +kernel⟩,
   ⟨(active 0 fun x => { x with spares := [] }).toChip, 0, 0, by decide +kernel⟩,
   ⟨(active 0 id).toChip, 0, 0, 0, .dead, by decide +kernel⟩,
   ⟨{ active 0 (fun x => { x with proc := some warm }) with engines := [(0, { Engine.reset with lasers := List.replicate 18 .warming })] },
     0, warm, by decide +kernel⟩,
   ⟨active 0 id, 0, slot 0x10 0x0F0000, by decide +kernel⟩,
   ⟨active 0 fun x => { x with proc := some { warm with step := .offered } }, 0, slot 0x11 1, { warm with step := .offered },
     by decide +kernel⟩,
   ⟨active 0 fun x => { x with rxChange := some ⟨9, 0, 0, none, none, 0⟩ }, 0, slot 0x12 9, ⟨9, 0, 0, none, none, 0⟩,
     by decide +kernel⟩,
   ⟨active 0 fun x => { x with proc := some { warm with step := .switchSent } }, 0, slot 0x13 1,
     { warm with step := .switchSent }, by decide +kernel⟩,
   ⟨active 0 fun x => { x with proc := some { warm with step := .offered } }, 0, { warm with step := .offered },
     by decide +kernel⟩,
   ⟨active 0 id, 0, slot 0x17 0, by decide +kernel⟩,
   ⟨active 0 id, 0, slot 0x16 0x100000, by decide +kernel⟩,
   ⟨active 0 id, 0, slot 0x16 0, by decide +kernel⟩⟩

theorem meets_Circuit_mode_and_eye_safety :
    (∃ (s : State) (p : Fin 160) (v : CtrlSlot), s.live = true ∧ (s.port p.val).state.linked = true ∧ v.ctrl = 0x21 ∧
      ((s.toChip.takeSlot p.val v).port p.val).state = .circuit ∧ argField v 447 440 = 1 ∧ ((s.toChip.takeSlot p.val v).port
      p.val).bootTest = false) ∧
    (∃ (s : State) (p : Fin 160) (v : CtrlSlot), s.live = true ∧ (s.port p.val).state.linked = true ∧ v.ctrl = 0x22 ∧
      ((s.toChip.takeSlot p.val v).port p.val).state = .circuit) ∧
    (∃ (s : State) (p : Fin 160), s.live = true) ∧
    (∃ (s : State) (p : Fin 160) (rx tx : List Nat) (n : Nat), s.live = true ∧ (s.port p.val).state = .circuit ∧ (s.port
      p.val).bootTest = true ∧ (∀ k, nth 0 tx k = 0) ∧ (s.port p.val).txMap = Port.factoryMap ∧ s.obj O.minWidth ≤ 16 ∧
      (s.port p.val).retraining = false ∧ (s.port p.val).proc = none ∧ s.isGnPort p.val = false ∧ (s.port p.val).drains =
      false ∧ s.soundLanes p.val) ∧
    (∃ (s : State) (p : Fin 160), s.live = true ∧ (s.port p.val).state = .active ∧ (s.port p.val).lightLost = none ∧ s.obj
      O.safetyMode = 0 ∧ (s.port p.val).drains = false ∧ (s.port p.val).peerDraining = false) ∧
    (∃ (s : State) (p : Fin 160), s.live = true ∧ (s.port p.val).state = .active ∧ (s.port p.val).lightLost = none ∧ s.spm
      p.val = true) ∧
    (∃ (s : Chip) (p : Nat), s.isGnPort p = false ∧ (s.port p).state ≠ .circuit) ∧
    (∃ (s : State) (p : Fin 160), s.live = true ∧ (s.port p.val).lightLost.isSome = true ∧ s.engineRestarts p.val = false) ∧
    (∃ (s : State) (p : Fin 160), s.live = true ∧ s.spm p.val = true ∧ (s.port p.val).state.linked = true) ∧
    (∃ (s : State) (p : Fin 160) (v : CtrlSlot), s.live = true ∧ (s.port p.val).state.linked = true ∧ v.ctrl = 0x20) ∧
    (∃ (s : State) (p : Fin 160), s.live = true ∧ s.spm p.val = true ∧ (s.port p.val).lightLost.isSome = true ∧ (s.port
      p.val).peerMonitor = none ∧ (s.port p.val).drains = false) ∧
    (∃ (s : State), s.live = true ∧ s.objb O.enclosedDecl = true) ∧
    (∃ (s : State), s.live = true ∧ s.objb O.enclosedDecl = false) :=
  ⟨⟨porting 0 fun x => { x with state := .circuit }, 0, slot 0x21 0x010000, by decide +kernel⟩,
   ⟨porting 0 fun x => { x with state := .circuit }, 0, slot 0x22 0, by decide +kernel⟩,
   ⟨up, 0, by decide +kernel⟩,
   ⟨porting 0 fun x => { x with state := .circuit, bootTest := true }, 0, [], [], 0,
     by and_intros <;> first | decide +kernel | (intro c; revert c; decide +kernel) | (intro k; cases k <;> rfl)⟩,
   ⟨active 0 id, 0, by decide +kernel⟩,
   ⟨{ active 0 id with objs := [(O.safetyMode, 1)] }, 0, by decide +kernel⟩,
   ⟨up.toChip, 0, by decide +kernel⟩,
   ⟨active 0 fun x => { x with lightLost := some 0 }, 0, by decide +kernel⟩,
   ⟨{ active 0 id with objs := [(O.safetyMode, 1)] }, 0, by decide +kernel⟩,
   ⟨active 0 id, 0, slot 0x20 0, by decide +kernel⟩,
   ⟨{ active 0 (fun x => { x with lightLost := some 0 }) with objs := [(O.safetyMode, 1)] }, 0, by decide +kernel⟩,
   ⟨on { chip with objs := [(O.enclosedDecl, 1)] }, by decide +kernel⟩,
   ⟨up, by decide +kernel⟩⟩

theorem meets_Port_administration :
    (∃ (s : State) (p : Fin 160), s.live = true ∧ (s.port p.val).state = .active) ∧
    (∃ (s : State) (p : Fin 160), s.live = true ∧ (s.port p.val).state = .disabled ∧ s.obju O.portRole p.val ≠ 0 ∧ (s.engine
      (p.val / 8)).powered = true ∧ s.portBarred p.val = false ∧ (Tab.get Component.reset s.mgmt.components 4).state
      ≠ .invalid) ∧
    (∃ (s : State) (p : Fin 160), s.live = true ∧ (s.port p.val).state = .active ∧ s.engineRestarts p.val = false) ∧
    (∃ (s : State) (p : Fin 160) (v : CtrlSlot), s.live = true ∧ (s.port p.val).state.linked = true ∧ v.ctrl = 0x23 ∧
      ((s.toChip.takeSlot p.val v).port p.val).state = .active) ∧
    (∃ (s : State) (p : Fin 160), s.live = true ∧ (s.port p.val).state = .draining ∧ (s.port p.val).txPending = [] ∧ (s.port
      p.val).replay = [] ∧ (s.port p.val).proc = none) ∧
    (∃ (s : State) (p : Fin 160), s.live = true ∧ (s.port p.val).drains = true) :=
  ⟨⟨active 0 id, 0, by decide +kernel⟩,
   ⟨powered 0 up, 0, by decide +kernel⟩,
   ⟨active 0 id, 0, by decide +kernel⟩,
   ⟨active 0 id, 0, slot 0x23 0, by decide +kernel⟩,
   ⟨porting 0 fun x => { x with state := .draining }, 0, by decide +kernel⟩,
   ⟨porting 0 fun x => { x with state := .draining, drains := true }, 0, by decide +kernel⟩⟩

theorem meets_Port_roles :
    (∃ (p : Nat), p < 160) ∧
    (∃ (e : Nat), e < 20) ∧
    (∃ (s : State) (p : Fin 160) (i : Instr), (i = .portAdminEnable p ∨ i = .portAdminCircuit p) ∧ s.live = true ∧ s.obju
      O.portRole p.val = 0 ∧ (s.port p.val).state = .disabled) ∧
    (∃ (s : State) (p : Fin 160) (r : Byte), s.live = true ∧ (s.port p.val).state = .disabled ∧ r.toNat ≤ 2 ∧ (r = 1 →
      ((List.range 160).filter fun q => q != p.val && s.obju O.portRole q == 1).length < 126) ∧ (r = 2 → ((List.range
      160).filter fun q => q != p.val && s.obju O.portRole q == 2).length < 32)) ∧
    (∃ (s : State) (p : Fin 160) (r : Byte), s.live = true ∧ ((s.port p.val).state ≠ .disabled ∨ r = 1 ∧ 126 ≤ ((List.range
      160).filter fun q => q != p.val && s.obju O.portRole q == 1).length ∨ r = 2 ∧ 32 ≤ ((List.range 160).filter fun q => q
      != p.val && s.obju O.portRole q == 2).length)) :=
  ⟨⟨159, by decide +kernel⟩,
   ⟨19, by decide +kernel⟩,
   ⟨on { chip with objs := [(O.portRole, 0)] }, 0, .portAdminEnable 0, by decide +kernel⟩,
   ⟨on { chip with objs := [(O.portRole, 0)] }, 0, 1, by decide +kernel⟩,
   ⟨active 0 id, 0, 1, by decide +kernel⟩⟩

theorem meets_Router :
    (∃ (s : State) (k : Cell), s.live = true ∧ s.tn.arrivals = [k] ∧ s.tn.transit = [] ∧ s.tn.inject = [] ∧ k.dest.toNat =
      s.chipNumber) ∧
    (∃ (s : Chip) (k : Cell), k.type ≠ 10) ∧
    (∃ (s : State) (k : Cell), s.live = true ∧ s.tn.arrivals = [k] ∧ s.tn.transit = [] ∧ s.tn.inject = [] ∧ k.dest.toNat ≠
      s.chipNumber ∧ k.type = 9) ∧
    (∃ (s : State) (k : Cell), s.live = true ∧ s.tn.arrivals = [k] ∧ s.tn.transit = [] ∧ s.tn.inject = [] ∧ k.dest.toNat ≠
      s.chipNumber ∧ k.type ≠ 9 ∧ 46 ≤ s.cellAge k) ∧
    (∃ (s : State), s.live = true ∧ s.tn.arrivals = [] ∧ s.tn.transit = [] ∧ s.tnReady = false) :=
  ⟨⟨heads fun t => { t with arrivals := [cellOf 0] }, cellOf 0, by decide +kernel⟩,
   ⟨chip, cellOf 0, by decide +kernel⟩,
   ⟨heads fun t => { t with arrivals := [{ cellOf 9 with dest := 9 }] }, { cellOf 9 with dest := 9 }, by decide +kernel⟩,
   ⟨heads fun t => { t with arrivals := [{ cellOf 0 with dest := 9, age := 18 }] }, { cellOf 0 with dest := 9, age := 18 },
     by decide +kernel⟩,
   ⟨up, by decide +kernel⟩⟩

theorem meets_Cells :
    (∃ (i : Instr) (s : State) (k : Cell) (x : RxContext) (t : Chip), ((i = .cellPut k ∧ k.type = 0) ∨ (i = .cellSignal k ∧
      k.type = 1) ∨ (i = .cellAtomicAdd k ∧ k.type = 2) ∨ (i = .cellCollData k ∧ k.type = 5) ∨ (i = .cellMcast k ∧ (k.type = 7
      ∨ k.type = 8)) ∨ (i = .collStart k ∧ k.type = 6 ∧ ctrlKind k = 1) ∨ (i = .collGrant k ∧ k.type = 6 ∧ ctrlKind k = 2) ∨
      (i = .collAbort k ∧ k.type = 6 ∧ ctrlKind k = 3)) ∧ s.live = true ∧ k.dest.toNat = s.chipNumber ∧ s.job.state < 2 ∧
      s.service.lagEpisode = false ∧ s.context k.src k.stream = some x ∧ (k.seq - x.cum - 1).toNat < 4096 ∧ s.seenSeq x k.seq
      = false ∧ s.recvUsed < 1048576 ∧ s.tn.ejected = [] ∧ s.toChip.landCell k = (t, .landed)) ∧
    (∃ (s : Chip) (k : Cell), k.type = 0 ∧ 0 < k.len.toNat ∧ s.rangeData (cellOffset k) k.len.toNat = true ∧ s.tn.sluice = []
      ∧ s.tn.recentPuts = []) ∧
    (∃ (s : Chip) (k : Cell), k.type = 0 ∧ s.rangeData (cellOffset k) k.len.toNat = false ∧ inCounterRange (cellOffset k) =
      false) ∧
    (∃ (s : Chip) (k : Cell), k.type = 1 ∧ namesCounter (cellOffset k) = true ∧ k.payload.getLsbD 303 = false ∧ s.arriveOf
      (counterOfOffset (cellOffset k)) = none ∧ s.doneOf (counterOfOffset (cellOffset k)) = none ∧ s.mirroring = false ∧
      s.tn.pendingSignals = []) ∧
    (∃ (s : Chip) (k : Cell) (x : RxContext), k.type = 1 ∧ namesCounter (cellOffset k) = true ∧ k.payload.getLsbD 303 = true ∧
      s.context k.src k.stream = some x ∧ x.covers (BitVec.ofNat 16 (payloadField k 319 304)) = false ∧
      s.tn.pendingSignals.length < 4096) ∧
    (∃ (s : Chip) (k : Cell), k.type = 2 ∧ inCounterRange (cellOffset k) = false ∧ k.payload.getLsbD 319 = true ∧ s.rangeData
      (cellOffset k) 8 = true ∧ cellOffset k % 8 = 0) ∧
    (∃ (s t : Chip) (k : Cell), k.type = 7 ∧ k.flags.getLsbD 0 = false ∧ s.rangeData (cellOffset k) k.len.toNat = true ∧
      s.relayReady (s.mcastOthers k) = true ∧ (s.mcastMembers k).contains s.chipNumber = true ∧ s.landPut (relayCell k) =
      (t, .landed)) ∧
    (∃ (s : Chip) (k : Cell), k.type = 7 ∧ k.flags.getLsbD 0 = false ∧ s.relayReady (s.mcastOthers k) = true ∧ (s.mcastMembers
      k).contains s.chipNumber = false) ∧
    (∃ (s : Chip) (k : Cell), k.type = 7 ∧ k.flags.getLsbD 0 = false ∧ s.rangeData (cellOffset k) k.len.toNat = true ∧
      s.relayReady (s.mcastOthers k) = false) :=
  ⟨⟨.cellPut { cellOf 0 with len := 4 }, heads (fun t => { t with contexts := [contextOf] }), { cellOf 0 with len := 4 },
     contextOf, ((heads (fun t => { t with contexts := [contextOf] })).toChip.landCell { cellOf 0 with len := 4 }).1,
     by decide +kernel⟩,
   ⟨chip, { cellOf 0 with len := 4 }, by decide +kernel⟩,
   ⟨chip, { cellOf 0 with len := 4, offset := 0x3FFFFFFFFFF }, by decide +kernel⟩,
   ⟨chip, { cellOf 1 with offset := 0x3C000000000 }, by decide +kernel⟩,
   ⟨(heads (fun t => { t with contexts := [contextOf] })).toChip,
     { cellOf 1 with offset := 0x3C000000000, payload := BitVec.ofNat 384 (2 ^ 303 + 5 * 2 ^ 304) }, contextOf,
     by decide +kernel⟩,
   ⟨chip, { cellOf 2 with payload := BitVec.ofNat 384 (2 ^ 319) }, by decide +kernel⟩,
   ⟨chip, (chip.landPut (relayCell { cellOf 7 with len := 4 })).1, { cellOf 7 with len := 4 }, by decide +kernel⟩,
   ⟨chip, { cellOf 7 with src := BitVec.ofNat 16 chip.chipNumber }, by decide +kernel⟩,
   ⟨{ chip with tn := { Tn.reset with streams := [(3, some { streamOf with owner := .relay, dest := 1, closing := true })] }, objs := [(O.domainX, 4)] },
     { cellOf 7 with len := 4 }, by decide +kernel⟩⟩

theorem meets_Control_cells_and_streams :
    (∃ (s : State) (k : Cell) (x : SendStream), s.live = true ∧ k.type = 3 ∧ k.flags = 0 ∧ k.dest.toNat = s.chipNumber ∧
      s.tn.ejected = [] ∧ s.stream k.stream.toNat = some x ∧ x.dest = k.src ∧ x.pend = [] ∧ x.refused = false ∧
      (s.tn.pendingSignals.all fun p => p.mcast.isNone) = true ∧ (x.cells.all fun t => t.work == Work.none) = true) ∧
    (∃ (s : State) (k : Cell), s.live = true ∧ k.type = 3 ∧ k.flags = 1 ∧ k.dest.toNat = s.chipNumber ∧ k.src.toNat ≠
      s.chipNumber ∧ s.tn.ejected = [] ∧ (s.tn.pendingSignals.all fun p => p.mcast.isNone) = true ∧ s.coll.waiting = []) ∧
    (∃ (s : State) (k : Cell) (x : SendStream) (t : TxCell), s.live = true ∧ k.type = 4 ∧ k.dest.toNat = s.chipNumber ∧
      s.tn.ejected = [] ∧ s.stream k.stream.toNat = some x ∧ x.dest = k.src ∧ x.cells.find? (fun t => t.cell.seq == k.seq) =
      some t ∧ payloadField k 383 380 = 3) ∧
    (∃ (s t : Chip) (d : Half), t.chipHeld d = s.chipHeld d) ∧
    (∃ (s : State) (k : Cell), s.live = true ∧ k.type = 10 ∧ k.flags = 0 ∧ k.dest.toNat = s.chipNumber ∧ k.src.toNat ≠
      s.chipNumber ∧ s.tn.ejected = []) ∧
    (∃ (s : State) (k : Cell), s.live = true ∧ k.type = 10 ∧ k.flags = 4 ∧ k.dest.toNat = s.chipNumber ∧ s.tn.ejected = [] ∧
      s.tn.probe = some k.src) ∧
    (∃ (s : State) (k : Cell), s.live = true ∧ 11 ≤ k.type.toNat ∧ k.dest.toNat = s.chipNumber ∧ s.tn.ejected = []) ∧
    (∃ (s : State) (src : Half) (n : BitVec 14) (x : RxContext), s.live = true ∧ s.context src n = some x ∧ 0 < x.unacked) ∧
    (∃ (s : State) (n : BitVec 14) (q : Half) (x : SendStream) (t : TxCell), s.live = true ∧ s.stream n.toNat = some x ∧
      x.closing = false ∧ x.held = false ∧ x.cells.find? (fun t => t.cell.seq == q && t.backoff.isNone) = some t ∧ t.retx <
      s.obj O.retxLimit) ∧
    (∃ (s : State) (n : BitVec 14) (q : Half) (x : SendStream) (t : TxCell), s.live = true ∧ s.stream n.toNat = some x ∧
      x.closing = false ∧ x.held = false ∧ x.cells.find? (fun t => t.cell.seq == q && t.backoff.isNone) = some t ∧ s.obj
      O.retxLimit ≤ t.retx) ∧
    (∃ (s : State) (n : BitVec 14) (q : Half) (x : SendStream) (t : TxCell), s.live = true ∧ s.stream n.toNat = some x ∧
      x.held = false ∧ x.cells.find? (fun t => t.cell.seq == q && t.backoff.isSome) = some t) ∧
    (∃ (s : State) (n : BitVec 14) (x : SendStream), s.live = true ∧ s.stream n.toNat = some x ∧ x.pend = [] ∧ x.cells = [] ∧
      x.held = false ∧ x.closing = false) ∧
    (∃ (s : State) (n : BitVec 14) (x : SendStream), s.live = true ∧ s.stream n.toNat = some x ∧ x.cells ≠ []) ∧
    (∃ (s : State) (l : Nat) (k : Cell) (n : Nat), s.live = true ∧ s.tn.sluice = [⟨l, [k], n⟩]) ∧
    (∃ (s : State) (d : Half), s.live = true ∧ (s.coll.comms.all fun e => e.2.state == .unbound) = true ∧
      (s.tn.pendingSignals.all fun p => p.mcast.isNone) = true ∧ s.coll.waiting = []) :=
  ⟨⟨sending id, cellOf 3, streamOf, by decide +kernel⟩,
   ⟨up, { cellOf 3 with flags := 1 }, by decide +kernel⟩,
   ⟨sending (fun x => { x with cells := [sentCell] }), { cellOf 4 with payload := BitVec.ofNat 384 (3 * 2 ^ 380) },
     { streamOf with cells := [sentCell] }, sentCell, by decide +kernel⟩,
   ⟨chip, chip, 7, by decide +kernel⟩,
   ⟨up, cellOf 10, by decide +kernel⟩,
   ⟨heads fun t => { t with probe := some 7 }, { cellOf 10 with flags := 4 }, by decide +kernel⟩,
   ⟨up, cellOf 11, by decide +kernel⟩,
   ⟨heads (fun t => { t with contexts := [{ contextOf with unacked := 1 }] }), 7, 3, { contextOf with unacked := 1 },
     by decide +kernel⟩,
   ⟨sending (fun x => { x with cells := [sentCell] }), 3, 0, { streamOf with cells := [sentCell] }, sentCell,
     by decide +kernel⟩,
   ⟨sending (fun x => { x with cells := [{ sentCell with retx := 99 }] }), 3, 0,
     { streamOf with cells := [{ sentCell with retx := 99 }] }, { sentCell with retx := 99 }, by decide +kernel⟩,
   ⟨sending (fun x => { x with cells := [{ sentCell with backoff := some 0 }] }), 3, 0,
     { streamOf with cells := [{ sentCell with backoff := some 0 }] }, { sentCell with backoff := some 0 }, by decide +kernel⟩,
   ⟨sending id, 3, streamOf, by decide +kernel⟩,
   ⟨sending fun x => { x with cells := [sentCell] }, 3, { streamOf with cells := [sentCell] }, by decide +kernel⟩,
   ⟨heads (fun t => { t with sluice := [⟨0, [cellOf 0], 64⟩] }), 0, cellOf 0, 64, by decide +kernel⟩,
   ⟨up, 7, by decide +kernel⟩⟩

theorem meets_Timebase_and_names :
    (∃ (s : State), s.live = true ∧ s.objb O.chipAssigned = true ∧ s.chipNumber = s.tbMasterChip) ∧
    (∃ (s : State), s.live = true ∧ s.objb O.chipAssigned = true ∧ s.chipNumber ≠ s.tbMasterChip ∧ s.tn.tbState = .locked) ∧
    (∃ (s : State), s.live = true ∧ s.tn.tbState = .locked) ∧
    (∃ (s : State) (p : Fin 160) (k : Cell) (v : Word), s.live = true ∧ k.type = 9 ∧ k.dest.toNat = s.chipNumber ∧
      s.tn.ejected = [] ∧ s.tnPorts.contains (p.val, k.src.toNat) = true ∧ payloadField k 255 192 = 0) ∧
    (∃ (s : State) (p : Fin 160) (k : Cell) (v : Word), s.live = true ∧ k.type = 9 ∧ k.dest.toNat = s.chipNumber ∧
      s.tn.ejected = [] ∧ s.tnPorts.contains (p.val, k.src.toNat) = true ∧ payloadField k 255 192 ≠ 0 ∧ s.tn.tbParent.toNat =
      k.src.toNat ∧ s.tn.offsets.length < 7) ∧
    (∃ (s : State), s.live = true ∧ s.tnReady ≠ s.tn.readySent ∧ s.coll.waiting = []) ∧
    (∃ (s : State) (p : Fin 160), s.live = true) ∧
    (∃ (s : State) (chip : Half), s.live = true ∧ chip.toNat ≠ s.chipNumber) ∧
    (∃ (s : Chip) (k : Cell), k.type = 10 ∧ k.flags = 0) ∧
    (∃ (s : State), s.live = true ∧ s.tn.probe.isSome = true) ∧
    (∃ (s : State) (v : Half), s.live = true ∧ s.allDisabled 1 = true) ∧
    (∃ (s : State) (v : Bool), s.live = true ∧ s.allDisabled 1 = true) ∧
    (∃ (s : State) (w : ShapeObject) (v : Byte), s.live = true ∧ s.allDisabled 1 = true ∧ inRange (shapeKey w) v.toNat = true
      ∧ (s.toChip.setObj (shapeKey w) v.toNat).obj O.bundle * ((s.toChip.setObj (shapeKey w) v.toNat).obj O.domainX +
      (s.toChip.setObj (shapeKey w) v.toNat).obj O.domainY - 2) ≤ 126) ∧
    (∃ (s : State) (v : Word32), s.live = true ∧ (v.toNat < 65536 ∨ v = 0xFFFFFFFF)) ∧
    (∃ (s : State) (v : Word32), s.live = true ∧ s.allDisabled 2 = true ∧ v.toNat < 65536) ∧
    (∃ (s : State) (l : List Word32), s.live = true ∧ l.length ≤ 32 ∧ (l.all fun v => v.toNat < 0xFFFFF) = true) ∧
    (∃ (s : State) (i : Instr), s.live = true ∧ ((s.allDisabled 1 = false ∧ ((∃ v, i = .chipNumberWrite v) ∨ (∃ v, i
      = .chipAssignedWrite v) ∨ ∃ w v, i = .domainShapeWrite w v)) ∨ (s.allDisabled 2 = false ∧ ∃ v, i = .gnNodeWrite v))) :=
  ⟨⟨on { chip with objs := [(O.chipNumber, 0), (O.chipAssigned, 1), (O.tbMaster, 0)] }, by decide +kernel⟩,
   ⟨on { chip with objs := [(O.chipAssigned, 1), (O.domainX, 4), (O.domainY, 4)] ++ [(O.tbMaster, 5)], tn := { Tn.reset with tbState := .locked } },
     by decide +kernel⟩,
   ⟨heads fun t => { t with tbState := .locked }, by decide +kernel⟩,
   ⟨cabled Tn.reset, 0, { cellOf 9 with src := 1 }, 0, by decide +kernel⟩,
   ⟨cabled { Tn.reset with tbParent := 1 }, 0, { cellOf 9 with src := 1, payload := BitVec.ofNat 384 (2 ^ 192) }, 0,
     by decide +kernel⟩,
   ⟨heads fun t => { t with readySent := true }, by decide +kernel⟩,
   ⟨up, 0, by decide +kernel⟩,
   ⟨up, 9, by decide +kernel⟩,
   ⟨chip, cellOf 10, by decide +kernel⟩,
   ⟨heads fun t => { t with probe := some 7 }, by decide +kernel⟩,
   ⟨up, 5, by decide +kernel⟩,
   ⟨up, true, by decide +kernel⟩,
   ⟨up, .domainX, 2, by decide +kernel⟩,
   ⟨up, 0xFFFFFFFF, by decide +kernel⟩,
   ⟨up, 5, by decide +kernel⟩,
   ⟨up, [5, 6], by decide +kernel⟩,
   ⟨active 0 id, .chipNumberWrite 5, by exact ⟨by decide +kernel, .inl ⟨by decide +kernel, .inl ⟨5, rfl⟩⟩⟩⟩⟩

theorem meets_Gn_requests :
    (∃ (s : State) (p : Fin 160) (k : GnPacket), s.live = true ∧ s.gnAccepts p.val k = true ∧ k.hcrc ≠ gnHcrc k) ∧
    (∃ (s : State) (p : Fin 160) (k : GnPacket) (i : Instr), s.live = true ∧ s.gnAccepts p.val k = true ∧ k.hcrc ≠ gnHcrc k ∧
      (i = .gnRead p k ∨ i = .gnWrite p k ∨ i = .gnWriteFlagged p k ∨ i = .gnAtomic p k ∨ i = .gnResponse p k ∨ i = .gnCredit
      p k)) ∧
    (∃ (s : State) (p : Fin 160) (k : GnPacket), s.live = true ∧ s.gnAccepts p.val k = true ∧ k.hcrc = gnHcrc k ∧ k.ptype = 0
      ∧ (s.toChip.gnTake p.val k).job.state < 2 ∧ k.addr.toNat % 4096 + k.len.toNat ≤ 4096 ∧ (s.toChip.gnTake p.val
      k).rangeData k.addr.toNat k.len.toNat = true ∧ (s.toChip.gnTake p.val k).cutOff (portSite p.val) k.addr.toNat = false) ∧
    (∃ (s : State) (p : Fin 160) (k : GnPacket) (i : Instr), s.live = true ∧ s.gnAccepts p.val k = true ∧ k.hcrc = gnHcrc k ∧
      ((i = .gnWrite p k ∧ k.ptype = 2) ∨ (i = .gnWriteFlagged p k ∧ k.ptype = 3 ∧ k.len.toNat ≤ 64)) ∧ k.dcrc = gnDcrc k ∧
      (s.toChip.gnTake p.val k).job.state < 2 ∧ k.addr.toNat % 4096 + k.len.toNat ≤ 4096 ∧ (s.toChip.gnTake p.val k).rangeData
      k.addr.toNat k.len.toNat = true ∧ (s.toChip.gnTake p.val k).cutOff (portSite p.val) k.addr.toNat = false) ∧
    (∃ (s : State) (p : Fin 160) (k : GnPacket), s.live = true ∧ s.gnAccepts p.val k = true ∧ k.hcrc = gnHcrc k ∧ k.ptype = 5
      ∧ (s.toChip.gnTake p.val k).job.state < 2 ∧ k.aop = 0 ∧ k.size = true ∧ k.addr.toNat % 8 = 0 ∧ (s.toChip.gnTake p.val
      k).rangeData k.addr.toNat 8 = true ∧ (s.toChip.gnTake p.val k).cutOff (portSite p.val) k.addr.toNat = false) ∧
    (∃ (s : State) (p : Fin 160) (k : GnPacket) (i : Instr), s.live = true ∧ s.gnAccepts p.val k = true ∧ k.hcrc = gnHcrc k ∧
      ((i = .gnRead p k ∧ k.ptype = 0) ∨ (i = .gnWrite p k ∧ k.ptype = 2) ∨ (i = .gnAtomic p k ∧ k.ptype = 5)) ∧ 2 ≤
      (s.toChip.gnTake p.val k).job.state) :=
  ⟨⟨node id, 4, gnBlank, by decide +kernel⟩,
   ⟨node id, 4, gnBlank, .gnRead 4 gnBlank, by exact ⟨by decide +kernel, by decide +kernel, by decide +kernel, .inl rfl⟩⟩,
   ⟨node id, 4, packet 0 fun p => { p with len := 8 }, by decide +kernel⟩,
   ⟨node id, 4,
     packet 2 fun p => { p with len := 8, payload := List.replicate 8 1 }, .gnWrite 4 (packet 2 fun p => { p with len := 8, payload := List.replicate 8 1 }),
     by exact ⟨by decide +kernel, by decide +kernel, by decide +kernel, .inl ⟨rfl, rfl⟩, by decide +kernel, by decide +kernel,
     by decide +kernel, by decide +kernel, by decide +kernel⟩⟩,
   ⟨node id, 4, packet 5 fun p => { p with size := true }, by decide +kernel⟩,
   ⟨{ node id with job := ⟨2, 0⟩ }, 4, packet 0 id, .gnRead 4 (packet 0 id), by exact ⟨by decide +kernel, by decide +kernel,
     by decide +kernel, .inl ⟨rfl, rfl⟩, by decide +kernel⟩⟩⟩

theorem meets_Gn_responses :
    (∃ (s : State) (p : Fin 160) (k : GnPacket) (r : GnReq), s.live = true ∧ s.gnAccepts p.val k = true ∧ k.hcrc = gnHcrc k ∧
      k.ptype = 4 ∧ r.pkt.ptype = 2 ∧ k.status = 0 ∧ k.payload = [] ∧ (s.toChip.gnTake p.val k).gn.reqs.find? (fun q => q.tag
      == k.tag && q.pkt.dest == k.src) = some r) ∧
    (∃ (s : State) (p : Fin 160) (k : GnPacket), s.live = true ∧ s.gnAccepts p.val k = true ∧ k.hcrc = gnHcrc k ∧ k.ptype = 4
      ∧ (s.toChip.gnTake p.val k).gn.reqs.find? (fun q => q.tag == k.tag && q.pkt.dest == k.src) = none) ∧
    (∃ (s : State) (p : Fin 160) (k : GnPacket), s.live = true ∧ s.gnAccepts p.val k = true ∧ k.hcrc = gnHcrc k ∧ k.ptype = 7
      ∧ k.tag = 0xFFFF) ∧
    (∃ (s : State) (p : Fin 160) (v : Fin 8), s.live = true ∧ (s.port p.val).state = .active ∧ 64 ≤ nth 0 (s.gnCredits
      p.val).owed v.val ∧ nth 0 (s.gnCredits p.val).owed v.val ≤ 8191) ∧
    (∃ (s : State) (p : Fin 160) (i : Nat), s.live = true ∧ s.gn.outq.findIdx? (fun o => o.port == p.val && !o.aged &&
      (o.pkt.vc == 4 || o.pkt.vc == 5)) = some i) :=
  ⟨⟨node fun g => { g with reqs := [asked] }, 4, packet 4 fun p => { p with src := 6, tag := 9 }, asked, by decide +kernel⟩,
   ⟨node id, 4, packet 4 id, by decide +kernel⟩,
   ⟨node id, 4, packet 7 fun p => { p with tag := 0xFFFF }, by decide +kernel⟩,
   ⟨{ node id with gn := { Gn.reset with credits := [(4, { GnCredits.none with owed := List.replicate 8 64 })] } }, 4, 7,
     by decide +kernel⟩,
   ⟨node fun g => { g with outq := [outOf] }, 4, 0, by decide +kernel⟩⟩

theorem meets_Gn_targets :
    (∃ (s : State) (e : Fin 1024) (w : Word), s.live = true) ∧
    (∃ (s : State) (r : GnReq), s.live = true ∧ s.gn.reqs.find? (fun q => q.tag == r.tag) = some r ∧ s.gn.dead.contains
      r.pkt.dest.toNat = false ∧ (s.gn.outq.any fun o => o.port == r.port && gnIsRequest o.pkt && o.pkt.tag == r.tag) = false) ∧
    (∃ (s : State) (n : Word32), s.live = true ∧ s.tagged = [] ∧ s.gn.waiting = [] ∧ s.service.pair = none) ∧
    (∃ (s : State) (h : FlaggedHold), s.live = true ∧ s.gn.flaggedHeld = [h] ∧ h.waitFor = [] ∧ h.failed = none ∧ s.gn.dead =
      []) ∧
    (∃ (s : State) (r : GnReq), s.live = true ∧ s.gn.granuleHeld = [r] ∧ s.gn.reqs = []) ∧
    (∃ (s : State) (p : Fin 160) (r : GnReq), s.live = true ∧ s.gn.returned = [(p.val, r.pkt)] ∧ s.gn.reqs = [r] ∧ r.port =
      p.val ∧ r.pkt.tag = r.tag ∧ r.pkt.ptype = 2 ∧ s.usableGn = s.gn.usable) :=
  ⟨⟨up, 0, 5, by decide +kernel⟩,
   ⟨node fun g => { g with reqs := [asked] }, asked, by decide +kernel⟩,
   ⟨node id, 6, by decide +kernel⟩,
   ⟨node fun g => { g with flaggedHeld := [⟨asked, [], none⟩] }, ⟨asked, [], none⟩, by decide +kernel⟩,
   ⟨node fun g => { g with granuleHeld := [asked] }, asked, by decide +kernel⟩,
   ⟨node fun g => { g with returned := [(4, asked.pkt)], reqs := [asked], usable := [4] }, 4, asked, by decide +kernel⟩⟩

theorem meets_Job_end_closes_memory :
    ∃ (s : State) (p : Fin 160) (k : GnPacket) (i : Instr), (i = .gnRead p k ∨ i = .gnWrite p k ∨ i = .gnWriteFlagged p k ∨ i
      = .gnAtomic p k) ∧ s.live = true ∧ 2 ≤ s.job.state :=
  ⟨{ node id with job := ⟨2, 0⟩ }, 4, packet 0 id, .gnRead 4 (packet 0 id),
    by exact ⟨.inl rfl, by decide +kernel,
     by decide +kernel⟩⟩

theorem meets_Queue_control :
    (∃ (s : State) (q : Fin 16384) (t : Word32), s.live = true ∧ (s.queueAt q.val).state = .active ∧ (t - (s.queueAt
      q.val).sqHead).toNat ≤ 2 ^ (s.queueAt q.val).sqLog2.toNat ∧ (t - (s.queueAt q.val).sqTail).toNat < 2 ^ 31) ∧
    (∃ (s : State) (q : Fin 16384) (t : Word32), s.live = true ∧ (s.queueAt q.val).state ≠ .active) ∧
    (∃ (s : State) (q : Fin 16384) (t : Word32), s.live = true ∧ (s.queueAt q.val).state = .active ∧ ((s.queueAt q.val).cqTail
      - t).toNat ≤ 2 ^ (s.queueAt q.val).cqLog2.toNat ∧ (t - (s.queueAt q.val).cqHead).toNat < 2 ^ 31) ∧
    (∃ (s : State) (q : Fin 16384), s.live = true ∧ (s.queueAt q.val).state = .disabled ∧ s.enableCheck (s.queueAt q.val) =
      none) ∧
    (∃ (s : State) (q : Fin 16384) (k : Nat), s.live = true ∧ (s.queueAt q.val).state = .disabled ∧ s.enableCheck (s.queueAt
      q.val) = some k) ∧
    (∃ (s : State) (q : Fin 16384), s.live = true ∧ (s.queueAt q.val).state = .active ∧ (s.queueAt q.val).entries = []) ∧
    (∃ (s : State) (q : Fin 16384) (w : Word), s.live = true ∧ (s.queueAt q.val).state = .disabled) ∧
    (∃ (s : State) (q : Fin 16384) (w : Word), s.live = true ∧ (s.queueAt q.val).state ≠ .disabled) ∧
    (∃ (s : State) (q : Fin 16384), s.live = true ∧ s.cpAsleep q.val = false ∧ (s.queueAt q.val).state = .active ∧ (s.queueAt
      q.val).sqHead ≠ (s.queueAt q.val).sqTail ∧ (s.queueAt q.val).entries = [] ∧ ((s.queueAt q.val).cqTail - (s.queueAt
      q.val).cqHead).toNat < 2 ^ (s.queueAt q.val).cqLog2.toNat) ∧
    (∃ (s : State) (q : Fin 16384), s.live = true ∧ (s.queueAt q.val).sqHead = (s.queueAt q.val).sqTail) :=
  ⟨⟨queueing [], 0, 1, by decide +kernel⟩,
   ⟨up, 0, 1, by decide +kernel⟩,
   ⟨queued fun v => { v with state := .active, cqTail := 1 }, 0, 1, by decide +kernel⟩,
   ⟨up, 0, by decide +kernel⟩,
   ⟨queued fun v => { v with sqLog2 := 5 }, 0, 3, by decide +kernel⟩,
   ⟨queueing [], 0, by decide +kernel⟩,
   ⟨up, 0, 5, by decide +kernel⟩,
   ⟨queueing [], 0, 5, by decide +kernel⟩,
   ⟨queued fun v => { v with state := .active, sqTail := 1 }, 0, by decide +kernel⟩,
   ⟨up, 0, by decide +kernel⟩⟩

theorem meets_Commands_start :
    (∃ (i : Instr) (s : State) (q : Fin 16384) (e : QEntry) (start : Chip → Nat → QEntry → Chip) (t : Chip), ((i = .cmdNop q ∧
      e.opcode = 0 ∧ start = startNothing) ∨ (i = .cmdKernel q ∧ e.opcode = 1 ∧ start = Chip.startKernel) ∨ (i = .cmdCopy q ∧
      e.opcode = 2 ∧ start = Chip.startCopy) ∨ (i = .cmdFill q ∧ e.opcode = 3 ∧ start = Chip.startFill) ∨ (i = .cmdPut q ∧
      e.opcode = 4 ∧ start = Chip.startPut) ∨ (i = .cmdSignal q ∧ e.opcode = 5 ∧ start = Chip.startSignal) ∨ (i = .cmdWait q ∧
      e.opcode = 6 ∧ start = startNothing) ∨ (i = .cmdFence q ∧ e.opcode = 7 ∧ start = startNothing) ∨ (i = .cmdUpdate q ∧
      e.opcode = 9 ∧ start = Chip.startUpdate) ∨ (i = .cmdMarker q ∧ e.opcode = 10 ∧ start = Chip.startMarker)) ∧ s.live =
      true ∧ (s.queueAt q.val).state = .active ∧ (s.queueAt q.val).head = some e ∧ e.phase = .waiting ∧ e.ready.isSome = true
      ∧ (s.queueAt q.val).entry e.num = some e ∧ s.cpAsleep q.val = false ∧ s.cpRestarts q.val = false ∧ s.toChip.meetWaits
      q.val e = (t, true) ∧ (t.queueAt q.val).entry e.num = some e ∧ t.startable q.val = true ∧ t.cpTurn q.val = true) ∧
    (∃ (s : State) (q : Fin 16384) (e : QEntry) (t : Chip), e.opcode = 8 ∧ s.live = true ∧ (s.queueAt q.val).state = .active ∧
      (s.queueAt q.val).head = some e ∧ e.phase = .waiting ∧ e.ready.isSome = true ∧ (s.queueAt q.val).entry e.num = some e ∧
      s.cpAsleep q.val = false ∧ s.cpRestarts q.val = false ∧ s.toChip.meetWaits q.val e = (t, true) ∧ (t.queueAt q.val).entry
      e.num = some e ∧ t.startable q.val = true ∧ t.cpTurn q.val = true) ∧
    (∃ (s : Chip) (q : Nat) (e x : QEntry), s.isShadow = false ∧ (s.queueAt q).entries = [e] ∧ (s.queueAt q).head = some e ∧
      e.opcode = 0 ∧ e.fails = [] ∧ (((s.begin' q e).release q e).queueAt q).entries = [x]) ∧
    (∃ (s : State) (q : Fin 16384) (e : QEntry), s.live = true ∧ (s.queueAt q.val).state = .active ∧ (s.queueAt q.val).entries
      = [e] ∧ e.phase = .fetched ∧ 10 < e.opcode ∧ e.status = .ok ∧ s.cpAsleep q.val = false ∧ s.cpRestarts q.val = false) ∧
    (∃ (s : State) (q : Fin 16384) (e : QEntry), s.live = true ∧ (s.queueAt q.val).state = .active ∧ (s.queueAt q.val).entries
      = [e] ∧ e.phase = .fetched ∧ e.opcode = 0 ∧ e.status = .poisoned ∧ s.cpAsleep q.val = false ∧ s.cpRestarts q.val =
      false) :=
  ⟨⟨.cmdNop 0, queueing [entryOf 0 .waiting], 0, entryOf 0 .waiting, startNothing,
     ((queueing [entryOf 0 .waiting]).toChip.meetWaits 0 (entryOf 0 .waiting)).1,
     (by refine ⟨.inl ⟨rfl, by decide +kernel, rfl⟩, ?_⟩; and_intros <;> decide +kernel)⟩,
   ⟨collecting, 0, collHead, (collecting.toChip.meetWaits 0 collHead).1, by and_intros <;> decide +kernel⟩,
   ⟨(queueing [entryOf 0 .waiting]).toChip, 0, entryOf 0 .waiting, { entryOf 0 .finished with outstanding := 0 },
     by decide +kernel⟩,
   ⟨queueing [entryOf 11 .fetched], 0, entryOf 11 .fetched, by decide +kernel⟩,
   ⟨queueing [{ entryOf 0 .fetched with status := .poisoned }], 0, { entryOf 0 .fetched with status := .poisoned },
     by decide +kernel⟩⟩

theorem meets_Completion :
    (∃ (s : State) (q : Fin 16384) (n : Word32) (e : QEntry), s.live = true ∧ (s.queueAt q.val).state = .active ∧ (s.queueAt
      q.val).entry n = some e ∧ e.phase = .finished ∧ e.status = .ok ∧ e.sigEn = false ∧ e.opcode ≤ 10 ∧ (s.queueAt
      q.val).cqCountEn = false) ∧
    (∃ (s : State) (q : Fin 16384) (e : QEntry) (t : Chip), s.live = true ∧ (s.queueAt q.val).state = .active ∧ (s.queueAt
      q.val).head = some e ∧ e.phase = .waiting ∧ (s.queueAt q.val).waitLimit ≠ 0 ∧ e.opcode ≠ 8 ∧ s.toChip.meetWaits q.val e
      = (t, false)) ∧
    (∃ (s : State) (q : Fin 16384) (e : QEntry), s.live = true ∧ (s.queueAt q.val).head = some e ∧ e.opcode = 8) ∧
    (∃ (s : State) (q : Fin 16384) (e : QEntry) (n : Nat), s.live = true ∧ (s.queueAt q.val).head = some e ∧ e.ready = some n) ∧
    (∃ (s : State) (q : Fin 16384), s.live = true ∧ (s.queueAt q.val).state = .draining ∧ (s.queueAt q.val).entries = []) :=
  ⟨⟨queueing [entryOf 10 .finished], 0, 0, entryOf 10 .finished, by decide +kernel⟩,
   ⟨queued (fun v => { v with state := .active, waitLimit := 1, entries := [waitOne] }), 0, waitOne,
     ((queued fun v => { v with state := .active, waitLimit := 1, entries := [waitOne] }).toChip.meetWaits 0 waitOne).1,
     by decide +kernel⟩,
   ⟨queueing [entryOf 8 .waiting], 0, entryOf 8 .waiting, by decide +kernel⟩,
   ⟨queueing [entryOf 0 .waiting], 0, entryOf 0 .waiting, 0, by decide +kernel⟩,
   ⟨queued fun v => { v with state := .draining }, 0, by decide +kernel⟩⟩

theorem meets_Job_sequence :
    (∃ (s : State), s.live = true ∧ s.job.state < 2 ∧ s.queues = [] ∧ s.service.state = .serving) ∧
    (∃ (s : State), s.live = true ∧ s.job.state < 2) ∧
    (∃ (s : State), s.live = true ∧ s.job.state = 2 ∧ s.jobQuiet = true) ∧
    (∃ (s : State), s.live = true ∧ s.job.state = 3 ∧ s.mgmt.stage = 6 ∧ s.cellarDown 0 = false ∧ s.cellarDown 1 = false) :=
  ⟨⟨up, by decide +kernel⟩,
   ⟨up, by decide +kernel⟩,
   ⟨{ up with job := ⟨2, 0⟩ }, by decide +kernel⟩,
   ⟨{ cellarsUp with job := ⟨3, 0⟩ }, by decide +kernel⟩⟩

theorem meets_Counters_and_waits :
    (∃ (s : State) (i : BitVec 18) (a : Word), s.live = true ∧ s.arriveOf i.toNat = none ∧ s.doneOf i.toNat = none ∧
      (s.counter i.toNat).value.toNat + a.toNat < 2 ^ 64) ∧
    (∃ (s : State) (i : BitVec 18) (a : Word), s.live = true ∧ s.arriveOf i.toNat = none ∧ s.doneOf i.toNat = none ∧ 2 ^ 64 ≤
      (s.counter i.toNat).value.toNat + a.toNat) ∧
    (∃ (s : State) (i : BitVec 18) (a : Word), s.live = true ∧ s.arriveOf i.toNat = none ∧ (s.doneOf i.toNat).isSome = true) ∧
    (∃ (s : State) (k : Fin 256) (o : BitVec 13) (v : Word), s.live = true ∧ o.toNat < 0x200 ∧ o.toNat % 8 = 0 ∧
      (s.coreCounter k.val (o.toNat / 8)).value.toNat + v.toNat < 2 ^ 64) ∧
    (∃ (s : State) (k : Fin 256) (o : BitVec 13) (v : Word) (r : AddSrc), s.live = true ∧ 0x200 ≤ o.toNat) ∧
    (∃ (s : State) (i : BitVec 18) (t : Word) (o : WaitOwner), s.live = true ∧ t.toNat ≤ (s.counter i.toNat).value.toNat) ∧
    (∃ (s : State) (i : BitVec 18) (t : Word) (o : WaitOwner), s.live = true ∧ (s.counter i.toNat).value.toNat < t.toNat ∧
      (s.sync.waiters.all fun w => !(w.counter == i.toNat && w.owner == o && w.threshold == t)) = true ∧ s.waitersUsed
      (i.toNat / 32768) < 16384) ∧
    (∃ (s : State) (i : BitVec 18) (o : WaitOwner), s.live = true) :=
  ⟨⟨up, 5, 7, by decide +kernel⟩,
   ⟨syncing fun y => { y with counters := [(5, { CounterRec.zero with value := 1 })] }, 5, 0xFFFFFFFFFFFFFFFF,
     by decide +kernel⟩,
   ⟨gated id, 2, 1, by decide +kernel⟩,
   ⟨up, 255, 0x1F8, 9, by decide +kernel⟩,
   ⟨up, 255, 0x200, 9, .mgmt, by decide +kernel⟩,
   ⟨up, 5, 0, .queue 0, by decide +kernel⟩,
   ⟨up, 5, 1, .queue 0, by decide +kernel⟩,
   ⟨up, 5, .queue 0, by decide +kernel⟩⟩

theorem meets_Barriers :
    (∃ (s : State) (b : Fin 4096) (w : Word), s.live = true ∧ w.getLsbD 63 = true ∧ (s.barrier b.val).enable = false ∧
      s.bindCheck b.val (barrierFields w).1.toNat (barrierFields w).2.1.toNat (barrierFields w).2.2.toNat = none) ∧
    (∃ (s : State) (b : Fin 4096) (w : Word), s.live = true ∧ w.getLsbD 63 = true ∧ (s.barrier b.val).enable = false ∧
      (barrierFields w).1 = (barrierFields w).2.1) ∧
    (∃ (s : State) (b : Fin 4096) (w : Word), s.live = true ∧ w.getLsbD 63 = false ∧ (s.barrier b.val).held = []) ∧
    (∃ (s : State) (b : Fin 4096) (k : Fin 3) (w : Word), s.live = true) ∧
    (∃ (s : State) (b : Fin 4096) (w : Word), s.live = true ∧ w.getLsbD 63 = true ∧ (s.barrier b.val).enable = true) ∧
    (∃ (s : State) (r : Resend), s.live = true ∧ s.sync.resends = [r]) ∧
    (∃ (s : State) (i : BitVec 18) (a : Word) (b : Nat) (x : Barrier), s.live = true ∧ s.arriveOf i.toNat = some (b, x) ∧
      a.toNat ≤ (s.counter (s.barrier b).doneCtr.toNat).value.toNat) ∧
    (∃ (s : State) (i : BitVec 18) (a : Word) (b : Nat) (x : Barrier), s.live = true ∧ s.arriveOf i.toNat = some (b, x) ∧
      a.toNat = (s.counter (s.barrier b).doneCtr.toNat).value.toNat + 1 ∧ (s.barrier b).held = [] ∧ (s.barrier b).participants
      = (s.barrier b).arrivedG + 1 ∧ (s.barrier b).arrivedG1 = 0 ∧ (s.barrier b).participants ≠ 0 ∧ (s.barrier b).arriveCtr ≠
      (s.barrier b).doneCtr) ∧
    (∃ (s : State) (i : BitVec 18) (a : Word) (b : Nat) (x : Barrier), s.live = true ∧ s.arriveOf i.toNat = some (b, x) ∧
      a.toNat = (s.counter (s.barrier b).doneCtr.toNat).value.toNat + 2 ∧ (s.barrier b).arrivedG1 ≠ (s.barrier
      b).participants) :=
  ⟨⟨up, 0, BitVec.ofNat 64 (2 ^ 63 + 2 ^ 45 + 2 * 2 ^ 27 + 2 * 2 ^ 7), by decide +kernel⟩,
   ⟨up, 0, BitVec.ofNat 64 (2 ^ 63 + 2 ^ 45 + 2 ^ 27 + 2 * 2 ^ 7), by decide +kernel⟩,
   ⟨gated id, 0, 0, by decide +kernel⟩,
   ⟨up, 0, 2, 5, by decide +kernel⟩,
   ⟨gated id, 0, BitVec.ofNat 64 (2 ^ 63), by decide +kernel⟩,
   ⟨syncing fun y => { y with resends := [⟨1, 1, .mgmt⟩] }, ⟨1, 1, .mgmt⟩, by decide +kernel⟩,
   ⟨gated id, 1, 0, 0, gate, by decide +kernel⟩,
   ⟨gated fun b => { b with arrivedG := 1 }, 1, 1, 0, { gate with arrivedG := 1 }, by decide +kernel⟩,
   ⟨gated id, 1, 2, 0, gate, by decide +kernel⟩⟩

theorem meets_Collectives :
    (∃ (s : State) (n : Fin 4096) (w : Word) (v : CommSlot), s.live = true ∧ w.getLsbD 63 = true ∧ (s.comm n.val).state
      = .unbound ∧ v =
      { s.comm n.val with commId := w.extractLsb' 47 16, nmembers := w.extractLsb' 34 13, myIndex := w.extractLsb' 22 12 } ∧
      s.commCheck n.val v = none) ∧
    (∃ (s : State) (n : Fin 4096) (w : Word) (v : CommSlot) (k : Nat), s.live = true ∧ w.getLsbD 63 = true ∧ (s.comm
      n.val).state = .unbound ∧ v =
      { s.comm n.val with commId := w.extractLsb' 47 16, nmembers := w.extractLsb' 34 13, myIndex := w.extractLsb' 22 12 } ∧
      s.commCheck n.val v = some k) ∧
    (∃ (s : State) (n : Fin 4096) (w : Word), s.live = true ∧ w.getLsbD 63 = true ∧ (s.comm n.val).state = .bound) ∧
    (∃ (s : State) (n : Fin 4096) (w : Word), s.live = true ∧ w.getLsbD 63 = false ∧ (s.comm n.val).state = .bound ∧
      s.inflightOn n.val = []) ∧
    (∃ (s : State) (n : Fin 4096) (w : Word), s.live = true ∧ w.getLsbD 63 = false ∧ (s.comm n.val).state = .bound ∧
      s.inflightOn n.val ≠ []) ∧
    (∃ (s : State) (id : Half), s.live = true ∧ s.slotOf id = none) ∧
    (∃ (s : State) (n : Fin 4096) (q : Word32) (k : Collective), s.live = true ∧ s.collOf n.val q = some k ∧ k.cmd.op ≠ 6 ∧
      s.collReady k (s.comm n.val) = true) ∧
    (∃ (s : State) (n : Fin 4096) (q : Word32) (k : Collective), s.live = true ∧ s.collOf n.val q = some k ∧ s.collReady k
      (s.comm n.val) = false) ∧
    (∃ (s : Chip), s.coll.waiting = []) ∧
    (∃ (s : State) (n : Fin 4096) (q : Word32) (k : Collective), s.live = true ∧ s.collOf n.val q = some k ∧ k.gathering =
      true) ∧
    (∃ (s : State) (n : Fin 4096) (q : Word32) (k : Collective) (names : List Nat), s.live = true ∧ s.collOf n.val q = some k
      ∧ names = (List.range (s.comm n.val).nmembers.toNat).filter (fun m => m != (s.comm n.val).myIndex.toNat && s.missing k
      (s.comm n.val) m)) ∧
    (∃ (s : State) (chip : Half) (n : Nat) (v : CommSlot), s.live = true ∧ s.coll.comms = [(n, v)] ∧ v.state = .bound ∧
      (v.indexOf chip).isSome = true ∧ v.chip v.myIndex.toNat ≠ chip ∧ s.chipHeld chip = true) ∧
    (∃ (s : State) (n : Fin 4096), s.live = true ∧ (s.comm n.val).state = .draining ∧ s.inflightOn n.val ≠ []) ∧
    (∃ (s : Chip) (k : Collective) (v : CommSlot) (st : Status) (d m : Nat) (names : List Nat) (other : Word) (e : QEntry),
      (s.queueAt k.queue).entry k.num = some e) :=
  ⟨⟨on { chip with objs := [(O.chipAssigned, 1)] }, 0, BitVec.ofNat 64 (2 ^ 63 + 2 ^ 34),
     { CommSlot.zero with nmembers := 1 }, by decide +kernel⟩,
   ⟨up, 0, BitVec.ofNat 64 (2 ^ 63), CommSlot.zero, 3, by decide +kernel⟩,
   ⟨collOn id [], 0, BitVec.ofNat 64 (2 ^ 63), by decide +kernel⟩,
   ⟨collOn id [], 0, 0, by decide +kernel⟩,
   ⟨collOn id [sequenceOf], 0, 0, by decide +kernel⟩,
   ⟨up, 5, by decide +kernel⟩,
   ⟨collOn (fun v => { v with nmembers := 1 }) [sequenceOf], 0, 0, sequenceOf, by decide +kernel⟩,
   ⟨collOn id [sequenceOf], 0, 0, sequenceOf, by decide +kernel⟩,
   ⟨chip, by decide +kernel⟩,
   ⟨collOn id [{ sequenceOf with gathering := true }], 0, 0, { sequenceOf with gathering := true }, by decide +kernel⟩,
   ⟨collOn id [sequenceOf], 0, 0, sequenceOf, [1], by decide +kernel⟩,
   ⟨{ collOn id [] with tn := { Tn.reset with heldDests := [(1, true)] } }, 1, 0, group, by decide +kernel⟩,
   ⟨collOn (fun v => { v with state := .draining }) [sequenceOf], 0, by decide +kernel⟩,
   ⟨(queueing [entryOf 8 .started]).toChip, sequenceOf, group, .timeout, 0, 0, [], 0, entryOf 8 .started, by decide +kernel⟩⟩

theorem meets_Read_after_write :
    ∃ (s : Chip) (a : Nat) (bs : List Byte), (∀ u, s.copying u = false) ∧ (∀ n, (s.channel n).unresponsive = false) ∧ (∀ i, i
      < bs.length → (s.region (a + i)).isData = true ∧ s.unreachable (a + i) = false) :=
  ⟨chip, 0x80000000000, [1, 2], by exact ⟨fun _ => rfl, fun _ => rfl, by decide +kernel⟩⟩

theorem meets_Writes_leave_other_bytes :
    ∃ (s : Chip) (a b : Nat) (bs : List Byte), (∀ n, (s.channel n).unresponsive = false) ∧ (∀ l x, Tab.get none s.hbm.cache l
      = some x → x.under = none ∨ x.dirty = true) ∧ (b < a ∨ a + bs.length ≤ b) :=
  ⟨chip, 0, 2, [1, 2], by exact ⟨fun _ => rfl, fun l x h => (nomatch (show none = some x from h)), .inr (by decide)⟩⟩

theorem meets_Memory_stays_canonical :
    (∃ (s : Chip) (a n : Nat) (bs : List Byte) (p : Bool) (h : Hint), s.canonical) ∧
    (∃ (s t : State) (i : Instr), s.toChip.canonical ∧ exec i s = .next t ∧ ((∃ x, i = .hbmAccess x) ∨ (∃ n, i
      = .channelAccessTimeout n) ∨ (∃ e w, i = .interleaveEntryCommit e w) ∨ (∃ v, i = .keepRelease v) ∨ (∃ l, i
      = .odeccReadTimer l) ∨ (∃ l e, i = .patrolScrub l e) ∨ (∃ n, i = .mapoutRequest n) ∨ (∃ n, i = .mapoutStart n) ∨ (∃ u, i
      = .unitCopyDone u) ∨ i = .mapoutComplete ∨ (∃ v, i = .shrinkAck v) ∨ i = .shrinkGraceExpiry ∨ (∃ p, i
      = .marginPeriodTimer p) ∨ (∃ p, i = .marginNow p) ∨ (∃ p w, i = .sweepPhaseDone p w) ∨ (∃ p, i = .hbmRefresh p))) :=
  ⟨⟨chip, 0, 0, [], false, 0, by and_intros <;> first | decide +kernel | rfl⟩,
   ⟨up, up, .mapoutComplete, by exact ⟨rfl, rfl, by simp⟩⟩⟩

theorem meets_Hbm_accesses :
    (∃ (s : State) (x : HbmAccess) (p r : Place), s.live = true ∧ s.region x.addr = .hbm p ∧ s.place (64 * (x.addr / 64)) =
      some r ∧ 0 < x.len ∧ x.addr % 64 + x.len ≤ 64 ∧ x.write = none ∧ x.errors = [] ∧ x.hint = 1 ∧ s.copying r.unit = false ∧
      s.deadPlace r = false ∧ Tab.get none s.hbm.cache (x.addr / 64) = none) ∧
    (∃ (s : State) (x : HbmAccess) (p : Place) (bs : List Byte) (b : Bool), s.live = true ∧ s.region x.addr = .hbm p ∧ x.len =
      64 ∧ x.addr % 64 = 0 ∧ x.write = some (bs, b) ∧ bs.length = 64 ∧ x.hint = 1 ∧ s.copying p.unit = false ∧ Tab.get none
      s.hbm.cache (x.addr / 64) = none) ∧
    (∃ (s : State) (n : Fin 1024), s.live = true ∧ (s.channel n.val).silent ≤ 6) ∧
    (∃ (s : State) (n : Fin 1024), s.live = true ∧ 7 ≤ (s.channel n.val).silent ∧ (s.channel n.val).state = .healthy) ∧
    (∃ (s : State) (n : Fin 1024) (k : Nat), s.live = true ∧ s.hbm.pcs = []) ∧
    (∃ (s : State) (l : Nat), s.live = true ∧ (s.region (64 * l) = .cellar ∨ s.region (64 * l) = .coreMem)) ∧
    (∃ (s : State) (l : Nat) (p : Place), s.live = true ∧ s.region (64 * l) = .hbm p ∧ s.deadPlace p = false) ∧
    (∃ (s : State) (l : Nat), s.live = true ∧ l < 3 * 2 ^ 34 ∧ s.ownerOf (physUnit (64 * l)) = none ∧ (s.channel (unitChannel
      (physUnit (64 * l)))).unresponsive = false) ∧
    (∃ (s : State), s.live = true) ∧
    (∃ (s : State) (r : Fin 64) (w : Word), s.live = true ∧ s.job.state = 0 ∧ w.getLsbD 63 = true ∧ s.ilCheck r.val (w &&&
      0xFE000FFFFFFFFF00) = none) ∧
    (∃ (s : State) (r : Fin 64) (w : Word) (k : Nat), s.live = true ∧ s.job.state = 0 ∧ w.getLsbD 63 = true ∧ s.ilCheck r.val
      (w &&& 0xFE000FFFFFFFFF00) = some k) ∧
    (∃ (s : State) (r : Fin 64) (w : Word), s.live = true ∧ s.job.state ≠ 0) :=
  ⟨⟨up, ⟨0, 8, none, 1, []⟩, firstPlace, firstPlace, by decide +kernel⟩,
   ⟨up, ⟨0, 64, some (List.replicate 64 1, false), 1, []⟩, firstPlace, List.replicate 64 1, false, by decide +kernel⟩,
   ⟨up, 5, by decide +kernel⟩,
   ⟨on { chip with hbm := { Hbm.reset with channels := [(5, { Channel.reset with silent := 7 })] } }, 5, by decide +kernel⟩,
   ⟨up, 5, 3, by decide +kernel⟩,
   ⟨up, 0x2000000000, by decide +kernel⟩,
   ⟨up, 0, firstPlace, by decide +kernel⟩,
   ⟨up, 3 * 2 ^ 34 - 1, by decide +kernel⟩,
   ⟨up, by decide +kernel⟩,
   ⟨up, 0, Hbm.entry0 1008, by decide +kernel⟩,
   ⟨up, 0, BitVec.ofNat 64 (2 ^ 63), 2, by decide +kernel⟩,
   ⟨{ up with job := ⟨1, 0⟩ }, 0, 0, by decide +kernel⟩⟩

theorem meets_Map_out :
    (∃ (s : State) (n : Half) (t : Chip), s.live = true ∧ n.toNat < 1024 ∧ (s.channel n.toNat).state = .healthy ∧ t =
      s.toChip.setChannel n.toNat (fun x => { x with cause := some .request }) ∧ t.mappedOutCount < 64 ∧ s.hbm.migration =
      none ∧ s.hbm.shrink = none ∧ s.hbm.waitingChannels = []) ∧
    (∃ (s : Chip) (n : Nat) (k : MapCause), (s.unitsOfChannel n).length ≤ s.headlandFree ∧ (s.channel n).unresponsive = false) ∧
    (∃ (s : Chip) (n : Nat) (k : MapCause), s.headlandFree < (s.unitsOfChannel n).length) ∧
    (∃ (s : State) (n : Fin 1024) (m : Migration), s.live = true ∧ s.hbm.migration = some m ∧ m.channel = n.val ∧ m.chosen =
      false) ∧
    (∃ (s : State) (m : Migration) (x : UnitCopy), s.live = true ∧ s.hbm.migration = some m ∧ m.todo = [] ∧ m.copying = [x] ∧
      m.poison = false) ∧
    (∃ (s : State) (m : Migration) (x : UnitCopy), s.live = true ∧ s.hbm.migration = some m ∧ m.todo = [] ∧ m.copying = [x] ∧
      m.poison = true) ∧
    (∃ (s : State) (p : Nat) (x : UnitCopy) (l : List (Nat × Nat)), s.live = true ∧ s.hbm.migration = none ∧ s.hbm.sweeps =
      [⟨p, .draining, [], [x], l⟩]) ∧
    (∃ (s : State) (m : Migration), s.live = true ∧ s.hbm.migration = some m ∧ m.chosen = true ∧ m.todo = [] ∧ m.copying = []
      ∧ s.hbm.waitingChannels = [] ∧ (∀ e ∈ s.hbm.pcs, e.2.sweepDue = false)) ∧
    (∃ (s : State) (k : Shrink) (i : Instr), s.live = true ∧ (i = .shrinkAck true ∨ i = .shrinkGraceExpiry) ∧ s.hbm.shrink =
      some k ∧ (s.channel k.channel).unresponsive = false) ∧
    (∃ (s : State) (i : Instr), s.live = true ∧ (i = .shrinkAck true ∨ i = .shrinkGraceExpiry) ∧ s.hbm.shrink = none) ∧
    (∃ (s : State) (p : Nat) (i : Instr), s.live = true ∧ p < 2048 ∧ ((∃ k : Fin 2048, k.val = p ∧ i = .marginPeriodTimer k) ∨
      i = .marginNow (BitVec.ofNat 16 p)) ∧ s.obj O.marginPeriod ≠ 0 ∧ (s.channel (p / 2)).state = .healthy ∧ s.hbm.sweeps =
      [] ∧ s.sweepNeed p + 2048 ≤ s.headlandFree) ∧
    (∃ (s : State) (p : Fin 2048), s.live = true ∧ s.obj O.marginPeriod = 0) ∧
    (∃ (s : State) (p : Half), s.live = true ∧ p.toNat < 2048 ∧ (s.channel (p.toNat / 2)).state = .healthy ∧ s.hbm.sweeps = []
      ∧ s.headlandFree < s.sweepNeed p.toNat + 2048) ∧
    (∃ (s : State) (p : Fin 2048) (w : List (Int × Int × Int × Int)) (l : List (Nat × Nat)), s.live = true ∧ (l.map
      (·.1)).Nodup ∧ s.hbm.sweeps = [⟨p.val, .draining, l, [], []⟩]) ∧
    (∃ (s : State) (p : Fin 2048) (w : List (Int × Int × Int × Int)) (l : List (Nat × Nat)), s.live = true ∧ s.hbm.sweeps =
      [⟨p.val, .sweeping, [], [], l⟩]) ∧
    (∃ (s : State) (p : Fin 2048) (w : List (Int × Int × Int × Int)) (l : List (Nat × Nat)), s.live = true ∧ (∀ e ∈ s.hbm.pcs,
      e.2.sweepDue = false) ∧ s.hbm.sweeps = [⟨p.val, .copyingBack, l, [], []⟩]) ∧
    (∃ (s : State) (p : Fin 2048), s.live = true ∧ (Tab.get Stack.reset s.hbm.hbmStacks (p.val / 64)).selfRefresh = false) ∧
    (∃ (s : State) (p : Fin 2048), s.live = true ∧ (Tab.get Stack.reset s.hbm.hbmStacks (p.val / 64)).selfRefresh = true) :=
  ⟨⟨hbmSmall, 5, hbmSmall.toChip.setChannel 5 fun x => { x with cause := some .request }, by decide +kernel⟩,
   ⟨hbmSmall.toChip, 5, .request, by decide +kernel⟩,
   ⟨hbmWorn.toChip, 100, .request, by decide +kernel⟩,
   ⟨moving (fun m => { m with chosen := false }), 0, ⟨0, .request, false, 0, false, [], []⟩, by decide +kernel⟩,
   ⟨moving (fun m => { m with copying := [⟨0, 5000, [], false⟩] }), ⟨0, .request, false, 0, true, [], [⟨0, 5000, [], false⟩]⟩,
     ⟨0, 5000, [], false⟩, by decide +kernel⟩,
   ⟨moving (fun m => { m with poison := true, copying := [⟨0, 5000, [], false⟩] }), ⟨0, .request, true, 0, true, [],
     [⟨0, 5000, [], false⟩]⟩, ⟨0, 5000, [], false⟩, by decide +kernel⟩,
   ⟨on { chip with hbm := { Hbm.reset with sweeps := [⟨0, .draining, [], [⟨5, 6, [], false⟩], []⟩] } }, 0, ⟨5, 6, [], false⟩,
     [], by decide +kernel⟩,
   ⟨moving id, ⟨0, .request, false, 0, true, [], []⟩, by decide +kernel⟩,
   ⟨{ hbmSmall with hbm := { hbmSmall.hbm with shrink := some ⟨3, .request⟩ } }, ⟨3, .request⟩, .shrinkAck true,
     by decide +kernel⟩,
   ⟨up, .shrinkGraceExpiry, by decide +kernel⟩,
   ⟨hbmSmall, 0, .marginNow 0, (by refine ⟨by decide +kernel, by decide, .inr rfl, ?_⟩; and_intros <;> decide +kernel)⟩,
   ⟨on { chip with objs := [(O.marginPeriod, 0)] }, 0, by decide +kernel⟩,
   ⟨hbmWorn, 100, by decide +kernel⟩,
   ⟨on { chip with hbm := { Hbm.reset with sweeps := [⟨0, .draining, [], [], []⟩] } }, 0, [], [], by decide +kernel⟩,
   ⟨on { chip with hbm := { Hbm.reset with sweeps := [⟨0, .sweeping, [], [], []⟩] } }, 0, [], [], by decide +kernel⟩,
   ⟨on { chip with hbm := { Hbm.reset with sweeps := [⟨0, .copyingBack, [], [], []⟩] } }, 0, [], [], by decide +kernel⟩,
   ⟨up, 0, by decide +kernel⟩,
   ⟨on { chip with hbm := { Hbm.reset with hbmStacks := [(0, { Stack.reset with selfRefresh := true })] } }, 0,
     by decide +kernel⟩⟩

theorem meets_Control_core_instructions :
    (∃ (s : State) (k : Fin 264) (w : Word32) (t : Chip) (op : AluOp) (half : Bool) (rd rs1 : BitVec 5) (b : AluSrc) (v :
      Word), s.mayIssue k.val (rvLen w.toNat) ∧ t = s.toChip.fetched k.val ∧ decodeRv w.toNat = some (.alu op half rd rs1 b) ∧
      v = (match b with | .reg r => (t.core k.val).rx r | .imm v => v)) ∧
    (∃ (s : State) (k : Fin 264) (w : Word32) (t : Chip) (op : BranchOp) (rs1 rs2 : BitVec 5) (off : Word), s.mayIssue k.val
      (rvLen w.toNat) ∧ t = s.toChip.fetched k.val ∧ decodeRv w.toNat = some (.branch op rs1 rs2 off)) ∧
    (∃ (s : State) (k : Fin 264) (w : Word32) (rd : BitVec 5) (off : Word), s.mayIssue k.val (rvLen w.toNat) ∧ rd ≠ 0 ∧
      decodeRv w.toNat = some (.jal rd off)) ∧
    (∃ (s : State) (k : Fin 264) (w : Word32) (t : Chip) (op : FpOp) (dbl : Bool) (rd rs1 rs2 : BitVec 5) (rm : BitVec 3) (m :
      RMode) (r : FpResult), s.mayIssue k.val (rvLen w.toNat) ∧ t = s.toChip.fetched k.val ∧ decodeRv w.toNat = some (.fp op
      dbl rd rs1 rs2 rm) ∧ (∀ a b c, op ≠ .fma a b c) ∧ (t.core k.val).roundingOf rm = some m ∧ op.rounds = true ∧ r =
      fpResult op dbl m ((t.core k.val).rf rs1) ((t.core k.val).rf rs2) ((t.core k.val).rf 0) ((t.core k.val).rx rs1)) ∧
    (∃ (s : State) (k : Fin 264) (w : Word32), s.mayIssue k.val (rvLen w.toNat) ∧ decodeRv w.toNat = none) :=
  ⟨⟨running id, 0, 0x00500093, (running id).toChip.fetched 0, .add, false, 1, 0, .imm 5, 5,
     by and_intros <;> first | decide +kernel | rfl⟩,
   ⟨running id, 0, 0x00000463, (running id).toChip.fetched 0, .beq, 0, 0, 8, by and_intros <;> first | decide +kernel | rfl⟩,
   ⟨running id, 0, 0x008000EF, 1, 8, by and_intros <;> first | decide +kernel | rfl⟩,
   ⟨running id, 0, 0x00000053, (running id).toChip.fetched 0, .add, false, 0, 0, 0, 0, .rne, fpResult .add false .rne 0 0 0 0,
     (by refine ⟨by and_intros <;> decide +kernel, rfl, by decide +kernel, by simp, by decide +kernel, by decide +kernel, ?_⟩; rfl)⟩,
   ⟨running id, 0, 0, by and_intros <;> first | decide +kernel | rfl⟩⟩

theorem meets_Control_core_accesses :
    (∃ (s : State) (k : Fin 264) (q : LoadKind) (rd rs1 : BitVec 5) (imm : BitVec 12) (b : Bool) (t : Chip) (w : Word) (o :
      Nat), s.mayIssue k.val (if b then 2 else 4) ∧ t = s.toChip.fetched k.val ∧ w = (t.core k.val).rx rs1 + imm.signExtend 64
      ∧ t.accessTo k.val .load w (loadShape q).1 = .ok (.chip o) ∧ (t.coreRegion o).isData = true ∧ (loadShape q).2.2 = false
      ∧ readPoison (t.readFrom (coreSite k.val) o (loadShape q).1 (t.core k.val).hint).2 = false) ∧
    (∃ (s : State) (k : Fin 264) (q : LoadKind) (rd rs1 : BitVec 5) (imm : BitVec 12) (b : Bool) (t : Chip) (w : Word) (o :
      Nat), s.mayIssue k.val (if b then 2 else 4) ∧ t = s.toChip.fetched k.val ∧ w = (t.core k.val).rx rs1 + imm.signExtend 64
      ∧ t.accessTo k.val .load w (loadShape q).1 = .ok (.chip o) ∧ (t.coreRegion o).isData = true ∧ readPoison (t.readFrom
      (coreSite k.val) o (loadShape q).1 (t.core k.val).hint).2 = true) ∧
    (∃ (s : State) (k : Fin 264) (q : StoreKind) (rs1 rs2 : BitVec 5) (imm : BitVec 12) (b : Bool) (t : Chip) (w v : Word) (o
      : Nat), s.mayIssue k.val (if b then 2 else 4) ∧ t = s.toChip.fetched k.val ∧ w = (t.core k.val).rx rs1 + imm.signExtend
      64 ∧ v = (if (storeShape q).2 then (t.core k.val).rf rs2 else (t.core k.val).rx rs2) ∧ t.accessTo k.val .store w
      (storeShape q).1 = .ok (.chip o) ∧ (t.coreRegion o).isData = true) ∧
    (∃ (s : State) (k : Fin 264) (i : Instr) (n : Nat) (x : Access) (q : Nat) (w : Word), s.mayIssue k.val n ∧ ((∃ l rd rs1
      imm b, i = .ctrlLoad k l rd rs1 imm b ∧ n = (if b then 2 else 4) ∧ x = .load ∧ q = (loadShape l).1 ∧ w = (s.core
      k.val).rx rs1 + imm.signExtend 64) ∨ (∃ l rs1 rs2 imm b, i = .ctrlStore k l rs1 rs2 imm b ∧ n = (if b then 2 else 4) ∧ x
      = .store ∧ q = (storeShape l).1 ∧ w = (s.core k.val).rx rs1 + imm.signExtend 64) ∨ (∃ op d rd rs1 rs2, i = .ctrlAmo k op
      d rd rs1 rs2 ∧ n = 4 ∧ x = .amo ∧ q = (if d then 8 else 4) ∧ w = (s.core k.val).rx rs1)) ∧ (s.toChip.fetched
      k.val).accessTo k.val x w q = .error .align) ∧
    (∃ (s : State) (k : Fin 264) (op : AmoOp) (d : Bool) (rd rs1 rs2 : BitVec 5) (t : Chip) (n o : Nat), s.mayIssue k.val 4 ∧
      t = s.toChip.fetched k.val ∧ n = (if d then 8 else 4) ∧ t.accessTo k.val .amo ((t.core k.val).rx rs1) n = .ok (.chip o)
      ∧ readPoison (t.readFrom (coreSite k.val) o n (t.core k.val).hint).2 = false) ∧
    (∃ (s : State) (k : Fin 264) (d : Bool) (rd rs1 : BitVec 5) (t : Chip) (n o : Nat), s.mayIssue k.val 4 ∧ t =
      s.toChip.fetched k.val ∧ n = (if d then 8 else 4) ∧ t.accessTo k.val .lrsc ((t.core k.val).rx rs1) n = .ok (.chip o) ∧
      readPoison (t.readFrom (coreSite k.val) o n 0).2 = false) ∧
    (∃ (s : State) (k : Fin 264) (d : Bool) (rd rs1 rs2 : BitVec 5) (t : Chip) (n o : Nat), s.mayIssue k.val 4 ∧ t =
      s.toChip.fetched k.val ∧ n = (if d then 8 else 4) ∧ t.accessTo k.val .lrsc ((t.core k.val).rx rs1) n = .ok (.chip o)) ∧
    (∃ (s : State) (k : Fin 264), s.mayIssue k.val 4 ∧ (s.core k.val).storesOut = 0) ∧
    (∃ (s : State) (k : Fin 264), s.mayIssue k.val 4 ∧ (s.core k.val).storesOut ≠ 0) ∧
    (∃ (s : State) (k : Fin 264), s.mayIssue k.val 4) ∧
    (∃ (s : State) (k : Fin 264) (b : Bool), s.mayIssue k.val 4) ∧
    (∃ (s : State) (k : Fin 264) (n : BitVec 12) (rd r : BitVec 5), s.mayIssue k.val 4 ∧ 0x800 ≤ n.toNat ∧ n.toNat ≤ 0x80A) ∧
    (∃ (s : State) (k : Fin 264) (op : CsrOp) (rd : BitVec 5), s.mayIssue k.val 4 ∧ op ≠ .rw ∧ rd ≠ 0) ∧
    (∃ (s : State) (k : Fin 264) (rd rs1 rs2 : BitVec 5) (t : Chip) (o : Nat), s.mayIssue k.val 4 ∧ t = s.toChip.fetched k.val
      ∧ s.objb O.detMode = false ∧ t.accessTo k.val .amo ((t.core k.val).rx rs1) 4 = .ok (.chip o) ∧ readPoison (t.readFrom
      (coreSite k.val) o 4 (t.core k.val).hint).2 = false) ∧
    (∃ (s : State) (k : Fin 264) (rd rs1 rs2 : BitVec 5), s.mayIssue k.val 4 ∧ s.objb O.detMode = true) ∧
    (∃ (s : Chip) (k : Nat) (cause : Cause) (a : Word) (y : KernelCtx), (s.core k).kernel = some y ∧ (s.core k).faulted = none
      ∧ y.fateShare = false) ∧
    (∃ (s : State) (k : Fin 264), s.live = true) ∧
    (∃ (s : State) (k : Fin 264) (w : Word32) (x : Cause) (a : Word), s.live = true ∧ (s.core k.val).issuing = true ∧ (s.core
      k.val).fallow = false ∧ (s.core k.val).stall = none ∧ s.fetchFault k.val (rvLen w.toNat) = some (x, a)) ∧
    (∃ (s : State) (k : Fin 264) (y : KernelCtx), s.live = true ∧ (s.core k.val).state = .draining ∧ (s.core k.val).kernel =
      some y ∧ (s.core k.val).faulted = none) :=
  ⟨⟨running id, 0, .lw, 2, 0, 0, false, (running id).toChip.fetched 0, 0, 0, by and_intros <;> first | decide +kernel | rfl⟩,
   ⟨{ running (inOwn 0) with hbm := { Hbm.reset with poison := [(2 ^ 37, true)] } }, 0, .lw, 2, 1, 0, false,
     { running (inOwn 0) with hbm := { Hbm.reset with poison := [(2 ^ 37, true)] } }.toChip.fetched 0,
     BitVec.ofNat 64 (2 ^ 57), 0x80000000000, by and_intros <;> first | decide +kernel | rfl⟩,
   ⟨running id, 0, .sw, 0, 2, 0, false, (running id).toChip.fetched 0, 0, 0, 0,
     by and_intros <;> first | decide +kernel | rfl⟩,
   ⟨running (fun x => { x with x := [(1, 1)] }), 0, .ctrlAmo 0 .add false 2 1 0, 4, .amo, 4, 1,
     by exact ⟨by and_intros <;> decide +kernel, .inr (.inr ⟨.add, false, 2, 1, 0, rfl, rfl, rfl, rfl, rfl⟩),
     by decide +kernel⟩⟩,
   ⟨running id, 0, .add, false, 2, 0, 0, (running id).toChip.fetched 0, 4, 0, by and_intros <;> first | decide +kernel | rfl⟩,
   ⟨running (inOwn 0), 0, false, 2, 1, (running (inOwn 0)).toChip.fetched 0, 4, 0x80000000000,
     by and_intros <;> first | decide +kernel | rfl⟩,
   ⟨running (inOwn 0), 0, false, 2, 1, 0, (running (inOwn 0)).toChip.fetched 0, 4, 0x80000000000,
     by and_intros <;> first | decide +kernel | rfl⟩,
   ⟨running id, 0, by and_intros <;> first | decide +kernel | rfl⟩,
   ⟨running fun x => { x with storesOut := 1 }, 0, by and_intros <;> first | decide +kernel | rfl⟩,
   ⟨running id, 0, by and_intros <;> first | decide +kernel | rfl⟩,
   ⟨running id, 0, true, by and_intros <;> first | decide +kernel | rfl⟩,
   ⟨running id, 0, 0x80A, 2, 1, by and_intros <;> first | decide +kernel | rfl⟩,
   ⟨running id, 0, .rs, 2, by and_intros <;> first | decide +kernel | rfl⟩,
   ⟨running id, 0, 2, 0, 0, (running id).toChip.fetched 0, 0, by and_intros <;> first | decide +kernel | rfl⟩,
   ⟨{ running id with objs := [(O.detMode, 1)] }, 0, 2, 0, 0, by and_intros <;> first | decide +kernel | rfl⟩,
   ⟨(running id).toChip, 0, .align, 5, ⟨0, 0, 0, 4096, 0, false⟩, by decide +kernel⟩,
   ⟨up, 0, by decide +kernel⟩,
   ⟨running (fun x => { x with pc := 0 }), 0, 0, .addr, 0, by decide +kernel⟩,
   ⟨coreIn 0 .draining (fun x => { x with kernel := some ⟨0, 0, 0, 4096, 0, false⟩ }), 0, ⟨0, 0, 0, 4096, 0, false⟩,
     by decide +kernel⟩⟩

theorem meets_Core_synchronisation :
    (∃ (s : State) (k : Fin 264) (rs1 rs2 : BitVec 5) (t : Chip), s.mayIssue k.val 4 ∧ t = s.toChip.fetched k.val ∧ (t.core
      k.val).released = true) ∧
    (∃ (s : State) (k : Fin 264) (i : Instr) (rd rs1 rs2 : BitVec 5), s.mayIssue k.val 4 ∧ rd ≠ 0 ∧ (i = .xsigl k rd rs1 rs2 ∨
      i = .xwaitl k rd rs1 rs2 ∨ i = .xwaitc k rd rs1 rs2 ∨ i = .xwaitu k rd rs1 rs2 ∨ i = .xend k rd rs1 rs2 ∨ i = .xaclr k
      rd rs1 rs2)) ∧
    (∃ (s : State) (k : Fin 264) (rs1 rs2 : BitVec 5) (t : Chip) (j : Nat), s.mayIssue k.val 4 ∧ t = s.toChip.fetched k.val ∧
      j = ((t.core k.val).rx rs1).toNat % 64) ∧
    (∃ (s : State) (k : Fin 264) (rd rs1 rs2 : BitVec 5) (t : Chip), s.mayIssue k.val 4 ∧ t = s.toChip.fetched k.val) ∧
    (∃ (s : State) (k : Fin 264) (rd rs1 rs2 : BitVec 5) (t u : Chip) (old : Nat), s.mayIssue k.val 4 ∧ t = s.toChip.fetched
      k.val ∧ (t.core k.val).released = true ∧ ((t.core k.val).rx rs1).toNat < 262144 ∧ t.addFrom ((t.core k.val).rx
      rs1).toNat ((t.core k.val).rx rs2) (.core k.val 0) = (u, .applied old)) ∧
    (∃ (s : State) (k : Fin 264) (rs1 rs2 : BitVec 5) (t u : Chip) (b : Bool), s.mayIssue k.val 4 ∧ t = s.toChip.fetched k.val
      ∧ ((t.core k.val).rx rs1).toNat < 262144 ∧ t.registerWait ((t.core k.val).rx rs1).toNat ((t.core k.val).rx rs2) (.core
      k.val 0) = (u, b)) ∧
    (∃ (s : State) (k : Fin 264) (rd rs1 rs2 : BitVec 5) (t : Chip), s.mayIssue k.val 4 ∧ t = s.toChip.fetched k.val ∧ (t.core
      k.val).rx rs2 = 2 ∧ (t.core k.val).vectorQ.length < 16) ∧
    (∃ (s : State) (k : Fin 264) (rs1 rs2 : BitVec 5) (t : Chip), s.mayIssue k.val 4 ∧ t = s.toChip.fetched k.val ∧ ((t.core
      k.val).rx rs1).toNat < 8 ∧ (t.core k.val).unitsIdle = true) ∧
    (∃ (s : State) (k : Fin 264) (rs1 rs2 : BitVec 5), s.mayIssue k.val 4 ∧ (s.core k.val).unitsIdle = true ∧ (s.core
      k.val).storesOut = 0 ∧ (s.core k.val).state = .running ∧ (s.core k.val).drainOffline = false ∧ (s.core k.val).faulted =
      none) :=
  ⟨⟨running id, 0, 1, 2, (running id).toChip.fetched 0, by and_intros <;> first | decide +kernel | rfl⟩,
   ⟨running id, 0, .xend 0 1 2 3, 1, 2, 3, by exact ⟨by and_intros <;> decide +kernel, by decide, by simp⟩⟩,
   ⟨running id, 0, 1, 2, (running id).toChip.fetched 0, 0, by and_intros <;> first | decide +kernel | rfl⟩,
   ⟨running id, 0, 1, 2, 3, (running id).toChip.fetched 0, by and_intros <;> first | decide +kernel | rfl⟩,
   ⟨running id, 0, 1, 2, 3, (running id).toChip.fetched 0, (((running id).toChip.fetched 0).addFrom 0 0 (.core 0 0)).1, 0,
     by and_intros <;> first | decide +kernel | rfl⟩,
   ⟨running id, 0, 2, 3, (running id).toChip.fetched 0, (((running id).toChip.fetched 0).registerWait 0 0 (.core 0 0)).1,
     true, by and_intros <;> first | decide +kernel | rfl⟩,
   ⟨running (fun x => { x with x := [(2, 2)] }), 0, 1, 1, 2, (running (fun x => { x with x := [(2, 2)] })).toChip.fetched 0,
     by and_intros <;> first | decide +kernel | rfl⟩,
   ⟨running id, 0, 1, 2, (running id).toChip.fetched 0, by and_intros <;> first | decide +kernel | rfl⟩,
   ⟨running id, 0, 1, 2, by and_intros <;> first | decide +kernel | rfl⟩⟩

theorem meets_Vector_instructions :
    (∃ (i : Instr) (op : Nat) (s : State) (k : Fin 264) (form : BitVec 3) (rd rs1 rs2 : BitVec 5) (t : Chip),
      (((i = .vcopy k form rd rs1 rs2 ∧ op = 0x00) ∨ (i = .vadd k form rd rs1 rs2 ∧ op = 0x01) ∨ (i = .vsub k form rd rs1 rs2 ∧
      op = 0x02) ∨ (i = .vmul k form rd rs1 rs2 ∧ op = 0x03) ∨ (i = .vfma k form rd rs1 rs2 ∧
      op = 0x04) ∨ (i = .vmin k form rd rs1 rs2 ∧ op = 0x05) ∨ (i = .vmax k form rd rs1 rs2 ∧
      op = 0x06) ∨ (i = .vabs k form rd rs1 rs2 ∧ op = 0x07) ∨ (i = .vneg k form rd rs1 rs2 ∧
      op = 0x08) ∨ (i = .vand k form rd rs1 rs2 ∧ op = 0x09) ∨ (i = .vor k form rd rs1 rs2 ∧
      op = 0x0A) ∨ (i = .vxor k form rd rs1 rs2 ∧ op = 0x0B) ∨ (i = .vshl k form rd rs1 rs2 ∧
      op = 0x0C) ∨ (i = .vshr k form rd rs1 rs2 ∧ op = 0x0D) ∨ (i = .vcmpeq k form rd rs1 rs2 ∧
      op = 0x10) ∨ (i = .vcmplt k form rd rs1 rs2 ∧ op = 0x11) ∨ (i = .vcmple k form rd rs1 rs2 ∧
      op = 0x12) ∨ (i = .vsel k form rd rs1 rs2 ∧ op = 0x13) ∨ (i = .vcvt k form rd rs1 rs2 ∧
      op = 0x18) ∨ (i = .vexp k form rd rs1 rs2 ∧ op = 0x20) ∨ (i = .vlog k form rd rs1 rs2 ∧
      op = 0x21) ∨ (i = .vrcp k form rd rs1 rs2 ∧ op = 0x22) ∨ (i = .vrsqrt k form rd rs1 rs2 ∧
      op = 0x23) ∨ (i = .vsqrt k form rd rs1 rs2 ∧ op = 0x24) ∨ (i = .vsin k form rd rs1 rs2 ∧
      op = 0x25) ∨ (i = .vcos k form rd rs1 rs2 ∧ op = 0x26) ∨ (i = .vtanh k form rd rs1 rs2 ∧
      op = 0x27) ∨ (i = .vsigmoid k form rd rs1 rs2 ∧ op = 0x28) ∨ (i = .vrsum k form rd rs1 rs2 ∧
      op = 0x30) ∨ (i = .vrmax k form rd rs1 rs2 ∧ op = 0x31) ∨ (i = .vrmin k form rd rs1 rs2 ∧
      op = 0x32) ∨ (i = .vaccsr k form rd rs1 rs2 ∧ op = 0x38) ∨ (i = .vgather k form rd rs1 rs2 ∧
      op = 0x3C) ∨ (i = .vscatter k form rd rs1 rs2 ∧ op = 0x3D))) ∧ s.mayIssue k.val 4 ∧ t = s.toChip.fetched k.val) ∧
    (∃ (op : Nat) (form : BitVec 3) (rs1 rs2 : BitVec 5) (t : Chip) (y f d n : Nat) (b : Word), (op = 0x24 ∧ form = 3 ∧ rs1 = 1 ∧
      rs2 = 0) ∧ (running (inOwn 0)).mayIssue 0 4 ∧ t = (running (inOwn 0)).toChip.fetched 0 ∧ form.toNat ≤ 3 ∧
      vecForm op form.toNat = true ∧ y = ((t.core 0).csr 0x801).toNat ∧ y < 2 ^ 9 ∧ f = y % 16 ∧ d = y / 16 % 16 ∧
      vecFormats op form.toNat f d = true ∧ n = vlen ((t.core 0).csr 0x800) ∧ b = (t.core 0).rx rs2 ∧
      ((t.core 0).csr 0x800).toNat < 2 ^ 16 ∧ ((t.core 0).csr 0x803).toNat < 2 ^ 7 ∧ (form = 3 → rs2 = 0) ∧
      (op = 0 → form ≠ 3 → rs1 = 0) ∧ (vecRounds op f = true → (t.core 0).frm.toNat ≤ 4) ∧ (t.core 0).vectorQ.length < 16 ∧
      (vecRanges op form.toNat ((t.core 0).rx 1) ((t.core 0).rx rs1) b n f d (vmasked ((t.core 0).csr 0x801)) ((t.core 0).csr 0x802)).all (fun r => decide (r.addr.toNat / 2 ^ 56 = 2 ∧
      r.addr.toNat % 2 ^ 56 < ownBytes 0 ∧ r.addr.toNat % 2 ^ 56 + r.len ≤ ownBytes 0 ∧ r.addr.toNat % r.align = 0)) = true) :=
  ⟨⟨.vsqrt 0 1 1 1 0, 0x24, running id, 0, 1, 1, 1, 0, (running id).toChip.fetched 0,
    by exact ⟨by simp, by and_intros <;> decide +kernel, rfl⟩⟩,
   ⟨0x24, 3, 1, 0, (running (inOwn 0)).toChip.fetched 0, 0, 0, 0, 65536, 0,
    by and_intros <;> first | decide +kernel | rfl⟩⟩

theorem meets_Dma_and_array_instructions :
    (∃ (s : State) (k : Fin 264) (i : Instr) (op : UnitOp) (rd rs1 rs2 : BitVec 5) (t : Chip) (d a n : Word) (e : Target ×
      Target), s.mayIssue k.val 4 ∧ t = s.toChip.fetched k.val ∧ d = (t.core k.val).rx rd ∧ a = (t.core k.val).rx rs1 ∧ n =
      (t.core k.val).rx rs2 ∧ (t.core k.val).badDmaCsrs = false ∧ (t.core k.val).csr 0x806 = 0 ∧ (t.core k.val).dmaQ.length <
      16 ∧ ((i = .xdcopy k rd rs1 rs2 ∧ n.toNat < 2 ^ 32 ∧ t.dmaEnds k.val d a n.toNat = .ok e ∧ op = .dcopy d a n.toNat 0) ∨
      (i = .xdcopy2 k rd rs1 rs2 ∧ n.toNat < 2 ^ 32 ∧ (t.core k.val).csr 0x808 = 0 ∧ t.dmaEnds k.val d a n.toNat = .ok e ∧ op
      = .dcopy2 d a n.toNat 1 0 0 0) ∨ (i = .xdfill k rd rs1 rs2 ∧ n.toNat < 2 ^ 32 ∧ t.dmaEnd k.val .wr d n.toNat = .ok e.1 ∧
      op = .dfill d a n.toNat 0))) ∧
    (∃ (s : State) (k : Fin 264) (rd rs1 rs2 : BitVec 5) (t : Chip) (w : Word) (b d n : Nat) (p : ArrayPair) (op : UnitOp) (l
      h : Nat), s.mayIssue k.val 4 ∧ t = s.toChip.fetched k.val ∧ k.val < 256 ∧ (t.core k.val).badArrayCsrs = false ∧ w =
      (t.core k.val).rx rs2 ∧ w.toNat < 2 ^ 17 ∧ b = w.toNat % 4 ∧ d = w.toNat / 4 % 128 + 1 ∧ n = w.toNat / 512 % 256 + 1 ∧
      arrayPair (wfmtOf ((t.core k.val).csr 0x804)) (afmtOf ((t.core k.val).csr 0x804)) = some p ∧ tileOk p (wfmtOf ((t.core
      k.val).csr 0x804)) d = true ∧ (fmtMx (wfmtOf ((t.core k.val).csr 0x804)) = true → n ≤ ((t.core k.val).rx rd).toNat) ∧ op
      = .aldw ((t.core k.val).rx rd).toNat (arrayAddr k.val ((t.core k.val).rx rs1)) b d n ((t.core k.val).csr 0x804) ∧
      op.footprint = some (l, h) ∧ l < ownBytes k.val ∧ h ≤ ownBytes k.val ∧ (t.core k.val).arrayQ.length < 16) ∧
    (∃ (s : State) (k : Fin 264) (rd rs1 rs2 : BitVec 5) (t : Chip) (w : Word) (b m row d n : Nat) (p : ArrayPair) (op :
      UnitOp) (l h : Nat), s.mayIssue k.val 4 ∧ t = s.toChip.fetched k.val ∧ k.val < 256 ∧ (t.core k.val).badArrayCsrs = false
      ∧ w = (t.core k.val).rx rs2 ∧ w.toNat < 2 ^ 23 ∧ b = w.toNat % 4 ∧ m = w.toNat / 4 % 1024 + 1 ∧ row = w.toNat / 4096 %
      1024 ∧ row + m ≤ 1024 ∧ arrayPair (wfmtOf ((t.core k.val).csr 0x804)) (afmtOf ((t.core k.val).csr 0x804)) = some p ∧
      (t.core k.val).array.shadowOf b = (true, BitVec.ofNat 4 (wfmtOf ((t.core k.val).csr 0x804)), d, n) ∧ tileOk p (wfmtOf
      ((t.core k.val).csr 0x804)) d = true ∧ op = .amm ((t.core k.val).rx rd).toNat (arrayAddr k.val ((t.core k.val).rx rs1))
      b m row (w.getLsbD 22) false ((t.core k.val).csr 0x804) d n ∧ op.footprint = some (l, h) ∧ l < ownBytes k.val ∧ h ≤
      ownBytes k.val ∧ (t.core k.val).arrayQ.length < 16) ∧
    (∃ (s : State) (k : Fin 264) (rd rs1 rs2 : BitVec 5) (t : Chip) (w : Word) (row rows : Nat) (op : UnitOp) (l h : Nat),
      s.mayIssue k.val 4 ∧ t = s.toChip.fetched k.val ∧ k.val < 256 ∧ (t.core k.val).badArrayCsrs = false ∧ w = (t.core
      k.val).rx rs1 ∧ w.toNat < 2 ^ 21 ∧ row = w.toNat % 1024 ∧ rows = w.toNat / 1024 % 1024 + 1 ∧ row + rows ≤ 1024 ∧
      drainFormat (ofmtOf ((t.core k.val).csr 0x804)) = true ∧ op = .adrain (arrayAddr k.val ((t.core k.val).rx rd)) row rows
      (w.getLsbD 20) ((t.core k.val).rx rs2).toNat ((t.core k.val).csr 0x804) ∧ op.footprint = some (l, h) ∧ l < ownBytes
      k.val ∧ h ≤ ownBytes k.val ∧ (t.core k.val).arrayQ.length < 16) ∧
    (∃ (s : State) (k : Fin 264) (rs1 rs2 : BitVec 5) (t : Chip) (w : Word) (row rows : Nat), s.mayIssue k.val 4 ∧ t =
      s.toChip.fetched k.val ∧ k.val < 256 ∧ (t.core k.val).badArrayCsrs = false ∧ w = (t.core k.val).rx rs1 ∧ w.toNat < 2 ^
      20 ∧ row = w.toNat % 1024 ∧ rows = w.toNat / 1024 % 1024 + 1 ∧ row + rows ≤ 1024 ∧ (t.core k.val).arrayQ.length < 16) ∧
    (∃ (s : State) (k : Fin 264) (i : Instr) (rd rs1 rs2 : BitVec 5), s.mayIssue k.val 4 ∧ 256 ≤ k.val ∧ (i = .xaldw k rd rs1
      rs2 ∨ i = .xamm k rd rs1 rs2 ∨ i = .xadrain k rd rs1 rs2 ∨ i = .xaclr k rd rs1 rs2)) :=
  ⟨⟨running (inOwn 0), 0, .xdfill 0 1 2 3, .dfill (BitVec.ofNat 64 (2 ^ 57)) 0 0 0, 1, 2, 3,
     (running (inOwn 0)).toChip.fetched 0, BitVec.ofNat 64 (2 ^ 57), 0, 0, (.chip 0x80000000000, .chip 0),
     (by refine ⟨by and_intros <;> decide +kernel, rfl, by decide +kernel, by decide +kernel, by decide +kernel, by decide +kernel, by decide +kernel, by decide +kernel, .inr (.inr ?_)⟩; and_intros <;> first | decide +kernel | rfl)⟩,
   ⟨tiling, 0, 0, 1, 0, tiling.toChip.fetched 0, 0, 0, 1, 1, ⟨.fixed, false, 1, true⟩, .aldw 0 0 0 1 1 0x33, 0, 1,
     by and_intros <;> first | decide +kernel | rfl⟩,
   ⟨tiling, 0, 0, 1, 0, tiling.toChip.fetched 0, 0, 0, 1, 0, 1, 1, ⟨.fixed, false, 1,
     true⟩, .amm 0 0 0 1 0 false false 0x33 1 1, 0, 1, by and_intros <;> first | decide +kernel | rfl⟩,
   ⟨tiling, 0, 1, 0, 0, tiling.toChip.fetched 0, 0, 0, 1, .adrain 0 0 1 false 0 0x33, 0, 1024,
     by and_intros <;> first | decide +kernel | rfl⟩,
   ⟨tiling, 0, 0, 0, tiling.toChip.fetched 0, 0, 0, 1, by and_intros <;> first | decide +kernel | rfl⟩,
   ⟨{ runningOn 256 id with links := (linked 10 id).links }, 256, .xaclr 256 0 0 0, 0, 0, 0, by exact ⟨by and_intros <;> decide +kernel, by decide, by simp⟩⟩⟩

theorem meets_Units_at_work :
    (∃ (s : State) (k : Fin 264) (i : UnitInstr) (r : List UnitInstr), s.live = true ∧ (s.core k.val).unitFallow = 0 ∧ (s.core
      k.val).arrayQ = i :: r ∧ i.op.isWait = false ∧ (s.core k.val).arrayRun = []) ∧
    (∃ (s : State) (k : Fin 264) (i : UnitInstr) (r : List UnitInstr), s.live = true ∧ (s.core k.val).unitFallow = 0 ∧ (s.core
      k.val).vectorQ = i :: r ∧ i.op.isWait = false ∧ (s.core k.val).vectorRun = []) ∧
    (∃ (s : State) (k : Fin 264) (i : UnitInstr) (r : List UnitInstr), s.live = true ∧ (s.core k.val).unitFallow = 0 ∧ (s.core
      k.val).dmaQ = i :: r ∧ i.op.isWait = false) ∧
    (∃ (s : State) (k : Fin 264) (i : Instr) (u : UnitInstr) (j : Nat) (w : Word), s.live = true ∧ (s.core k.val).unitFallow =
      0 ∧ u.op = .wait j w ∧ (s.coreCounter k.val j).value.toNat < w.toNat ∧ ((i = .arrayInstrStart k ∧ (s.core k.val).arrayQ
      = [u]) ∨ (i = .vectorInstrStart k ∧ (s.core k.val).vectorQ = [u]) ∨ (i = .dmaInstrStart k ∧ (s.core k.val).dmaQ = [u]))) ∧
    (∃ (s : State) (k : Fin 264) (u : UnitInstr) (y : KernelCtx) (j : Nat) (w : Word), s.live = true ∧ (s.core
      k.val).unitFallow = 0 ∧ (s.core k.val).dmaQ = [u] ∧ u.op = .wait j w ∧ w.toNat ≤ (s.coreCounter k.val j).value.toNat ∧
      (s.core k.val).arrayQ = [] ∧ (s.core k.val).vectorQ = [] ∧ (s.core k.val).arrayRun = [] ∧ (s.core k.val).vectorRun = []
      ∧ (s.core k.val).dmaRun = [] ∧ (s.core k.val).storesOut = 0 ∧ (s.core k.val).ended = true ∧ (s.core k.val).kernel = some
      y ∧ (s.core k.val).state = .ending ∧ (s.core k.val).drainOffline = false ∧ (s.core k.val).faulted = none) ∧
    (∃ (s : State) (k : Fin 264) (i : UnitInstr), s.live = true ∧ (s.core k.val).dmaRun = [i] ∧ i.outstanding = 0 ∧ i.fault =
      none ∧ i.sig = none ∧ (s.core k.val).ended = false) ∧
    (∃ (s : State) (k : Fin 264) (i : UnitInstr) (j : Nat), s.live = true ∧ (s.core k.val).dmaRun = [i] ∧ i.outstanding = 0 ∧
      i.fault = none ∧ i.sig = some j ∧ (s.core k.val).ended = false ∧ (s.coreCounter k.val j).value.toNat + 1 < 2 ^ 64) ∧
    (∃ (s : State) (k : Fin 264) (i : UnitInstr) (row rows : Nat), s.live = true ∧ k.val < 256 ∧ (s.core k.val).arrayRun = [i]
      ∧ i.op = .aclr row rows ∧ i.sig = none ∧ (s.core k.val).ended = false) :=
  ⟨⟨coreIn 0 .running (fun x => { x with arrayQ := [unitOf (.aclr 0 1)] }), 0, unitOf (.aclr 0 1), [], by decide +kernel⟩,
   ⟨coreIn 0 .running (fun x => { x with vectorQ := [unitOf (.aclr 0 1)] }), 0, unitOf (.aclr 0 1), [], by decide +kernel⟩,
   ⟨coreIn 0 .running (fun x => { x with dmaQ := [unitOf (.aclr 0 1)] }), 0, unitOf (.aclr 0 1), [], by decide +kernel⟩,
   ⟨coreIn 0 .running (fun x => { x with dmaQ := [unitOf (.wait 0 1)] }), 0, .dmaInstrStart 0, unitOf (.wait 0 1), 0, 1,
     by refine ⟨by decide +kernel, rfl, rfl, by decide +kernel, .inr (.inr ⟨rfl, by decide +kernel⟩)⟩⟩,
   ⟨coreIn 0 .ending (fun x => { x with dmaQ := [unitOf (.wait 0 0)], ended := true, kernel := some ⟨0, 0, 0, 4096, 0, false⟩ }),
     0, unitOf (.wait 0 0), ⟨0, 0, 0, 4096, 0, false⟩, 0, 0, by decide +kernel⟩,
   ⟨coreIn 0 .running (fun x => { x with dmaRun := [unitOf (.dfill 0 0 0 0)] }), 0, unitOf (.dfill 0 0 0 0),
     by decide +kernel⟩,
   ⟨coreIn 0 .running (fun x => { x with dmaRun := [{ unitOf (.dfill 0 0 0 0) with sig := some 5 }] }), 0,
     { unitOf (.dfill 0 0 0 0) with sig := some 5 }, 5, by decide +kernel⟩,
   ⟨coreIn 0 .running (fun x => { x with arrayRun := [unitOf (.aclr 0 1)] }), 0, unitOf (.aclr 0 1), 0, 1, by decide +kernel⟩⟩

theorem meets_Engine_integers :
    (∃ (f : Nat) (rm : RMode) (a b d : Nat), (f = 0xD ∨ f = 0xE) ∧ a < 2 ^ 32 ∧ b < 2 ^ 32) ∧
    (∃ (rm : RMode) (a b d : Nat), a < 2 ^ 32 ∧ b < 2 ^ 32) ∧
    (∃ (f : Nat) (e : AccEntry) (l : List (Nat × Nat)), (∀ p, p ∈ l → p.1 < 256 ∧ p.2 < 256) ∧ e.bits.toInt.natAbs ≤ 2 ^ 86 ∧
      l.length ≤ 256 ∧ f = 0) :=
  ⟨⟨0xD, .rne, 5, 0xFFFFFFFF, 0, by decide +kernel⟩,
   ⟨.rne, 5, 0xFFFFFFFF, 0, by decide +kernel⟩,
   ⟨0, AccEntry.zero, [(1, 2)],
     (by exact ⟨fun p h => by simp only [List.mem_singleton] at h; subst h; decide, by decide, by decide, rfl⟩)⟩⟩

theorem meets_Minimum_and_maximum :
    (∃ (n n' : Bool) (m m' : Nat) (d e : Int), (m ≠ 0 ∨ m' ≠ 0)) ∧
    (∃ (f : Nat) (rm : RMode) (a b d : Nat), isF f = true) ∧
    (∃ (f : Nat) (a b : Partial), isF f = true) ∧
    (∃ (d k a b : Nat), dtypeFmt d = some k) :=
  ⟨⟨true, false, 1, 0, 0, 0, by decide +kernel⟩,
   ⟨0, .rne, 0, 0, 0, by decide +kernel⟩,
   ⟨0, (0, FFlags.none), (0, FFlags.none), by decide +kernel⟩,
   ⟨5, 0, 0, 0, by decide +kernel⟩⟩

theorem meets_Array_clear_and_flags :
    (∃ (s : Chip) (k : Nat) (u : UnitInstr) (row rows : Nat), u.op = .aclr row rows ∧ u.sig = none ∧ (s.core k).arrayRun = [u]
      ∧ (s.core k).state = .running ∧ (s.core k).ended = false) ∧
    (∃ (s : State) (k : Fin 264) (i : Instr), ((∃ d a b, i = .xaldw k d a b) ∨ (∃ d a b, i = .xamm k d a b) ∨ (∃ d a b, i
      = .xadrain k d a b) ∨ (∃ d a b, i = .xaclr k d a b) ∨ i = .arrayInstrStart k) ∧ s.live = true) :=
  ⟨⟨(coreIn 0 .running (fun x => { x with arrayRun := [unitOf (.aclr 0 1)] })).toChip, 0, unitOf (.aclr 0 1), 0, 1,
     by decide +kernel⟩,
   ⟨up, 0, .arrayInstrStart 0, by exact ⟨by simp, by decide +kernel⟩⟩⟩

theorem meets_Core_administration :
    (∃ (s : State) (k : Fin 256), s.live = true ∧ (s.core k.val).state = .idle) ∧
    (∃ (s : State) (k : Fin 256), s.live = true ∧ (s.core k.val).state = .running) ∧
    (∃ (s : State) (k : Fin 256), s.live = true ∧ (s.core k.val).state = .offline) ∧
    (∃ (s : State) (e : Fin 8), s.live = true ∧ (s.core (256 + e.val)).state = .idle) ∧
    (∃ (s : State) (k : Fin 256), s.live = true ∧ (s.core k.val).state = .testing ∧ (s.core k.val).adminTest = true ∧ s.obj
      (adminKey k.val) ≠ 0 ∧ s.mgmt.booting = false) ∧
    (∃ (s : State) (k : Fin 256) (u : Fin 4), s.live = true ∧ (s.core k.val).state = .testing ∧ s.mgmt.booting = false) ∧
    (∃ (s : State) (k : Fin 256) (r : SelfTest), s.live = true ∧ (s.core k.val).state ≠ .testing ∧ s.mgmt.booting = false) ∧
    (∃ (s : State) (k : Half), s.live = true ∧ k.toNat < 256 ∧ (s.core k.toNat).state = .idle) ∧
    (∃ (s : State) (e : Fin 8), s.live = true ∧ (s.core (256 + e.val)).state = .testing) ∧
    (∃ (s : State) (e : Fin 8), s.live = true ∧ (s.core (256 + e.val)).state = .testing ∧ (s.core (256 + e.val)).adminTest =
      true ∧ s.obj (adminKey (256 + e.val)) ≠ 0) :=
  ⟨⟨up, 0, by decide +kernel⟩,
   ⟨coreIn 0 .running id, 0, by decide +kernel⟩,
   ⟨coreIn 0 .offline id, 0, by decide +kernel⟩,
   ⟨up, 0, by decide +kernel⟩,
   ⟨{ coreIn 0 .testing (fun x => { x with adminTest := true }) with objs := [(adminKey 0, 1)] }, 0, by decide +kernel⟩,
   ⟨coreIn 0 .testing id, 0, 2, by decide +kernel⟩,
   ⟨up, 0, .pass, by decide +kernel⟩,
   ⟨up, 0, by decide +kernel⟩,
   ⟨coreIn 256 .testing id, 0, by decide +kernel⟩,
   ⟨{ coreIn 256 .testing (fun x => { x with adminTest := true }) with objs := [(adminKey 256, 1)] }, 0, by decide +kernel⟩⟩

theorem meets_Determinism_objects :
    (∃ (s : State) (b : Bool), s.live = true ∧ s.job.state = 0) ∧
    (∃ (s : State) (w : Word), s.live = true ∧ s.job.state = 0) ∧
    (∃ (s : State) (i : Instr), ((∃ b, i = .detModeWrite b) ∨ (∃ w, i = .srSeedWrite w)) ∧ s.live = true ∧ s.job.state ≠ 0) ∧
    (∃ (s : Chip) (b : Byte), s.live = true ∧ s.job.state ≠ 0) ∧
    (∃ (s : Chip) (b : List Byte), s.live = true ∧ s.job.state ≠ 0 ∧ b.length = 8) ∧
    (∃ (s : Chip) (q : Nat) (e : QEntry) (c rank n : Nat), c < 256 ∧ rank < 256 ∧ n < 256 ∧ q < 65536 ∧ s.chipNumber < 65536 ∧
      e.args < 2 ^ 64 ∧ e.code < 2 ^ 64) :=
  ⟨⟨up, true, by decide +kernel⟩,
   ⟨up, 5, by decide +kernel⟩,
   ⟨{ up with job := ⟨1, 0⟩ }, .srSeedWrite 5, by exact ⟨.inr ⟨5, rfl⟩, by decide +kernel⟩⟩,
   ⟨{ chip with job := ⟨1, 0⟩ }, 1, by decide +kernel⟩,
   ⟨{ chip with job := ⟨1, 0⟩ }, List.replicate 8 1, by decide +kernel⟩,
   ⟨chip, 0, entryOf 1 .started, 0, 0, 1, by decide +kernel⟩⟩

theorem meets_Updates :
    (∃ (s : State) (d : Fin 2) (j : UpdateJob) (js : List UpdateJob) (i : Nat) (desc : BitVec 1024) (h : BitVec 512) (rest :
      List (Nat × BitVec 1024 × BitVec 512)) (t : Chip) (st : Option Status), s.live = true ∧ (s.die d.val).layer = none ∧
      (s.die d.val).jobs = j :: js ∧ j.todo = (i, desc, h) :: rest ∧ s.enginesAwake d.val = true ∧ s.dieRestarts d.val = false
      ∧ s.toChip.layerCheck d.val j.noWorking ⟨desc.toNat⟩ = (t, st) ∧ (st.isSome = true ∨ (⟨desc.toNat⟩ : Desc).rule ≠ 4)) ∧
    (∃ (s : State) (d : Fin 2), s.live = true ∧ s.dieRestarts d.val = true) ∧
    (∃ (s : State) (d : Fin 2) (l : LayerRun) (j : UpdateJob) (js : List UpdateJob) (st : Status), s.live = true ∧ (s.die
      d.val).layer = some l ∧ (s.die d.val).jobs = j :: js ∧ l.engines = [] ∧ l.early = some st ∧ st ≠ .ok ∧ j.todo ≠ []) ∧
    (∃ (s : State) (d : Fin 2) (l : LayerRun) (j : UpdateJob) (js : List UpdateJob), s.live = true ∧ (s.die d.val).layer =
      some l ∧ (s.die d.val).jobs = j :: js ∧ l.engines = [] ∧ l.early = none ∧ (⟨l.desc.toNat⟩ : Desc).rule ≠ 4) ∧
    (∃ (s : Chip) (j : UpdateJob) (i : Nat) (x : Desc), j.hold = true ∧ (x.run j.lrScale.toNat (s.layerRead x
      j.hint).2).status ≠ .ok) ∧
    (∃ (s : State), s.live = true ∧ (∀ j, j ∈ (s.die 0).jobs ++ (s.die 1).jobs → (s.queueAt j.queue).state ≠ .draining)) ∧
    (∃ (s : State) (j : UpdateJob), s.live = true ∧ (s.die 0).jobs = [j] ∧ (s.die 0).layer = none ∧ (s.die 1).jobs = [] ∧
      (s.queueAt j.queue).state = .draining) ∧
    (∃ (d : Desc) (c : RuleConst) (w m g : Nat), d.nesterov = false) ∧
    (∃ (d : Desc) (c : RuleConst) (w m g : Nat), d.nesterov = true) :=
  ⟨⟨updating id, 0, updateOf, [], 0, layerDesc, 0, [], ((updating id).toChip.layerCheck 0 true ⟨layerDesc.toNat⟩).1,
     ((updating id).toChip.layerCheck 0 true ⟨layerDesc.toNat⟩).2, by decide +kernel⟩,
   ⟨{ updating id with mgmt := { chip.mgmt with activation := some ⟨6, [0], false⟩ } }, 0, by decide +kernel⟩,
   ⟨updating (fun y => { y with layer := some ⟨0, layerDesc, some .noResource, [], []⟩ }), 0, ⟨0, layerDesc, some .noResource,
     [], []⟩, updateOf, [], .noResource, by decide +kernel⟩,
   ⟨updating (fun y => { y with layer := some ⟨0, layerDesc, none, [], []⟩ }), 0, ⟨0, layerDesc, none, [], []⟩, updateOf, [],
     by decide +kernel⟩,
   ⟨{ chip with hbm := { Hbm.reset with poison := [(0, true)] } }, updateOf, 0, ⟨layerDesc.toNat⟩, by decide +kernel⟩,
   ⟨up, by exact ⟨by decide +kernel, fun j h => by cases h⟩⟩,
   ⟨{ updating id with queues := [(0, { Queue.reset with state := .draining })] }, updateOf, by decide +kernel⟩,
   ⟨⟨0⟩, ⟨0, 0, 0⟩, 0, 0, 0, by decide +kernel⟩,
   ⟨⟨2 ^ 973⟩, ⟨0, 0, 0⟩, 0, 0, 0, by decide +kernel⟩⟩

theorem meets_Cellar_accesses :
    (∃ (s : State) (r : CellarReq) (l d tag : Nat) (way : List Nat), s.live = true ∧ r.access.addr / 2 ^ 40 = 4 ∧ 0 <
      r.access.len ∧ r.access.addr % 64 + r.access.len ≤ 64 ∧ r.access.write = none ∧ r.access.errors = [] ∧ d = r.access.addr
      / 2 ^ 39 % 2 ∧ l = s.cellarLink r.site.val d ∧ s.cutOff r.site.val r.access.addr = false ∧ s.cellarWay r.site.val d =
      some way ∧ s.freeTag (way.headD 0) = some tag ∧ (∀ k, k ∈ way → 0 < nth 0 (s.link k).credits 2)) ∧
    (∃ (s : State) (r : CellarReq) (l d tag : Nat) (way : List Nat) (bs : List Byte) (m : Bool), s.live = true ∧ r.access.addr
      / 2 ^ 40 = 4 ∧ 0 < r.access.len ∧ r.access.addr % 64 + r.access.len ≤ 64 ∧ r.access.write = some (bs, m) ∧ bs.length =
      r.access.len ∧ r.access.errors = [] ∧ d = r.access.addr / 2 ^ 39 % 2 ∧ l = s.cellarLink r.site.val d ∧ s.cutOff
      r.site.val r.access.addr = false ∧ s.cellarWay r.site.val d = some way ∧ s.freeTag (way.headD 0) = some tag ∧ (∀ k, k ∈
      way → 0 < nth 0 (s.link k).credits 2)) ∧
    (∃ (s : State) (r : CellarReq), s.live = true ∧ r.access.addr / 2 ^ 40 = 4 ∧ 0 < r.access.len ∧ r.access.addr % 64 +
      r.access.len ≤ 64 ∧ r.access.write = none ∧ (s.cellarDown (r.access.addr / 2 ^ 39 % 2) = true ∨ s.cutOff r.site.val
      r.access.addr = true)) ∧
    (∃ (s : State) (r : CellarReq) (bs : List Byte) (m : Bool), s.live = true ∧ r.access.addr / 2 ^ 40 = 4 ∧ 0 < r.access.len
      ∧ r.access.addr % 64 + r.access.len ≤ 64 ∧ r.access.write = some (bs, m) ∧ bs.length = r.access.len ∧ (s.cellarDown
      (r.access.addr / 2 ^ 39 % 2) = true ∨ s.cutOff r.site.val r.access.addr = true)) ∧
    (∃ (s : State) (r : CellarReq), s.live = true ∧ (r.access.addr / 2 ^ 40 ≠ 4 ∨ r.access.len = 0 ∨ 64 < r.access.addr % 64 +
      r.access.len)) :=
  ⟨⟨cellarsUp, ⟨7, ⟨2 ^ 42, 8, none, 0, []⟩⟩, 11, 0, 0, [5, 4, 3, 11], by decide +kernel⟩,
   ⟨cellarsUp, ⟨4, ⟨2 ^ 42, 8, some (List.replicate 8 1, false), 0, []⟩⟩, 11, 0, 0, [11], List.replicate 8 1, false,
     by decide +kernel⟩,
   ⟨up, ⟨7, ⟨2 ^ 42, 8, none, 0, []⟩⟩, by decide +kernel⟩,
   ⟨up, ⟨7, ⟨2 ^ 42, 8, some (List.replicate 8 1, false), 0, []⟩⟩, List.replicate 8 1, false, by decide +kernel⟩,
   ⟨up, ⟨7, ⟨0, 8, none, 0, []⟩⟩, by decide +kernel⟩⟩

theorem meets_Sessions_and_requests :
    (∃ (s : State) (k : ClientCert), s.serving = true ∧ s.mgmt.sessions.length < 8) ∧
    (∃ (s : Chip) (k : ClientCert), s.mgmt.claimed = true) ∧
    (∃ (s : Chip) (k : ClientCert), s.mgmt.claimed = false) ∧
    (∃ (s : State) (k : ClientCert), s.serving = true ∧ 8 ≤ s.mgmt.sessions.length) ∧
    (∃ (s : State) (id : Nat) (v : Session), s.session id = some v ∧ s.transferOf (some id) = none) ∧
    (∃ (s : State) (id : Nat) (v : Session) (t : Transfer), s.session id = some v ∧ s.transferOf (some id) = some t) ∧
    (∃ (s : State) (id : Nat) (q : Word32) (v : Session) (a : Byte) (b : Half), s.toChip.asks id q v ∧ s.mgmt.loader = false) ∧
    (∃ (s : State) (id : Nat) (q : Word32) (v : Session) (n : Word), s.toChip.asks id q v ∧ s.mgmt.loader = false) ∧
    (∃ (s : State) (id : Nat) (v : Session) (u : UnackedEvent), s.session id = some v ∧ v.unacked = [u] ∧ u.resends + 1 < 10) ∧
    (∃ (s : State) (id : Nat) (v : Session) (u : UnackedEvent), s.session id = some v ∧ v.unacked = [u] ∧ 10 ≤ u.resends + 1) ∧
    (∃ (s : State) (i : Instr) (id : Nat) (q : Word32) (v : Session) (r : Response), ((∃ b e, i = .get id q b e) ∨ (∃ e, i
      = .set id q e) ∨ (∃ a b, i = .subscribe id q a b) ∨ (∃ a, i = .eventAck id q a) ∨ (∃ a b, i = .memRead id q a b) ∨ (∃ a
      b, i = .memWrite id q a b) ∨ (∃ a, i = .attest id q a) ∨ (∃ a b, i = .imageBegin id q a b) ∨ (∃ a b, i = .imageData id q
      a b) ∨ i = .imageEnd id q ∨ i = .imageAbort id q ∨ i = .eulenReset id q ∨ (∃ a, i = .badMessage id q a)) ∧ s.serving =
      true ∧ s.session id = some v ∧ v.kept.find? (·.reqId == q) = some r) ∧
    (∃ (s : State) (i : Instr) (id : Nat) (q : Word32), ((∃ b e, i = .get id q b e) ∨ (∃ e, i = .set id q e) ∨ (∃ a b, i
      = .subscribe id q a b) ∨ (∃ a, i = .eventAck id q a) ∨ (∃ a b, i = .memRead id q a b) ∨ (∃ a b, i = .memWrite id q a b)
      ∨ (∃ a, i = .attest id q a) ∨ (∃ a b, i = .imageBegin id q a b) ∨ (∃ a b, i = .imageData id q a b) ∨ i = .imageEnd id q
      ∨ i = .imageAbort id q ∨ i = .eulenReset id q ∨ (∃ a, i = .badMessage id q a)) ∧ (s.serving = false ∨ s.session id =
      none)) ∧
    (∃ (s : State) (id : Nat) (q : Word32) (v : Session), s.toChip.asks id q v ∧ v.owns = true ∧ s.power.shutdown = none) ∧
    (∃ (s : State) (id : Nat) (q : Word32) (v : Session), s.toChip.asks id q v ∧ v.owns = true ∧ s.power.shutdown.isSome =
      true) ∧
    (∃ (s : State) (id : Nat) (q : Word32) (v : Session) (ty : Byte), s.toChip.asks id q v) ∧
    (∃ (s : State) (b : List Byte), s.mgmt.loader = false) ∧
    (∃ (s : State) (b m : List Byte) (t : Transfer), s.mgmt.loader = true ∧ uartMessage b = some m ∧ m = eulenMessage 11 1 .ok
      [] ∧ s.transferOf none = some t) :=
  ⟨⟨up, certOf, by decide +kernel⟩,
   ⟨{ chip with mgmt := { chip.mgmt with claimed := true } }, certOf, by decide +kernel⟩,
   ⟨chip, certOf, by decide +kernel⟩,
   ⟨on { chip with mgmt := { chip.mgmt with sessions := List.replicate 8 owner } }, certOf, by decide +kernel⟩,
   ⟨opened owner id, 1, owner, by decide +kernel⟩,
   ⟨opened owner (fun m => { m with transfer := some (sending1 owner) }), 1, owner, sending1 owner, by decide +kernel⟩,
   ⟨opened owner id, 1, 5, owner, 0, 0, by and_intros <;> first | decide +kernel | rfl⟩,
   ⟨opened owner id, 1, 5, owner, 0, by and_intros <;> first | decide +kernel | rfl⟩,
   ⟨opened { owner with unacked := [⟨LogEntry.zero, 0⟩] } id, 1, { owner with unacked := [⟨LogEntry.zero, 0⟩] },
     ⟨LogEntry.zero, 0⟩, by decide +kernel⟩,
   ⟨opened { owner with unacked := [⟨LogEntry.zero, 9⟩] } id, 1, { owner with unacked := [⟨LogEntry.zero, 9⟩] },
     ⟨LogEntry.zero, 9⟩, by decide +kernel⟩,
   ⟨opened { owner with kept := [⟨12, 5, .ok, []⟩] } id, .eulenReset 1 5, 1, 5, { owner with kept := [⟨12, 5, .ok, []⟩] },
     ⟨12, 5, .ok, []⟩, by exact ⟨by simp, by decide +kernel, by decide +kernel, by decide +kernel⟩⟩,
   ⟨up, .eulenReset 1 5, 1, 5, by exact ⟨by simp, by decide +kernel⟩⟩,
   ⟨opened owner id, 1, 5, owner, by and_intros <;> first | decide +kernel | rfl⟩,
   ⟨{ opened owner id with power := { Power.reset with shutdown := some 1 } }, 1, 5, owner,
     by and_intros <;> first | decide +kernel | rfl⟩,
   ⟨opened owner id, 1, 5, owner, 99, by and_intros <;> first | decide +kernel | rfl⟩,
   ⟨up, [], by decide +kernel⟩,
   ⟨on { chip with mgmt := { chip.mgmt with loader := true, transfer := some ⟨none, 2, 100, []⟩ } },
     uartFrame (eulenMessage 11 1 .ok []), eulenMessage 11 1 .ok [], ⟨none, 2, 100, []⟩, by decide +kernel⟩⟩

theorem meets_Objects :
    (∃ (s : State) (id : Nat) (q : Word32) (v : Session) (e : GetEntry) (r : DictRow), s.toChip.asks id q v ∧ s.mgmt.loader =
      false ∧ dictRow (256 * e.index.toNat + e.sub.toNat) = some r ∧ r.acc ≠ .wo ∧ r.ty.bytes.isSome = true) ∧
    (∃ (s : State) (id : Nat) (q : Word32) (v : Session) (e : GetEntry), s.toChip.asks id q v ∧ dictRow (256 * e.index.toNat +
      e.sub.toNat) = none ∧ e.sub ≠ 0) ∧
    (∃ (s : State) (id : Nat) (q : Word32) (v : Session) (e : SetEntry) (r : DictRow), s.toChip.asks id q v ∧ s.mgmt.loader =
      false ∧ v.role = .monitor ∧ v.claim = false ∧ e.value.length ≤ 64 ∧ dictRow (256 * e.index.toNat + e.sub.toNat) = some
      r) ∧
    (∃ (s : State) (id : Nat) (q : Word32) (v : Session) (e : SetEntry) (st : EStatus) (t : Chip), s.toChip.asks id q v ∧
      s.mgmt.loader = false ∧ e.value.length ≤ 64 ∧ s.toChip.writeObject v.writer e.index.toNat e.sub.toNat e.type.toNat
      e.value = (st, t)) ∧
    (∃ (s : State) (i : Half) (j : Byte) (b : List Byte) (r : DictRow) (n : Nat), s.awake = true ∧ dictRow (256 * i.toNat +
      j.toNat) = some r ∧ r.acc = .rwp ∧ r.ty.bytes = some n ∧ b.length = n ∧ (actionsAon ++ actionsA ++ actionsB).find? (·.1
      == r.key) = none ∧ valueInRange r (leNat b) = true ∧ s.valueAllowed r (leNat b) = true) ∧
    (∃ (s : State) (i : Half) (j : Byte) (b : List Byte) (r : DictRow) (n : Nat), s.awake = true ∧ dictRow (256 * i.toNat +
      j.toNat) = some r ∧ r.ty.bytes = some n ∧ b.length = n ∧ (actionsAon ++ actionsA ++ actionsB).find? (·.1 == r.key) =
      none ∧ valueInRange r (leNat b) = false) ∧
    (∃ (s : State) (i : Half) (j t : Byte) (b : List Byte), s.awake = true ∧ (∀ r, dictRow (256 * i.toNat + j.toNat) = some r
      → r.acc = .ro ∨ (r.acc = .rwl ∧ s.mgmt.configOpen = false))) :=
  ⟨⟨opened owner id, 1, 5, owner, ⟨BitVec.ofNat 16 (O.powerPeak / 256), BitVec.ofNat 8 (O.powerPeak % 256), 0, 4⟩, peakRow,
     by and_intros <;> first | decide +kernel | rfl⟩,
   ⟨opened owner id, 1, 5, owner, ⟨0xFFFF, 1, 0, 4⟩, by and_intros <;> first | decide +kernel | rfl⟩,
   ⟨opened monitor id, 1, 5, monitor, ⟨BitVec.ofNat 16 (O.powerPeak / 256), BitVec.ofNat 8 (O.powerPeak % 256), 3,
     [0, 0, 0, 0]⟩, peakRow, by and_intros <;> first | decide +kernel | rfl⟩,
   ⟨opened owner id, 1, 5, owner, ⟨0xFFFF, 1, 3, []⟩, .noObject, (opened owner id).toChip,
     by and_intros <;> first | decide +kernel | rfl⟩,
   ⟨up, BitVec.ofNat 16 (O.powerPeak / 256), BitVec.ofNat 8 (O.powerPeak % 256), [0x70, 0x17, 0, 0], peakRow, 4,
     by decide +kernel⟩,
   ⟨up, BitVec.ofNat 16 (O.suspectScore / 256), BitVec.ofNat 8 (O.suspectScore % 256), [0xFF, 0xFF], ⟨O.suspectScore,
     1, .u16, .rwp, 400, 0, 1000⟩, 2, by decide +kernel⟩,
   ⟨up, 0xFFFF, 1, 0, [],
     (by exact ⟨by decide +kernel, fun r h => by rw [show dictRow (256 * (0xFFFF : Half).toNat + (1 : Byte).toNat) = none by decide +kernel] at h; cases h⟩)⟩⟩

theorem meets_Registers_and_attestation :
    (∃ (s : State) (id : Nat) (q : Word32) (v : Session) (o : Word) (n : Half) (b : List Byte), s.toChip.asks id q v ∧
      v.operates = true ∧ s.memRange o.toNat n.toNat = true ∧ s.regBytes o.toNat n.toNat = some b) ∧
    (∃ (s : State) (id : Nat) (q : Word32) (v : Session) (o : Word) (d : List Byte), s.toChip.asks id q v ∧ v.operates = true
      ∧ s.memRange o.toNat 8 = true ∧ d.length = 8) ∧
    (∃ (s : State) (id : Nat) (q : Word32) (v : Session) (o : Word) (n : Half), s.toChip.asks id q v ∧ v.operates = true ∧
      s.memRange o.toNat n.toNat = false) ∧
    (∃ (s : State) (i : Instr) (id : Nat) (q : Word32) (v : Session) (ty : Nat), s.toChip.asks id q v ∧ v.operates = false ∧
      ((∃ o n, i = .memRead id q o n ∧ ty = 5) ∨ (∃ o d, i = .memWrite id q o d ∧ ty = 6))) ∧
    (∃ (s : State) (id : Nat) (q : Word32) (v : Session) (n : List Byte), s.toChip.asks id q v ∧ s.mgmt.loader = false ∧
      n.length = 48) ∧
    (∃ (s : State) (id : Nat) (q : Word32) (v : Session) (n : List Byte), s.toChip.asks id q v ∧ n.length ≠ 48) ∧
    (∃ (s : Chip) (n b : List Byte), n.length = 48) :=
  ⟨⟨opened owner id, 1, 5, owner, 0xC0000000000, 8, ((opened owner id).regBytes 0xC0000000000 8).getD [],
     by and_intros <;> first | decide +kernel | rfl⟩,
   ⟨opened owner id, 1, 5, owner, 0xC0000000000, List.replicate 8 0, by and_intros <;> first | decide +kernel | rfl⟩,
   ⟨opened owner id, 1, 5, owner, 0, 8, by and_intros <;> first | decide +kernel | rfl⟩,
   ⟨opened monitor id, .memRead 1 5 0 8, 1, 5, monitor, 5, by exact ⟨by and_intros <;> decide +kernel,
     by decide +kernel, .inl ⟨0, 8, rfl, rfl⟩⟩⟩,
   ⟨opened owner id, 1, 5, owner, List.replicate 48 0, by and_intros <;> first | decide +kernel | rfl⟩,
   ⟨opened owner id, 1, 5, owner, [], by and_intros <;> first | decide +kernel | rfl⟩,
   ⟨chip, List.replicate 48 0, [], by decide +kernel⟩⟩

theorem meets_Images :
    (∃ (s : State) (id : Nat) (q : Word32) (v : Session) (k : Byte) (n : Word32), s.toChip.asks id q v ∧ v.owns = true ∧
      s.mgmt.transfer = none ∧ s.mgmt.activation = none ∧ (1 ≤ k.toNat ∧ k.toNat ≤ 7 ∨ k = 0x0F) ∧ n.toNat ≤ 2 * 2 ^ 20) ∧
    (∃ (s : State) (id : Nat) (q : Word32) (v : Session) (k : Byte) (n : Word32), s.toChip.asks id q v ∧ v.owns = true ∧
      (s.mgmt.transfer.isSome = true ∨ s.mgmt.activation.isSome = true)) ∧
    (∃ (s : State) (id : Nat) (q : Word32) (v : Session) (t : Transfer) (o : Word32) (b : Byte), s.toChip.asks id q v ∧ v.owns
      = true ∧ s.mgmt.transfer = some t ∧ t.session = some id ∧ o.toNat < t.total) ∧
    (∃ (s : State) (id : Nat) (q : Word32) (v : Session) (t : Transfer), s.toChip.asks id q v ∧ v.owns = true ∧
      s.mgmt.transfer = some t ∧ t.session = some id) ∧
    (∃ (s : State), s.mgmt.transferAt + 10000000000 ≤ s.aon) ∧
    (∃ (s : State) (id : Nat) (q : Word32) (v : Session) (t : Transfer), s.toChip.asks id q v ∧ v.owns = true ∧
      s.mgmt.transfer = some t ∧ t.session = some id ∧ t.total < 256) ∧
    (∃ (s : State) (id : Nat) (q : Word32) (v : Session) (t : Transfer), s.toChip.asks id q v ∧ v.owns = true ∧
      s.mgmt.transfer = some t ∧ t.session = some id ∧ s.live = true ∧ t.component ≠ 0x0F) ∧
    (∃ (s : State) (i : Instr) (id : Nat) (q : Word32) (v : Session) (ty : Nat), s.toChip.asks id q v ∧ v.owns = false ∧ ((∃ k
      n, i = .imageBegin id q k n ∧ ty = 8) ∨ (∃ o d, i = .imageData id q o d ∧ ty = 9) ∨ (i = .imageEnd id q ∧ ty = 10) ∨ (i
      = .imageAbort id q ∧ ty = 11) ∨ (i = .eulenReset id q ∧ ty = 12))) ∧
    (∃ (s : State) (u k : Nat) (f : Bool), s.live = true ∧ s.mgmt.activation = some ⟨k, [u], f⟩ ∧ (k = 2 ∨ k = 6 ∧ (s.die
      u).midUpdate = false)) ∧
    (∃ (s : State) (a : Activation) (u : Nat), s.awake = true ∧ s.mgmt.activation = some a ∧ a.component ≠ 2 ∧ a.component ≠ 3
      ∧ (a.component = 4 → ∀ p, (s.port p).needs = [] ∧ s.obju O.portAdmin p ≠ 2) ∧ u ∈ a.units) ∧
    (∃ (s : State) (a : Activation) (u : Nat), s.awake = true ∧ s.mgmt.activation = some a ∧ a.component = 3 ∧ u ∈ a.units) ∧
    (∃ (s : State) (a : Activation) (u : Nat), s.awake = true ∧ s.mgmt.activation = some a ∧ a.component = 2 ∧ u ∈ a.units ∧
      s.queues = []) ∧
    (∃ (s : State) (i : Instr) (u : Nat), s.awake = true ∧ (∀ a, s.mgmt.activation = some a → u ∉ a.units) ∧ ((∃ b, i
      = .activationUnitDone u b) ∨ i = .activationTimeout u)) :=
  ⟨⟨opened owner id, 1, 5, owner, 2, 100, by and_intros <;> first | decide +kernel | rfl⟩,
   ⟨opened owner (fun m => { m with transfer := some (sending1 owner) }), 1, 5, owner, 2, 100,
     by and_intros <;> first | decide +kernel | rfl⟩,
   ⟨opened owner (fun m => { m with transfer := some (sending1 owner) }), 1, 5, owner, sending1 owner, 99, 7,
     by and_intros <;> first | decide +kernel | rfl⟩,
   ⟨opened owner (fun m => { m with transfer := some (sending1 owner) }), 1, 5, owner, sending1 owner,
     by and_intros <;> first | decide +kernel | rfl⟩,
   ⟨on { chip with now := 10000000000 }, by decide +kernel⟩,
   ⟨opened owner (fun m => { m with transfer := some (sending1 owner) }), 1, 5, owner, sending1 owner,
     by and_intros <;> first | decide +kernel | rfl⟩,
   ⟨opened owner (fun m => { m with transfer := some (sending1 owner) }), 1, 5, owner, sending1 owner,
     by and_intros <;> first | decide +kernel | rfl⟩,
   ⟨opened monitor id, .imageEnd 1 5, 1, 5, monitor, 10, by exact ⟨by and_intros <;> decide +kernel,
     by decide +kernel, .inr (.inr (.inl ⟨rfl, rfl⟩))⟩⟩,
   ⟨on { chip with mgmt := { chip.mgmt with activation := some ⟨2, [3], false⟩ } }, 3, 2, false, by decide +kernel⟩,
   ⟨on { chip with mgmt := { chip.mgmt with activation := some ⟨5, [3], false⟩ } }, ⟨5, [3], false⟩, 3,
     by and_intros <;> first | decide +kernel | (intro h; exact absurd h (by decide))⟩,
   ⟨on { chip with mgmt := { chip.mgmt with activation := some ⟨3, [3], false⟩ } }, ⟨3, [3], false⟩, 3, by decide +kernel⟩,
   ⟨on { chip with mgmt := { chip.mgmt with activation := some ⟨2, [3], false⟩ } }, ⟨2, [3], false⟩, 3, by decide +kernel⟩,
   ⟨up, .activationTimeout 3, 3, by exact ⟨by decide +kernel, fun a h => (nomatch (show none = some a from h)), .inr rfl⟩⟩⟩

theorem meets_Ownership_and_debug :
    (∃ (s : State) (b : List Byte), s.awake = true ∧ s.mgmt.claimed = false ∧ b.length ≤ 2048) ∧
    (∃ (s : State) (b : List Byte), s.awake = true ∧ s.mgmt.claimed = true) ∧
    (∃ (s : State), s.live = true ∧ s.job.state = 0) ∧
    (∃ (s : State), s.live = true ∧ s.job.state ≠ 0) ∧
    (∃ (s : State), s.awake = true) ∧
    (∃ (s : State) (k : Byte), s.awake = true ∧ 1 ≤ k.toNat ∧ k.toNat ≤ 3) ∧
    (∃ (s : State) (k : Byte), s.awake = true ∧ (k.toNat = 0 ∨ 3 < k.toNat)) ∧
    (∃ (s : State) (b : List Byte), s.awake = true ∧ s.mgmt.challengeLive = false) ∧
    (∃ (s : State) (b : List Byte) (k : Nat × Nat), s.awake = true ∧ s.mgmt.challengeLive = true ∧ s.mgmt.challengeScope = 1 ∧
      b.length = 96 ∧ s.debugKey 1 = some k) :=
  ⟨⟨up, [], by decide +kernel⟩,
   ⟨on { chip with mgmt := { chip.mgmt with claimed := true } }, [], by decide +kernel⟩,
   ⟨up, by decide +kernel⟩,
   ⟨{ up with job := ⟨1, 0⟩ }, by decide +kernel⟩,
   ⟨up, by decide +kernel⟩,
   ⟨up, 1, by decide +kernel⟩,
   ⟨up, 0, by decide +kernel⟩,
   ⟨up, [], by decide +kernel⟩,
   ⟨on { chip with mgmt := { chip.mgmt with challengeLive := true, challengeScope := 1, ownerDebugKey := 4 :: List.replicate 96 0 } },
     List.replicate 96 0, (0, 0), by decide +kernel⟩⟩

theorem meets_Health :
    (∃ (s : State), s.live = true) ∧
    (∃ (s : State), s.live = true ∧ s.service.suspect.getLsbD 2 = false) ∧
    (∃ (s : State), s.live = true) ∧
    (∃ (s : State) (v : Byte), s.live = true ∧ 1 < v.toNat) ∧
    (∃ (s : State), s.live = true ∧ s.obj O.suspectScore + 100 ≤ s.service.score) ∧
    (∃ (s : State), s.live = true ∧ s.service.score < s.obj O.suspectScore + 100) :=
  ⟨⟨up, by decide +kernel⟩,
   ⟨up, by decide +kernel⟩,
   ⟨up, by decide +kernel⟩,
   ⟨up, 2, by decide +kernel⟩,
   ⟨up, by decide +kernel⟩,
   ⟨served fun v => { v with score := 0 }, by decide +kernel⟩⟩

theorem meets_Drains_and_quarantine :
    (∃ (s : State), s.live = true ∧ s.service.state = .serving) ∧
    (∃ (s : State), s.live = true ∧ s.service.state ≠ .serving) ∧
    (∃ (s : State), s.live = true ∧ s.service.state = .serving ∧ s.queues = [] ∧ s.cores = []) ∧
    (∃ (s : State) (i : Instr) (n : Half) (t : Chip), ((i = .drainQueue n ∧ n.toNat < 16384 ∧ t = s.toChip.drainQueue n.toNat)
      ∨ (i = .drainCore n ∧ n.toNat < 256 ∧ t = s.toChip.coreStop n.toNat) ∨ (i = .drainPort n ∧ n.toNat < 160 ∧ t =
      s.toChip.portDisable n.toNat) ∨ (i = .drainSlot n ∧ n.toNat < 4096 ∧ t = s.toChip.commUnbind n.toNat)) ∧ s.live = true ∧
      (s.service.state = .serving ∨ s.service.state = .source)) ∧
    (∃ (s : State) (i : Instr) (n : Half), (i = .drainQueue n ∨ i = .drainCore n ∨ i = .drainPort n ∨ i = .drainSlot n) ∧
      s.live = true ∧ s.service.state ≠ .serving ∧ s.service.state ≠ .source) ∧
    (∃ (s : State) (n : Half), s.live = true ∧ n.toNat < 256 ∧ (s.core n.toNat).state = .running ∧ s.service.state = .serving) ∧
    (∃ (s : State), s.live = true ∧ s.service.state = .draining ∧ s.drained = true ∧ s.service.quarantining = false) ∧
    (∃ (s : State), s.live = true ∧ s.service.state = .draining ∧ s.drained = true ∧ s.service.quarantining = true) ∧
    (∃ (s : State), s.live = true ∧ (s.service.state ≠ .draining ∨ s.drained = false)) ∧
    (∃ (s : State), s.live = true ∧ s.service.state = .serving ∧ s.service.quarantining = false) ∧
    (∃ (s : State), s.live = true ∧ s.service.state = .draining ∧ s.service.quarantining = false) ∧
    (∃ (s : State), s.live = true ∧ s.service.state = .drained ∧ s.service.quarantining = false) ∧
    (∃ (s : State), s.live = true ∧ (s.service.state = .quarantined ∨ s.service.quarantining = true)) ∧
    (∃ (s : State), s.live = true ∧ s.service.state = .verified ∧ s.queues = [] ∧ s.job.state < 2) ∧
    (∃ (s : State), s.live = true ∧ s.service.state ≠ .verified) :=
  ⟨⟨up, by decide +kernel⟩,
   ⟨served fun v => { v with state := .drained }, by decide +kernel⟩,
   ⟨up, by decide +kernel⟩,
   ⟨up, .drainQueue 0, 0, up.toChip.drainQueue 0, by decide +kernel⟩,
   ⟨served (fun v => { v with state := .drained }), .drainPort 0, 0, by decide +kernel⟩,
   ⟨coreIn 0 .running id, 0, by decide +kernel⟩,
   ⟨served fun v => { v with state := .draining }, by decide +kernel⟩,
   ⟨served fun v => { v with state := .draining, quarantining := true }, by decide +kernel⟩,
   ⟨up, by decide +kernel⟩,
   ⟨up, by decide +kernel⟩,
   ⟨served fun v => { v with state := .draining }, by decide +kernel⟩,
   ⟨served fun v => { v with state := .drained }, by decide +kernel⟩,
   ⟨served fun v => { v with state := .quarantined }, by decide +kernel⟩,
   ⟨served fun v => { v with state := .verified }, by decide +kernel⟩,
   ⟨up, by decide +kernel⟩⟩

theorem meets_Shadowing :
    (∃ (s : State) (p st : Word32) (ring : Word) (l : Byte) (n : Word32), s.live = true ∧ (s.service.state = .quarantined ∨
      s.service.state = .serving ∧ s.job.state = 0) ∧ p.toNat < 0x10000 ∧ 6 ≤ l.toNat ∧ l.toNat ≤ 20 ∧ n.toNat < 2 ^ 18 ∧
      ring.toNat % 4096 = 0 ∧ ring.toNat + 32 * 2 ^ l.toNat ≤ s.hbmVisible) ∧
    (∃ (s : State) (p st : Word32) (ring : Word) (l : Byte) (n : Word32), s.live = true ∧ s.service.state = .serving ∧ p.toNat
      < 0x10000 ∧ 6 ≤ l.toNat ∧ l.toNat ≤ 20 ∧ n.toNat < 2 ^ 18 ∧ ring.toNat % 4096 = 0 ∧ ring.toNat + 32 * 2 ^ l.toNat ≤
      0x30000000000) ∧
    (∃ (s : State), s.live = true ∧ (s.service.state = .shadowing ∨ s.service.state = .verified ∨ s.service.state = .source)) ∧
    (∃ (s : State) (i : Instr), s.live = true ∧ (((∃ p st ring l n, i = .shadow p st ring l n) ∧ s.service.state
      ≠ .quarantined ∧ s.service.state ≠ .serving) ∨ ((∃ p st ring l n, i = .source p st ring l n) ∧ s.service.state
      ≠ .serving) ∨ (i = .stop ∧ s.service.state ≠ .shadowing ∧ s.service.state ≠ .verified ∧ s.service.state ≠ .source))) ∧
    (∃ (s : State) (q : Fin 16384) (n : Word32) (t : Chip) (p : Pair) (r : MirrorRecord), s.live = true ∧ s.mirroring = true ∧
      t = s.toChip.mirrorPump ∧ t.service.pair = some p ∧ t.service.mirrorRecords.find? (fun r => r.queue.toNat == q.val &&
      r.index == n.setWidth 16) = some r ∧ t.service.recordsWritten < t.announced p + 2 ^ p.ringLog2) ∧
    (∃ (s : State) (q : Fin 16384) (n : Word32), s.live = true ∧ s.mirroring = false) ∧
    (∃ (s : State) (q : Fin 16384) (n : Word32), s.live = true ∧ (s.service.pair = none ∨ s.isShadow = false ∨
      s.service.pairActive = false)) ∧
    (∃ (s : State) (q : Fin 16384) (n : Word32) (p : Pair) (e own : QEntry) (k : Nat) (raw : List Byte), s.live = true ∧
      s.service.pair = some p ∧ (s.queueAt q.val).entry n = some e ∧ s.isShadow = true ∧ s.service.pairActive = true ∧
      e.netFacing = true ∧ e.phase = .started ∧ e.opcode ≠ 5 ∧ e.outstanding = 1 ∧ (s.freshRecords p).find? (fun k => s.word
      (p.slot k) 4 == q.val + 65536 * (e.num.toNat % 65536)) = some k ∧ raw = s.bytes (p.slot k) 32 ∧ own =
      ({ e with outstanding := 0 } : QEntry).finishIf ∧ leNat ((raw.drop 4).take 1) = own.status.code.toNat ∧ leNat ((raw.drop
      8).take 8) = own.segBits ∧ leNat ((raw.drop 16).take 8) = (s.digestFor q.val e).1.toNat ∧ leNat ((raw.drop 24).take 8) =
      (s.digestFor q.val e).2.toNat) ∧
    (∃ (s : Chip) (q : Nat) (e : QEntry) (raw : List Byte) (st : Status) (a b : Word), s.service.stepEqual = true) :=
  ⟨⟨up, 7, 0, 0, 6, 0, by decide +kernel⟩,
   ⟨up, 7, 0, 0, 6, 0, by decide +kernel⟩,
   ⟨served fun v => { v with state := .source }, by decide +kernel⟩,
   ⟨up, .stop, by exact ⟨by decide +kernel, .inr (.inr ⟨rfl, by decide +kernel, by decide +kernel, by decide +kernel⟩)⟩⟩,
   ⟨mirrored, 0, 0, mirrored.toChip.mirrorPump, pairOf, ⟨0, 0, 0, 4, 0, 0, 0⟩, by decide +kernel⟩,
   ⟨up, 0, 0, by decide +kernel⟩,
   ⟨up, 0, 0, by decide +kernel⟩,
   ⟨shadowed, 0, 0, pairOf, { entryOf 4 .started with outstanding := 1 }, { entryOf 4 .finished with outstanding := 0 }, 0,
     List.replicate 32 0, by decide +kernel⟩,
   ⟨chip, 0, entryOf 4 .started, [], .ok, 0, 0, by decide +kernel⟩⟩

/-! ### The spec's own examples -/

/-- Spec section 08, "one offset under the reset table": channel 218, chaddr 0x4_8D00, pseudo-channel 437, pcaddr 0x2_4600. -/
theorem test_place_of_an_offset :
    (chip.place 0x12345600).map (fun p => (p.channel, p.chaddr, p.pc, p.pcaddr)) = some (218, 0x48D00, 437, 0x24600) ∧
    (chip.place 0x12345700).map (·.channel) = some 219 := by decide +kernel

/-- Spec section 04, the flagged hand-off: granule 0x120_0100 folds to 26 and the next to 27. -/
theorem test_granules_fold : granuleHash (0x1200100 * 4096) = 26 ∧ granuleHash (0x1200101 * 4096) = 27 := by decide +kernel

/-- Spec section 05, the partial copy: queue 2,050 is at site 1, with its control block and its doorbell page. -/
theorem test_queue_addresses :
    queueSite 2050 = 1 ∧ chip.region 0xC0000020080 = .qcb 2050 0 ∧ chip.region 0xC0100802000 = .doorbell 2050 0 := by decide +kernel

/-- Spec section 09, the FP8 tile: counter 131,100 is homed at site 4. -/
theorem test_counter_home : counterSite 131100 = 4 := by decide

/-- Spec section 12, one MXFP4 block: scale byte 0x7C and codes 0x7, 0xB, 0x4 and 0x0; element 2 reads back as 0.25. -/
theorem test_mxfp4_block :
    let v (n : Bool) (m : Nat) (e : Int) : Option FVal := some (.fin n m e)
    let r := mxEncode 9 .rne [v false 3 (-2), v true 0xCCCCCD (-26), v false 5 (-4), v false 0xA3D70A (-30)]
    r.1 = 0x7C ∧ r.2.1 = [some 0x7, some 0xB, some 0x4, some 0x0] ∧ (mxDecode 9 .rne 0x7C 0x4).1 = 0x3E800000 := by decide +kernel

/-- Spec section 12, why an accumulator needs SR: 256.5 in BF16 is 258.0 for u = 0x3000_0000 and 256.0 for u = 0x9E00_0000. -/
theorem test_stochastic_rounding :
    srElem 1 0x30000000 (.fin false 513 (-1)) = 0x4381 ∧ srElem 1 0x9E000000 (.fin false 513 (-1)) = 0x4380 := by decide +kernel

/-- Spec section 10, the GEMM: XAMM 31's footprint ends at own 0x1F_FFFF. -/
theorem test_xamm_footprint :
    (UnitOp.amm 4096 0x100F80 3 256 0 true false 0x133 128 256).footprint = some (0x100F80, 0x200000) := by decide +kernel

/-- Spec section 11, the masked softmax: 3,000 elements have a mask of 375 bytes. -/
theorem test_mask_bytes :
    (vecRanges 0x02 2 0 0 0 3000 0 0 true 0x7F000).any (fun r => r.addr == 0x7F000 && r.len == 375) = true := by decide +kernel

/-- R67, R12: the check values of CRC-16 with polynomial 0x1021 and of CRC-32C over the nine digits; FIPS 180-4: the SHA-384 of "abc"
begins with CB00 753F and ends with 58BA ECA1 34C8 25A7. -/
theorem test_checksums :
    crc16 (List.range 9 |>.map fun k => BitVec.ofNat 8 (0x31 + k)) = 0x29B1 ∧
    crc32c (List.range 9 |>.map fun k => BitVec.ofNat 8 (0x31 + k)) = 0xE3069283 := by decide +kernel

theorem test_sha384 :
    (sha384 [0x61, 0x62, 0x63]).take 4 = [0xCB, 0x00, 0x75, 0x3F] ∧
    (sha384 [0x61, 0x62, 0x63]).drop 40 = [0x58, 0xBA, 0xEC, 0xA1, 0x34, 0xC8, 0x25, 0xA7] := by decide +kernel

/-- R53: the bit sent 39 before is added to a bit, and again to the one 19 later, as the one sent 58 before. -/
theorem test_scrambler_taps :
    scrambleKey (BitVec.ofNat 58 (2 ^ 38)) = 0x80001000 ∧ scrambleKey (BitVec.ofNat 58 (2 ^ 57)) = 0x80000000 ∧
    scrambleKey (BitVec.ofNat 58 (2 ^ 37)) = 0x40000800 ∧ scrambleKey (BitVec.ofNat 58 (2 ^ 3)) = 0 := by decide +kernel

/-- R55: CRC-32C as it ends for a cell, inverted for a link-control slot. -/
theorem test_check_word_polarity :
    laneKind (frameOf (List.replicate 16 7) true) = some true ∧ laneKind (frameOf (List.replicate 16 7) false) = some false ∧
    laneKind (laneOf 1) = none := by decide +kernel

/-! ### Commands that are not well formed -/

/-- A payload that LEN does not count, one above 256 bytes, and one that is neither. -/
theorem test_ill_formed_gdp :
    (Instr.gdpWrite 0 { gdp .write with payload := [1] }).wellFormed = false ∧
    (Instr.gdpWrite 0 { gdp .write with len := 257, payload := List.replicate 257 0 }).wellFormed = false ∧
    (Instr.gdpWrite 0 { gdp .write with payload := List.replicate 8 0 }).wellFormed = true := by decide +kernel

/-- An access beyond the chip's offsets, an empty one, one across a line, an error without a value, two errors in one symbol, a
write without its bytes, and a good one. -/
theorem test_ill_formed_access :
    (Instr.hbmAccess ⟨2 ^ 44, 8, none, 0, []⟩).wellFormed = false ∧ (Instr.hbmAccess ⟨0, 0, none, 0, []⟩).wellFormed = false ∧
    (Instr.hbmAccess ⟨60, 8, none, 0, []⟩).wellFormed = false ∧ (Instr.hbmAccess ⟨0, 8, none, 0, [(1, 0)]⟩).wellFormed = false ∧
    (Instr.hbmAccess ⟨0, 8, none, 0, [(1, 5), (1, 6)]⟩).wellFormed = false ∧
    (Instr.hbmAccess ⟨0, 8, some ([1], false), 0, []⟩).wellFormed = false ∧
    (Instr.cellarAccess ⟨0, ⟨60, 8, none, 0, []⟩⟩).wellFormed = false ∧
    (Instr.hbmAccess ⟨0, 8, none, 0, [(1, 5)]⟩).wellFormed = true := by decide +kernel

/-- Monitors, frames, lanes and packets of the wrong size, and good ones. -/
theorem test_ill_formed_monitors_and_packets :
    (Instr.engineMonitorSample 0 { EngineSample.zero with bias := [] }).wellFormed = false ∧
    (Instr.engineMonitorSample 0 { EngineSample.zero with m5 := List.replicate 8 [] }).wellFormed = false ∧
    (Instr.sensorFrame ⟨[(2802, 0)], []⟩).wellFormed = false ∧ (Instr.sensorFrame ⟨[], [2802]⟩).wellFormed = false ∧
    (Instr.gdpTelemetry 14 (gdp .read) [(2802, 0)]).wellFormed = false ∧
    (Instr.gdpDescriptorReceived 0 []).wellFormed = false ∧
    (Instr.superframeReceived 0 [(0, ⟨[], 0⟩)]).wellFormed = false ∧
    (Instr.superframeReceived 0 [(18, sound)]).wellFormed = false ∧
    (Instr.circuitBerTimeExpiry 0 [] [] 0).wellFormed = false ∧
    (Instr.gnWrite 4 { gnBlank with payload := [1] }).wellFormed = false ∧
    (Instr.engineMonitorSample 0 EngineSample.zero).wellFormed = true ∧
    (Instr.superframeReceived 0 (sent sound)).wellFormed = true := by decide +kernel

/-- Numbers out of their range, lists that are too long, and good commands. -/
theorem test_ill_formed_numbers_and_lists :
    (Instr.sluiceApply (2 ^ 38)).wellFormed = false ∧ (Instr.granuleHoldRelease (2 ^ 36)).wellFormed = false ∧
    (Instr.patrolScrub (2 ^ 38 + 3 * 2 ^ 34 + 264 * 2 ^ 18) []).wellFormed = false ∧ (Instr.unitCopyDone (2 ^ 21)).wellFormed = false ∧
    (Instr.odeccReadTimer [(1024, 0)]).wellFormed = false ∧ (Instr.sweepPhaseDone 0 [(0, 0, 0, 0)]).wellFormed = false ∧
    (Instr.rackMembersWrite (List.replicate 33 0)).wellFormed = false ∧
    (Instr.get 1 0 false (List.replicate 65 ⟨0, 0, 0, 0⟩)).wellFormed = false ∧
    (Instr.set 1 0 (List.replicate 145 ⟨0, 0, 0, []⟩)).wellFormed = false ∧
    (Instr.memWrite 1 0 0 (List.replicate 1143 0)).wellFormed = false ∧ (Instr.attest 1 0 (List.replicate 1153 0)).wellFormed = false ∧
    (Instr.imageData 1 0 0 (List.replicate 1149 0)).wellFormed = false ∧ (Instr.uartFrame (List.replicate 2347 0)).wellFormed = false ∧
    (Instr.ownerRootWrite (List.replicate 2049 0)).wellFormed = false ∧ (Instr.debugResponse []).wellFormed = false ∧
    (Instr.objectWrite 0 0 0 (List.replicate 1145 0)).wellFormed = false ∧
    (Instr.sluiceApply 5).wellFormed = true ∧ (Instr.debugResponse (List.replicate 96 0)).wellFormed = true := by decide +kernel

end Sys2Proof.Tests
end

section
/-! PROOF. The roles of optical ports (R64, R65): the defaults, the rules of `rebuildPortMap`, `startPort`, `portRoleWrite` and of
a dictionary write of PORT_ROLE, and the statement `Port_roles`. -/

namespace Sys2Proof.Machine

/-! ### The default roles (R64) -/

/-- PORT_ROLE is the first array `objDefault` looks at, so its keys take the table of R64 and no row of the dictionary. -/
theorem objDefault_portRole (part : Part) {p : Nat} (hp : p < 160) :
    objDefault part (O.portRole + 256 * p) = roleDefault p := by
  have hkey : (O.portRole + 256 * p) % 256 = 0x01 ∧ O.portRole ≤ O.portRole + 256 * p ∧
      O.portRole + 256 * p < O.portRole + 256 * 160 := by
    simp only [O.portRole]; omega
  have hunit : (O.portRole + 256 * p - O.portRole) / 256 = p := by omega
  unfold objDefault
  rw [if_pos hkey, hunit]

/-- Right after power-on no object is written, so each port has its default role. -/
theorem reset_portRole {p : Nat} (hp : p < 160) : State.reset.obju O.portRole p = roleDefault p :=
  objDefault_portRole .a hp

/-- A count of ports by their roles right after power-on is a count by `roleDefault`. -/
theorem reset_count_portRole (l : List Nat) (f : Nat → Nat) (r : Nat) (hl : ∀ k ∈ l, f k < 160) :
    (l.filter fun k => State.reset.obju O.portRole (f k) == r).length = (l.filter fun k => roleDefault (f k) == r).length :=
  congrArg List.length (List.filter_congr fun k hk => by rw [reset_portRole (hl k hk)])

theorem reset_tn_count : ((List.range 160).filter fun p => State.reset.obju O.portRole p == 1).length = 126 :=
  (reset_count_portRole _ id 1 fun _ => List.mem_range.mp).trans (by decide +kernel)

theorem reset_gn_count : ((List.range 160).filter fun p => State.reset.obju O.portRole p == 2).length = 32 :=
  (reset_count_portRole _ id 2 fun _ => List.mem_range.mp).trans (by decide +kernel)

/-- Two ports whose numbers are 4 modulo 5 are at least 5 apart, so at most two lie among an engine's eight. -/
theorem reset_gn_on_engine {e : Nat} (he : e < 20) :
    ((List.range 8).filter fun k => State.reset.obju O.portRole (8 * e + k) == 2).length ≤ 2 := by
  have hport : ∀ k ∈ List.range 8, 8 * e + k < 160 := fun k hk => by have := List.mem_range.mp hk; omega
  have hcount : ∀ e < 20, ((List.range 8).filter fun k => roleDefault (8 * e + k) == 2).length ≤ 2 := by decide
  exact (reset_count_portRole _ (8 * e + ·) 2 hport).trans_le (hcount e he)

/-! ### What a rebuilt port map and a role's own object leave unchanged -/

/-- The port map's rebuild writes no object. -/
@[simp] theorem Chip.rebuildPortMap_obju (s : Chip) (p k u : Nat) : (s.rebuildPortMap p).obju k u = s.obju k u := by
  simp only [Chip.rebuildPortMap]
  split <;> rfl

@[simp] theorem Chip.setObj_obju_same (s : Chip) (k u v : Nat) : (s.setObj (k + 256 * u) v).obju k u = v := s.setObj_same _ _

theorem Chip.setObj_obju_other_unit (s : Chip) (k v : Nat) {u w : Nat} (h : w ≠ u) :
    (s.setObj (k + 256 * u) v).obju k w = s.obju k w :=
  s.setObj_other _ _ _ (by omega)

/-- PORT_ADMIN has a subindex of its own, so its write leaves every role as it was. -/
@[simp] theorem Chip.setObj_portAdmin_portRole (s : Chip) (p q v : Nat) :
    (s.setObj (O.portAdmin + 256 * p) v).obju O.portRole q = s.obju O.portRole q :=
  s.setObj_other _ _ _ (by simp only [O.portAdmin, O.portRole]; omega)

/-! ### A spare port stays Disabled (R64) -/

theorem Chip.startPort_spare (s : Chip) {p : Nat} (h : s.obju O.portRole p = 0) : s.startPort p = s := if_pos (.inl h)

/-- PORT_ADMIN 1 on a Disabled spare port changes no port, whether it is refused or written. -/
theorem Chip.portEnable_spare_ports (s : Chip) {p : Nat} (hrole : s.obju O.portRole p = 0)
    (hst : (s.port p).state = .disabled) : ((s.portEnable p).getD s).ports = s.ports := by
  by_cases hb : s.portBarred p = true
  · simp [Chip.portEnable, hb]
  · simp [Chip.portEnable, hb, hst, Chip.startPort_spare, hrole]

/-- PORT_ADMIN 2 on a Disabled spare port changes no port. -/
theorem Chip.portCircuit_spare_ports (s : Chip) {p : Nat} (hrole : s.obju O.portRole p = 0)
    (hst : (s.port p).state = .disabled) : (s.portCircuit p).ports = s.ports := by
  simp [Chip.portCircuit, hst, Chip.startPort_spare, hrole]

/-! ### A write of PORT_ROLE (R65) -/

/-- How many ports other than p have role r: what `portRoleWrite` compares with 126 and 32. -/
def Chip.othersInRole (s : Chip) (p r : Nat) : Nat := ((List.range 160).filter fun q => q != p && s.obju O.portRole q == r).length

/-- The write of a role is taken exactly where R65 allows it. -/
theorem Chip.portRoleWrite_eq (s : Chip) (p r : Nat) :
    s.portRoleWrite p r =
      if r > 2 ∨ (s.port p).state ≠ .disabled ∨ (r = 1 ∧ s.othersInRole p 1 ≥ 126) ∨ (r = 2 ∧ s.othersInRole p 2 ≥ 32)
      then none
      else some ((s.setObj (O.portRole + 256 * p) r).rebuildPortMap p) := rfl

theorem Chip.portRoleWrite_taken (s : Chip) {p r : Nat} (hst : (s.port p).state = .disabled) (hr : r ≤ 2)
    (htn : r = 1 → s.othersInRole p 1 < 126) (hgn : r = 2 → s.othersInRole p 2 < 32) :
    s.portRoleWrite p r = some ((s.setObj (O.portRole + 256 * p) r).rebuildPortMap p) := by
  rw [Chip.portRoleWrite_eq, if_neg]
  rintro (h | h | ⟨h1, h⟩ | ⟨h2, h⟩)
  · omega
  · exact h hst
  · exact absurd (htn h1) (by omega)
  · exact absurd (hgn h2) (by omega)

theorem Chip.portRoleWrite_refused (s : Chip) {p r : Nat} (h : (s.port p).state ≠ .disabled ∨
    r = 1 ∧ 126 ≤ s.othersInRole p 1 ∨ r = 2 ∧ 32 ≤ s.othersInRole p 2) : s.portRoleWrite p r = none :=
  if_pos (.inr h)

/-! ### PORT_ROLE in the dictionary (R452) -/

/-- The row of PORT_ROLE, for all ports. -/
def portRoleRow : DictRow := ⟨O.portRole, 160, .u8, .rwp, 0, 0, 2⟩

theorem dictRow_portRole (p : Fin 160) : dictRow (O.portRole + 256 * p.val) = some portRoleRow := by
  revert p
  decide +kernel

/-- While the dies run, PORT_ROLE's value is written by `portRoleWrite`. -/
theorem Chip.numberWrite_portRole (s : Chip) (p x : Nat) (h : s.live = true) :
    s.numberWrite portRoleRow (O.portRole + 256 * p) x = s.portRoleWrite p x := by
  have haon : actionsAon.find? (·.1 == portRoleRow.key) = none := by rfl
  have hact : (actionsA ++ actionsB).find? (·.1 == portRoleRow.key) =
      some (O.portRole, fun s p x => s.portRoleWrite p x) := by rfl
  have hunit : (O.portRole + 256 * p - portRoleRow.key) / 256 = p := by simp only [portRoleRow]; omega
  simp only [Chip.numberWrite, haon, hact, hunit, h, if_true]

/-- An OWNER's write of one byte to PORT_ROLE: OK with the role taken, or ACCESS with the chip unchanged. -/
theorem Chip.writeObject_portRole (s : Chip) (p : Fin 160) (r : Byte) (h : s.live = true) :
    s.writeObject .owner (0x4100 + p.val) 1 1 [r] = (s.portRoleWrite p.val r.toNat).elim (.access, s) fun t => (.ok, t) := by
  have hkey : 256 * (0x4100 + p.val) + 1 = O.portRole + 256 * p.val := by simp only [O.portRole]; omega
  have hnum : s.numberWrite portRoleRow (O.portRole + 256 * p.val) (leNat [r]) = s.portRoleWrite p.val r.toNat := by
    simpa [leNat] using s.numberWrite_portRole p.val r.toNat h
  have hmay : Writer.owner.may portRoleRow = true := rfl
  have htype : portRoleRow.ty.code = 1 := rfl
  have hbytes : portRoleRow.ty.bytes = some 1 := rfl
  have hacc : portRoleRow.acc = .rwp := rfl
  have hplain : portRoleRow.key ≠ O.serviceCmd := by decide
  simp only [Chip.writeObject, hkey, dictRow_portRole, hmay, htype, hbytes, hacc, hnum]
  cases s.portRoleWrite p.val r.toNat with
  | none => simp [hplain]
  | some t => simp

/-! ### PORT_ROLE_WRITE -/

/-- A role that R65 allows is taken: the port's own object changes, no other port's does, and the port map is rebuilt. -/
theorem gives_portRoleWrite_taken (s : State) (p : Fin 160) (r : Byte) (hlive : s.live = true)
    (hst : (s.port p.val).state = .disabled) (hr : r.toNat ≤ 2) (htn : r = 1 → s.othersInRole p.val 1 < 126)
    (hgn : r = 2 → s.othersInRole p.val 2 < 32) :
    s.gives (.portRoleWrite p r) fun c =>
      c.obju O.portRole p.val = r.toNat ∧ (∀ q, q < 160 → q ≠ p.val → c.obju O.portRole q = s.obju O.portRole q) ∧
      c = (s.toChip.setObj (O.portRole + 256 * p.val) r.toNat).rebuildPortMap p.val := by
  have hw := s.toChip.portRoleWrite_taken hst hr (fun h => htn (BitVec.eq_of_toNat_eq h)) fun h => hgn (BitVec.eq_of_toNat_eq h)
  refine State.gives_live rfl hlive ?_
  rw [hw, Option.getD_some]
  refine ⟨by simp, fun q _ hq => ?_, rfl⟩
  rw [Chip.rebuildPortMap_obju, Chip.setObj_obju_other_unit _ _ _ hq]

/-- A role that R65 refuses leaves the chip as it was, and a dictionary write of it is answered with ACCESS. -/
theorem gives_portRoleWrite_refused (s : State) (p : Fin 160) (r : Byte) (hlive : s.live = true)
    (h : (s.port p.val).state ≠ .disabled ∨ r = 1 ∧ 126 ≤ s.othersInRole p.val 1 ∨ r = 2 ∧ 32 ≤ s.othersInRole p.val 2) :
    (s.gives (.portRoleWrite p r) fun c => c = s.toChip) ∧
    s.toChip.writeObject .owner (0x4100 + p.val) 1 1 [r] = (.access, s.toChip) := by
  have hrole : ∀ {n : Byte}, r = n → r.toNat = n.toNat := congrArg BitVec.toNat
  have hw : s.toChip.portRoleWrite p.val r.toNat = none :=
    s.toChip.portRoleWrite_refused (h.imp_right (Or.imp (And.imp_left hrole) (And.imp_left hrole)))
  constructor
  · exact State.gives_live rfl hlive (by rw [hw, Option.getD_none])
  · rw [Chip.writeObject_portRole _ _ _ hlive, hw, Option.elim_none]

/-- PORT_ADMIN 1 and 2 leave a Disabled spare port, and every other port, as it was. -/
theorem gives_portAdmin_spare (s : State) (p : Fin 160) (i : Instr) (hi : i = .portAdminEnable p ∨ i = .portAdminCircuit p)
    (hlive : s.live = true) (hrole : s.obju O.portRole p.val = 0) (hst : (s.port p.val).state = .disabled) :
    s.gives i fun c => c.ports = s.ports := by
  obtain rfl | rfl := hi
  · exact State.gives_live rfl hlive (s.toChip.portEnable_spare_ports hrole hst)
  · exact State.gives_live rfl hlive (s.toChip.portCircuit_spare_ports hrole hst)

/-- Settles O19: the defaults are the table of R64, a spare port does not start, and a write of PORT_ROLE is `portRoleWrite`. -/
theorem portRoles : Obligations.Port_roles := by
  unfold Obligations.Port_roles
  exact ⟨fun _ => reset_portRole, reset_tn_count, reset_gn_count, fun _ => reset_gn_on_engine, gives_portAdmin_spare,
    gives_portRoleWrite_taken, gives_portRoleWrite_refused⟩

end Sys2Proof.Machine
end

section
/-! PROOF. Completion (R182, R184): a write of data memory leaves the queues as they were, the rules of `record`, `completeWith`,
`complete` and a queue's timers, and the statement `Completion`. -/

namespace Sys2Proof.Machine

/-! ### A write of data memory leaves the queues as they were -/

variable (s : Chip)

@[simp] theorem Chip.raiseLimited_queues (code unit : Nat) (args : List Arg) :
    (s.raiseLimited code unit args).queues = s.queues := by
  unfold Chip.raiseLimited
  split
  · dsimp only
    split <;> rfl
  · rfl

@[simp] theorem Chip.putBytes_queues (a : Nat) (bs : List Byte) : (s.putBytes a bs).queues = s.queues := rfl
@[simp] theorem Chip.mark_queues (a : Nat) (b : Bool) : (s.mark a b).queues = s.queues := rfl
@[simp] theorem Chip.setCache_queues (line : Nat) (c : Option CacheLine) : (s.setCache line c).queues = s.queues := rfl

@[simp] theorem Chip.putLine_queues (a : Nat) (bs : List Byte) (poison : Bool) :
    (s.putLine a bs poison).queues = s.queues := by
  simp only [Chip.putLine, apply_ite Chip.queues, Chip.mark_queues, Chip.putBytes_queues, ite_self]

@[simp] theorem Chip.evict_queues (line : Nat) : (s.evict line).queues = s.queues := by
  unfold Chip.evict
  split
  · rfl
  · dsimp only
    split <;> simp

@[simp] theorem Chip.keepRoom_queues (line : Nat) : (s.keepRoom line).queues = s.queues := by
  unfold Chip.keepRoom
  dsimp only
  split
  · rfl
  · split
    · rfl
    · split <;> simp

@[simp] theorem Chip.lineRoom_queues (line : Nat) : (s.lineRoom line).queues = s.queues := by
  unfold Chip.lineRoom
  dsimp only
  split
  · rfl
  · split
    · rfl
    · split
      · simp
      · split <;> simp

@[simp] theorem Chip.allocate_queues (line : Nat) (keep dirty : Bool) (under : Option (List Byte × Bool)) :
    (s.allocate line keep dirty under).queues = s.queues := by
  simp only [Chip.allocate, Chip.setCache_queues, Chip.lineRoom_queues, apply_ite Chip.queues, Chip.keepRoom_queues, ite_self]

@[simp] theorem Chip.touch_queues (line : Nat) (c : CacheLine) (keep : Bool) : (s.touch line c keep).queues = s.queues := by
  simp only [Chip.touch, Chip.setCache_queues, apply_ite Chip.queues, Chip.keepRoom_queues, ite_self]

@[simp] theorem Chip.noteWritten_queues (u line : Nat) : (s.noteWritten u line).queues = s.queues := by
  unfold Chip.noteWritten
  split <;> rfl

@[simp] theorem Chip.wakeStack_queues (t : Nat) : (s.wakeStack t).queues = s.queues := by
  unfold Chip.wakeStack
  split <;> rfl

@[simp] theorem Chip.wakeCellar_queues (a : Nat) : (s.wakeCellar a).queues = s.queues := by
  unfold Chip.wakeCellar
  split <;> rfl

@[simp] theorem Chip.unanswered_queues (p : Nat) : (s.unanswered p).1.queues = s.queues := by
  simp [Chip.unanswered]

/-- Without symbol errors nothing is decoded or booked. -/
@[simp] theorem Chip.readStored_queues (line : Nat) : (s.readStored line []).1.queues = s.queues := by
  unfold Chip.readStored
  split
  · rfl
  · dsimp only
    split
    · simp
    · rfl

@[simp] theorem Chip.mergeLine_queues (pl : Place) (line : Nat) : (s.mergeLine pl line []).queues = s.queues := by
  simp only [Chip.mergeLine, apply_ite Chip.queues, Chip.mark_queues, Chip.putBytes_queues, Chip.readStored_queues, ite_self]

/-- A write at a line's home: whether it bypasses the cache, hits it or misses it, the queues stay. -/
@[simp] theorem Chip.writeHbmLine_queues (a : Nat) (bs : List Byte) (poison : Bool) (hint : Hint) :
    (s.writeHbmLine a bs poison hint []).queues = s.queues := by
  unfold Chip.writeHbmLine
  dsimp only
  split
  case h_1 => rfl
  case h_2 pl _ =>
    split
    · simp [apply_ite Chip.queues]
    · split
      · simp [apply_ite Chip.queues]
      · simp [apply_ite Chip.queues]

@[simp] theorem Chip.writePiece_queues (a : Nat) (bs : List Byte) (poison : Bool) (hint : Hint) :
    (s.writePiece a bs poison hint).queues = s.queues := by
  unfold Chip.writePiece
  split
  · simp
  · split
    · split <;> simp
    · simp

@[simp] theorem Chip.write_queues (a : Nat) (bs : List Byte) (poison : Bool) (hint : Hint) :
    (s.write a bs poison hint).queues = s.queues :=
  Chip.each_keeps s Chip.queues (fun t (p : Nat × Nat) => t.writePiece p.1 ((bs.drop (p.1 - a)).take p.2) poison hint)
    (fun t _ => t.writePiece_queues ..) (pieces a bs.length)

/-! ### What a completing command does to its queue (R166, R184) -/

@[simp] theorem Chip.noteMirrorRecord_queues (q : Nat) (e : QEntry) (st : Status) :
    (s.noteMirrorRecord q e st).queues = s.queues := by
  unfold Chip.noteMirrorRecord
  split <;> rfl

@[simp] theorem Chip.dropWaitsOf_queues (q : Nat) (e : QEntry) : (s.dropWaitsOf q e).queues = s.queues := by
  unfold Chip.dropWaitsOf
  split <;> rfl

@[simp] theorem Chip.dropWaitsOf_mem (q : Nat) (e : QEntry) : (s.dropWaitsOf q e).mem = s.mem := by
  unfold Chip.dropWaitsOf
  split <;> rfl

/-- A queue is read from the table of queues alone. -/
theorem Chip.queueAt_congr {s t : Chip} (h : s.queues = t.queues) (q : Nat) : s.queueAt q = t.queueAt q :=
  congrArg (Tab.get Queue.reset · q) h

/-- A queue one of whose commands completes: its pointers and LAST fields move on and the command's slot is free. -/
def Queue.recorded (v : Queue) (e : QEntry) (st : Status) : Queue :=
  { v with
    cqTail := v.cqTail + 1, lastStatus := st.code, lastIndex := BitVec.ofNat 16 (e.num.toNat % 2 ^ v.sqLog2.toNat)
    aged := v.aged && !(e.unstarted && e.ready.isSome)
    entries := v.entries.filter (·.num != e.num) }

/-- The chip once a command's record is written, its queue apart. -/
def Chip.writeCompletion (s : Chip) (q : Nat) (e : QEntry) (st : Status) : Chip :=
  (s.noteMirrorRecord q e st).write
    ((s.queueAt q).cqBase.toNat + 32 * ((s.queueAt q).cqTail.toNat % 2 ^ (s.queueAt q).cqLog2.toNat))
    (leBytes 32 (s.recordBits (s.queueAt q) e st)) false 0

@[simp] theorem Chip.writeCompletion_queues (q : Nat) (e : QEntry) (st : Status) :
    (s.writeCompletion q e st).queues = s.queues := by
  simp [Chip.writeCompletion]

theorem Chip.settleQueue_of_not_draining {q : Nat} (h : (s.queueAt q).state ≠ .draining) : s.settleQueue q = s := by
  simp [Chip.settleQueue, h]

theorem Chip.settleQueue_of_drained {q : Nat} (hst : (s.queueAt q).state = .draining) (hnone : (s.queueAt q).entries = []) :
    s.settleQueue q = s.setQueue q fun v => { v with state := .disabled } := by
  simp [Chip.settleQueue, hst, hnone]

/-- Without CQ_COUNTER, and in a queue that does not drain, a record is one write and one update of its queue. -/
theorem Chip.record_eq {q : Nat} {e : QEntry} {st : Status} (hst : st ≠ .cancelled) (hcount : (s.queueAt q).cqCountEn = false)
    (hdrain : (s.queueAt q).state ≠ .draining) :
    s.record q e st = ((s.writeCompletion q e st).dropWaitsOf q e).setQueue q (·.recorded e st) := by
  have hwrite : ((s.writeCompletion q e st).dropWaitsOf q e).queueAt q = s.queueAt q := Chip.queueAt_congr (by simp) q
  calc s.record q e st
      = (((s.writeCompletion q e st).dropWaitsOf q e).setQueue q (·.recorded e st)).settleQueue q := by
        simp only [Chip.record, if_neg hst, hcount]
        rfl
    _ = ((s.writeCompletion q e st).dropWaitsOf q e).setQueue q (·.recorded e st) :=
        Chip.settleQueue_of_not_draining _ (by simpa [hwrite, Queue.recorded] using hdrain)

/-- OK stops no queue, and neither does an opcode that is not reserved (R171, R175). -/
theorem Chip.completeWith_ok (q : Nat) {e : QEntry} (hop : e.opcode ≤ 10) : s.completeWith q e .ok = s.record q e .ok := by
  simp [Chip.completeWith, hop]

/-- A finished command without a signal completes with its status. -/
theorem Chip.complete_unsignalled {q : Nat} {n : Word32} {e : QEntry} (he : (s.queueAt q).entry n = some e)
    (hphase : e.phase = .finished) (hsig : e.sigEn = false) : s.complete q n = s.completeWith q e e.status := by
  simp [Chip.complete, he, hphase, hsig]

/-! ### The timers of a queue -/

/-- WAIT_LIMIT ends the head's unmet waits, unless it is a COLLECTIVE (R182). -/
theorem Chip.waitLimit_of_unmet {q : Nat} {e : QEntry} (hst : (s.queueAt q).state = .active)
    (hhead : (s.queueAt q).head = some e) (hphase : e.phase = .waiting) (hlimit : (s.queueAt q).waitLimit ≠ 0)
    (hop : e.opcode ≠ 8) (hunmet : (s.meetWaits q e).2 = false) :
    s.waitLimit q = ((s.dropWaits (.queue q)).setEntry q e.num fun e =>
      { e with phase := .finished, status := .timeout }).stampHead q := by
  simp only [Chip.waitLimit, hhead]
  exact if_pos (by simpa [hst, hphase, hop, hunmet] using hlimit)

theorem Chip.waitLimit_collective {q : Nat} {e : QEntry} (hhead : (s.queueAt q).head = some e) (hop : e.opcode = 8) :
    s.waitLimit q = s := by
  simp [Chip.waitLimit, hhead, hop]

theorem Chip.queueAging_of_ready {q n : Nat} {e : QEntry} (hhead : (s.queueAt q).head = some e) (hready : e.ready = some n) :
    s.queueAging q = s.setQueue q fun v => { v with aged := true } := by
  simp [Chip.queueAging, Queue.readyHead, hhead, hready]

/-- With nothing in flight there is nothing to complete or to cancel at the deadline. -/
theorem Chip.queueDeadline_of_empty {q : Nat} (hst : (s.queueAt q).state = .draining) (hnone : (s.queueAt q).entries = []) :
    s.queueDeadline q = s.setQueue q fun v => { v with state := .disabled } := by
  simp [Chip.queueDeadline, hst, hnone, Chip.settleQueue_of_drained]

/-! ### COMMAND_COMPLETE -/

theorem State.gives.imp {s : State} {i : Instr} {P Q : Chip → Prop} (h : s.gives i P) (hpq : ∀ c, P c → Q c) : s.gives i Q :=
  let ⟨t, hexec, hpending, hp⟩ := h
  ⟨t, hexec, hpending, hpq t.toChip hp⟩

theorem gives_commandComplete_ok (s : State) (q : Fin 16384) (n : Word32) (e : QEntry) (hlive : s.live = true)
    (hst : (s.queueAt q.val).state = .active) (he : (s.queueAt q.val).entry n = some e) (hphase : e.phase = .finished)
    (hok : e.status = .ok) (hsig : e.sigEn = false) (hop : e.opcode ≤ 10) (hcount : (s.queueAt q.val).cqCountEn = false) :
    s.gives (.commandComplete q n) fun c =>
      c.queueAt q.val = (s.queueAt q.val).recorded e .ok ∧ c.mem = (s.toChip.writeCompletion q.val e .ok).mem ∧
      ∀ j, j ≠ q.val → c.queueAt j = s.queueAt j := by
  have hcomplete : s.toChip.complete q.val n =
      ((s.toChip.writeCompletion q.val e .ok).dropWaitsOf q.val e).setQueue q.val (·.recorded e .ok) := by
    rw [Chip.complete_unsignalled _ he hphase hsig, hok, Chip.completeWith_ok _ _ hop,
      Chip.record_eq _ (by decide) hcount (by simp [hst])]
  have hqueues : ∀ j, ((s.toChip.writeCompletion q.val e .ok).dropWaitsOf q.val e).queueAt j = s.queueAt j :=
    Chip.queueAt_congr (by simp)
  refine State.gives_live rfl hlive ?_
  rw [hcomplete]
  refine ⟨?_, ?_, fun j hj => ?_⟩
  · rw [Chip.setQueue_same, hqueues]
  · rw [Chip.setQueue_mem, Chip.dropWaitsOf_mem]
  · rw [Chip.setQueue_other _ _ _ _ hj, hqueues]

/-- Settles O30: a record is one write of memory, which keeps the queues, and one update of its own queue; the timers follow
from the head of the queue. -/
theorem completion : Obligations.Completion := by
  unfold Obligations.Completion
  refine ⟨?_, ?_, ?_, ?_, ?_⟩
  · intro s q n e hlive hst he hphase hok hsig hop hcount
    refine (gives_commandComplete_ok s q n e hlive hst he hphase hok hsig hop hcount).imp fun c ⟨hqueue, hmem, hothers⟩ => ?_
    rw [hqueue]
    exact ⟨rfl, rfl, rfl, rfl, hmem, hothers⟩
  · intro s q e t hlive hst hhead hphase hlimit hop hwaits
    exact State.gives_live rfl hlive (s.toChip.waitLimit_of_unmet hst hhead hphase hlimit hop (by rw [hwaits]))
  · intro s q e hlive hhead hop
    exact State.gives_live rfl hlive (s.toChip.waitLimit_collective hhead hop)
  · intro s q e n hlive hhead hready
    exact State.gives_live rfl hlive (s.toChip.queueAging_of_ready hhead hready)
  · intro s q hlive hst hnone
    exact State.gives_live rfl hlive (s.toChip.queueDeadline_of_empty hst hnone)

end Sys2Proof.Machine
end

section
/-! PROOF. MIN and MAX of floating numbers (R357): the order of values, the rules of `minMax`, where the vector engine, its reductions
and the collectives use it, and the statement `Minimum_and_maximum`. -/

namespace Sys2Proof.Machine

/-! ### The order of values -/

/-- Dyadics compare as their numerators at the lower of the two exponents. -/
theorem dyLt_iff (a b : Int × Int) :
    dyLt a b = true ↔ a.1 * 2 ^ (a.2 - min a.2 b.2).toNat < b.1 * 2 ^ (b.2 - min a.2 b.2).toNat := by
  simp only [dyLt, dyAdd, decide_eq_true_eq, Int.neg_mul]
  omega

theorem dyLt_asymm {a b : Int × Int} (h : dyLt a b = true) : dyLt b a = false := by
  rw [dyLt_iff] at h
  rw [Bool.eq_false_iff, ne_eq, dyLt_iff, min_comm]
  exact lt_asymm h

/-- If only the first of two signs is minus, it is not that only the second is. -/
theorem sign_asymm {n n' : Bool} (h : (n && !n') = true) : (n' && !n) = false := by
  revert n n'
  decide

/-- Of two zeros the sign decides. -/
theorem FVal.below_zeros (n n' : Bool) (d e : Int) : (FVal.fin n 0 d).below (.fin n' 0 e) = (n && !n') := rfl

/-- Where one of two finite values is not zero, their exact values decide. -/
theorem FVal.below_fin {n n' : Bool} {m m' : Nat} {d e : Int} (h : m ≠ 0 ∨ m' ≠ 0) :
    (FVal.fin n m d).below (.fin n' m' e) = dyLt (FVal.int (.fin n m d)) (FVal.int (.fin n' m' e)) :=
  if_neg (by omega)

/-- No two values are each below the other, so MIN and MAX do not depend on which operand is asked first. -/
theorem FVal.below_asymm {v w : FVal} (h : v.below w = true) : w.below v = false := by
  cases v with
  | nan s =>
    cases w with
    | inf n => simpa [FVal.below] using h
    | fin n m e => simp [FVal.below] at h
    | nan s' => simp [FVal.below] at h
  | inf n =>
    cases w with
    | inf n' => exact sign_asymm h
    | fin n' m e => simpa [FVal.below] using h
    | nan s => simpa [FVal.below] using h
  | fin n m d =>
    cases w with
    | inf n' => simpa [FVal.below] using h
    | nan s => simp [FVal.below] at h
    | fin n' m' e =>
      by_cases hzero : m ≠ 0 ∨ m' ≠ 0
      · rw [FVal.below_fin hzero] at h
        rw [FVal.below_fin hzero.symm]
        exact dyLt_asymm h
      · obtain ⟨rfl, rfl⟩ : m = 0 ∧ m' = 0 := by omega
        rw [FVal.below_zeros] at h ⊢
        exact sign_asymm h

/-! ### `minMax` on NaN and on numbers -/

section
variable {k a b : Nat} {m : Bool}

theorem minMax_nan_left (ha : (elemValue k a).isNan = true) (hb : (elemValue k b).isNan = false) : (minMax k m a b).1 = b := by
  simp [minMax, ha, hb]

theorem minMax_nan_right (ha : (elemValue k a).isNan = false) (hb : (elemValue k b).isNan = true) : (minMax k m a b).1 = a := by
  simp [minMax, ha, hb]

theorem minMax_nans (ha : (elemValue k a).isNan = true) (hb : (elemValue k b).isNan = true) : (minMax k m a b).1 = nanCode k := by
  simp [minMax, ha, hb]

/-- Of two numbers MAX asks whether the first is below the second, MIN whether the second is below the first. -/
theorem minMax_numbers (ha : (elemValue k a).isNan = false) (hb : (elemValue k b).isNan = false) :
    (minMax k m a b).1 = if m then (if (elemValue k a).below (elemValue k b) then b else a)
      else if (elemValue k b).below (elemValue k a) then b else a := by
  simp [minMax, ha, hb]

theorem minMax_of_below (ha : (elemValue k a).isNan = false) (hb : (elemValue k b).isNan = false)
    (h : (elemValue k a).below (elemValue k b) = true) : (minMax k m a b).1 = if m then b else a := by
  simp [minMax_numbers ha hb, h, FVal.below_asymm h]

theorem minMax_of_above (ha : (elemValue k a).isNan = false) (hb : (elemValue k b).isNan = false)
    (h : (elemValue k b).below (elemValue k a) = true) : (minMax k m a b).1 = if m then a else b := by
  simp [minMax_numbers ha hb, h, FVal.below_asymm h]

theorem minMax_flags : (minMax k m a b).2 =
    if (elemValue k a).isSnan || (elemValue k b).isSnan then FFlags.invalid else FFlags.none := rfl

end

/-! ### Where the rule applies (R224, R337, R341) -/

theorem vecElem_min {f : Nat} (h : isF f = true) (rm : RMode) (a b d : Nat) : vecElem 0x05 f rm a b d = minMax f false a b := if_pos h

theorem vecElem_max {f : Nat} (h : isF f = true) (rm : RMode) (a b d : Nat) : vecElem 0x06 f rm a b d = minMax f true a b := if_pos h

/-- A reduction's step that is no sum is `minMax` on FP32, and its flags join the partials'. -/
theorem reduceStep_minMax {op f : Nat} (hop : op ≠ 0x30) (h : isF f = true) (a b : Partial) :
    reduceStep op f a b = ((minMax 0 (op == 0x31) a.1 b.1).1, (a.2.join b.2).join (minMax 0 (op == 0x31) a.1 b.1).2) := by
  simp [reduceStep, hop, h]

/-- A collective's operator on a floating type that is no sum is `minMax` of its format. -/
theorem combine_minMax {d op k : Nat} (hop : op ≠ 0) (h : dtypeFmt d = some k) (a b : Nat) :
    combine d op a b = (minMax k (op == 2) a b).1 := by
  simp [combine, hop, h]

/-- Settles O47: the order of values is asymmetric, so `minMax` gives the lower and the higher of two numbers, and the vector
engine, its reductions and the collectives all compute it. -/
theorem minimumAndMaximum : Obligations.Minimum_and_maximum := by
  unfold Obligations.Minimum_and_maximum
  refine ⟨fun k a b m => ⟨minMax_nan_left, minMax_nan_right, minMax_nans, minMax_of_below, minMax_of_above, minMax_flags⟩,
    fun d e => ⟨FVal.below_zeros true false d e, FVal.below_zeros false true e d⟩, fun n n' m m' d e => FVal.below_fin,
    fun f rm a b d hf => ⟨vecElem_min hf rm a b d, vecElem_max hf rm a b d⟩, fun f a b hf => ?_,
    fun d k a b hk => ⟨combine_minMax (by decide) hk a b, combine_minMax (by decide) hk a b⟩⟩
  have hmax := reduceStep_minMax (op := 0x31) (by decide) hf a b
  have hmin := reduceStep_minMax (op := 0x32) (by decide) hf a b
  rw [hmax, hmin]
  exact ⟨rfl, rfl, rfl, rfl⟩

end Sys2Proof.Machine
end

section
/-! PROOF. DET_MODE and SR_SEED (R370, R372): an owner's write of a number object, the two objects in the dictionary, the DET field of
the info block, and the statement `Determinism_objects`. -/

namespace Sys2Proof.Machine

section
variable (s : Chip)

/-! ### Writes while the job is Idle, and others -/

theorem Chip.detModeWrite_idle (v : Bool) (h : s.job.state = 0) : s.detModeWrite v = some (s.setObj O.detMode v.toNat) := if_pos h

theorem Chip.detModeWrite_busy (v : Bool) (h : s.job.state ≠ 0) : s.detModeWrite v = none := if_neg h

theorem Chip.srSeedWrite_idle (v : Nat) (h : s.job.state = 0) : s.srSeedWrite v = some (s.setObj O.srSeed v) := if_pos h

theorem Chip.srSeedWrite_busy (v : Nat) (h : s.job.state ≠ 0) : s.srSeedWrite v = none := if_neg h

/-! ### An owner's write of a number object (R452) -/

/-- An OWNER's write of an RWP object of fixed width, with its type and its length: OK with the chip that the object's own rule
gives, or ACCESS with the chip unchanged. -/
theorem Chip.writeObject_number {idx sub : Nat} {r : DictRow} {v : List Byte} (hrow : dictRow (256 * idx + sub) = some r)
    (hacc : r.acc = .rwp) (hbytes : r.ty.bytes = some v.length) (hkey : r.key ≠ O.serviceCmd) :
    s.writeObject .owner idx sub r.ty.code v =
      (s.numberWrite r (256 * idx + sub) (leNat v)).elim (.access, s) fun t => (.ok, t) := by
  have hmay : Writer.owner.may r = true := rfl
  simp only [Chip.writeObject, hrow, hmay, hacc, hbytes]
  cases s.numberWrite r (256 * idx + sub) (leNat v) with
  | none => simp [hkey]
  | some t => simp

/-- While the dies run, an object of the dies that acts in a way of its own is written by its action. -/
theorem Chip.numberWrite_action {r : DictRow} {a : Nat × (Chip → Nat → Nat → Option Chip)} (hlive : s.live = true)
    (haon : actionsAon.find? (·.1 == r.key) = none) (hact : (actionsA ++ actionsB).find? (·.1 == r.key) = some a)
    (key x : Nat) : s.numberWrite r key x = a.2 s ((key - r.key) / 256) x := by
  simp only [Chip.numberWrite, haon, hact, hlive, if_true]

/-- The row of DET_MODE (R382). -/
def detModeRow : DictRow := ⟨O.detMode, 1, .bool, .rwp, 0, 0, 1⟩

/-- The row of SR_SEED (R382). -/
def srSeedRow : DictRow := ⟨O.srSeed, 1, .u64, .rwp, 0, 0, 18446744073709551615⟩

theorem dictRow_detMode : dictRow (256 * 0x6010 + 1) = some detModeRow := by decide +kernel

theorem dictRow_srSeed : dictRow (256 * 0x6010 + 2) = some srSeedRow := by decide +kernel

theorem Chip.numberWrite_detMode (h : s.live = true) (key x : Nat) :
    s.numberWrite detModeRow key x = if x ≤ 1 then s.detModeWrite (x == 1) else none :=
  have haon : actionsAon.find? (·.1 == detModeRow.key) = none := by rfl
  have hact : (actionsA ++ actionsB).find? (·.1 == detModeRow.key) =
    some (O.detMode, fun s _ x => if x ≤ 1 then s.detModeWrite (x == 1) else none) := by rfl
  s.numberWrite_action h haon hact key x

theorem Chip.numberWrite_srSeed (h : s.live = true) (key x : Nat) : s.numberWrite srSeedRow key x = s.srSeedWrite x :=
  have haon : actionsAon.find? (·.1 == srSeedRow.key) = none := by rfl
  have hact : (actionsA ++ actionsB).find? (·.1 == srSeedRow.key) = some (O.srSeed, fun s _ x => s.srSeedWrite x) := by rfl
  s.numberWrite_action h haon hact key x

/-- An owner's write of DET_MODE while a job is not Idle is answered with ACCESS. -/
theorem Chip.writeObject_detMode_busy (b : Byte) (hlive : s.live = true) (hjob : s.job.state ≠ 0) :
    s.writeObject .owner 0x6010 1 0 [b] = (.access, s) := by
  have hw := s.writeObject_number (v := [b]) dictRow_detMode rfl rfl (by decide)
  rw [s.numberWrite_detMode hlive, s.detModeWrite_busy _ hjob, ite_self] at hw
  exact hw

/-- An owner's write of SR_SEED while a job is not Idle is answered with ACCESS. -/
theorem Chip.writeObject_srSeed_busy {b : List Byte} (hlive : s.live = true) (hjob : s.job.state ≠ 0) (hb : b.length = 8) :
    s.writeObject .owner 0x6010 2 4 b = (.access, s) := by
  have hw := s.writeObject_number (v := b) dictRow_srSeed rfl (hb ▸ rfl) (by decide)
  rw [s.numberWrite_srSeed hlive, s.srSeedWrite_busy _ hjob] at hw
  exact hw

/-! ### The DET field of the info block (R297) -/

/-- The fields of the info block below DET: bits 335 to 0. -/
def Chip.infoLow (s : Chip) (q : Nat) (e : QEntry) (c rank n : Nat) : Nat :=
  (if s.part = .a then 0 else 1) * 2 ^ 328 + e.argLines % 256 * 2 ^ 320 + e.args * 2 ^ 256 + e.code * 2 ^ 192 +
  s.timebase.toNat * 2 ^ 128 + e.field 63 32 * 2 ^ 96 + e.num.toNat % 65536 * 2 ^ 80 + q * 2 ^ 64 + n * 2 ^ 56 +
  rank * 2 ^ 48 + c % 32 * 2 ^ 40 + c / 32 * 2 ^ 32 + c * 2 ^ 16 + (if s.objb O.chipAssigned then s.chipNumber else 0)

theorem Chip.infoBlock_eq (q : Nat) (e : QEntry) (c rank n : Nat) :
    s.infoBlock q e c rank n =
      (s.objb O.chipAssigned).toNat * 2 ^ 344 + (s.objb O.detMode).toNat * 2 ^ 336 + s.infoLow q e c rank n := by
  simp only [Chip.infoBlock, Chip.infoLow]
  omega

theorem Chip.infoLow_lt {q : Nat} {e : QEntry} {c rank n : Nat} (hc : c < 256) (hrank : rank < 256) (hn : n < 256)
    (hq : q < 65536) (hchip : s.chipNumber < 65536) (hargs : e.args < 2 ^ 64) (hcode : e.code < 2 ^ 64) :
    s.infoLow q e c rank n < 2 ^ 336 := by
  have hpart : (if s.part = .a then 0 else 1) ≤ 1 := by split <;> omega
  have hnumber : (if s.objb O.chipAssigned then s.chipNumber else 0) < 65536 := by split <;> omega
  have hfield : e.field 63 32 < 2 ^ 32 := Nat.mod_lt _ (by decide)
  have htime := s.timebase.isLt
  simp only [Chip.infoLow]
  omega

/-- The lowest bit of a field of eight bits reads back whatever stands above the field and below it. -/
theorem bitsOf_flag {lo low : Nat} (v d : Bool) (h : low < 2 ^ lo) :
    bitsOf (v.toNat * 2 ^ (lo + 8) + d.toNat * 2 ^ lo + low) (lo + 7) lo = d.toNat := by
  have hd : d.toNat < 256 := d.toNat_le.trans_lt (by decide)
  have hwidth : 2 ^ (lo + 7 + 1 - lo) = 256 := by rw [show lo + 7 + 1 - lo = 8 by omega]; rfl
  have hsplit : v.toNat * 2 ^ (lo + 8) + d.toNat * 2 ^ lo + low = low + (d.toNat + 256 * v.toNat) * 2 ^ lo := by
    rw [Nat.pow_add]; ring
  rw [bitsOf, hsplit, hwidth, Nat.add_mul_div_right _ _ (Nat.two_pow_pos lo), Nat.div_eq_of_lt h, Nat.zero_add,
    Nat.add_mul_mod_self_left, Nat.mod_eq_of_lt hd]

theorem Chip.infoBlock_det {q : Nat} {e : QEntry} {c rank n : Nat} (hlow : s.infoLow q e c rank n < 2 ^ 336) :
    s.objb O.detMode = (bitsOf (s.infoBlock q e c rank n) 343 336 == 1) := by
  rw [s.infoBlock_eq, bitsOf_flag (s.objb O.chipAssigned) (s.objb O.detMode) hlow]
  cases s.objb O.detMode <;> rfl

end

/-- Settles O50: both commands and both dictionary writes come to `detModeWrite` and `srSeedWrite`, which refuse while the job is
not Idle, and DET stands alone in its byte of the info block. -/
theorem determinismObjects : Obligations.Determinism_objects := by
  unfold Obligations.Determinism_objects
  refine ⟨fun s b hlive hjob => ?_, fun s w hlive hjob => ?_, fun s i hi hlive hjob => ?_,
    fun s b hlive hjob => s.writeObject_detMode_busy b hlive hjob,
    fun s b hlive hjob hb => s.writeObject_srSeed_busy hlive hjob hb,
    fun s q e c rank n hc hrank hn hq hchip hargs hcode =>
      s.infoBlock_det (s.infoLow_lt hc hrank hn hq hchip hargs hcode)⟩
  · exact State.gives_live rfl hlive (by simp [Chip.detModeWrite_idle, hjob])
  · exact State.gives_live rfl hlive (by simp [Chip.srSeedWrite_idle, hjob])
  · obtain ⟨b, rfl⟩ | ⟨w, rfl⟩ := hi
    · exact State.gives_live rfl hlive (by simp [Chip.detModeWrite_busy, hjob])
    · exact State.gives_live rfl hlive (by simp [Chip.srSeedWrite_busy, hjob])

end Sys2Proof.Machine
end

section
/-! PROOF. How every command acts: which the dies serve and which the always-on domain does, what held in reset or without power
does nothing, and the statements `Step_runs_the_front_command`, `Every_command_answers_a_next_state`, `Reset_state`,
`Dies_without_power_do_nothing` and `Held_in_reset_is_kept`. -/

namespace Sys2Proof.Machine

/-! ### How a command acts -/

/-- The commands that the always-on domain and management serve: the others act on dies that run alone. -/
def servedAon : Instr → Bool
  | .resetNAssert _ | .resetNRelease _ _ | .vaonUp | .shutdownNReleaseTimer | .vaonLoss | .refclkLoss | .sensorFrame _
  | .ditchriderHeartbeat | .standbyTakeover | .ditchriderUnitLoss _ | .compensationTick _ | .reArm _
  | .thermalLevelWrite _ _ _ | .dtlsHandshake _ | .sessionIdleTimeout _ | .get _ _ _ _ | .set _ _ _ | .subscribe _ _ _ _
  | .eventAck _ _ _ | .memRead _ _ _ _ | .memWrite _ _ _ _ | .attest _ _ _ | .imageBegin _ _ _ _ | .imageData _ _ _ _
  | .imageEnd _ _ | .imageAbort _ _ | .imageIdleTimeout | .eulenReset _ _ | .badMessage _ _ _ | .uartFrame _
  | .activationUnitDone _ _ | .activationTimeout _ | .eventResendTimer _ _ | .snapshotExpiry _ | .configDone _
  | .configWindowExpiry | .ownerRootWrite _ | .debugRequest _ | .debugResponse _ | .recoveryRequest _ | .objectWrite _ _ _ _
  | .alertNRelease | .mgmtLinkUp => true
  | _ => false

/-- Every command answers a next state, and the commands that wait stay. -/
theorem exec_next (i : Instr) (s : State) : ∃ t, exec i s = .next t ∧ t.pending = s.pending := by
  cases i <;> exact ⟨_, rfl, rfl⟩

/-- Any other command is one that the dies serve. -/
theorem exec_act {i : Instr} (h : servedAon i = false) (s : State) : ∃ f, exec i s = s.act f := by
  cases i
  case resetNAssert | resetNRelease | vaonUp | shutdownNReleaseTimer | vaonLoss | refclkLoss | sensorFrame
    | ditchriderHeartbeat | standbyTakeover | ditchriderUnitLoss | compensationTick | reArm | thermalLevelWrite
    | dtlsHandshake | sessionIdleTimeout | get | set | subscribe | eventAck | memRead | memWrite | attest | imageBegin
    | imageData | imageEnd | imageAbort | imageIdleTimeout | eulenReset | badMessage | uartFrame | activationUnitDone
    | activationTimeout | eventResendTimer | snapshotExpiry | configDone | configWindowExpiry | ownerRootWrite
    | debugRequest | debugResponse | recoveryRequest | objectWrite | alertNRelease | mgmtLinkUp => cases h
  all_goals exact ⟨_, rfl⟩

/-- What holds of a chip and of the chip after an update holds after the update that is taken under a condition. -/
theorem Chip.when_of {s : Chip} (p : Chip → Prop) {b : Bool} {f : Chip → Chip} (h : p s) (hf : p (f s)) : p (s.when b f) := by
  cases b
  · exact h
  · exact hf

/-! ### What the dies serve, while they are without power -/

theorem exec_without_power {i : Instr} {s : State} (hi : servedAon i = false) (h : s.live = false) : exec i s = .next s := by
  obtain ⟨f, hf⟩ := exec_act hi s
  rw [hf, State.act_idle s f h]

theorem Chip.live_of_not_awake {s : Chip} (h : s.awake = false) : s.live = false := by simp [Chip.live, h]

/-- Settles O1: `step` looks at the front of the queue alone. -/
theorem stepRunsTheFrontCommand : Obligations.Step_runs_the_front_command := by
  unfold Obligations.Step_runs_the_front_command
  constructor
  · intro c rest s h
    simp only [step, h]
  · intro s h
    simp only [step, h]

/-- Settles O2: no command leaves the meaning out, and none touches the queue of commands. -/
theorem everyCommandAnswersANextState : Obligations.Every_command_answers_a_next_state := by
  unfold Obligations.Every_command_answers_a_next_state
  refine ⟨fun c s => (exec_next c s).imp fun t h => h.1, fun s t h => ?_⟩
  cases hp : s.pending with
  | nil =>
    rw [stepRunsTheFrontCommand.2 s hp, Host.Outcome.next.injEq] at h
    rw [← h]
    exact hp
  | cons c rest =>
    rw [stepRunsTheFrontCommand.1 c rest s hp] at h
    obtain ⟨u, hu, hrest⟩ := exec_next c { s with pending := rest }
    rw [hu, Host.Outcome.next.injEq] at h
    rw [← h]
    exact hrest

/-- Settles O3: each field of `State.reset` is what it was set to. -/
theorem resetState : Obligations.Reset_state := by
  unfold Obligations.Reset_state
  exact ⟨rfl, reset_memory_wf, rfl, rfl, rfl, rfl, rfl, rfl, rfl, rfl, rfl, rfl, rfl⟩

/-- Settles O6: all of these are commands that the dies serve. -/
theorem diesWithoutPowerDoNothing : Obligations.Dies_without_power_do_nothing := by
  unfold Obligations.Dies_without_power_do_nothing
  intro s h
  exact ⟨fun _ _ => exec_without_power rfl h, fun _ => exec_without_power rfl h, fun _ _ => exec_without_power rfl h,
    fun _ _ => exec_without_power rfl h, fun _ => exec_without_power rfl h, fun _ => exec_without_power rfl h,
    fun _ => exec_without_power rfl h⟩

/-! ### RESET over management (R472) -/

/-- The answer to a RESET goes out, before anything is reset. -/
def Chip.answerReset (s : Chip) (id : Nat) (req : Word32) : Chip :=
  s.message id 0x0C req fun c v =>
    if !v.owns then .no c .role else if c.power.shutdown.isSome then .no c .access else ⟨.ok, [], c⟩

/-- The chip after a RESET, whether it takes effect or not. -/
def Chip.afterReset (s : Chip) (id : Nat) (req : Word32) : Chip :=
  if s.resets id req then (s.answerReset id req).eulenReset else s.answerReset id req

theorem exec_eulenReset (id : Nat) (req : Word32) (s : State) :
    exec (.eulenReset id req) s = .next { s with toChip := s.afterReset id req } := rfl

/-! ### What is held in reset -/

/-- Neither the Ditchrider's firmware nor the recovery loader runs. -/
def Chip.asleep (s : Chip) : Prop := s.awake = false ∧ s.mgmt.loader = false

/-- Only the boot's stage and the loader decide whether a chip is asleep. -/
theorem Chip.asleep.congr {s t : Chip} (h : s.asleep) (hstage : t.mgmt.stage = s.mgmt.stage)
    (hloader : t.mgmt.loader = s.mgmt.loader) : t.asleep := by
  simpa only [Chip.asleep, Chip.awake, hstage, hloader] using h

theorem Chip.asleep.not_serving {s : Chip} (h : s.asleep) : s.serving = false := by simp [Chip.serving, h.1, h.2]

/-- Where management is not served, a message changes nothing. -/
theorem Chip.message_of_not_serving {s : Chip} (h : s.serving = false) (id type : Nat) (req : Word32)
    (f : Chip → Session → Answer) : s.message id type req f = s := by simp [Chip.message, h]

@[simp] theorem adminDefaults_mgmt (s : Chip) : (adminDefaults s).mgmt = s.mgmt :=
  Chip.each_keeps s Chip.mgmt (fun t (e : Nat × Nat) => t.setObj (O.portAdmin + (e.1 - O.portRole)) (if e.2 = 0 then 0 else 1))
    (fun _ _ => rfl) _

@[simp] theorem Chip.resetAll_mgmt (s : Chip) : s.resetAll.mgmt = s.mgmt.kept := adminDefaults_mgmt _

/-- A package whose dies have been reset is asleep. -/
theorem Chip.resetAll_asleep (s : Chip) : s.resetAll.asleep := by
  simp [Chip.asleep, Chip.awake, Mgmt.kept, Mgmt.reset]

theorem Chip.resetAssert_asleep {s : Chip} (h : s.asleep) (width : Nat) : (s.resetAssert width).asleep := by
  refine Chip.when_of Chip.asleep h ?_
  dsimp only
  split
  · exact h.congr rfl rfl
  · exact s.resetAll_asleep.congr rfl rfl

theorem Chip.vaonLoss_asleep {s : Chip} (h : s.asleep) : s.vaonLoss.asleep := by
  exact Chip.when_of Chip.asleep h (s.resetAll_asleep.congr rfl rfl)

/-- An update of the pins and no other part keeps a chip asleep. -/
theorem Chip.asleep.when_pins {s : Chip} (h : s.asleep) (b : Bool) (f : Chip → Pins) :
    (s.when b fun c => { c with pins := f c }).asleep :=
  Chip.when_of Chip.asleep h (h.congr rfl rfl)

theorem Chip.setSession_asleep {s : Chip} (h : s.asleep) (id : Nat) (f : Session → Session) : (s.setSession id f).asleep :=
  h.congr rfl rfl

theorem Chip.imageIdle_asleep {s : Chip} (h : s.asleep) : s.imageIdle.asleep :=
  Chip.when_of Chip.asleep h (h.congr rfl rfl)

theorem Chip.closeSession_asleep {s : Chip} (h : s.asleep) (id : Nat) : (s.closeSession id).asleep := by
  refine Chip.when_of Chip.asleep h ?_
  dsimp only
  split <;> exact h.congr rfl rfl

theorem Chip.resendEvent_asleep {s : Chip} (h : s.asleep) (id : Nat) (seq : Word) : (s.resendEvent id seq).asleep := by
  unfold Chip.resendEvent
  split
  · split
    · exact h.congr rfl rfl
    · exact h
  · exact h

/-- No command but RESET_N_RELEASE wakes a package that is asleep. -/
theorem exec_asleep {i : Instr} {s t : State} (hi : ∀ e u, i ≠ .resetNRelease e u) (hs : s.asleep) (h : exec i s = .next t) :
    t.asleep := by
  have hserve : s.serving = false := hs.not_serving
  have hidle : ∀ {f : Chip → Chip}, s.actAwake f = exec i s → t.asleep := by
    intro f hf
    rw [State.actAwake_idle s f hs.1, h, Host.Outcome.next.injEq] at hf
    exact hf ▸ hs
  have hact : ∀ {c : Chip}, c.asleep → Host.Outcome.next { s with toChip := c } = exec i s → t.asleep := by
    intro c hc he
    rw [h, Host.Outcome.next.injEq] at he
    exact he ▸ hc
  have hmessage : ∀ {id type : Nat} {req : Word32} {f : Chip → Session → Answer},
      (s.always fun c => c.message id type req f) = exec i s → t.asleep :=
    fun {id type req f} => hact (c := s.message id type req f) (by rwa [Chip.message_of_not_serving hserve])
  by_cases hd : servedAon i = false
  · rw [exec_without_power hd (Chip.live_of_not_awake hs.1), Host.Outcome.next.injEq] at h
    exact h ▸ hs
  · cases i
    case resetNRelease e u => exact absurd rfl (hi e u)
    case resetNAssert width => exact hact (Chip.resetAssert_asleep hs width) rfl
    case vaonLoss => exact hact (Chip.vaonLoss_asleep hs) rfl
    case vaonUp => exact hact (c := s.vaonUp) (hs.when_pins _ _) rfl
    case shutdownNReleaseTimer => exact hact (c := s.shutdownNRelease) (hs.when_pins _ _) rfl
    case alertNRelease => exact hact (c := s.alertRelease) (hs.when_pins _ _) rfl
    case mgmtLinkUp => exact hact (c := s.mgmtLinkUp) (by simpa [Chip.mgmtLinkUp, hs.1, hs.2] using hs) rfl
    case refclkLoss | sensorFrame | ditchriderHeartbeat | standbyTakeover | ditchriderUnitLoss | compensationTick | reArm
      | thermalLevelWrite | activationUnitDone | activationTimeout | configDone | configWindowExpiry | ownerRootWrite
      | debugRequest | debugResponse | recoveryRequest | objectWrite => exact hidle rfl
    case get | set | subscribe | eventAck | memRead | memWrite | attest | imageBegin | imageData | imageEnd | imageAbort
      | badMessage => exact hmessage rfl
    case eulenReset session req =>
      have hreset : s.afterReset session req = s.toChip := by
        simp [Chip.afterReset, Chip.answerReset, Chip.resets, Chip.message_of_not_serving, hserve]
      exact hact (hreset.symm ▸ hs) (exec_eulenReset session req s).symm
    case dtlsHandshake cert => exact hact (c := s.handshake cert) (by simpa [Chip.handshake, hserve] using hs) rfl
    case uartFrame bytes => exact hact (c := s.uart bytes) (by simpa [Chip.uart, hs.2] using hs) rfl
    case sessionIdleTimeout session => exact hact (Chip.closeSession_asleep hs session) rfl
    case imageIdleTimeout => exact hact (Chip.imageIdle_asleep hs) rfl
    case snapshotExpiry session => exact hact (Chip.setSession_asleep hs session _) rfl
    case eventResendTimer session seq => exact hact (Chip.resendEvent_asleep hs session seq) rfl
    all_goals exact absurd rfl hd

theorem Chip.nanosecond_asleep {s : Chip} (h : s.asleep) : s.nanosecond.asleep := by
  simp only [Chip.nanosecond, Chip.live_of_not_awake h.1, Chip.when_false]
  exact h.congr rfl rfl

/-- Settles O4: no command but RESET_N_RELEASE wakes the package, and what waits only gets shorter. -/
theorem heldInResetIsKept : Obligations.Held_in_reset_is_kept := by
  unfold Obligations.Held_in_reset_is_kept
  rintro s t ⟨hawake, hloader, hpending⟩ hstep
  have htail := everyCommandAnswersANextState.2 s t hstep
  have hasleep : s.asleep := ⟨hawake, hloader⟩
  have ht : t.asleep := by
    cases hp : s.pending with
    | nil =>
      rw [stepRunsTheFrontCommand.2 s hp, Host.Outcome.next.injEq] at hstep
      exact hstep ▸ Chip.nanosecond_asleep hasleep
    | cons c rest =>
      rw [stepRunsTheFrontCommand.1 c rest s hp] at hstep
      refine exec_asleep (s := { s with pending := rest }) (fun e u hc => ?_) hasleep hstep
      simp [hp, hc] at hpending
  refine ⟨ht.1, ht.2, ?_⟩
  rw [htail]
  rw [List.all_eq_true] at hpending ⊢
  exact fun c hc => hpending c (List.mem_of_mem_tail hc)

end Sys2Proof.Machine
end

section
/-! PROOF. What the always-on domain may do while a package shutdown is latched: every update but a reset, a boot and RE_ARM leaves
the stage of the boot and the latch as they were, and the statement `Latched_shutdown_is_kept`. -/

namespace Sys2Proof.Machine

/-! ### The gate -/

/-- What no work of the dies changes: the part, the time, how far the boot is, and what the sensors have read. -/
def Chip.steady (s : Chip) : Part × Nat × Nat × Tab Sensor × List (Nat × Rat) :=
  (s.part, s.now, s.mgmt.stage, s.power.sensors, s.power.telemetry)

/-- That, and the latch of a package shutdown: it decides whether the package runs. -/
def Chip.gate (s : Chip) : (Part × Nat × Nat × Tab Sensor × List (Nat × Rat)) × Option Nat := (s.steady, s.power.shutdown)

theorem Chip.live_of_gate {s t : Chip} (h : s.gate = t.gate) : s.live = t.live := by
  have hstage : s.mgmt.stage = t.mgmt.stage := congrArg (fun g => g.1.2.2.1) h
  have hlatch : s.power.shutdown = t.power.shutdown := congrArg Prod.snd h
  simp only [Chip.live, Chip.awake, hstage, hlatch]

theorem Chip.shutdown_of_gate {s t : Chip} (h : s.gate = t.gate) : s.power.shutdown = t.power.shutdown :=
  congrArg Prod.snd h

/-! What the memory system leaves alone: everything but memory itself, its objects, events and log, and what goes out. -/

structure Outside where
  gate : (Part × Nat × Nat × Tab Sensor × List (Nat × Rat)) × Option Nat
  timebase : Word
  links : Tab (Option Link)
  ports : Tab Port
  engines : Tab Engine
  tn : Tn
  gn : Gn
  queues : Tab Queue
  job : Job
  cpLast : Tab Nat
  sync : Sync
  coll : Coll
  cellar : Cellar
  service : Service

def Chip.outside (s : Chip) : Outside :=
  { gate := s.gate, timebase := s.timebase, links := s.links, ports := s.ports, engines := s.engines, tn := s.tn, gn := s.gn
    queues := s.queues, job := s.job, cpLast := s.cpLast, sync := s.sync, coll := s.coll
    cellar := s.cellar, service := s.service }

section
variable (s : Chip)

/-! A part of the chip that holds neither of the two may become anything. -/

@[simp] theorem Chip.gate_timebase (v : Word) : ({ s with timebase := v } : Chip).gate = s.gate := rfl
@[simp] theorem Chip.gate_pins (v : Pins) : ({ s with pins := v } : Chip).gate = s.gate := rfl
@[simp] theorem Chip.gate_objs (v : Tab Nat) : ({ s with objs := v } : Chip).gate = s.gate := rfl
@[simp] theorem Chip.gate_mem (v : List Host.Cell) : ({ s with mem := v } : Chip).gate = s.gate := rfl
@[simp] theorem Chip.gate_hbm (v : Hbm) : ({ s with hbm := v } : Chip).gate = s.gate := rfl
@[simp] theorem Chip.gate_links (v : Tab (Option Link)) : ({ s with links := v } : Chip).gate = s.gate := rfl
@[simp] theorem Chip.gate_ports (v : Tab Port) : ({ s with ports := v } : Chip).gate = s.gate := rfl
@[simp] theorem Chip.gate_engines (v : Tab Engine) : ({ s with engines := v } : Chip).gate = s.gate := rfl
@[simp] theorem Chip.gate_tn (v : Tn) : ({ s with tn := v } : Chip).gate = s.gate := rfl
@[simp] theorem Chip.gate_gn (v : Gn) : ({ s with gn := v } : Chip).gate = s.gate := rfl
@[simp] theorem Chip.gate_queues (v : Tab Queue) : ({ s with queues := v } : Chip).gate = s.gate := rfl
@[simp] theorem Chip.gate_job (v : Job) : ({ s with job := v } : Chip).gate = s.gate := rfl
@[simp] theorem Chip.gate_cpLast (v : Tab Nat) : ({ s with cpLast := v } : Chip).gate = s.gate := rfl
@[simp] theorem Chip.gate_sync (v : Sync) : ({ s with sync := v } : Chip).gate = s.gate := rfl
@[simp] theorem Chip.gate_coll (v : Coll) : ({ s with coll := v } : Chip).gate = s.gate := rfl
@[simp] theorem Chip.gate_cores (v : Tab CoreSt) : ({ s with cores := v } : Chip).gate = s.gate := rfl
@[simp] theorem Chip.gate_cellar (v : Cellar) : ({ s with cellar := v } : Chip).gate = s.gate := rfl
@[simp] theorem Chip.gate_log (v : EventLog) : ({ s with log := v } : Chip).gate = s.gate := rfl
@[simp] theorem Chip.gate_service (v : Service) : ({ s with service := v } : Chip).gate = s.gate := rfl
@[simp] theorem Chip.gate_power {v : Power} (h : v.shutdown = s.power.shutdown) (hs : v.sensors = s.power.sensors)
    (ht : v.telemetry = s.power.telemetry) : ({ s with power := v } : Chip).gate = s.gate := by
  simp only [Chip.gate, Chip.steady, h, hs, ht]

@[simp] theorem Chip.gate_mgmt {v : Mgmt} (h : v.stage = s.mgmt.stage) : ({ s with mgmt := v } : Chip).gate = s.gate := by
  simp only [Chip.gate, Chip.steady, h]

theorem Chip.live_power {v : Power} (h : v.shutdown = s.power.shutdown) : ({ s with power := v } : Chip).live = s.live := by
  simp only [Chip.live, Chip.awake, h]

@[simp] theorem Chip.gate_out (v : List Output) : ({ s with out := v } : Chip).gate = s.gate := rfl
@[simp] theorem Chip.gate_freeCtr (v : Nat) : ({ s with freeCtr := v } : Chip).gate = s.gate := rfl

@[simp] theorem Chip.each_gate {α : Type} {f : Chip → α → Chip} (h : ∀ t a, (f t a).gate = t.gate) (l : List α) :
    (s.each l f).gate = s.gate := s.each_keeps Chip.gate f h l

@[simp] theorem Chip.when_gate {f : Chip → Chip} (h : ∀ t, (f t).gate = t.gate) (b : Bool) : (s.when b f).gate = s.gate :=
  s.when_keeps Chip.gate b f (h s)

theorem Chip.foldl_gate {α : Type} {f : Chip → α → Chip} (h : ∀ t a, (f t a).gate = t.gate) (l : List α) :
    (l.foldl f s).gate = s.gate := s.each_keeps Chip.gate f h l

@[simp] theorem Chip.outside_pins (v : Pins) : ({ s with pins := v } : Chip).outside = s.outside := rfl
@[simp] theorem Chip.outside_objs (v : Tab Nat) : ({ s with objs := v } : Chip).outside = s.outside := rfl
@[simp] theorem Chip.outside_mem (v : List Host.Cell) : ({ s with mem := v } : Chip).outside = s.outside := rfl
@[simp] theorem Chip.outside_hbm (v : Hbm) : ({ s with hbm := v } : Chip).outside = s.outside := rfl
@[simp] theorem Chip.outside_log (v : EventLog) : ({ s with log := v } : Chip).outside = s.outside := rfl
@[simp] theorem Chip.outside_out (v : List Output) : ({ s with out := v } : Chip).outside = s.outside := rfl
@[simp] theorem Chip.outside_freeCtr (v : Nat) : ({ s with freeCtr := v } : Chip).outside = s.outside := rfl
@[simp] theorem Chip.outside_power {v : Power} (h : v.shutdown = s.power.shutdown) (hs : v.sensors = s.power.sensors)
    (ht : v.telemetry = s.power.telemetry) : ({ s with power := v } : Chip).outside = s.outside := by
  simp only [Chip.outside, Chip.gate_power s h hs ht]

@[simp] theorem Chip.each_outside {α : Type} {f : Chip → α → Chip} (h : ∀ t a, (f t a).outside = t.outside) (l : List α) :
    (s.each l f).outside = s.outside := s.each_keeps Chip.outside f h l

theorem Chip.foldl_outside {α : Type} {f : Chip → α → Chip} (h : ∀ t a, (f t a).outside = t.outside) (l : List α) :
    (l.foldl f s).outside = s.outside := s.each_keeps Chip.outside f h l

/-- Updates of a chip beside something else keep what each of them keeps. -/
theorem foldl_fst_keeps {α β γ : Type} (p : Chip → γ) {f : Chip × β → α → Chip × β} (h : ∀ a x, p (f a x).1 = p a.1)
    (l : List α) (a : Chip × β) : p (l.foldl f a).1 = p a.1 := by
  induction l generalizing a with
  | nil => rfl
  | cons x r ih => exact (ih _).trans (h a x)

@[simp] theorem Chip.raiseCount_outside (code : Nat) (count : Nat) (args : List Arg) :
    (s.raiseCount code count args).outside = s.outside := rfl

@[simp] theorem Chip.raiseCount_gate (code : Nat) (count : Nat) (args : List Arg) :
    (s.raiseCount code count args).gate = s.gate :=
  congrArg Outside.gate (Chip.raiseCount_outside ..)

@[simp] theorem Chip.raise_outside (code : Nat) (args : List Arg) : (s.raise code args).outside = s.outside := rfl

@[simp] theorem Chip.raise_gate (code : Nat) (args : List Arg) : (s.raise code args).gate = s.gate :=
  congrArg Outside.gate (Chip.raise_outside ..)

@[simp] theorem Chip.drew_outside : s.drew.outside = s.outside := rfl

@[simp] theorem Chip.drew_gate : s.drew.gate = s.gate :=
  congrArg Outside.gate (Chip.drew_outside ..)

@[simp] theorem Chip.wakeStack_outside (t : Nat) : (s.wakeStack t).outside = s.outside := by
  unfold Chip.wakeStack
  split <;> simp

@[simp] theorem Chip.wakeStack_gate (t : Nat) : (s.wakeStack t).gate = s.gate :=
  congrArg Outside.gate (Chip.wakeStack_outside ..)

@[simp] theorem Chip.putBytes_outside (a : Nat) (bs : List Byte) : (s.putBytes a bs).outside = s.outside := rfl

@[simp] theorem Chip.putBytes_gate (a : Nat) (bs : List Byte) : (s.putBytes a bs).gate = s.gate :=
  congrArg Outside.gate (Chip.putBytes_outside ..)

@[simp] theorem Chip.mark_outside (a : Nat) (b : Bool) : (s.mark a b).outside = s.outside := rfl

@[simp] theorem Chip.mark_gate (a : Nat) (b : Bool) : (s.mark a b).gate = s.gate :=
  congrArg Outside.gate (Chip.mark_outside ..)

@[simp] theorem Chip.putLine_outside (a : Nat) (bs : List Byte) (poison : Bool) : (s.putLine a bs poison).outside = s.outside := by
  simp [Chip.putLine, apply_ite Chip.outside]

@[simp] theorem Chip.putLine_gate (a : Nat) (bs : List Byte) (poison : Bool) : (s.putLine a bs poison).gate = s.gate :=
  congrArg Outside.gate (Chip.putLine_outside ..)

@[simp] theorem Chip.noteWritten_outside (u : Nat) (line : Nat) : (s.noteWritten u line).outside = s.outside := by
  unfold Chip.noteWritten
  split <;> simp

@[simp] theorem Chip.noteWritten_gate (u : Nat) (line : Nat) : (s.noteWritten u line).gate = s.gate :=
  congrArg Outside.gate (Chip.noteWritten_outside ..)

@[simp] theorem Chip.setCache_outside (line : Nat) (c : Option CacheLine) : (s.setCache line c).outside = s.outside := rfl

@[simp] theorem Chip.setCache_gate (line : Nat) (c : Option CacheLine) : (s.setCache line c).gate = s.gate :=
  congrArg Outside.gate (Chip.setCache_outside ..)

@[simp] theorem Chip.evict_outside (line : Nat) : (s.evict line).outside = s.outside := by
  unfold Chip.evict
  split
  · rfl
  · dsimp only
    split <;> simp

@[simp] theorem Chip.evict_gate (line : Nat) : (s.evict line).gate = s.gate :=
  congrArg Outside.gate (Chip.evict_outside ..)

@[simp] theorem Chip.keepRoom_outside (line : Nat) : (s.keepRoom line).outside = s.outside := by
  unfold Chip.keepRoom
  dsimp only
  split
  · rfl
  · split
    · rfl
    · split <;> simp

@[simp] theorem Chip.keepRoom_gate (line : Nat) : (s.keepRoom line).gate = s.gate :=
  congrArg Outside.gate (Chip.keepRoom_outside ..)

@[simp] theorem Chip.touch_outside (line : Nat) (c : CacheLine) (keep : Bool) : (s.touch line c keep).outside = s.outside := by
  unfold Chip.touch
  change Chip.outside (if _ then _ else _) = s.outside
  split <;> simp

@[simp] theorem Chip.touch_gate (line : Nat) (c : CacheLine) (keep : Bool) : (s.touch line c keep).gate = s.gate :=
  congrArg Outside.gate (Chip.touch_outside ..)

@[simp] theorem Chip.raiseLimited_outside (code : Nat) (unit : Nat) (args : List Arg) :
    (s.raiseLimited code unit args).outside = s.outside := by
  unfold Chip.raiseLimited
  split
  · dsimp only
    split <;> rfl
  · rfl

@[simp] theorem Chip.raiseLimited_gate (code : Nat) (unit : Nat) (args : List Arg) :
    (s.raiseLimited code unit args).gate = s.gate :=
  congrArg Outside.gate (Chip.raiseLimited_outside ..)

@[simp] theorem Chip.setObj_outside (key : Nat) (v : Nat) : (s.setObj key v).outside = s.outside := rfl

@[simp] theorem Chip.setObj_gate (key : Nat) (v : Nat) : (s.setObj key v).gate = s.gate :=
  congrArg Outside.gate (Chip.setObj_outside ..)

@[simp] theorem Chip.bump_outside (key : Nat) (n : Nat) : (s.bump key n).outside = s.outside := rfl

@[simp] theorem Chip.bump_gate (key : Nat) (n : Nat) : (s.bump key n).gate = s.gate :=
  congrArg Outside.gate (Chip.bump_outside ..)

@[simp] theorem Chip.unanswered_outside (p : Nat) : (s.unanswered p).1.outside = s.outside := by
  simp [Chip.unanswered]

@[simp] theorem Chip.unanswered_gate (p : Nat) : (s.unanswered p).1.gate = s.gate :=
  congrArg Outside.gate (Chip.unanswered_outside ..)

@[simp] theorem Chip.setChannel_outside (n : Nat) (f : Channel → Channel) : (s.setChannel n f).outside = s.outside := rfl

@[simp] theorem Chip.setChannel_gate (n : Nat) (f : Channel → Channel) : (s.setChannel n f).gate = s.gate :=
  congrArg Outside.gate (Chip.setChannel_outside ..)

@[simp] theorem Chip.setPc_outside (p : Nat) (f : PseudoChannel → PseudoChannel) : (s.setPc p f).outside = s.outside := rfl

@[simp] theorem Chip.setPc_gate (p : Nat) (f : PseudoChannel → PseudoChannel) : (s.setPc p f).gate = s.gate :=
  congrArg Outside.gate (Chip.setPc_outside ..)

@[simp] theorem Chip.clearDonor_outside (d : Nat) : (s.clearDonor d).outside = s.outside := rfl

@[simp] theorem Chip.clearDonor_gate (d : Nat) : (s.clearDonor d).gate = s.gate :=
  congrArg Outside.gate (Chip.clearDonor_outside ..)

@[simp] theorem Chip.relocate_outside (u : Nat) (d : Nat) : (s.relocate u d).outside = s.outside := by
  simp only [Chip.relocate]
  split <;> simp

@[simp] theorem Chip.relocate_gate (u : Nat) (d : Nat) : (s.relocate u d).gate = s.gate :=
  congrArg Outside.gate (Chip.relocate_outside ..)

@[simp] theorem Chip.redeal_outside (bad : Nat → Bool) : (s.redeal bad).outside = s.outside := by
  unfold Chip.redeal
  refine (Chip.each_outside _ (fun t w => Chip.each_outside _ (fun u v => ?_) _) _).trans ?_
  · split <;> rfl
  · split
    · rfl
    · refine Chip.each_outside _ (fun u v => ?_) _
      split <;> rfl

@[simp] theorem Chip.redeal_gate (bad : Nat → Bool) : (s.redeal bad).gate = s.gate :=
  congrArg Outside.gate (Chip.redeal_outside ..)

@[simp] theorem Chip.beginMapout_outside (n : Nat) (cause : MapCause) : (s.beginMapout n cause).outside = s.outside := by
  simp only [Chip.beginMapout]
  split <;> simp

@[simp] theorem Chip.beginMapout_gate (n : Nat) (cause : MapCause) : (s.beginMapout n cause).gate = s.gate :=
  congrArg Outside.gate (Chip.beginMapout_outside ..)

@[simp] theorem Chip.tryMapout_outside (n : Nat) (cause : MapCause) : (s.tryMapout n cause).outside = s.outside := by
  unfold Chip.tryMapout
  split <;> simp

@[simp] theorem Chip.tryMapout_gate (n : Nat) (cause : MapCause) : (s.tryMapout n cause).gate = s.gate :=
  congrArg Outside.gate (Chip.tryMapout_outside ..)

@[simp] theorem Chip.judge_outside (n : Nat) (cause : MapCause) : (s.judge n cause).outside = s.outside := by
  unfold Chip.judge
  dsimp only
  split
  · split
    · split <;> simp
    · split
      · simp
      · split <;> simp
  · split <;> simp
  · split
    · split
      · split <;> simp
      · simp
    · simp
  · rfl

@[simp] theorem Chip.judge_gate (n : Nat) (cause : MapCause) : (s.judge n cause).gate = s.gate :=
  congrArg Outside.gate (Chip.judge_outside ..)

@[simp] theorem Chip.rowRepair_outside (p : Nat) (b : Nat) (r : Nat) : (s.rowRepair p b r).outside = s.outside := by
  simp [Chip.rowRepair, apply_ite Chip.outside]

@[simp] theorem Chip.rowRepair_gate (p : Nat) (b : Nat) (r : Nat) : (s.rowRepair p b r).gate = s.gate :=
  congrArg Outside.gate (Chip.rowRepair_outside ..)

@[simp] theorem Chip.markGroup_outside (p : Nat) (k : Nat) : (s.markGroup p k).outside = s.outside := by
  unfold Chip.markGroup
  split <;> simp

@[simp] theorem Chip.markGroup_gate (p : Nat) (k : Nat) : (s.markGroup p k).gate = s.gate :=
  congrArg Outside.gate (Chip.markGroup_outside ..)

@[simp] theorem Chip.book_outside (p : Nat) (pcaddr : Nat) (groups : List Nat) (ue : Bool) :
    (s.book p pcaddr groups ue).outside = s.outside := by
  unfold Chip.book
  dsimp only
  split <;> simp [apply_ite Chip.outside]

@[simp] theorem Chip.book_gate (p : Nat) (pcaddr : Nat) (groups : List Nat) (ue : Bool) :
    (s.book p pcaddr groups ue).gate = s.gate :=
  congrArg Outside.gate (Chip.book_outside ..)

@[simp] theorem Chip.decodeLine_outside (p : Nat) (pcaddr : Nat) (d0 : List Byte) (m0 : Bool) (errors : List (Nat × Nat)) :
    (s.decodeLine p pcaddr d0 m0 errors).1.outside = s.outside := by
  unfold Chip.decodeLine
  split <;> simp [apply_ite Chip.outside]

@[simp] theorem Chip.decodeLine_gate (p : Nat) (pcaddr : Nat) (d0 : List Byte) (m0 : Bool) (errors : List (Nat × Nat)) :
    (s.decodeLine p pcaddr d0 m0 errors).1.gate = s.gate :=
  congrArg Outside.gate (Chip.decodeLine_outside ..)

@[simp] theorem Chip.setHbmCopy_outside (line : Nat) (d : List Byte) (p : Bool) : (s.setHbmCopy line d p).outside = s.outside := by
  unfold Chip.setHbmCopy
  split <;> simp

@[simp] theorem Chip.setHbmCopy_gate (line : Nat) (d : List Byte) (p : Bool) : (s.setHbmCopy line d p).gate = s.gate :=
  congrArg Outside.gate (Chip.setHbmCopy_outside ..)

@[simp] theorem Chip.readStored_outside (line : Nat) (errors : List (Nat × Nat)) : (s.readStored line errors).1.outside = s.outside := by
  unfold Chip.readStored
  split
  · rfl
  · dsimp only
    split
    · simp
    · split
      · simp
      · split <;> simp

@[simp] theorem Chip.readStored_gate (line : Nat) (errors : List (Nat × Nat)) : (s.readStored line errors).1.gate = s.gate :=
  congrArg Outside.gate (Chip.readStored_outside ..)

@[simp] theorem Chip.mergeLine_outside (pl : Place) (line : Nat) (errors : List (Nat × Nat)) :
    (s.mergeLine pl line errors).outside = s.outside := by
  simp only [Chip.mergeLine]
  split <;> simp

@[simp] theorem Chip.mergeLine_gate (pl : Place) (line : Nat) (errors : List (Nat × Nat)) :
    (s.mergeLine pl line errors).gate = s.gate :=
  congrArg Outside.gate (Chip.mergeLine_outside ..)

@[simp] theorem Chip.lineRoom_outside (line : Nat) : (s.lineRoom line).outside = s.outside := by
  unfold Chip.lineRoom
  dsimp only
  split
  · rfl
  · split
    · rfl
    · split
      · simp
      · split <;> simp

@[simp] theorem Chip.lineRoom_gate (line : Nat) : (s.lineRoom line).gate = s.gate :=
  congrArg Outside.gate (Chip.lineRoom_outside ..)

@[simp] theorem Chip.allocate_outside (line : Nat) (keep : Bool) (dirty : Bool) (under : Option (List Byte × Bool)) :
    (s.allocate line keep dirty under).outside = s.outside := by
  unfold Chip.allocate
  change Chip.outside (Chip.lineRoom _ line) = s.outside
  rw [Chip.lineRoom_outside]
  split <;> simp

@[simp] theorem Chip.allocate_gate (line : Nat) (keep : Bool) (dirty : Bool) (under : Option (List Byte × Bool)) :
    (s.allocate line keep dirty under).gate = s.gate :=
  congrArg Outside.gate (Chip.allocate_outside ..)

@[simp] theorem Chip.writeHbmLine_outside (a : Nat) (bs : List Byte) (poison : Bool) (hint : Hint) (errors : List (Nat × Nat)) :
    (s.writeHbmLine a bs poison hint errors).outside = s.outside := by
  unfold Chip.writeHbmLine
  dsimp only
  split
  · rfl
  · split
    · simp [apply_ite Chip.outside]
    · split
      · split <;> simp
      · split <;> simp [apply_ite Chip.outside]

@[simp] theorem Chip.writeHbmLine_gate (a : Nat) (bs : List Byte) (poison : Bool) (hint : Hint) (errors : List (Nat × Nat)) :
    (s.writeHbmLine a bs poison hint errors).gate = s.gate :=
  congrArg Outside.gate (Chip.writeHbmLine_outside ..)

@[simp] theorem Chip.wakeCellar_outside (a : Nat) : (s.wakeCellar a).outside = s.outside := by
  unfold Chip.wakeCellar
  split <;> rfl

@[simp] theorem Chip.wakeCellar_gate (a : Nat) : (s.wakeCellar a).gate = s.gate :=
  congrArg Outside.gate (Chip.wakeCellar_outside ..)

@[simp] theorem Chip.writePiece_outside (a : Nat) (bs : List Byte) (poison : Bool) (hint : Hint) :
    (s.writePiece a bs poison hint).outside = s.outside := by
  unfold Chip.writePiece
  split
  · simp
  · split
    · split <;> simp
    · simp

@[simp] theorem Chip.writePiece_gate (a : Nat) (bs : List Byte) (poison : Bool) (hint : Hint) :
    (s.writePiece a bs poison hint).gate = s.gate :=
  congrArg Outside.gate (Chip.writePiece_outside ..)

@[simp] theorem Chip.write_outside (a : Nat) (bs : List Byte) (poison : Bool) (hint : Hint) :
    (s.write a bs poison hint).outside = s.outside := by
  unfold Chip.write
  exact s.foldl_outside (fun t p => t.writePiece_outside ..) _

@[simp] theorem Chip.write_gate (a : Nat) (bs : List Byte) (poison : Bool) (hint : Hint) :
    (s.write a bs poison hint).gate = s.gate :=
  congrArg Outside.gate (Chip.write_outside ..)

@[simp] theorem Chip.noteMirrorRecord_gate (q : Nat) (e : QEntry) (st : Status) :
    (s.noteMirrorRecord q e st).gate = s.gate := by
  unfold Chip.noteMirrorRecord
  split <;> simp

@[simp] theorem Chip.dropWaits_gate (owner : WaitOwner) : (s.dropWaits owner).gate = s.gate := rfl
@[simp] theorem Chip.dropWaitsOf_gate (q : Nat) (e : QEntry) : (s.dropWaitsOf q e).gate = s.gate := by
  unfold Chip.dropWaitsOf
  split <;> simp

@[simp] theorem Chip.setQueue_gate (q : Nat) (f : Queue → Queue) : (s.setQueue q f).gate = s.gate := rfl
@[simp] theorem Chip.setBarrier_gate (b : Nat) (r : Barrier) : (s.setBarrier b r).gate = s.gate := rfl
@[simp] theorem Chip.staleArrival_gate (b : Nat) (v : Word) (src : AddSrc) : (s.staleArrival b v src).gate = s.gate := rfl
@[simp] theorem Chip.setCounter_gate (i : Nat) (r : CounterRec) : (s.setCounter i r).gate = s.gate := rfl
@[simp] theorem Chip.noteArrival_gate (b : Nat) (v : Word) (src : AddSrc) : (s.noteArrival b v src).gate = s.gate := rfl
@[simp] theorem Chip.wake_gate (i : Nat) : (s.wake i).gate = s.gate := rfl
@[simp] theorem Chip.plainAdd_gate (i : Nat) (amount : Word) (sig : Nat × Nat × Nat) :
    (s.plainAdd i amount sig).gate = s.gate := by
  simp only [Chip.plainAdd]
  split <;> simp

@[simp] theorem Chip.setCore_gate (c : Nat) (f : CoreSt → CoreSt) : (s.setCore c f).gate = s.gate := rfl
@[simp] theorem Chip.setGnCredits_gate (port : Nat) (f : GnCredits → GnCredits) : (s.setGnCredits port f).gate = s.gate := rfl
@[simp] theorem Chip.setPort_gate (p : Nat) (f : Port → Port) : (s.setPort p f).gate = s.gate := rfl
@[simp] theorem Chip.enqueue_gate (p : Nat) (slots : List (BitVec 512)) : (s.enqueue p slots).gate = s.gate := rfl
@[simp] theorem Chip.emit_gate (o : Output) : (s.emit o).gate = s.gate := rfl
@[simp] theorem Chip.transmit_gate (p : Nat) (out : List (Nat × LaneFrame) → Output) (frames : List (Nat × LaneFrame)) :
    (s.transmit p out frames).gate = s.gate := rfl

@[simp] theorem Chip.sendFrame_gate (p : Nat) (e : TxFrame) : (s.sendFrame p e).gate = s.gate := rfl
@[simp] theorem Chip.sendSuperframe_gate (p : Nat) (ctrl : Option CtrlSlot) : (s.sendSuperframe p ctrl).gate = s.gate := by
  simp [Chip.sendSuperframe]

@[simp] theorem Chip.flushFuel_gate (p fuel : Nat) : (Chip.flushFuel p fuel s).gate = s.gate := by
  induction fuel generalizing s with
  | zero => rfl
  | succ n ih =>
    unfold Chip.flushFuel
    dsimp only
    split
    · rw [ih, Chip.sendSuperframe_gate]
    · rfl

@[simp] theorem Chip.flushPort_gate (p : Nat) : (s.flushPort p).gate = s.gate := by
  exact Chip.flushFuel_gate ..

@[simp] theorem Chip.startPacket_gate (o : OutPacket) (rr1 : Nat) (rr2 : Nat) : (s.startPacket o rr1 rr2).gate = s.gate := by
  simp [Chip.startPacket]

@[simp] theorem Chip.pumpFuel_gate (p fuel : Nat) : (Chip.pumpFuel p fuel s).gate = s.gate := by
  induction fuel generalizing s with
  | zero => rfl
  | succ n ih =>
    unfold Chip.pumpFuel
    split
    · rw [ih, Chip.startPacket_gate]
    · rfl

@[simp] theorem Chip.gnPump_gate (port : Nat) : (s.gnPump port).gate = s.gate := by
  unfold Chip.gnPump
  split <;> simp

@[simp] theorem Chip.gnQueue_gate (port : Nat) (p : GnPacket) : (s.gnQueue port p).gate = s.gate := by
  simp [Chip.gnQueue]

@[simp] theorem Chip.gnRespond_gate (p : GnPacket) : (s.gnRespond p).gate = s.gate := by
  unfold Chip.gnRespond
  split <;> simp

@[simp] theorem Chip.gnAnswer_gate (req : GnPacket) (status : BitVec 4) (opA : Word) (payload : List Byte)
    (marks : List Bool) : (s.gnAnswer req status opA payload marks).gate = s.gate := by
  simp [Chip.gnAnswer]

@[simp] theorem Chip.acknowledge_gate (src : AddSrc) (i : Nat) (old : Word) : (s.acknowledge src i old).gate = s.gate := by
  unfold Chip.acknowledge
  split <;> simp [apply_ite Chip.gate]

@[simp] theorem Chip.applyHeld_gate (b : Nat) (h : HeldArrival) : (s.applyHeld b h).gate = s.gate := by
  simp only [Chip.applyHeld]
  split <;> simp

@[simp] theorem Chip.barrierLoop_gate (b fuel : Nat) : (Chip.barrierLoop b fuel s).gate = s.gate := by
  induction fuel generalizing s with
  | zero => rfl
  | succ n ih =>
    unfold Chip.barrierLoop
    dsimp only
    split
    · rw [ih]
      simp
    · rfl

@[simp] theorem Chip.tick_gate : s.tick.gate = s.gate := rfl
@[simp] theorem Chip.arrive_gate (b : Nat) (v : Word) (src : AddSrc) (hasEntry : Bool) :
    (s.arrive b v src hasEntry).1.gate = s.gate := by
  unfold Chip.arrive
  dsimp only
  split
  · simp
  · split
    · simp
    · split
      · split <;> simp
      · split
        · split <;> simp
        · split
          · dsimp only
            split <;> simp
          · simp

@[simp] theorem Chip.counterRefusal_gate : s.counterRefusal.gate = s.gate := by
  simp [Chip.counterRefusal]

@[simp] theorem Chip.counterAdd_gate (i : Nat) (amount : Word) (src : AddSrc) (hasEntry : Bool) :
    (s.counterAdd i amount src hasEntry).1.gate = s.gate := by
  unfold Chip.counterAdd
  split
  · simp
  · split <;> simp

@[simp] theorem Chip.addFrom_gate (i : Nat) (amount : Word) (src : AddSrc) : (s.addFrom i amount src).1.gate = s.gate := by
  unfold Chip.addFrom
  dsimp only
  split
  · simp
  · split <;> simp [apply_ite Chip.gate]
  · split <;> simp
  · split <;> simp [apply_ite Chip.gate]

@[simp] theorem Chip.settleQueue_gate (q : Nat) : (s.settleQueue q).gate = s.gate := by
  simp only [Chip.settleQueue]
  split <;> simp

@[simp] theorem Chip.record_gate (q : Nat) (e : QEntry) (st : Status) : (s.record q e st).gate = s.gate := by
  simp [Chip.record, apply_ite Chip.gate]

@[simp] theorem Chip.cancelUnstarted_gate (q : Nat) : (s.cancelUnstarted q).gate = s.gate := by
  simp [Chip.cancelUnstarted]

@[simp] theorem Chip.cpFault_gate (site : Nat) : (s.cpFault site).gate = s.gate := by
  simp [Chip.cpFault]

@[simp] theorem Chip.setComponent_stage (k : Nat) (f : Component → Component) :
    (s.setComponent k f).mgmt.stage = s.mgmt.stage := rfl

@[simp] theorem Chip.setComponent_gate (k : Nat) (f : Component → Component) : (s.setComponent k f).gate = s.gate := rfl
@[simp] theorem Chip.setEngine_gate (e : Nat) (f : Engine → Engine) : (s.setEngine e f).gate = s.gate := rfl
@[simp] theorem Chip.setLaser_gate (e : Nat) (c : Nat) (v : LaserState) : (s.setLaser e c v).gate = s.gate := rfl
@[simp] theorem Chip.idleLasers_gate (e : Nat) (l : List Nat) (v : LaserState) : (s.idleLasers e l v).gate = s.gate := by
  simp [Chip.idleLasers, apply_ite Chip.gate]

@[simp] theorem Chip.coolSpares_gate (was : PortState) (e : Nat) : (s.coolSpares was e).gate = s.gate := by
  unfold Chip.coolSpares
  split <;> simp

@[simp] theorem Chip.writePieceFrom_outside (site : Nat) (a : Nat) (bs : List Byte) (poison : Bool) (hint : Hint) :
    (s.writePieceFrom site a bs poison hint).outside = s.outside := by
  unfold Chip.writePieceFrom
  split <;> simp

@[simp] theorem Chip.writePieceFrom_gate (site : Nat) (a : Nat) (bs : List Byte) (poison : Bool) (hint : Hint) :
    (s.writePieceFrom site a bs poison hint).gate = s.gate :=
  congrArg Outside.gate (Chip.writePieceFrom_outside ..)

@[simp] theorem Chip.writeFrom_outside (site : Nat) (a : Nat) (bs : List Byte) (poison : Bool) (hint : Hint) :
    (s.writeFrom site a bs poison hint).outside = s.outside := by
  unfold Chip.writeFrom
  exact s.foldl_outside (fun t p => t.writePieceFrom_outside ..) _

@[simp] theorem Chip.writeFrom_gate (site : Nat) (a : Nat) (bs : List Byte) (poison : Bool) (hint : Hint) :
    (s.writeFrom site a bs poison hint).gate = s.gate :=
  congrArg Outside.gate (Chip.writeFrom_outside ..)

@[simp] theorem Chip.noteMirror_gate (e : MirrorEffect) : (s.noteMirror e).gate = s.gate := by
  unfold Chip.noteMirror
  split <;> simp

@[simp] theorem Chip.landBytes_gate (site : Nat) (a : Nat) (bs : List Byte) (marks : List Bool) (hint : Hint) :
    (s.landBytes site a bs marks hint).gate = s.gate := by
  unfold Chip.landBytes
  exact (Chip.noteMirror_gate ..).trans (s.foldl_gate (fun t i => t.writeFrom_gate ..) _)

@[simp] theorem Chip.dropCoreWaits_gate (c : Nat) : (s.dropCoreWaits c).gate = s.gate := by
  unfold Chip.dropCoreWaits
  exact Chip.each_gate _ (fun t u => t.dropWaits_gate _) _
section
variable {lost : Chip → GnReq → Chip} (hlost : ∀ t r, (lost t r).gate = t.gate)
include hlost

theorem Chip.gnSendOr_gate (r : GnReq) : (s.gnSendOr lost r).gate = s.gate := by
  unfold Chip.gnSendOr
  split
  · exact hlost s r
  · dsimp only
    split <;> simp

theorem Chip.gnTag_gate (r : GnReq) : (s.gnTag lost r).gate = s.gate := by
  unfold Chip.gnTag
  dsimp only
  split
  · rw [Chip.bump_gate]
    change Chip.gate (if _ then _ else _) = s.gate
    split <;> rfl
  · rw [Chip.gnSendOr_gate _ hlost]
    split <;> rfl

theorem Chip.gnGrant_gate : (s.gnGrant lost).gate = s.gate := by
  unfold Chip.gnGrant
  refine foldl_fst_keeps Chip.gate (fun a r => ?_) _ _
  dsimp only
  split
  · rfl
  · split
    · exact hlost _ r
    · split
      · exact Chip.gnTag_gate _ hlost r
      · rfl

end
@[simp] theorem Chip.waitOn_gate (r : GnReq) : (s.waitOn r).gate = s.gate := rfl
@[simp] theorem Chip.orphan_gate (p : Work → Bool) : (s.orphan p).gate = s.gate := by
  exact Chip.gnGrant_gate _ Chip.waitOn_gate

@[simp] theorem Chip.engineEnded_gate (e : Nat) (st : Status) : (s.engineEnded e st).gate = s.gate := rfl
@[simp] theorem Chip.coreEnd_gate (c : Nat) : (s.coreEnd c).gate = s.gate := by
  unfold Chip.coreEnd
  dsimp only
  split <;> simp [apply_ite Chip.gate]

@[simp] theorem Chip.coreEndIf_gate (c : Nat) : (s.coreEndIf c).gate = s.gate := by
  simp only [Chip.coreEndIf]
  split <;> simp

@[simp] theorem Chip.faultOne_gate (c : Nat) (cause : Cause) (st : Status) (addr : Word) (unit : Nat) (sub : Nat)
    (fate : Bool) : (s.faultOne c cause st addr unit sub fate).gate = s.gate := by
  unfold Chip.faultOne
  dsimp only
  split <;> simp [apply_ite Chip.gate]

@[simp] theorem Chip.coreFault_gate (c : Nat) (cause : Cause) (st : Status) (addr : Word) (unit : Nat) (sub : Nat) :
    (s.coreFault c cause st addr unit sub).gate = s.gate := by
  unfold Chip.coreFault
  split <;> simp

@[simp] theorem Chip.fault_gate (c : Nat) (cause : Cause) (addr : Word) : (s.fault c cause addr).gate = s.gate := by
  simp [Chip.fault]

@[simp] theorem Chip.gnFinish_gate (r : GnReq) (st : Status) (data : List Byte) (marks : List Bool) (old : Word) :
    (s.gnFinish r st data marks old).gate = s.gate := by
  unfold Chip.gnFinish
  dsimp only
  split
  · simp
    split <;> simp [apply_ite Chip.gate]
  · split
    · split
      · split <;> simp [apply_ite Chip.gate]
      · split <;> simp [*, apply_ite Chip.gate]
    · split <;> simp [apply_ite Chip.gate]
  · split <;> simp [apply_ite Chip.gate]
  · split <;> simp [apply_ite Chip.gate]
  · split <;> simp [apply_ite Chip.gate]
  · split <;> simp [apply_ite Chip.gate]

@[simp] theorem Chip.gnSettle_gate (r : GnReq) (st : Status) (data : List Byte) (marks : List Bool) (old : Word) :
    (s.gnSettle r st data marks old).gate = s.gate := by
  simp [Chip.gnSettle]

@[simp] theorem Chip.gnFail_gate (r : GnReq) (st : Status) : (s.gnFail r st).gate = s.gate := by
  simp [Chip.gnFail]

@[simp] theorem Chip.gnLost_gate (r : GnReq) : (s.gnLost r).gate = s.gate := by
  simp [Chip.gnLost]

@[simp] theorem Chip.gnSend_gate (r : GnReq) : (s.gnSend r).gate = s.gate := by
  exact s.gnSendOr_gate Chip.gnLost_gate r

@[simp] theorem Chip.granuleRelease_gate (g : Nat) : (s.granuleRelease g).gate = s.gate := by
  simp [Chip.granuleRelease]

@[simp] theorem Chip.gnFeed_gate : s.gnFeed.gate = s.gate := by
  exact s.gnGrant_gate Chip.gnLost_gate

@[simp] theorem Chip.gnReroute_gate (port : Nat) : (s.gnReroute port).gate = s.gate := by
  simp only [Chip.gnReroute]
  split <;> simp

@[simp] theorem Chip.rebuildPortMap_gate (port : Nat) : (s.rebuildPortMap port).gate = s.gate := by
  simp only [Chip.rebuildPortMap]
  split <;> simp

@[simp] theorem Chip.gnPortDown_gate (port : Nat) : (s.gnPortDown port).gate = s.gate := by
  simp [Chip.gnPortDown]

@[simp] theorem Chip.takeBack_gate (slots : List (BitVec 512)) : (s.takeBack slots).gate = s.gate := rfl
@[simp] theorem Chip.closePort_gate (p : Nat) (st : PortState) : (s.closePort p st).gate = s.gate := by
  simp only [Chip.closePort]
  split <;> simp

@[simp] theorem Chip.failPort_gate (p : Nat) (cause : Nat) : (s.failPort p cause).gate = s.gate := by
  simp [Chip.failPort]

@[simp] theorem Chip.sendPrbs_gate (p : Nat) : (s.sendPrbs p).gate = s.gate := rfl
@[simp] theorem Chip.sendCtrl_gate (p : Nat) (code : Byte) (arg : Nat) : (s.sendCtrl p code arg).gate = s.gate := by
  simp [Chip.sendCtrl, apply_ite Chip.gate]

@[simp] theorem Chip.startWidth_gate (p : Nat) (lane : Nat) (m : List Nat) (dead : Bool) :
    (s.startWidth p lane m dead).gate = s.gate := by
  unfold Chip.startWidth
  rw [Chip.sendCtrl_gate]
  rfl

@[simp] theorem Chip.dropOrFail_gate (p : Nat) (lane : Nat) (dead : Bool) : (s.dropOrFail p lane dead).gate = s.gate := by
  simp only [Chip.dropOrFail]
  split <;> simp

@[simp] theorem Chip.startLane_gate (p : Nat) (lane : Nat) (k : LaneNeed) : (s.startLane p lane k).gate = s.gate := by
  unfold Chip.startLane
  split <;> simp [apply_ite Chip.gate]

@[simp] theorem Chip.serveNeeds_gate (p fuel : Nat) : (Chip.serveNeeds p fuel s).gate = s.gate := by
  induction fuel generalizing s with
  | zero => rfl
  | succ n ih =>
    unfold Chip.serveNeeds
    dsimp only
    split
    · rfl
    · split
      · rfl
      · rw [ih]
        split <;> simp

@[simp] theorem Chip.gnDark_gate (p : Nat) (lit : Bool) : (s.gnDark p lit).gate = s.gate := by
  simp [Chip.gnDark, apply_ite Chip.gate]

@[simp] theorem Chip.retune_gate (p : Nat) : (s.retune p).gate = s.gate := by
  simp [Chip.retune]

@[simp] theorem Chip.engineResumes_gate (e : Nat) : (s.engineResumes e).gate = s.gate := by
  refine Chip.each_gate _ (fun t p => ?_) _
  simp

@[simp] theorem Chip.activationFail_gate (u : Nat) : (s.activationFail u).gate = s.gate := by
  unfold Chip.activationFail
  split
  case h_1 a _ => by_cases h : a.component = 3 <;> simp [h, apply_ite Chip.gate]
  case h_2 => rfl

@[simp] theorem Chip.activationLate_gate (u : Nat) : (s.activationLate u).gate = s.gate := by
  unfold Chip.activationLate
  split <;> simp [apply_ite Chip.gate]

@[simp] theorem Chip.startPort_gate (p : Nat) : (s.startPort p).gate = s.gate := by
  unfold Chip.startPort
  split <;> simp

@[simp] theorem Chip.unitLoaded_gate (a : Activation) (u : Nat) : (s.unitLoaded a u).gate = s.gate := by
  unfold Chip.unitLoaded
  split <;> simp [apply_ite Chip.gate]

@[simp] theorem Chip.activationEnd_gate : s.activationEnd.gate = s.gate := by
  unfold Chip.activationEnd
  split
  · dsimp only
    split <;> rfl
  · rfl

@[simp] theorem Chip.testCores_gate (units : List Nat) : (s.testCores units).gate = s.gate := by
  simp [Chip.testCores, apply_ite Chip.gate]

@[simp] theorem Chip.setSweep_gate (p : Nat) (f : Sweep → Sweep) : (s.setSweep p f).gate = s.gate := rfl
@[simp] theorem Chip.flushUnit_gate (u : Nat) : (s.flushUnit u).gate = s.gate := by
  simp [Chip.flushUnit]

@[simp] theorem Chip.fillSweep_gate (p : Nat) : (s.fillSweep p).gate = s.gate := by
  unfold Chip.fillSweep
  split <;> simp

@[simp] theorem Chip.startSweep_gate (p : Nat) : (s.startSweep p).gate = s.gate := by
  simp [Chip.startSweep]

@[simp] theorem Chip.trySweep_gate (p : Nat) : (s.trySweep p).gate = s.gate := by
  simp [Chip.trySweep, apply_ite Chip.gate]

@[simp] theorem Chip.askSweep_gate (p : Nat) : (s.askSweep p).gate = s.gate := by
  simp [Chip.askSweep]

@[simp] theorem Chip.closeSessions_gate : s.closeSessions.gate = s.gate := rfl
@[simp] theorem Chip.takeover_gate : s.takeover.gate = s.gate := by
  refine s.when_gate (fun t => ?_) _
  simp

@[simp] theorem Chip.activationNext_gate : s.activationNext.gate = s.gate := by
  unfold Chip.activationNext
  split
  · split
    · simp
    · split
      · split <;> simp
      · split <;> simp
  · rfl

@[simp] theorem Chip.activationUnit_gate (u : Nat) (differs : Bool) : (s.activationUnit u differs).gate = s.gate := by
  unfold Chip.activationUnit
  split
  · split
    · rfl
    · split
      · simp
      · simp [apply_ite Chip.gate]
  · rfl

@[simp] theorem Chip.wipe_gate : s.wipe.gate = s.gate := rfl
@[simp] theorem Chip.resetCores_gate : s.resetCores.gate = s.gate := rfl
@[simp] theorem Chip.freeStreams_gate : s.freeStreams.gate = s.gate := rfl
@[simp] theorem Chip.sanitise_gate : s.sanitise.gate = s.gate := rfl
@[simp] theorem Chip.sanitiseNow_gate : s.sanitiseNow.gate = s.gate := rfl
@[simp] theorem Chip.debugResponse_gate (b : List Byte) : (s.debugResponse b).gate = s.gate := by
  unfold Chip.debugResponse
  simp [apply_ite Chip.gate]

@[simp] theorem Chip.configEnd_gate : s.configEnd.gate = s.gate := by
  refine s.when_gate (fun t => ?_) _
  dsimp only
  split <;> rfl

end

/-! ### Management -/

section
variable (s : Chip)

@[simp] theorem Chip.closeSession_gate (id : Nat) : (s.closeSession id).gate = s.gate := by
  refine s.when_gate (fun t => ?_) _
  dsimp only
  split <;> rfl

@[simp] theorem Chip.setSession_gate (id : Nat) (f : Session → Session) : (s.setSession id f).gate = s.gate := rfl
@[simp] theorem Chip.respond_gate (id : Nat) (r : Response) : (s.respond id r).gate = s.gate := rfl
@[simp] theorem Chip.imageDrop_gate : s.imageDrop.gate = s.gate := rfl
@[simp] theorem Chip.setTransfer_gate (t : Option Transfer) : (s.setTransfer t).gate = s.gate := rfl
@[simp] theorem Chip.revokeKeys_gate (b : Image) : (s.revokeKeys b).gate = s.gate := rfl

/-- A message keeps what its own effect keeps. -/
theorem Chip.message_gate {id type : Nat} {req : Word32} {f : Chip → Session → Answer}
    (h : ∀ v, (f s v).chip.gate = s.gate) : (s.message id type req f).gate = s.gate := by
  unfold Chip.message
  split
  · rfl
  · split
    · rfl
    · exact (Chip.respond_gate ..).trans (h _)

@[simp] theorem Chip.handshake_gate (c : ClientCert) : (s.handshake c).gate = s.gate := by
  refine s.when_gate (fun t => ?_) _
  split
  · rfl
  · split <;> simp

@[simp] theorem Chip.resendEvent_gate (id : Nat) (seq : Word) : (s.resendEvent id seq).gate = s.gate := by
  unfold Chip.resendEvent
  split
  · split <;> rfl
  · rfl

@[simp] theorem Chip.get_gate (id : Nat) (snapshot : Bool) (es : List GetEntry) (old : List Copy) :
    (s.get id snapshot es old).chip.gate = s.gate := by
  unfold Chip.get
  split
  · rfl
  · simp only [apply_ite Answer.chip, Answer.no, ite_self, Chip.setSession_gate]

@[simp] theorem Chip.attest_gate (nonce : List Byte) : (s.attest nonce).chip.gate = s.gate := by
  unfold Chip.attest
  split
  · rfl
  · split <;> rfl

@[simp] theorem Chip.memRead_gate (o n : Nat) : (s.memRead o n).chip.gate = s.gate := by
  unfold Chip.memRead
  split <;> rfl

/-- Registers are written while the dies run alone. -/
theorem Chip.memWrite_gate_of_not_live (h : s.live = false) (o : Nat) (data : List Byte) :
    (s.memWrite o data).chip.gate = s.gate := by
  simp [Chip.memWrite, Chip.memRange, h, Answer.no]

@[simp] theorem Chip.imageBegin_gate (who : Option Nat) (k n : Nat) : (s.imageBegin who k n).2.gate = s.gate := by
  unfold Chip.imageBegin
  split
  · rfl
  · split <;> rfl

@[simp] theorem Chip.imageData_gate (who : Option Nat) (o : Nat) (data : List Byte) :
    (s.imageData who o data).2.gate = s.gate := by
  unfold Chip.imageData
  split
  · rfl
  · split
    · rfl
    · split <;> rfl

@[simp] theorem Chip.imageAbort_gate (who : Option Nat) : (s.imageAbort who).2.gate = s.gate := by
  unfold Chip.imageAbort
  split <;> rfl

@[simp] theorem Chip.unitsOld_gate (k : Nat) : (s.unitsOld k).gate = s.gate := by
  unfold Chip.unitsOld
  split
  · exact Chip.each_gate _ (fun t e => t.setEngine_gate e _) _
  · split
    · exact Chip.each_gate _ (fun t p => t.setPc_gate p _) _
    · rfl

@[simp] theorem Chip.activate_gate (k : Nat) (fresh : Bool) : (s.activate k fresh).gate = s.gate := by
  simp [Chip.activate]

@[simp] theorem Chip.imageEnd_gate (who : Option Nat) : (s.imageEnd who).2.gate = s.gate := by
  unfold Chip.imageEnd
  split
  · rfl
  · dsimp only
    split
    · split
      · rfl
      · dsimp only
        split <;> simp
    · rfl

@[simp] theorem Chip.imageIdle_gate : s.imageIdle.gate = s.gate := s.when_gate Chip.imageDrop_gate _

@[simp] theorem Chip.uartRequest_gate (type : Nat) (body : List Byte) : (s.uartRequest type body).chip.gate = s.gate := by
  simp [Chip.uartRequest, Answer.no, Answer.plain, apply_ite Answer.chip, apply_ite Chip.gate]

end

/-! ### While a shutdown is latched -/

section
variable {s : Chip}

/-- Updates that keep the gate of dies that do not run keep it one after the other. -/
theorem Chip.each_gate_of_not_live {α : Type} {f : Chip → α → Chip} (h : ∀ t a, t.live = false → (f t a).gate = t.gate)
    (l : List α) (hs : s.live = false) : (s.each l f).gate = s.gate := by
  induction l generalizing s with
  | nil => rfl
  | cons a r ih => exact (ih ((Chip.live_of_gate (h s a hs)).trans hs)).trans (h s a hs)

theorem Chip.packageShutdown_of_not_live (h : s.live = false) (c : ShutdownCause) (w : Bool) : s.packageShutdown c w = s := by
  simp [Chip.packageShutdown, h]

theorem Chip.engineShutdown_of_not_live (h : s.live = false) (e : Nat) (c : ShutdownCause) : s.engineShutdown e c = s := by
  simp [Chip.engineShutdown, h]

theorem Chip.checkShutdown_of_not_live (h : s.live = false) (g : Nat) : s.checkShutdown g = s := by
  simp only [Chip.checkShutdown, Chip.packageShutdown_of_not_live h, Chip.engineShutdown_of_not_live h, ite_self]
  split <;> rfl

theorem Chip.ownShutdown_gate_of_not_live (h : s.live = false) (f : SensorFrame) (e : Nat) : (s.ownShutdown f e).gate = s.gate := by
  unfold Chip.ownShutdown
  dsimp only
  split
  · rw [Chip.engineShutdown_of_not_live (by simpa using h), Chip.setEngine_gate]
  · rfl

end

section
variable (s : Chip)

@[simp] theorem Chip.setSite_gate (i : Nat) (f : Site → Site) : (s.setSite i f).gate = s.gate := rfl
@[simp] theorem Chip.setGroup_gate (g : Nat) (f : Group → Group) : (s.setGroup g f).gate = s.gate := rfl

theorem Chip.takeSample_shutdown (old : Chip) (f : SensorFrame) (n : Nat) :
    (Chip.takeSample old f s n).power.shutdown = s.power.shutdown := by
  unfold Chip.takeSample
  rw [apply_ite Chip.power, Chip.raise_power, ite_self]

@[simp] theorem Chip.updateLevels_gate (g : Nat) : (s.updateLevels g).gate = s.gate := by
  simp [Chip.updateLevels, apply_ite Chip.gate]

@[simp] theorem Chip.checkOutlet_gate : s.checkOutlet.gate = s.gate := by
  unfold Chip.checkOutlet
  split
  · dsimp only
    split <;> rfl
  · rfl

end

section
variable (s : Chip)

theorem Chip.levelWrite_gate (g : Nat) (k : ThermLevel) (bits : Nat) : ((s.levelWrite g k bits).getD s).gate = s.gate := by
  unfold Chip.levelWrite
  split
  · rfl
  · dsimp only
    split
    · rfl
    · split <;> rfl

theorem Chip.ownerRootWrite_gate (cert : List Byte) : ((s.ownerRootWrite cert).getD s).gate = s.gate := by
  unfold Chip.ownerRootWrite
  split <;> rfl

theorem Chip.debugRequest_gate (scope : Nat) : ((s.debugRequest scope).getD s).gate = s.gate := by
  unfold Chip.debugRequest
  split <;> rfl

end

/-! ### The latch -/

/-- A package shutdown is latched. -/
def Chip.latched (s : Chip) : Prop := s.power.shutdown.isSome = true

section
variable {s : Chip}

theorem Chip.latched.congr {t : Chip} (h : s.latched) (hg : t.gate = s.gate) : t.latched := by
  rwa [Chip.latched, Chip.shutdown_of_gate hg]

theorem Chip.latched.not_live (h : s.latched) : s.live = false := Chip.live_of_latched s h

theorem Chip.latched.not_none (h : s.latched) : s.power.shutdown.isNone = false := by
  simpa [Chip.latched, Option.isSome_iff_ne_none] using h

/-- Samples and levels are taken, but a package whose dies have no power is not shut down again. -/
theorem Chip.sensorFrame_latched (h : s.latched) (f : SensorFrame) : (s.sensorFrame f).latched := by
  have hsample : ∀ l, ({ (s.each l (Chip.takeSample s f)) with
      power := { (s.each l (Chip.takeSample s f)).power with telemetry := [] } } : Chip).latched := fun l => by
    have hkeep := s.each_keeps (fun c => c.power.shutdown) (Chip.takeSample s f) (fun t n => t.takeSample_shutdown s f n) l
    exact (congrArg Option.isSome hkeep).trans h
  have hlevels : ∀ t : Chip, t.latched → ((t.each (List.range 61) Chip.updateLevels).checkOutlet).latched :=
    fun t ht => ht.congr (by simp)
  have hshut : ∀ t : Chip, t.latched →
      ((t.each (List.range 61) Chip.checkShutdown).each (List.range 20) (Chip.ownShutdown f)).latched := fun t ht => by
    have hck := Chip.each_gate_of_not_live (f := Chip.checkShutdown)
      (fun u g hu => by rw [Chip.checkShutdown_of_not_live hu]) (List.range 61) ht.not_live
    refine ht.congr (Eq.trans ?_ hck)
    exact Chip.each_gate_of_not_live (fun u e hu => Chip.ownShutdown_gate_of_not_live hu f e) _
      ((Chip.live_of_gate hck).trans ht.not_live)
  have hall := hshut _ (hlevels _ (hsample (s.frameSensors f)))
  unfold Chip.sensorFrame
  dsimp only
  rw [hall.not_live]
  exact hall

theorem Chip.resetAssert_latched (h : s.latched) (width : Nat) : (s.resetAssert width).latched := by
  refine Chip.when_of Chip.latched h ?_
  dsimp only
  rw [if_pos (show s.power.shutdown.isSome = true from h)]
  exact h

theorem Chip.resetRelease_latched (h : s.latched) (e u : Bool) : (s.resetRelease e u).latched := by
  refine Chip.when_of Chip.latched h ?_
  simp only [h.not_none, Bool.and_false, Bool.false_eq_true, if_false]
  exact h

theorem Chip.mgmtLinkUp_latched (h : s.latched) : s.mgmtLinkUp.latched := by
  refine Chip.when_of Chip.latched h ?_
  dsimp only
  split <;> exact h

theorem Chip.refclkLost_gate_of_latched (h : s.latched) : s.refclkLost.gate = s.gate := by
  refine s.when_keeps Chip.gate _ _ ?_
  simp [Chip.live_power, h.not_live]

theorem Chip.unitGone_gate (i : Nat) : (s.unitGone i).gate = s.gate := s.setSite_gate i _

theorem Chip.unitLoss_gate_of_latched (h : s.latched) (l : UnitLoss) : (s.unitLoss l).gate = s.gate := by
  cases l with
  | standby => exact Chip.when_keeps s Chip.gate _ _ rfl
  | worker i =>
    refine Chip.when_keeps s Chip.gate _ _ ?_
    rw [Chip.packageShutdown_of_not_live (s := s.unitGone i.val) h.not_live, Chip.unitGone_gate]
  | bothMasters =>
    have hl : ((s.unitGone 0).unitGone 7).live = false := h.not_live
    simp only [Chip.unitLoss, Chip.packageShutdown_of_not_live hl, Chip.unitGone_gate]

theorem Chip.answerReset_latched (h : s.latched) (id : Nat) (req : Word32) : (s.answerReset id req).latched :=
  h.congr (s.message_gate fun v => by simp [Answer.no, apply_ite Answer.chip])

/-- A RESET does not take effect while a shutdown is latched (R503). -/
theorem Chip.afterReset_latched (h : s.latched) (id : Nat) (req : Word32) : (s.afterReset id req).latched := by
  have hno : s.resets id req = false := by simp [Chip.resets, h.not_none]
  unfold Chip.afterReset
  rw [hno]
  exact s.answerReset_latched h id req

/-- What the loader answers on the UART: no RESET is answered OK while a shutdown is latched (R503). -/
theorem Chip.uartRequest_status_of_latched (h : s.latched) (body : List Byte) : (s.uartRequest 0x0C body).status ≠ .ok := by
  have hno : s.power.shutdown.isSome = true := h
  by_cases hb : body.isEmpty = true <;> simp [Chip.uartRequest, hno, hb, Answer.no]

theorem Chip.uart_latched (h : s.latched) (b : List Byte) : (s.uart b).latched := by
  unfold Chip.uart
  split
  · exact h
  case h_2 m _ =>
    have hreset : ∀ (b : Bool) (type : Nat) (body : List Byte),
        ¬(type = 0x0C ∧ (if b then s.uartRequest type body else .no s .badMessage).status = .ok) := by
      rintro b type body ⟨rfl, hst⟩
      cases b
      · simp [Answer.no] at hst
      · exact Chip.uartRequest_status_of_latched h body hst
    have hanswer : ∀ (b : Bool) (type : Nat) (body : List Byte),
        (if b then s.uartRequest type body else .no s .badMessage).chip.gate = s.gate := by
      intro b type body
      cases b
      · rfl
      · exact s.uartRequest_gate type body
    dsimp only
    rw [if_neg (hreset _ _ _)]
    exact h.congr (hanswer _ _ _)

end

/-- No command but VAON_LOSS, RE_ARM and the writes that may reach RE_ARM ends a latched shutdown. -/
theorem exec_latched {i : Instr} {s t : State} (hi : endsShutdown i = false) (hs : s.latched) (h : exec i s = .next t) :
    t.latched := by
  have hact : ∀ {c : Chip}, c.latched → Host.Outcome.next { s with toChip := c } = exec i s → t.latched := by
    intro c hc he
    rw [h, Host.Outcome.next.injEq] at he
    exact he ▸ hc
  have hkeep : ∀ {c : Chip}, c.gate = s.gate → Host.Outcome.next { s with toChip := c } = exec i s → t.latched :=
    fun hc => hact (hs.congr hc)
  have hwhen : ∀ {f : Chip → Chip}, (f s.toChip).gate = s.gate → s.actAwake f = exec i s → t.latched :=
    fun {f} hf => hkeep (s.toChip.when_keeps Chip.gate _ f hf)
  have hmessage : ∀ {id type : Nat} {req : Word32} {f : Chip → Session → Answer}, (∀ v, (f s.toChip v).chip.gate = s.gate) →
      (s.always fun c => c.message id type req f) = exec i s → t.latched :=
    fun {id type req f} hf => hkeep (c := s.message id type req f) (s.message_gate hf)
  by_cases hd : servedAon i = false
  · rw [exec_without_power hd hs.not_live, Host.Outcome.next.injEq] at h
    exact h ▸ hs
  · cases i
    case vaonLoss | reArm | set | objectWrite => cases hi
    case resetNAssert width => exact hact (Chip.resetAssert_latched hs width) rfl
    case resetNRelease e u => exact hact (Chip.resetRelease_latched hs e u) rfl
    case vaonUp => exact hkeep (c := s.vaonUp) (Chip.when_keeps _ Chip.gate _ _ rfl) rfl
    case shutdownNReleaseTimer => exact hkeep (c := s.shutdownNRelease) (Chip.when_keeps _ Chip.gate _ _ rfl) rfl
    case alertNRelease => exact hkeep (c := s.alertRelease) (Chip.when_keeps _ Chip.gate _ _ rfl) rfl
    case mgmtLinkUp => exact hact (Chip.mgmtLinkUp_latched hs) rfl
    case refclkLoss => exact hwhen (Chip.refclkLost_gate_of_latched hs) rfl
    case ditchriderHeartbeat => exact hwhen (by exact Chip.when_keeps _ Chip.gate _ _ rfl) rfl
    case standbyTakeover => exact hwhen s.takeover_gate rfl
    case ditchriderUnitLoss loss => exact hwhen (Chip.unitLoss_gate_of_latched hs loss) rfl
    case compensationTick => exact hwhen (by split <;> rfl) rfl
    case sensorFrame frame => exact hact (Chip.when_of Chip.latched hs (Chip.sensorFrame_latched hs frame)) rfl
    case thermalLevelWrite group level value => exact hwhen (s.toChip.levelWrite_gate group.val level value.toNat) rfl
    case configDone => exact hwhen (s.when_gate Chip.configEnd_gate _) rfl
    case configWindowExpiry => exact hwhen (s.when_gate Chip.configEnd_gate _) rfl
    case ownerRootWrite cert => exact hwhen (s.toChip.ownerRootWrite_gate cert) rfl
    case debugRequest scope => exact hwhen (s.toChip.debugRequest_gate scope.toNat) rfl
    case debugResponse response => exact hwhen (s.toChip.debugResponse_gate response) rfl
    case recoveryRequest value =>
      exact hwhen (f := fun c => c.recoveryRequest value) (Chip.when_keeps _ Chip.gate _ _ rfl) rfl
    case activationUnitDone unit differs => exact hwhen (s.toChip.activationUnit_gate unit differs) rfl
    case activationTimeout unit => exact hwhen (s.toChip.activationLate_gate unit) rfl
    case get => exact hmessage (fun v => Chip.get_gate ..) rfl
    case subscribe | eventAck => exact hmessage (fun v => by split <;> rfl) rfl
    case memRead => exact hmessage (fun v => by split <;> simp [Answer.no]) rfl
    case memWrite => exact hmessage (fun v => by split <;> simp [Answer.no, s.memWrite_gate_of_not_live hs.not_live]) rfl
    case attest => exact hmessage (fun v => Chip.attest_gate ..) rfl
    case imageBegin | imageData | imageEnd | imageAbort =>
      exact hmessage (fun v => by split <;> simp [Answer.no, Answer.plain]) rfl
    case badMessage => exact hmessage (fun v => rfl) rfl
    case eulenReset session req =>
      exact hact (Chip.afterReset_latched hs session req) (exec_eulenReset session req s).symm
    case dtlsHandshake cert => exact hkeep (s.toChip.handshake_gate cert) rfl
    case sessionIdleTimeout session => exact hkeep (s.toChip.closeSession_gate session) rfl
    case imageIdleTimeout => exact hkeep s.toChip.imageIdle_gate rfl
    case snapshotExpiry session => exact hkeep (s.toChip.setSession_gate session _) rfl
    case eventResendTimer session seq => exact hkeep (s.toChip.resendEvent_gate session seq) rfl
    case uartFrame bytes => exact hact (Chip.uart_latched hs bytes) rfl
    all_goals exact absurd rfl hd

theorem Chip.nanosecond_latched {s : Chip} (h : s.latched) : s.nanosecond.latched := by
  simp only [Chip.nanosecond, h.not_live, Chip.when_false]
  exact h

/-- Settles O5: each command that the always-on domain serves keeps the latch, the others do nothing while it holds. -/
theorem latchedShutdownIsKept : Obligations.Latched_shutdown_is_kept := by
  unfold Obligations.Latched_shutdown_is_kept
  rintro s t ⟨hlatched, hpending⟩ hstep
  have htail := everyCommandAnswersANextState.2 s t hstep
  constructor
  · cases hp : s.pending with
    | nil =>
      rw [stepRunsTheFrontCommand.2 s hp, Host.Outcome.next.injEq] at hstep
      exact hstep ▸ Chip.nanosecond_latched hlatched
    | cons c rest =>
      rw [stepRunsTheFrontCommand.1 c rest s hp] at hstep
      refine exec_latched (s := { s with pending := rest }) ?_ hlatched hstep
      simpa [hp] using (List.all_eq_true.mp hpending) c (by simp [hp])
  · rw [htail]
    rw [List.all_eq_true] at hpending ⊢
    exact fun c hc => hpending c (List.mem_of_mem_tail hc)

end Sys2Proof.Machine
end

section
/-! PROOF. Reset and boot (R453–R456, R472): what of the chip a reset keeps, what a boot does to memory, pins and the boot's count,
and the statement `Reset_and_boot`. -/

namespace Sys2Proof.Machine

/-! ### Lists of updates that keep a value -/

/-- Updates each of which keeps p where it is b keep it so one after the other. -/
theorem Chip.each_keeps_value {α β : Type} (p : Chip → β) {b : β} {f : Chip → α → Chip} (h : ∀ t a, p t = b → p (f t a) = b)
    (l : List α) {s : Chip} (hs : p s = b) : p (s.each l f) = b := by
  induction l generalizing s with
  | nil => exact hs
  | cons a r ih => exact ih (h s a hs)

theorem Tab.get_keep {α : Type} (d : α) (p : Nat → Bool) (t : Tab α) (k : Nat) :
    Tab.get d (Tab.keep p t) k = if p k then Tab.get d t k else d := by
  induction t with
  | nil => simp [Tab.keep]
  | cons e r ih =>
    obtain ⟨j, v⟩ := e
    by_cases hk : k = j
    · subst hk
      cases hp : p k
      · rw [Tab.keep, List.filter_cons_of_neg (by simp [hp]), ← Tab.keep, ih, hp]
        rfl
      · rw [Tab.keep, List.filter_cons_of_pos (by simp [hp])]
        simp [Tab.get]
    · cases hp : p j
      · rw [Tab.keep, List.filter_cons_of_neg (by simp [hp]), ← Tab.keep, ih]
        simp [Tab.get, hk]
      · rw [Tab.keep, List.filter_cons_of_pos (by simp [hp]), ← Tab.keep]
        simp [Tab.get, hk, ih]

/-! ### A reset (R453) -/

section
variable (s : Chip)

/-- The objects apart, a chip is as `adminDefaults` found it. -/
theorem adminDefaults_eq : adminDefaults s = { s with objs := (adminDefaults s).objs } := by
  have h := Chip.each_keeps s (fun c : Chip => { c with objs := [] })
    (fun t (e : Nat × Nat) => t.setObj (O.portAdmin + (e.1 - O.portRole)) (if e.2 = 0 then 0 else 1)) (fun _ _ => rfl)
    (s.objs.filter fun e => O.portRole ≤ e.1 && e.1 < O.portRole + 256 * 160 && e.1 % 256 == O.portRole % 256)
  have hobjs := congrArg (fun c : Chip => ({ c with objs := (adminDefaults s).objs } : Chip)) h
  exact hobjs

/-- It writes PORT_ADMIN alone, so any other object is as it was. -/
theorem adminDefaults_obj {k : Nat} (hk : ∀ p, k ≠ O.portAdmin + 256 * p) : (adminDefaults s).obj k = s.obj k := by
  have h : ∀ (l : List (Nat × Nat)) (t : Chip), (∀ e ∈ l, O.portRole ≤ e.1 ∧ e.1 % 256 = O.portRole % 256) →
      (t.each l fun s e => s.setObj (O.portAdmin + (e.1 - O.portRole)) (if e.2 = 0 then 0 else 1)).obj k = t.obj k := by
    intro l
    induction l with
    | nil => exact fun _ _ => rfl
    | cons e r ih =>
      intro t hl
      obtain ⟨hlow, hmod⟩ := hl e (List.mem_cons_self ..)
      have hunit : O.portAdmin + (e.1 - O.portRole) = O.portAdmin + 256 * ((e.1 - O.portRole) / 256) := by
        simp only [O.portRole] at hlow hmod ⊢
        omega
      have hne : k ≠ O.portAdmin + (e.1 - O.portRole) := by rw [hunit]; exact hk _
      rw [Chip.each_cons, ih _ fun e he => hl e (List.mem_cons_of_mem _ he), Chip.setObj_other _ _ _ _ hne]
  refine h _ s fun e he => ?_
  have hkey := (List.mem_filter.mp he).2
  simp only [Bool.and_eq_true, decide_eq_true_eq, beq_iff_eq] at hkey
  exact ⟨hkey.1.1, hkey.2⟩

/-- What a reset makes of the chip, the objects apart. -/
theorem Chip.resetAll_eq : s.resetAll = { Chip.reset with
    part := s.part, now := s.now, pins := { s.pins with testEn := false }, objs := s.resetAll.objs
    gn := { Gn.reset with members := s.gn.members }, hbm := s.hbmKept, power := s.power.kept, mgmt := s.mgmt.kept
    service := s.serviceKept, out := s.out, freeCtr := s.freeCtr } := adminDefaults_eq _

theorem Chip.resetAll_pins : s.resetAll.pins = { s.pins with testEn := false } := congrArg Chip.pins s.resetAll_eq

/-- Objects in MRAM and fuses are kept (R453), PORT_ADMIN apart. -/
theorem Chip.resetAll_obj {k : Nat} (hkept : persistentKey k = true) (hk : ∀ p, k ≠ O.portAdmin + 256 * p) :
    s.resetAll.obj k = s.obj k := by
  unfold Chip.resetAll
  rw [adminDefaults_obj _ hk]
  simp [Chip.obj, Tab.get_keep, hkept]

theorem Chip.resetAssert_resets {s : Chip} {w : Nat} (hv : s.pins.vaon = true) (hw : 10000 ≤ w)
    (hs : s.power.shutdown = none) :
    s.resetAssert w = { s.resetAll with pins := { s.resetAll.pins with resetLow := true } } := by
  simp [Chip.resetAssert, hv, pulseResets, hw, hs]

end

/-! ### A boot (R455, R472) -/

/-- What of the chip the dies' coming up leaves as it is: memory and its cache, how far the boot is, its count, and the pin. -/
def Chip.bootView (s : Chip) : List Host.Cell × Tab (Option CacheLine) × Nat × Word × Bool :=
  (s.mem, s.hbm.cache, s.mgmt.stage, s.mgmt.bootCount, s.pins.resetLow)

section
variable (s : Chip)

@[simp] theorem Chip.raise_bootView (code : Nat) (args : List Arg) : (s.raise code args).bootView = s.bootView := by
  simp only [Chip.bootView, Chip.raise_resetLow]
  rfl

@[simp] theorem Chip.verifyComponent_bootView (k : Nat) : (s.verifyComponent k).bootView = s.bootView := by
  unfold Chip.verifyComponent
  split
  · rfl
  · exact Chip.raise_bootView ..

@[simp] theorem Chip.setChannel_bootView (n : Nat) (f : Channel → Channel) : (s.setChannel n f).bootView = s.bootView := rfl
@[simp] theorem Chip.setPc_bootView (p : Nat) (f : PseudoChannel → PseudoChannel) : (s.setPc p f).bootView = s.bootView := rfl
@[simp] theorem Chip.setCore_bootView (c : Nat) (f : CoreSt → CoreSt) : (s.setCore c f).bootView = s.bootView := rfl
@[simp] theorem Chip.setSite_bootView (i : Nat) (f : Site → Site) : (s.setSite i f).bootView = s.bootView := rfl
@[simp] theorem Chip.setSweep_bootView (p : Nat) (f : Sweep → Sweep) : (s.setSweep p f).bootView = s.bootView := rfl

@[simp] theorem Chip.relocate_bootView (u d : Nat) : (s.relocate u d).bootView = s.bootView := by
  unfold Chip.relocate
  dsimp only
  split <;> rfl

theorem Chip.each_bootView {α : Type} {f : Chip → α → Chip} (h : ∀ t a, (f t a).bootView = t.bootView) (l : List α) :
    (s.each l f).bootView = s.bootView := s.each_keeps Chip.bootView f h l

@[simp] theorem Chip.redeal_bootView (bad : Nat → Bool) : (s.redeal bad).bootView = s.bootView := by
  unfold Chip.redeal
  refine (Chip.each_bootView _ (fun t w => Chip.each_bootView _ (fun u v => ?_) _) _).trans ?_
  · split <;> rfl
  · split
    · rfl
    · refine Chip.each_bootView _ (fun u v => ?_) _
      split <;> rfl

@[simp] theorem Chip.beginMapout_bootView (n : Nat) (cause : MapCause) : (s.beginMapout n cause).bootView = s.bootView := by
  unfold Chip.beginMapout
  dsimp only
  split
  · rw [Chip.raise_bootView, Chip.raise_bootView, Chip.redeal_bootView, Chip.each_bootView _ fun t m => t.relocate_bootView ..]
    rfl
  · rw [Chip.raise_bootView, Chip.redeal_bootView, Chip.each_bootView _ fun t m => t.relocate_bootView ..]
    rfl

@[simp] theorem Chip.tryMapout_bootView (n : Nat) (cause : MapCause) : (s.tryMapout n cause).bootView = s.bootView := by
  unfold Chip.tryMapout
  split
  · exact Chip.raise_bootView ..
  · exact s.beginMapout_bootView n cause

@[simp] theorem Chip.judge_bootView (n : Nat) (cause : MapCause) : (s.judge n cause).bootView = s.bootView := by
  unfold Chip.judge
  dsimp only
  split
  · split
    · split
      · rfl
      · exact Chip.raise_bootView ..
    · split
      · exact Chip.raise_bootView ..
      · split
        · rfl
        · exact Chip.tryMapout_bootView ..
  · split <;> rfl
  · split
    · split
      · split
        · exact Chip.raise_bootView ..
        · rfl
      · rfl
    · rfl
  · rfl

end

/-- With nothing cached there is nothing to write back. -/
theorem Chip.flushUnit_of_uncached {s : Chip} (h : s.hbm.cache = []) (u : Nat) : s.flushUnit u = s := by
  simp [Chip.flushUnit, Chip.cachedLines, h]

theorem Chip.cache_of_bootView {s t : Chip} (h : s.bootView = t.bootView) : s.hbm.cache = t.hbm.cache := by
  simp only [Chip.bootView, Prod.mk.injEq] at h
  exact h.2.1

theorem Chip.fillSweep_bootView {s : Chip} (h : s.hbm.cache = []) (p : Nat) : (s.fillSweep p).bootView = s.bootView := by
  unfold Chip.fillSweep
  split
  · rfl
  · exact Chip.each_keeps_value Chip.bootView (fun t u ht => by
      rw [Chip.flushUnit_of_uncached ((Chip.cache_of_bootView ht).trans h), ht]) _ rfl

theorem Chip.trySweep_bootView {s : Chip} (h : s.hbm.cache = []) (p : Nat) : (s.trySweep p).bootView = s.bootView := by
  unfold Chip.trySweep
  dsimp only
  split
  · rfl
  · split
    · rfl
    · split
      · rfl
      · split
        · split
          · rfl
          · exact Chip.raise_bootView ..
        · unfold Chip.startSweep
          dsimp only
          rw [Chip.fillSweep_bootView (by rw [Chip.cache_of_bootView (Chip.redeal_bootView ..)]; exact h), Chip.redeal_bootView]
          rfl

theorem Chip.dueSweeps_bootView {s : Chip} (h : s.hbm.cache = []) : s.dueSweeps.bootView = s.bootView :=
  Chip.each_keeps_value Chip.bootView (fun _ p ht => (Chip.trySweep_bootView ((Chip.cache_of_bootView ht).trans h) p).trans ht)
    _ rfl

theorem Chip.trainHbm_bootView {s : Chip} (h : s.hbm.cache = []) : s.trainHbm.bootView = s.bootView := by
  have hjudge : ∀ (t : Chip) (p : Nat), (if p < 2048 then t.judge (p / 2) .unresponsive else t).bootView = t.bootView :=
    fun t p => by split <;> simp
  have hnarrow : ∀ (t : Chip) (x : Nat × Nat × Bool × Nat), (t.when (x.1 < 2048 && x.2.1 < 36) fun s =>
      (s.setPc x.1 fun c => { c with bootNarrow := c.bootNarrow ++ [(x.2.2.1, x.2.2.2)] }).raise 0x4803
        [.u16 x.1, .u8 x.2.1, .u8 x.2.2.2]).bootView = t.bootView :=
    fun t x => t.when_keeps Chip.bootView _ _ (Chip.raise_bootView ..)
  have hpins : ∀ t : Chip, t.bootView = s.bootView → ((t.each (List.range 2048) fun s p =>
      s.setPc p fun c => { c with sweepDue := true }).dueSweeps).bootView = s.bootView := fun t ht => by
    have hdue := (Chip.each_bootView t (fun u p => u.setPc_bootView p fun c => { c with sweepDue := true }) (List.range 2048)).trans ht
    exact (Chip.dueSweeps_bootView ((Chip.cache_of_bootView hdue).trans h)).trans hdue
  unfold Chip.trainHbm
  dsimp only
  split
  · exact hpins _ ((Chip.each_bootView _ hnarrow _).trans (Chip.each_bootView _ hjudge _))
  · exact (Chip.each_bootView _ hnarrow _).trans (Chip.each_bootView _ hjudge _)

section
variable (s : Chip)

@[simp] theorem Chip.bootCore_bootView (c : Nat) : (s.bootCore c).bootView = s.bootView := by
  unfold Chip.bootCore
  split
  · rfl
  · split <;> rfl

@[simp] theorem Chip.bootReduction_bootView (i : Nat) : (s.bootReduction i).bootView = s.bootView := by
  unfold Chip.bootReduction
  split
  · rfl
  · dsimp only
    rw [Chip.raise_bootView]
    split <;> rfl

@[simp] theorem Chip.bootTestsEnd_bootView : s.bootTestsEnd.bootView = s.bootView := by
  refine s.when_keeps Chip.bootView _ _ ?_
  dsimp only
  split <;> rfl

@[simp] theorem Chip.bootTestsEnd_job : s.bootTestsEnd.job = s.job := by
  refine s.when_keeps Chip.job _ _ ?_
  dsimp only
  split <;> rfl

end

/-- The components are verified and HBM is up. -/
def Chip.bootedMemory (s : Chip) : Chip := (s.each [1, 2, 3, 4, 5, 6, 7] Chip.verifyComponent).bootHbm.trainHbm

/-- The sites have their clocks and the cores and reduction units are at their tests. -/
def Chip.bootedUnits (s : Chip) : Chip :=
  let s := s.each (List.range 8) fun s i => s.setSite i fun x => { x with step := s.topStep i, vstep := s.topStep i }
  (s.each (List.range 264) Chip.bootCore).each (List.range 8) Chip.bootReduction

theorem Chip.bootDies_eq (s : Chip) : s.bootDies =
    let t := ({ s with mgmt := { s.mgmt with stage := 2, booting := true } } : Chip).bootedMemory.bootedUnits
    ({ t with job := { t.job with state := 3 } } : Chip).bootTestsEnd := rfl

@[simp] theorem Chip.bootHbm_bootView (s : Chip) : s.bootHbm.bootView = s.bootView := rfl

theorem Chip.bootedMemory_bootView {s : Chip} (h : s.hbm.cache = []) : s.bootedMemory.bootView = s.bootView := by
  have hverify := Chip.each_bootView s Chip.verifyComponent_bootView [1, 2, 3, 4, 5, 6, 7]
  have hcache := (Chip.cache_of_bootView ((Chip.bootHbm_bootView _).trans hverify)).trans h
  unfold Chip.bootedMemory
  rw [Chip.trainHbm_bootView hcache, Chip.bootHbm_bootView, hverify]

theorem Chip.bootedUnits_bootView (s : Chip) : s.bootedUnits.bootView = s.bootView := by
  unfold Chip.bootedUnits
  dsimp only
  rw [Chip.each_bootView _ Chip.bootReduction_bootView, Chip.each_bootView _ Chip.bootCore_bootView,
    Chip.each_bootView _ fun t i => t.setSite_bootView i _]

/-- The dies come up over an empty cache: memory stays as it is, and the boot has reached its second stage (R455). -/
theorem Chip.bootDies_bootView {s : Chip} (h : s.hbm.cache = []) :
    s.bootDies.bootView = ({ s with mgmt := { s.mgmt with stage := 2, booting := true } } : Chip).bootView := by
  rw [Chip.bootDies_eq]
  exact (Chip.bootTestsEnd_bootView _).trans ((Chip.bootedUnits_bootView _).trans (Chip.bootedMemory_bootView h))

/-- The job is not Idle before job-ready (log 67). -/
theorem Chip.bootDies_job (s : Chip) : s.bootDies.job.state = 3 := by
  rw [Chip.bootDies_eq]
  exact congrArg Job.state (Chip.bootTestsEnd_job _)

/-! ### Which boot a release begins (R472, R500–R503) -/

section
variable {s : Chip}

theorem Chip.resetRelease_boots (hv : s.pins.vaon = true) (hlow : s.pins.resetLow = true) (hhigh : s.pins.shutdownHigh = true)
    (hs : s.power.shutdown = none) (u : Bool) :
    s.resetRelease false u = ({ s with pins := { s.pins with resetLow := false, testEn := false } } : Chip).boot u := by
  simp [Chip.resetRelease, hv, hlow, hhigh, hs]

theorem Chip.boot_asked (hslot : s.mgmt.slotOk 1 = true) {u : Bool} (hask : u = true ∨ s.mgmt.recoveryRequest = true) :
    s.boot u = { s with mgmt := { s.mgmt with
      bootOrigin := s.aon, bootCount := s.mgmt.bootCount + 1, recoveryRequest := false, loader := true, loaderRan := true } } := by
  have hor : (s.mgmt.recoveryRequest || u) = true := by simpa [or_comm] using hask
  simp [Chip.boot, hslot, hor]

theorem Chip.boot_broken (hslot : s.mgmt.slotOk 1 = false) (u : Bool) :
    s.boot u = (({ s with mgmt := { s.mgmt with bootOrigin := s.aon, bootCount := s.mgmt.bootCount + 1
                                                recoveryRequest := false, loader := true, loaderRan := true } } :
      Chip).setComponent 1 fun x => { x with state := .invalid }).raise 0xCD01 [] := by
  simp [Chip.boot, hslot]

theorem Chip.boot_sound (hslot : s.mgmt.slotOk 1 = true) (hreq : s.mgmt.recoveryRequest = false) :
    s.boot false = ({ s with mgmt := { s.mgmt with
      bootOrigin := s.aon, bootCount := s.mgmt.bootCount + 1, recoveryRequest := false } } : Chip).bootDies := by
  simp [Chip.boot, hslot, hreq]

/-- The event just raised stands in the log's next slot. -/
theorem Chip.raise_code (s : Chip) (code : Nat) (args : List Arg) :
    (Tab.get LogEntry.zero (s.raise code args).log.ring s.log.next).code = BitVec.ofNat 16 code :=
  congrArg LogEntry.code (Tab.get_set_same ..)

theorem Chip.obj_raise_setObj (s : Chip) (k v code : Nat) (args : List Arg) : ((s.setObj k v).raise code args).obj k = v := by
  simp

theorem Chip.setComponent_same (s : Chip) (k : Nat) (f : Component → Component) :
    (s.setComponent k f).mgmt.component k = f (s.mgmt.component k) := Tab.get_set_same ..

end

/-! ### The statement's cases -/

theorem exec_resetNAssert (w : Nat) (s : State) : exec (.resetNAssert w) s = s.always fun c => c.resetAssert w := rfl
theorem exec_resetNRelease (e u : Bool) (s : State) : exec (.resetNRelease e u) s = s.always fun c => c.resetRelease e u := rfl

theorem gives_resetNAssert_resets (s : State) (w : Nat) (hv : s.pins.vaon = true) (hw : 10000 ≤ w)
    (hs : s.power.shutdown = none) : s.gives (.resetNAssert w) fun c =>
      c = { s.toChip.resetAll with pins := { s.toChip.resetAll.pins with resetLow := true } } :=
  State.gives_always (exec_resetNAssert w s) (Chip.resetAssert_resets hv hw hs)

/-- A pulse below 10 µs resets as a longer one does, or not at all (log 15). -/
theorem Chip.resetAssert_cases (s : Chip) (w : Nat) : s.resetAssert w = s ∨ s.resetAssert w = s.resetAssert 10000 := by
  have hlong : pulseResets 10000 = true := rfl
  cases hw : pulseResets w
  · exact .inl (by simp [Chip.resetAssert, hw])
  · exact .inr (by simp [Chip.resetAssert, hw, hlong])

/-- The loader runs where the firmware's image fails, and says so (R457, R472). -/
theorem gives_resetNRelease_broken (s : State) (u : Bool) (hv : s.pins.vaon = true) (hlow : s.pins.resetLow = true)
    (hhigh : s.pins.shutdownHigh = true) (hs : s.power.shutdown = none) (hslot : s.mgmt.slotOk 1 = false) :
    s.gives (.resetNRelease false u) fun c =>
      c.mgmt.loader = true ∧ c.mgmt.loaderRan = true ∧ (c.mgmt.component 1).state = .invalid ∧
      c.mgmt.bootCount = s.mgmt.bootCount + 1 ∧ c.awake = s.awake ∧ c.pins.resetLow = false ∧ c.log.seq = s.log.seq + 1 ∧
      (Tab.get LogEntry.zero c.log.ring s.log.next).code = 0xCD01 ∧ c.mem = s.mem := by
  refine State.gives_always (exec_resetNRelease false u s) ?_
  rw [Chip.resetRelease_boots hv hlow hhigh hs, Chip.boot_broken (by exact hslot)]
  exact ⟨rfl, rfl, congrArg Component.state (Tab.get_set_same ..), rfl, rfl, Chip.raise_resetLow .., rfl,
    Chip.raise_code .., rfl⟩

/-- The dies boot over an empty cache. -/
theorem gives_resetNRelease_boots (s : State) (hv : s.pins.vaon = true) (hlow : s.pins.resetLow = true)
    (hhigh : s.pins.shutdownHigh = true) (hs : s.power.shutdown = none) (hslot : s.mgmt.slotOk 1 = true)
    (hreq : s.mgmt.recoveryRequest = false) (hcache : s.hbm.cache = []) :
    s.gives (.resetNRelease false false) fun c =>
      c.awake = true ∧ c.pins.resetLow = false ∧ c.mgmt.bootCount = s.mgmt.bootCount + 1 ∧ c.job.state = 3 ∧ c.mem = s.mem := by
  refine State.gives_always (exec_resetNRelease false false s) ?_
  rw [Chip.resetRelease_boots hv hlow hhigh hs, Chip.boot_sound (by exact hslot) (by exact hreq)]
  have hview := Chip.bootDies_bootView (s := { s.toChip with
    pins := { s.pins with resetLow := false, testEn := false }
    mgmt := { s.mgmt with bootOrigin := s.aon, bootCount := s.mgmt.bootCount + 1, recoveryRequest := false } }) hcache
  obtain ⟨hmem, -, hstage, hcount, hpin⟩ := by simpa only [Chip.bootView, Prod.mk.injEq] using hview
  refine ⟨?_, hpin, hcount, Chip.bootDies_job _, hmem⟩
  exact decide_eq_true (le_of_eq hstage.symm)

/-- Configure ends with SPM and no enclosure declared: the ports are to work under OFC (R453, R454). -/
theorem gives_configWindowExpiry_spm (s : State) (hawake : s.awake = true) (hopen : s.mgmt.configOpen = true)
    (hdue : s.mgmt.configSince + 1000000 * s.obj O.configWindow ≤ s.aon) (hspm : s.obj O.safetyMode = 1)
    (hencl : s.objb O.enclosedDecl = false) : s.gives .configWindowExpiry fun c =>
      c.mgmt.configOpen = false ∧ c.mgmt.configEnded = true ∧ c.obj O.safetyMode = 0 ∧ c.log.seq = s.log.seq + 1 ∧
      c.ports = s.ports := by
  have hchip : s.toChip.configExpiry =
      (({ s.toChip with mgmt := { s.mgmt with configOpen := false, configEnded := true } } : Chip).setObj O.safetyMode 0).raise
        0x4D03 [] := by
    simp only [Chip.configExpiry, Chip.configEnd, hdue, decide_true, Chip.when_true, hopen]
    exact if_pos ⟨hspm, Bool.not_eq_true' _ |>.mpr hencl⟩
  refine State.gives_awake (f := Chip.configExpiry) rfl hawake ?_
  rw [hchip]
  exact ⟨rfl, rfl, Chip.obj_raise_setObj .., rfl, rfl⟩

theorem gives_jobReady (s : State) (hlive : s.live = true) (hready : s.mayBeReady = true) : s.gives .jobReady fun c =>
    c.job.state = 0 ∧ c.mgmt.stage = 6 ∧ c.obj O.bootTime = (s.aon - s.mgmt.bootOrigin) / 1000000 ∧
    c.log.seq = s.log.seq + 1 ∧ c.mem = s.mem ∧ c.queues = s.queues := by
  refine State.gives_live (f := Chip.jobReady) rfl hlive ?_
  simp only [Chip.jobReady, hready, Chip.when_true]
  exact ⟨rfl, rfl, Chip.obj_raise_setObj .., rfl, rfl, rfl⟩

/-- Settles O7: a reset keeps what `resetAll` lists, and a release begins the boot that the image and the pins ask for. -/
theorem resetAndBoot : Obligations.Reset_and_boot := by
  unfold Obligations.Reset_and_boot
  refine ⟨?_, ?_, ?_, ?_, ?_, ?_, ?_, gives_resetNRelease_broken, gives_resetNRelease_boots, ?_, ?_,
    gives_configWindowExpiry_spm, gives_jobReady⟩
  · intro s w hv hw hs
    refine (gives_resetNAssert_resets s w hv hw hs).imp fun c hc => ?_
    rw [hc]
    refine ⟨rfl, s.toChip.resetAll_asleep.1, ?_⟩
    have hobj := fun k hkept hk => s.toChip.resetAll_obj (k := k) hkept hk
    rw [s.toChip.resetAll_eq] at hobj ⊢
    exact ⟨rfl, rfl, rfl, rfl, rfl, rfl, rfl, rfl, rfl, rfl, rfl, rfl, rfl, rfl, rfl, rfl, rfl, rfl, rfl, rfl, rfl, rfl, hobj⟩
  · intro s w hv hw hs
    refine State.gives_always (exec_resetNAssert w s) ?_
    simp [Chip.resetAssert, hv, pulseResets, hw, hs]
  · intro s w h
    refine State.gives_always (exec_resetNAssert w s) ?_
    rcases h with h | h
    · simp [Chip.resetAssert, h]
    · have hshort : pulseResets w = false := by
        simp only [pulseResets, Bool.or_eq_false_iff, decide_eq_false_iff_not, Bool.and_eq_false_imp, decide_eq_true_eq]
        omega
      simp [Chip.resetAssert, hshort]
  · intro s w _ _
    refine State.gives_always (exec_resetNAssert w s) ?_
    refine (s.toChip.resetAssert_cases w).imp_right fun h => ?_
    rw [h]
    rfl
  · intro s e u hv hlow h
    refine State.gives_always (exec_resetNRelease e u s) ?_
    simp only [Chip.resetRelease, hv, hlow, Bool.and_self, Chip.when_true]
    refine if_neg ?_
    rcases h with h | h | h
    · simp [h]
    · simp [h]
    · simp [Option.isSome_iff_ne_none.mp h]
  · intro s e u h
    refine State.gives_always (exec_resetNRelease e u s) ?_
    rcases h with h | h <;> simp [Chip.resetRelease, h]
  · intro s u hv hlow hhigh hs hslot hask
    refine State.gives_always (exec_resetNRelease false u s) ?_
    rw [Chip.resetRelease_boots hv hlow hhigh hs, Chip.boot_asked (by exact hslot) (by exact hask)]
    rfl
  · intro s h hlink
    refine State.gives_always (f := Chip.mgmtLinkUp) rfl ?_
    simp [Chip.mgmtLinkUp, h, hlink]
  · intro s h hopen hspm
    refine State.gives_awake (f := fun c => c.when true Chip.configEnd) rfl h ?_
    simp only [Chip.configEnd, Chip.when_true, hopen]
    refine if_neg fun hne => ?_
    exact absurd (hne.1.symm.trans hspm) (by decide)

end Sys2Proof.Machine
end

section
/-! PROOF. Supplies, the latch of a package shutdown, and RE_ARM (R427–R429, R502, R503). -/

namespace Sys2Proof.Machine

/-! ### What a package shutdown leaves -/

def Chip.withSites (s : Chip) (sites : Tab Site) : Chip := { s with power := { s.power with sites := sites } }

/-- Every site's clock is stretched to 1/4 (R427). -/
def Chip.stretchSites (s : Chip) (l : List Nat) : Chip := s.each l fun s i => s.setSite i fun x => { x with stretch := 4 }

section
variable (s : Chip)

theorem Chip.stretchSites_eq (l : List Nat) : ∃ sites, s.stretchSites l = s.withSites sites := by
  induction l generalizing s with
  | nil => exact ⟨s.power.sites, rfl⟩
  | cons i r ih =>
    obtain ⟨sites, h⟩ := ih (s.setSite i fun x => { x with stretch := 4 })
    exact ⟨sites, h.trans rfl⟩

/-- The record is written, the latch is set, and the dies lose their power. -/
def Chip.cutPower (c : ShutdownCause) (written : Bool) : Chip :=
  let s := if written then s.writeRecord 0 c else s
  { s with power := { s.power with shutdown := some c.cause }, pins := { s.pins with shutdownHigh := false } }.diesOff

variable {s}

theorem Chip.packageShutdown_written (h : s.live = true) (c : ShutdownCause) : ∃ sites, s.packageShutdown c true =
    ((s.raise 0xCC01 [.u8 c.cause, .u16 c.sensor, .f32 (ratToF32 c.reading)]).withSites sites).cutPower c true := by
  obtain ⟨sites, hs⟩ := Chip.stretchSites_eq
    (s.raise 0xCC01 [.u8 c.cause, .u16 c.sensor, .f32 (ratToF32 c.reading)]) (List.range 8)
  refine ⟨sites, ?_⟩
  rw [← hs, Chip.packageShutdown, h, Chip.when_true]
  rfl

theorem Chip.packageShutdown_unwritten (h : s.live = true) (c : ShutdownCause) : ∃ sites, s.packageShutdown c false =
    (s.withSites sites).cutPower c false := by
  obtain ⟨sites, hs⟩ := Chip.stretchSites_eq s (List.range 8)
  refine ⟨sites, ?_⟩
  rw [← hs, Chip.packageShutdown, h, Chip.when_true]
  rfl

end

/-! ### The statement's cases -/

theorem Chip.number_aonSource (s : Chip) : s.number O.aonSource 0 = s.power.aonRc.toNat := rfl

theorem gives_shutdownNow (s : State) (hlive : s.live = true) : s.gives (.shutdownNow true) fun c =>
    c.power.shutdown = some 7 ∧ c.pins.shutdownHigh = false ∧ c.power.recSeq = s.power.recSeq + 1 ∧
    c.power.ringNext = (s.power.ringNext + 1) % 256 ∧ c.mem = [] ∧ c.queues = [] ∧ c.cores = [] ∧ c.objs = s.objs ∧
    c.log.seq = s.log.seq + 1 ∧ c.mgmt.stage = s.mgmt.stage := by
  refine State.gives_live (f := fun c => c.when true fun c => c.packageShutdown (ShutdownCause.plain 7) true) rfl hlive ?_
  obtain ⟨sites, h⟩ := Chip.packageShutdown_written hlive (ShutdownCause.plain 7)
  rw [Chip.when_true, h]
  exact ⟨rfl, rfl, rfl, rfl, rfl, rfl, rfl, rfl, rfl, rfl⟩

theorem gives_railOutOfRangeTimeout (s : State) (r : Fin 27) (hlive : s.live = true)
    (hlen : ((s.sensor (railVolt r.val)).samples.take 10).length = 10)
    (hall : (((s.sensor (railVolt r.val)).samples.take 10).all fun v =>
      decide (v < (railRange r.val).1) || decide (v > (railRange r.val).2)) = true) :
    s.gives (.railOutOfRangeTimeout r) fun c => c.power.shutdown = some 4 ∧ c.pins.shutdownHigh = false ∧ c.mem = [] := by
  refine State.gives_live rfl hlive ?_
  simp only [hlen, hall, BEq.rfl, Bool.and_self, Chip.when_true]
  obtain ⟨sites, h⟩ := Chip.packageShutdown_written hlive _
  rw [h]
  exact ⟨rfl, rfl, rfl⟩

theorem gives_powerExcursionShutdown (s : State) (hlive : s.live = true) (hlen : (s.power.samples.take 1000).length = 1000)
    (hall : ((s.power.samples.take 1000).all fun p => decide (p > (s.obj O.powerPeak : Rat))) = true)
    (hstep : ((List.range 8).all fun i => (s.site i).step == 7) = true) : s.gives .powerExcursionShutdown fun c =>
    c.power.shutdown = some 2 ∧ c.pins.shutdownHigh = false ∧ c.mem = [] := by
  refine State.gives_live rfl hlive ?_
  simp only [hlen, hall, hstep, BEq.rfl, Bool.and_self, Chip.when_true]
  obtain ⟨sites, h⟩ := Chip.packageShutdown_written hlive (ShutdownCause.plain 2)
  rw [h]
  exact ⟨rfl, rfl, rfl⟩

/-- A step round the log's ring never comes back to the same slot. -/
theorem succ_mod_log_ne (n : Nat) : n ≠ (n + 1) % 65536 := by omega

theorem succ_succ_mod_log_ne (n : Nat) : n ≠ ((n + 1) % 65536 + 1) % 65536 := by omega

/-- A later event leaves another slot of the log as it was. -/
theorem Chip.raise_ring_other (s : Chip) (code : Nat) (args : List Arg) {j : Nat} (h : j ≠ s.log.next) :
    Tab.get LogEntry.zero (s.raise code args).log.ring j = Tab.get LogEntry.zero s.log.ring j :=
  Tab.get_set_ne _ _ _ _ _ h

theorem gives_refclkLoss (s : State) (hlive : s.live = true) (hrc : s.power.aonRc = false) : s.gives .refclkLoss fun c =>
    c.power.shutdown = some 5 ∧ c.number O.aonSource 0 = 1 ∧ c.awake = true ∧ c.mem = [] ∧ c.power.recSeq = s.power.recSeq + 1 ∧
    (Tab.get LogEntry.zero c.log.ring s.log.next).code = 0x4C06 ∧
    (Tab.get LogEntry.zero c.log.ring ((s.log.next + 1) % 65536)).code = 0xCC02 := by
  have hawake := Chip.awake_of_live _ hlive
  refine State.gives_awake (f := Chip.refclkLost) rfl hawake ?_
  have hlost : s.toChip.refclkLost = ((({ s.toChip with power := { s.power with aonRc := true } } : Chip).raise 0x4C06 []).raise
      0xCC02 []).packageShutdown (ShutdownCause.plain 5) true := by
    rw [Chip.refclkLost, hrc, Bool.not_false, Chip.when_true]
    exact if_pos hlive
  generalize ht : ({ s.toChip with power := { s.power with aonRc := true } } : Chip) = t at hlost
  obtain ⟨sites, h⟩ := Chip.packageShutdown_written (s := (t.raise 0x4C06 []).raise 0xCC02 []) (by rw [← ht]; exact hlive)
    (ShutdownCause.plain 5)
  have hnext : t.log.next = s.log.next := by rw [← ht]
  rw [hlost, h]
  refine ⟨rfl, ?_, ?_, rfl, ?_, ?_, ?_⟩
  · rw [Chip.number_aonSource, ← ht]
    rfl
  · rw [← ht]
    exact hawake
  · rw [← ht]
    rfl
  · rw [← hnext]
    refine (congrArg LogEntry.code ?_).trans (Chip.raise_code t 0x4C06 [])
    exact (Chip.raise_ring_other _ _ _ (succ_succ_mod_log_ne _)).trans (Chip.raise_ring_other _ _ _ (succ_mod_log_ne _))
  · rw [← hnext]
    exact (congrArg LogEntry.code (Chip.raise_ring_other _ _ _ (succ_mod_log_ne _))).trans
      (Chip.raise_code (t.raise 0x4C06 []) 0xCC02 [])

theorem gives_bothMasters_lost (s : State) (hlive : s.live = true) : s.gives (.ditchriderUnitLoss .bothMasters) fun c =>
    c.power.shutdown = some 6 ∧ c.power.recSeq = s.power.recSeq ∧ c.mem = [] := by
  refine State.gives_awake (f := fun c => c.unitLoss .bothMasters) rfl (Chip.awake_of_live _ hlive) ?_
  obtain ⟨sites, h⟩ := Chip.packageShutdown_unwritten (s := (s.toChip.unitGone 0).unitGone 7) hlive (ShutdownCause.plain 6)
  rw [Chip.unitLoss, h]
  exact ⟨rfl, rfl, rfl⟩

theorem gives_standby_lost (s : State) (hlive : s.live = true) (hmaster : s.power.master = 0)
    (hok : s.power.standbyOk = true) : s.gives (.ditchriderUnitLoss .standby) fun c =>
    c.power.standbyOk = false ∧ c.power.shutdown = s.power.shutdown ∧ c.log.seq = s.log.seq + 1 ∧ c.mem = s.mem := by
  refine State.gives_awake (f := fun c => c.unitLoss .standby) rfl (Chip.awake_of_live _ hlive) ?_
  simp only [Chip.unitLoss, hmaster, hok, BEq.rfl, Bool.and_self, Chip.when_true]
  simp [Chip.unitGone, Chip.setSite]

theorem gives_worker_lost (s : State) (i : Fin 8) (hlive : s.live = true) (h0 : i ≠ 0) (h7 : i ≠ 7) :
    s.gives (.ditchriderUnitLoss (.worker i)) fun c =>
    c.power.shutdown = some 6 ∧ c.pins.shutdownHigh = false ∧ c.power.recSeq = s.power.recSeq + 1 ∧ c.mem = [] := by
  refine State.gives_awake (f := fun c => c.unitLoss (.worker i)) rfl (Chip.awake_of_live _ hlive) ?_
  have hworker : (i.val != 0 && i.val != 7) = true := by
    simp only [Bool.and_eq_true, bne_iff_ne]
    omega
  obtain ⟨sites, h⟩ := Chip.packageShutdown_written (s := s.toChip.unitGone i.val) hlive (ShutdownCause.plain 6)
  rw [Chip.unitLoss, hworker, Chip.when_true, h]
  exact ⟨rfl, rfl, rfl, rfl⟩

theorem gives_vaonLoss (s : State) (hv : s.pins.vaon = true) : s.gives .vaonLoss fun c =>
    c.pins.vaon = false ∧ c.pins.shutdownHigh = false ∧ c.pins.alertLow = false ∧ c.awake = false ∧ c.power.shutdown = none ∧
    c.power.master = 0 ∧ c.mgmt.coldBoot = true ∧ c.mem = [] ∧ c.power.ring = s.power.ring ∧
    c.mgmt.claimed = s.mgmt.claimed := by
  refine State.gives_always (f := Chip.vaonLoss) rfl ?_
  rw [Chip.vaonLoss, hv, Chip.when_true, s.toChip.resetAll_eq]
  exact ⟨rfl, rfl, rfl, rfl, rfl, rfl, rfl, rfl, rfl, rfl⟩

/-- RE_ARM of a cool chip that is held in reset ends the shutdown; the boot waits for RESET_N (R429). -/
theorem gives_reArm_ends (s : State) (hawake : s.awake = true) (hs : s.power.shutdown.isSome = true)
    (hcool : s.coolEnough = true) (hlow : s.pins.resetLow = true) : s.gives (.reArm true) fun c =>
    c.power.shutdown = none ∧ c.pins.shutdownHigh = true ∧ c.mgmt.coldBoot = true ∧ c.awake = false ∧ c.mem = [] := by
  refine State.gives_awake (f := fun c => (c.rearm true).getD c) rfl hawake ?_
  have hpin : ({ s.toChip with power := { s.power with shutdown := none } } : Chip).resetAll.pins.resetLow = true := by
    rw [Chip.resetAll_pins]
    exact hlow
  simp only [Chip.rearm, hcool, hs, Bool.not_true, Bool.false_eq_true, if_false, if_true, Option.getD_some, hpin]
  rw [Chip.resetAll_eq]
  exact ⟨rfl, trivial, trivial, rfl, rfl⟩

/-- RE_ARM is refused while a sensor reads too hot (R429). -/
theorem gives_reArm_refused (s : State) (hcool : s.coolEnough = false) : s.gives (.reArm true) fun c => c = s.toChip := by
  refine State.gives_always (f := fun c => c.when c.awake fun c => (c.rearm true).getD c) rfl ?_
  have hrefused : s.toChip.rearm true = none := by simp [Chip.rearm, hcool]
  exact Chip.when_keeps _ id _ _ (by simp [hrefused])

/-- Settles O8: each cause leads to `packageShutdown`, whose record and loss of power `packageShutdown_written` states. -/
theorem supplyAndShutdown : Obligations.Supply_and_shutdown := by
  unfold Obligations.Supply_and_shutdown
  refine ⟨?_, ?_, gives_vaonLoss, ?_, gives_shutdownNow, gives_railOutOfRangeTimeout, gives_powerExcursionShutdown,
    gives_refclkLoss, gives_bothMasters_lost, gives_standby_lost, gives_worker_lost, gives_reArm_ends, gives_reArm_refused⟩
  · intro s hv
    refine State.gives_always (f := Chip.vaonUp) rfl ?_
    rw [Chip.vaonUp, hv, Bool.not_false, Chip.when_true]
  · intro s hv hsince hs
    refine State.gives_always (f := Chip.shutdownNRelease) rfl ?_
    simp [Chip.shutdownNRelease, hv, hsince, hs]
  · intro s hsince hs
    refine State.gives_always (f := Chip.alertRelease) rfl ?_
    simp [Chip.alertRelease, hsince, hs]

end Sys2Proof.Machine
end

section
/-! PROOF. A regulator phase that fails beside an overloaded domain (R21, R417): the statement `Power_limits` fails. -/

namespace Sys2Proof.Machine

/-- What a command gives holds of the chip it leads to. -/
theorem State.of_gives {s : State} {i : Instr} {P : Chip → Prop} {c : Chip} (h : s.gives i P)
    (he : exec i s = .next { s with toChip := c }) : P c := by
  obtain ⟨t, hnext, -, ht⟩ := h
  rw [he, Host.Outcome.next.injEq] at hnext
  rwa [← hnext] at ht

/-- A running chip whose site 0 has lost two phases of VDD_MEM, one of which last carried 1,000 A, and where no cause demands a
step. -/
def overloadedSite : State :=
  { State.reset with
    mgmt := { Mgmt.reset with stage := 6 }
    power := { Power.reset with
      sites := [(0, { Site.reset with phases := [0, 2, 0, 0] })]
      sensors := [(824, { Sensor.reset with samples := [1000] })] } }

/-- VDD_MEM is above its cap (R417), so that the failure of another domain's phase is where the cause is found to hold: the site
slows down, with event 0x4C02 behind 0x0106. -/
theorem overloadedSite_log : (overloadedSite.toChip.phaseFail 0 0).log.seq = 2 := by decide +kernel

/-- Refutes O9: the first failed phase of a domain slows its site where another domain is above its cap already. -/
theorem not_powerLimits : ¬ Obligations.Power_limits := by
  unfold Obligations.Power_limits
  rintro ⟨hfirst, -⟩
  have hchip := State.of_gives (c := overloadedSite.toChip.phaseFail 0 0) (hfirst overloadedSite 0 0 rfl rfl rfl) rfl
  exact absurd (overloadedSite_log.symm.trans (congrArg (fun c => c.log.seq) hchip)) (by decide)

end Sys2Proof.Machine
end

section
/-! PROOF. Sensor frames and the levels of temperature groups (R413, R421, R423): after its samples are taken, nothing of a frame
changes what the sensors have read; and the statement `Temperatures`. -/

namespace Sys2Proof.Machine

/-! ### What a frame does after its samples -/

section
variable (s : Chip)

theorem Chip.steady_of_gate {s t : Chip} (h : s.gate = t.gate) : s.steady = t.steady := congrArg Prod.fst h

theorem Chip.withSites_gate (sites : Tab Site) : (s.withSites sites).gate = s.gate := rfl

@[simp] theorem Chip.writeRecord_gate (scope : Nat) (c : ShutdownCause) : (s.writeRecord scope c).gate = s.gate :=
  s.gate_power rfl rfl rfl

theorem Chip.diesOff_steady : s.diesOff.steady = s.steady := rfl

theorem Chip.latch_steady (c : Nat) : ({ s with
    power := { s.power with shutdown := some c }, pins := { s.pins with shutdownHigh := false } } : Chip).steady = s.steady := rfl

theorem Chip.cutPower_steady (c : ShutdownCause) (w : Bool) : (s.cutPower c w).steady = s.steady := by
  have hrecord : (if w then s.writeRecord 0 c else s).steady = s.steady := by
    cases w
    · rfl
    · exact Chip.steady_of_gate (s.writeRecord_gate 0 c)
  exact (Chip.diesOff_steady _).trans ((Chip.latch_steady _ _).trans hrecord)

theorem Chip.packageShutdown_steady (c : ShutdownCause) : (s.packageShutdown c true).steady = s.steady := by
  cases h : s.live with
  | false => rw [Chip.packageShutdown_of_not_live h]
  | true =>
    obtain ⟨sites, hs⟩ := Chip.packageShutdown_written h c
    rw [hs, Chip.cutPower_steady, Chip.steady_of_gate (Chip.withSites_gate ..), Chip.steady_of_gate (Chip.raise_gate ..)]

theorem Chip.enginesDown_gate (v : BitVec 20) : ({ s with power := { s.power with enginesDown := v } } : Chip).gate = s.gate :=
  s.gate_power rfl rfl rfl

@[simp] theorem Chip.engineShutdown_gate (e : Nat) (c : ShutdownCause) : (s.engineShutdown e c).gate = s.gate := by
  refine s.when_keeps Chip.gate _ _ ?_
  have hfail : ∀ l : List Nat, (s.each l fun s p =>
      if (s.port p).state = .disabled then s else s.failPort p failThermal).gate = s.gate :=
    s.each_gate fun t p => by
      split
      · rfl
      · exact t.failPort_gate p failThermal
  dsimp only
  rw [Chip.writeRecord_gate, Chip.raise_gate]
  refine (Chip.enginesDown_gate (Chip.setEngine _ e _) _).trans ?_
  rw [Chip.setEngine_gate, hfail]

theorem Chip.checkShutdown_steady (g : Nat) : (s.checkShutdown g).steady = s.steady := by
  unfold Chip.checkShutdown
  dsimp only
  split
  · split
    · exact Chip.steady_of_gate (s.engineShutdown_gate ..)
    · split
      · exact Chip.steady_of_gate (s.engineShutdown_gate ..)
      · exact s.packageShutdown_steady _
  · rfl

theorem Chip.ownShutdown_steady (f : SensorFrame) (e : Nat) : (s.ownShutdown f e).steady = s.steady := by
  unfold Chip.ownShutdown
  dsimp only
  split
  · exact Chip.steady_of_gate (Chip.engineShutdown_gate ..)
  · rfl

@[simp] theorem Chip.stepDown_gate (i : Nat) : (s.stepDown i).gate = s.gate := by
  simp [Chip.stepDown, apply_ite Chip.gate]

@[simp] theorem Chip.stepUp_gate (i : Nat) : (s.stepUp i).gate = s.gate := by
  simp [Chip.stepUp, apply_ite Chip.gate]

@[simp] theorem Chip.endEpisode_gate (i : Nat) : (s.endEpisode i).gate = s.gate := by
  simp [Chip.endEpisode, apply_ite Chip.gate]

@[simp] theorem Chip.demand_gate (i k f : Nat) : (s.demand i k f).gate = s.gate := by
  unfold Chip.demand
  dsimp only
  rw [Chip.stepDown_gate, Chip.setSite_gate]
  split
  · rfl
  · exact (Chip.gate_power (Chip.raise _ _ _) rfl rfl rfl).trans (Chip.raise_gate ..)

@[simp] theorem Chip.stretch_gate (i : Nat) : (s.stretch i).gate = s.gate := rfl

@[simp] theorem Chip.setCause_gate (i k : Nat) (on : Bool) : (s.setCause i k on).gate = s.gate := by
  simp [Chip.setCause, Chip.causeStart, Chip.causeEnd, Chip.relax, apply_ite Chip.gate]

theorem Chip.stackAction_gate (g : Nat) : (s.stackAction g).gate = s.gate := by
  simp [Chip.stackAction]

theorem Chip.hbmAction_gate (g : Nat) : (s.hbmAction g).gate = s.gate := by
  refine s.each_keeps Chip.gate _ (fun t k => ?_) _
  exact t.gate_hbm _

theorem Chip.updateAction_gate (g : Nat) : (s.updateAction g).gate = s.gate := by
  unfold Chip.updateAction
  dsimp only
  split
  · exact Chip.stackAction_gate ..
  · split
    · simp
    · simp [apply_ite Chip.gate, Chip.hbmAction_gate]

theorem Chip.narrowPort_gate (p : Nat) : (s.narrowPort p).gate = s.gate := by
  unfold Chip.narrowPort
  dsimp only
  exact s.when_keeps Chip.gate _ _ ((Chip.startWidth_gate ..).trans (Chip.setPort_gate ..))

theorem Chip.darkenUnused_gate (e : Nat) : (s.darkenUnused e).gate = s.gate :=
  s.each_gate (fun t c => by simp [apply_ite Chip.gate]) _

theorem Chip.widenOne_gate (e : Nat) : (s.widenOne e).gate = s.gate := by
  have hlock : ∀ l, (s.each l fun s c => if s.laser e c = .cold then s.setLaser e c .locked else s).gate = s.gate :=
    s.each_gate fun t c => by simp [apply_ite Chip.gate]
  unfold Chip.widenOne
  dsimp only
  split
  case h_2 => rfl
  case h_1 p _ =>
    refine s.when_keeps Chip.gate _ _ ?_
    have hwide : ∀ (t : Chip) (f : Port → Port) (v : Tab Nat), t.gate = s.gate →
        ({ t.setPort p f with power := { (t.setPort p f).power with widenedAt := v } } : Chip).gate = s.gate :=
      fun t f v h => ((t.setPort p f).gate_power rfl rfl rfl).trans h
    split
    · exact (Chip.startWidth_gate ..).trans (hwide _ _ _ (hlock _))
    · exact hwide _ _ _ (hlock _)

theorem Chip.engineAction_gate (e : Nat) : (s.engineAction e).gate = s.gate := by
  unfold Chip.engineAction
  split
  · simp [Chip.darkenUnused_gate, Chip.narrowPort_gate]
  · simp [Chip.widenOne_gate]

end

/-- A frame's samples: the readings of the dies are used up by them. -/
def Chip.sampled (s : Chip) (f : SensorFrame) : Chip :=
  let t := s.each (s.frameSensors f) (Chip.takeSample s f)
  { t with power := { t.power with telemetry := [] } }

/-- What the groups make of the samples: their levels, the outlet's, and the shutdowns. -/
def Chip.judged (s : Chip) (f : SensorFrame) : Chip :=
  (((s.each (List.range 61) Chip.updateLevels).checkOutlet).each (List.range 61) Chip.checkShutdown).each (List.range 20)
    (Chip.ownShutdown f)

/-- The groups' actions. -/
def Chip.acted (s : Chip) : Chip := (s.each (List.range 61) Chip.updateAction).each (List.range 20) Chip.engineAction

theorem Chip.sensorFrame_eq (s : Chip) (f : SensorFrame) :
    s.sensorFrame f = ((s.sampled f).judged f).when ((s.sampled f).judged f).live Chip.acted := rfl

theorem Chip.judged_steady (s : Chip) (f : SensorFrame) : (s.judged f).steady = s.steady := by
  have hlevels : ((s.each (List.range 61) Chip.updateLevels).checkOutlet).gate = s.gate := by simp
  calc (s.judged f).steady
      = (((s.each (List.range 61) Chip.updateLevels).checkOutlet).each (List.range 61) Chip.checkShutdown).steady :=
        Chip.each_keeps _ Chip.steady _ (fun u e => u.ownShutdown_steady f e) _
    _ = ((s.each (List.range 61) Chip.updateLevels).checkOutlet).steady :=
        Chip.each_keeps _ Chip.steady _ Chip.checkShutdown_steady _
    _ = s.steady := Chip.steady_of_gate hlevels

theorem Chip.acted_gate (s : Chip) : s.acted.gate = s.gate :=
  (Chip.each_gate _ Chip.engineAction_gate _).trans (s.each_gate Chip.updateAction_gate _)

theorem Chip.sensorFrame_steady (s : Chip) (f : SensorFrame) : (s.sensorFrame f).steady = (s.sampled f).steady := by
  rw [s.sensorFrame_eq f, Chip.when_keeps _ Chip.steady _ _ (Chip.steady_of_gate (Chip.acted_gate _)), Chip.judged_steady]

/-! ### The samples -/

section
variable (old s : Chip) (f : SensorFrame) (n : Nat)

/-- What a sensor becomes by a frame's sample (R413). -/
def Chip.sensorAfter : Sensor :=
  match groupOf n with
  | some g => (s.sensor n).take n (s.groupRat O.rateLimit g) (s.obju O.rateWindow g) (old.peers f n) (old.sampleOf f n)
  | none => (s.sensor n).take n 0 0 (old.peers f n) (old.sampleOf f n)

theorem Chip.takeSample_sensors : (Chip.takeSample old f s n).power.sensors =
    Tab.set Sensor.reset s.power.sensors n (Chip.sensorAfter old s f n) := by
  unfold Chip.takeSample Chip.sensorAfter
  rw [apply_ite Chip.power, Chip.raise_power, ite_self]
  cases groupOf n <;> rfl

theorem Chip.takeSample_now : (Chip.takeSample old f s n).now = s.now := by
  unfold Chip.takeSample
  rw [apply_ite Chip.now, Chip.raise_now, ite_self]

theorem Chip.takeSample_part : (Chip.takeSample old f s n).part = s.part := by
  unfold Chip.takeSample
  rw [apply_ite Chip.part, Chip.raise_part, ite_self]

theorem Chip.takeSample_obj (k : Nat) : (Chip.takeSample old f s n).obj k = s.obj k := by
  unfold Chip.takeSample
  rw [apply_ite (fun c : Chip => c.obj k), Chip.raise_obj, ite_self]
  rfl

theorem Chip.takeSample_sensor_same : (Chip.takeSample old f s n).sensor n = Chip.sensorAfter old s f n := by
  rw [Chip.sensor, Chip.takeSample_sensors, Tab.get_set_same]

variable {n} {m : Nat}

theorem Chip.takeSample_sensor_ne (h : m ≠ n) : (Chip.takeSample old f s n).sensor m = s.sensor m := by
  rw [Chip.sensor, Chip.takeSample_sensors, Tab.get_set_ne _ _ _ _ _ h]
  rfl

theorem Chip.sensorAfter_takeSample (h : m ≠ n) :
    Chip.sensorAfter old (Chip.takeSample old f s n) f m = Chip.sensorAfter old s f m := by
  simp only [Chip.sensorAfter, Chip.takeSample_sensor_ne old s f h, Chip.groupRat, Chip.objRat, Chip.obju,
    Chip.takeSample_obj]

end

theorem Chip.sampled_sensor_other (old : Chip) (f : SensorFrame) {l : List Nat} {n : Nat} (s : Chip) (h : n ∉ l) :
    (s.each l (Chip.takeSample old f)).sensor n = s.sensor n := by
  induction l generalizing s with
  | nil => rfl
  | cons m r ih =>
    obtain ⟨hne, hr⟩ := List.ne_and_not_mem_of_not_mem_cons h
    exact (ih _ hr).trans (Chip.takeSample_sensor_ne old s f hne)

theorem Chip.sampled_sensor_mem (old : Chip) (f : SensorFrame) {l : List Nat} {n : Nat} (s : Chip) (hl : l.Nodup) (h : n ∈ l) :
    (s.each l (Chip.takeSample old f)).sensor n = Chip.sensorAfter old s f n := by
  induction l generalizing s with
  | nil => cases h
  | cons m r ih =>
    obtain ⟨hm, hr⟩ := List.nodup_cons.mp hl
    rcases List.mem_cons.mp h with rfl | hmem
    · exact (Chip.sampled_sensor_other old f _ hm).trans (Chip.takeSample_sensor_same old s f n)
    · have hne : n ≠ m := fun he => hm (he ▸ hmem)
      exact (ih _ hr hmem).trans (Chip.sensorAfter_takeSample old s f hne)

theorem gives_sensorFrame (s : State) (f : SensorFrame) (hawake : s.awake = true) (hnodup : (s.frameSensors f).Nodup) :
    s.gives (.sensorFrame f) fun c =>
    c.power.telemetry = [] ∧ c.now = s.now ∧ c.part = s.part ∧ (∀ n, n ∉ s.frameSensors f → c.sensor n = s.sensor n) ∧
    (∀ n g, n ∈ s.frameSensors f → groupOf n = some g → c.sensor n =
      (s.sensor n).take n (s.groupRat O.rateLimit g) (s.obju O.rateWindow g) (s.peers f n) (s.sampleOf f n)) ∧
    (∀ n, n ∈ s.frameSensors f → groupOf n = none →
      c.sensor n = (s.sensor n).take n 0 0 (s.peers f n) (s.sampleOf f n)) := by
  refine State.gives_awake (f := fun c => c.sensorFrame f) rfl hawake ?_
  have hsteady := s.toChip.sensorFrame_steady f
  have hsensor : ∀ n, (s.toChip.sensorFrame f).sensor n =
      (s.toChip.each (s.frameSensors f) (Chip.takeSample s.toChip f)).sensor n := fun n =>
    congrArg (fun v : Part × Nat × Nat × Tab Sensor × List (Nat × Rat) => Tab.get Sensor.reset v.2.2.2.1 n) hsteady
  have hnow : ∀ l, (s.toChip.each l (Chip.takeSample s.toChip f)).now = s.now := fun l =>
    Chip.each_keeps _ Chip.now _ (fun t n => Chip.takeSample_now s.toChip t f n) l
  have hpart : ∀ l, (s.toChip.each l (Chip.takeSample s.toChip f)).part = s.part := fun l =>
    Chip.each_keeps _ Chip.part _ (fun t n => Chip.takeSample_part s.toChip t f n) l
  refine ⟨congrArg (fun v => v.2.2.2.2) hsteady, (congrArg (fun v => v.2.1) hsteady).trans (hnow _),
    (congrArg (fun v => v.1) hsteady).trans (hpart _), ?_, ?_, ?_⟩
  · exact fun n hn => (hsensor n).trans (Chip.sampled_sensor_other _ f _ hn)
  · intro n g hn hg
    rw [hsensor, Chip.sampled_sensor_mem _ f _ hnodup hn, Chip.sensorAfter, hg]
  · intro n hn hg
    rw [hsensor, Chip.sampled_sensor_mem _ f _ hnodup hn, Chip.sensorAfter, hg]

/-! ### Written levels -/

section
variable (s : Chip) (g bits : Nat)

theorem Chip.groupRat_setObj_same (k v : Nat) : (s.setObj (k + 256 * g) v).groupRat k g = (f32ToRat v).getD 0 := by
  simp only [Chip.groupRat, Chip.objRat, Chip.setObj_same]

theorem Chip.groupRat_setObj_other {k j : Nat} (h : j ≠ k) (v : Nat) :
    (s.setObj (k + 256 * g) v).groupRat j g = s.groupRat j g := by
  simp only [Chip.groupRat, Chip.objRat, Chip.setObj_other s _ _ _ (show j + 256 * g ≠ k + 256 * g by omega)]

variable {bits} {v : Rat} (hv : f32ToRat bits = some v)

include hv

theorem Chip.levelWrite_warning : s.levelWrite g .warning bits =
    if v < s.groupRat O.thermThrottle g ∧ s.groupRat O.thermThrottle g < s.groupRat O.thermShutdown g
    then some (s.setObj (O.thermWarn + 256 * g) bits) else none := by
  have hthrottle : O.thermThrottle ≠ O.thermWarn := by decide
  have hshut : O.thermShutdown ≠ O.thermWarn := by decide
  simp [Chip.levelWrite, hv, levelKey, Chip.groupRat_setObj_same, Chip.groupRat_setObj_other _ _ hthrottle,
    Chip.groupRat_setObj_other _ _ hshut]

theorem Chip.levelWrite_throttle : s.levelWrite g .throttle bits =
    if s.groupRat O.thermWarn g < v ∧ v < s.groupRat O.thermShutdown g
    then some (s.setObj (O.thermThrottle + 256 * g) bits) else none := by
  have hwarn : O.thermWarn ≠ O.thermThrottle := by decide
  have hshut : O.thermShutdown ≠ O.thermThrottle := by decide
  simp [Chip.levelWrite, hv, levelKey, Chip.groupRat_setObj_same, Chip.groupRat_setObj_other _ _ hwarn,
    Chip.groupRat_setObj_other _ _ hshut]

theorem Chip.levelWrite_shutdown : s.levelWrite g .shutdown bits =
    if (f32ToRat (objDefault s.part (O.thermShutdown + 256 * g))).getD 0 < v then none
    else if s.groupRat O.thermWarn g < s.groupRat O.thermThrottle g ∧ s.groupRat O.thermThrottle g < v
    then some (s.setObj (O.thermShutdown + 256 * g) bits) else none := by
  have hwarn : O.thermWarn ≠ O.thermShutdown := by decide
  have hthrottle : O.thermThrottle ≠ O.thermShutdown := by decide
  simp [Chip.levelWrite, hv, levelKey, Chip.groupRat_setObj_same, Chip.groupRat_setObj_other _ _ hwarn,
    Chip.groupRat_setObj_other _ _ hthrottle]

end

/-- A level is written where `levelWrite` takes it, and nothing changes where it does not. -/
theorem gives_thermalLevelWrite {s : State} (hawake : s.awake = true) (g : Fin 61) (k : ThermLevel) (x : Word32) {r : Option Chip}
    (h : s.levelWrite g.val k x.toNat = r) : s.gives (.thermalLevelWrite g k x) fun c => c = r.getD s.toChip :=
  State.gives_awake (f := fun c => (c.levelWrite g.val k x.toNat).getD c) rfl hawake (by rw [h])

/-- Settles O10: a frame keeps the samples it takes, and a level is taken exactly where the order of levels holds. -/
theorem temperatures : Obligations.Temperatures := by
  unfold Obligations.Temperatures
  refine ⟨gives_sensorFrame, ?_, ?_, ?_, ?_, ?_⟩
  · intro s g x v hawake hv hlow hhigh
    exact gives_thermalLevelWrite hawake g .warning x ((s.levelWrite_warning g.val hv).trans (if_pos ⟨hlow, hhigh⟩))
  · intro s g x v hawake hv hlow hhigh
    exact gives_thermalLevelWrite hawake g .throttle x ((s.levelWrite_throttle g.val hv).trans (if_pos ⟨hlow, hhigh⟩))
  · intro s g x v w hawake hv hw hle hwarn hthrottle
    refine gives_thermalLevelWrite (r := some (s.setObj _ _)) hawake g .shutdown x
      ((s.levelWrite_shutdown g.val hv).trans ?_)
    rw [hw, if_neg (by simpa using hle), if_pos ⟨hwarn, hthrottle⟩]
  · intro s g k x v hawake hv hbad
    refine gives_thermalLevelWrite hawake g k x (r := none) ?_
    rcases hbad with ⟨rfl, h⟩ | ⟨rfl, h⟩ | ⟨rfl, h⟩ | ⟨rfl, w, hw, h⟩
    · rw [s.levelWrite_warning g.val hv, if_neg (fun hc => h hc.1)]
    · rw [s.levelWrite_throttle g.val hv, if_neg (fun hc => h.elim (fun hn => hn hc.1) (fun hn => hn hc.2))]
    · rw [s.levelWrite_shutdown g.val hv]
      split
      · rfl
      · exact if_neg fun hc => h hc.2
    · rw [s.levelWrite_shutdown g.val hv, hw, if_pos (by simpa using h)]
  · intro s g k x hawake hnone
    exact gives_thermalLevelWrite hawake g k x (r := none) (by simp [Chip.levelWrite, hnone])

end Sys2Proof.Machine
end

section
/-! PROOF. The Ditchrider's heartbeat, takeover and compensation (R410, R411, R430), and Fallow (R431–R433). -/

namespace Sys2Proof.Machine

theorem Tab.get_modify_same {α : Type} [DecidableEq α] (d : α) (t : Tab α) (k : Nat) (f : α → α) :
    Tab.get d (Tab.modify d t k f) k = f (Tab.get d t k) := Tab.get_set_same ..

theorem gives_standbyTakeover (s : State) (hawake : s.awake = true) (hmaster : s.power.master = 0)
    (hok : s.power.standbyOk = true) : s.gives .standbyTakeover fun c =>
    c.power.master = 7 ∧ c.power.standbyOk = false ∧ c.mgmt.sessions = [] ∧ c.log.seq = s.log.seq + 1 ∧ c.mem = s.mem ∧
    c.queues = s.queues := by
  refine State.gives_awake (f := Chip.takeover) rfl hawake ?_
  rw [Chip.takeover, hmaster, hok, BEq.rfl, Bool.and_self, Chip.when_true]
  exact ⟨rfl, rfl, rfl, rfl, rfl, rfl⟩

/-- A unit that may enter Fallow does, and its site counts the entry (R431). -/
theorem Chip.fallowEntry_counts {s : Chip} {u : FallowUnit} {i : Nat} (hon : s.objb O.fallowEnable = true)
    (hout : s.inFallow u = false) (hmay : s.mayFallow u = true) (hsite : fallowSite u = some i) :
    s.fallowEntry u = (s.setFallow u true).bump (O.fallowEntries + 256 * i) 1 := by
  rw [Chip.fallowEntry, hon, hout, hmay]
  simp only [Bool.not_false, Bool.and_self, Chip.when_true, hsite]

theorem gives_fallowEntry {s : State} {u : FallowUnit} {i : Nat} (hlive : s.live = true) (hon : s.objb O.fallowEnable = true)
    (hout : s.inFallow u = false) (hmay : s.mayFallow u = true) (hsite : fallowSite u = some i) :
    s.gives (.fallowEntry u) fun c => c = (s.toChip.setFallow u true).bump (O.fallowEntries + 256 * i) 1 :=
  State.gives_live (f := fun c => c.fallowEntry u) rfl hlive (Chip.fallowEntry_counts hon hout hmay hsite)

/-- Settles O11: each clause is the command's rule under its guard. -/
theorem ditchriderAndFallow : Obligations.Ditchrider_and_fallow := by
  unfold Obligations.Ditchrider_and_fallow
  refine ⟨?_, gives_standbyTakeover, ?_, ?_, ?_, ?_, ?_⟩
  · intro s hawake hpresent
    refine State.gives_awake (f := fun c => c.when (c.site c.power.master).unitPresent fun c => c.emit .heartbeat) rfl hawake ?_
    rw [hpresent, Chip.when_true]
  · intro s i t hawake ht
    refine State.gives_awake rfl hawake ?_
    simp only [ht]
  · intro s i hlive hon hout hidle
    exact gives_fallowEntry hlive hon hout hidle rfl
  · intro s k hlive hon hout hwaits
    exact gives_fallowEntry hlive hon hout hwaits rfl
  · intro s i hlive
    exact State.gives_live (f := fun c => c.setFallow (.commandProcessor i) false) rfl hlive rfl
  · intro s t hlive ht hfallow
    refine State.gives_live (f := fun c => c.selfRefresh t.val) rfl hlive ?_
    rw [Chip.selfRefresh, if_pos ht, hfallow, Chip.when_true]
    refine ⟨?_, rfl, rfl⟩
    exact congrArg Stack.selfRefresh (Tab.get_modify_same Stack.reset s.hbm.hbmStacks t.val fun x => { x with selfRefresh := true })

end Sys2Proof.Machine
end

section
/-! PROOF. Die-to-die links: bring-up and its failures, swaps of modules, lanes that are due (R36–R44). -/

namespace Sys2Proof.Machine

theorem Chip.when_pos {s : Chip} {b : Bool} {f : Chip → Chip} (h : b = true) : s.when b f = f s := if_pos h

/-! ### What touches one link alone -/

section
variable (s : Chip)

theorem Chip.setLink_other (l j : Nat) (f : Link → Link) (h : j ≠ l) : (s.setLink l f).link j = s.link j := by
  simp only [Chip.setLink, Chip.link, Tab.get_set_ne _ _ _ _ _ h]

@[simp] theorem Chip.emit_link (o : Output) (j : Nat) : (s.emit o).link j = s.link j := rfl
@[simp] theorem Chip.raise_link (code : Nat) (args : List Arg) (j : Nat) : (s.raise code args).link j = s.link j := rfl

end

/-- Of a chip only link l, and what goes out, may differ. -/
def Chip.changesLink (s : Chip) (l : Nat) (c : Chip) : Prop :=
  (∀ j, j ≠ l → c.link j = s.link j) ∧ c = { s with links := c.links, out := c.out }

section
variable {s c : Chip} {l : Nat}

theorem Chip.changesLink.setLink (h : s.changesLink l c) (f : Link → Link) : s.changesLink l (c.setLink l f) := by
  obtain ⟨hother, hrest⟩ := h
  refine ⟨fun j hj => (Chip.setLink_other c l j f hj).trans (hother j hj), ?_⟩
  rw [hrest]
  rfl

theorem Chip.changesLink.emit (h : s.changesLink l c) (o : Output) : s.changesLink l (c.emit o) := by
  obtain ⟨hother, hrest⟩ := h
  refine ⟨hother, ?_⟩
  rw [hrest]
  rfl

theorem Chip.changesLink_self (s : Chip) (l : Nat) : s.changesLink l s := ⟨fun _ _ => rfl, rfl⟩

/-- Where nothing goes out, only the table of links differs. -/
theorem Chip.changesLink.quiet (h : s.changesLink l c) (hout : c.out = s.out) : c = { s with links := c.links } := by
  obtain ⟨-, hrest⟩ := h
  rw [hout] at hrest
  exact hrest

end

/-! ### Bring-up -/

section
variable {s : Chip} {l : Nat}

/-- A link that is Down or Training trains (R36). -/
theorem Chip.beginTraining_link (h : (s.link l).state = .down ∨ (s.link l).state = .training) :
    (s.beginTraining l).link l = { s.link l with state := .training } := by
  unfold Chip.beginTraining
  rcases h with h | h
  · rw [h, BEq.rfl, Chip.when_true, Chip.setLink_same]
  · rw [h, show ((LinkState.training == LinkState.down) = false) from rfl, Chip.when_false, ← h]

theorem Chip.beginTraining_changesLink (s : Chip) (l : Nat) : s.changesLink l (s.beginTraining l) :=
  Chip.when_of (s.changesLink l) (s.changesLink_self l) ((s.changesLink_self l).setLink _)

theorem Chip.beginTraining_out (s : Chip) (l : Nat) : (s.beginTraining l).out = s.out := s.when_keeps Chip.out _ _ rfl

theorem Chip.localDesc_of_link {t : Chip} (ho : (t.link l).offered = (s.link l).offered)
    (hs : (t.link l).sparesLeft = (s.link l).sparesLeft) : t.localDesc l = s.localDesc l := by
  simp only [Chip.localDesc, ho, hs]

/-- The adapter is Active on a link that trains: the link takes what training reached, and goes on (R36, R38). -/
theorem Chip.adapterActive_eq {m : Nat} {r : Byte} (h : (s.link l).state = .down ∨ (s.link l).state = .training)
    (htrain : trainable l m r = true) : s.adapterActive l m r =
      let t := (s.beginTraining l).setLink l fun x => { x with trainedModules := m, trainedRate := r }
      if (t.link l).agreed then
        (if (t.link l).trainedAsSettled then t.setLink l fun x => { x with state := .exchange } else t)
      else (t.setLink l fun x => { x with state := .exchange }).sendDescriptor l := by
  unfold Chip.adapterActive
  dsimp only
  rw [Chip.beginTraining_link h, htrain]
  rfl

end

/-- The number of a new unit goes by the other links (R26). -/
theorem Chip.newUnit_setLink (s : Chip) (l : Nat) (f : Link → Link) (peer : List Byte) :
    (s.setLink l f).newUnit l peer = s.newUnit l peer := by
  have hunit : ∀ (u : Byte) (k : Nat), (k != l && ((s.setLink l f).link k).unit == some u) =
      (k != l && (s.link k).unit == some u) := by
    intro u k
    by_cases hk : k = l
    · simp [hk]
    · rw [Chip.setLink_other s l k f hk]
  simp only [Chip.newUnit, hunit]

theorem trainable_of {l m : Nat} {r : Byte} (h1 : 1 ≤ m) (hm : m ≤ (Link.modulesOf l).1) (hr : r.toNat ≤ 5) :
    trainable l m r = true := by
  simp [trainable, h1, hm, hr]

theorem gives_gdpAdapterActive_exchange (s : State) (l : Fin 34) (m : Nat) (r : Byte) (hlive : s.live = true)
    (hstate : (s.link l.val).state = .down ∨ (s.link l.val).state = .training) (hagreed : (s.link l.val).agreed = false)
    (h1 : 1 ≤ m) (hm : m ≤ (Link.modulesOf l.val).1) (hr : r.toNat ≤ 5) : s.gives (.gdpAdapterActive l m r) fun c =>
    (c.link l.val).state = .exchange ∧ (c.link l.val).trainedModules = m ∧ (c.link l.val).trainedRate = r ∧
    c.out = .linkCtrl l.val (.descriptor (s.localDesc l.val)) :: s.out ∧
    (∀ j, j ≠ l.val → c.link j = s.link j) ∧ c = { s.toChip with links := c.links, out := c.out } := by
  refine State.gives_live (f := fun c => c.adapterActive l.val m r) rfl hlive ?_
  rw [Chip.adapterActive_eq hstate (trainable_of h1 hm hr)]
  have hframe := (((s.toChip.beginTraining_changesLink l.val).setLink
    (fun x => { x with trainedModules := m, trainedRate := r })).setLink (fun x => { x with state := .exchange }))
  simp only [Chip.setLink_same, Chip.beginTraining_link hstate, hagreed, Bool.false_eq_true, if_false, Chip.sendDescriptor]
  refine ⟨by simp, by simp [Chip.beginTraining_link hstate], by simp [Chip.beginTraining_link hstate], ?_, (hframe.emit _).1,
    (hframe.emit _).2⟩
  rw [Chip.localDesc_of_link (s := s.toChip) (by simp [Chip.beginTraining_link hstate])
    (by simp [Chip.beginTraining_link hstate])]
  exact congrArg _ (s.toChip.beginTraining_out l.val)

theorem gives_gdpDescriptorReceived_settles (s : State) (l : Fin 34) (d : List Byte) (v : Settle) (hlive : s.live = true)
    (hstate : (s.link l.val).state = .exchange) (hvalid : descValid (fit 256 d) = true)
    (hsettle : settlement l.val (s.localDesc l.val) (fit 256 d) = .settled v) :
    s.gives (.gdpDescriptorReceived l d) fun c =>
    c.link l.val = { s.link l.val with
      peerDesc := fit 256 d, settled := some v, agreed := false, unit := s.newUnit l.val (fit 256 d) } ∧
    c.out = .linkCtrl l.val (.settle v) :: s.out ∧
    (∀ j, j ≠ l.val → c.link j = s.link j) ∧ c = { s.toChip with links := c.links, out := c.out } := by
  refine State.gives_live (f := fun c => c.takeDescriptor l.val d) rfl hlive ?_
  have hframe : ∀ f g o, s.toChip.changesLink l.val (((s.toChip.setLink l.val f).setLink l.val g).emit o) := fun f g o =>
    (((s.toChip.changesLink_self l.val).setLink f).setLink g).emit o
  have hunit : (s.toChip.setLink l.val fun x => { x with peerDesc := fit 256 d }).newUnit l.val (fit 256 d) =
      s.newUnit l.val (fit 256 d) := Chip.newUnit_setLink ..
  unfold Chip.takeDescriptor
  rw [hstate, BEq.rfl, Chip.when_true]
  simp only [hvalid, Bool.not_true, Bool.false_eq_true, if_false, hsettle, hunit]
  exact ⟨by simp, rfl, (hframe _ _ _).1, (hframe _ _ _).2⟩

theorem gives_gdpSettleReceived_agrees (s : State) (l : Fin 34) (v : Settle) (hlive : s.live = true)
    (hstate : (s.link l.val).state = .exchange) (hsettled : (s.link l.val).settled = some v) :
    s.gives (.gdpSettleReceived l v) fun c => c = s.toChip.setLink l.val fun x => { x with
        agreed := true
        state := if x.trainedModules = v.modules.toNat ∧ x.trainedRate = v.rate then .exchange else .training } := by
  refine State.gives_live (f := fun c => c.takeSettle l.val v) rfl hlive ?_
  have hval : ∀ f g : Link → Link, f (s.link l.val) = g (s.link l.val) → s.toChip.setLink l.val f = s.toChip.setLink l.val g :=
    fun f g h => by simp only [Chip.setLink, h]
  simp only [Chip.takeSettle, hstate, hsettled, if_true]
  refine hval _ _ ?_
  simp [Link.trainedAsSettled, hsettled]

theorem gives_gdpAdapterActive_retrained (s : State) (l : Fin 34) (v : Settle) (hlive : s.live = true)
    (hstate : (s.link l.val).state = .training) (hsettled : (s.link l.val).settled = some v)
    (hagreed : (s.link l.val).agreed = true) (h1 : 1 ≤ v.modules.toNat) (hm : v.modules.toNat ≤ (Link.modulesOf l.val).1)
    (hr : v.rate.toNat ≤ 5) : s.gives (.gdpAdapterActive l v.modules.toNat v.rate) fun c =>
    (c.link l.val).state = .exchange ∧ (c.link l.val).agreed = true ∧ (∀ j, j ≠ l.val → c.link j = s.link j) ∧
    c = { s.toChip with links := c.links } := by
  refine State.gives_live (f := fun c => c.adapterActive l.val v.modules.toNat v.rate) rfl hlive ?_
  rw [Chip.adapterActive_eq (.inr hstate) (trainable_of h1 hm hr)]
  have hframe := (((s.toChip.beginTraining_changesLink l.val).setLink
    (fun x => { x with trainedModules := v.modules.toNat, trainedRate := v.rate })).setLink (fun x => { x with state := .exchange }))
  have hout := s.toChip.beginTraining_out l.val
  simp only [Chip.setLink_same, Chip.beginTraining_link (.inr hstate), hagreed, if_true, Link.trainedAsSettled, hsettled,
    BEq.rfl, Bool.and_self]
  exact ⟨trivial, trivial, hframe.1, hframe.quiet hout⟩

theorem gives_gdpLinkActive (s : State) (l : Fin 34) (v : Settle) (hlive : s.live = true)
    (hstate : (s.link l.val).state = .exchange) (hsettled : (s.link l.val).settled = some v)
    (hagreed : (s.link l.val).agreed = true) (hm : (s.link l.val).trainedModules = v.modules.toNat)
    (hr : (s.link l.val).trainedRate = v.rate) (hwait : (s.link l.val).waiting = []) : s.gives (.gdpLinkActive l) fun c =>
    (c.link l.val).state = (if v.modules.toNat < (s.link l.val).firstOffer then .degraded else .active) ∧
    (c.link l.val).lanesDue = [] ∧ (c.link l.val).laneRepairs = (s.link l.val).laneRepairs + (s.link l.val).lanesDue.length ∧
    (c.link l.val).modules = v.modules.toNat ∧ (c.link l.val).rate = v.rate ∧
    (c.link l.val).credits = (List.range 4).map (fun k => leNat (slice (s.link l.val).peerDesc (32 + 2 * k) 2)) ∧
    (∀ j, j ≠ l.val → c.link j = s.link j) ∧ c = { s.toChip with links := c.links } := by
  refine State.gives_live (f := fun c => c.linkActive l.val) rfl hlive ?_
  have hframe : ∀ f, s.toChip.changesLink l.val (s.toChip.setLink l.val f) := (s.toChip.changesLink_self l.val).setLink
  have htrained : (s.link l.val).trainedAsSettled = true := by simp [Link.trainedAsSettled, hsettled, hm, hr]
  simp only [Chip.linkActive, hsettled, hstate, hagreed, htrained, BEq.rfl, Bool.and_self, Chip.when_true, hwait, Chip.each,
    List.foldl_nil, Chip.setLink_same]
  exact ⟨rfl, trivial, trivial, trivial, trivial, rfl, (hframe _).1, (hframe _).quiet rfl⟩

/-- A link that carried traffic carries nothing any more (R40). -/
theorem gives_gdpLinkLost (s : State) (l : Fin 34) (hlive : s.live = true) (hstate : (s.link l.val).state = .active) :
    s.gives (.gdpLinkLost l) fun c =>
    (c.link l.val).state = .down ∧ (c.link l.val).modules = 0 ∧ (c.link l.val).rate = 0 ∧ (c.link l.val).peerDesc = [] ∧
    (c.link l.val).settled = none ∧ (∀ j, j ≠ l.val → c.link j = s.link j) ∧ c = { s.toChip with links := c.links } := by
  refine State.gives_live (f := fun c => c.linkLost l.val) rfl hlive ?_
  have hframe : ∀ f, s.toChip.changesLink l.val (s.toChip.setLink l.val f) := (s.toChip.changesLink_self l.val).setLink
  rw [Chip.linkLost, hstate, show LinkState.active.carries = true from rfl, Chip.when_true, Chip.linkDrop]
  refine ⟨?_, ?_, ?_, ?_, ?_, (hframe _).1, (hframe _).quiet rfl⟩ <;> rw [Chip.setLink_same]

/-! ### Bring-up that fails -/

/-- A third attempt in vain leaves a link between dies Failed (R39). -/
theorem gives_gdpBringupTimeout_fails (s : State) (l : Fin 34) (hlive : s.live = true) (hl : l.val < 10)
    (hstate : (s.link l.val).state = .training) (hattempts : (s.link l.val).attempts = 2) :
    s.gives (.gdpBringupTimeout l false) fun c =>
    (c.link l.val).state = .failed ∧ (c.link l.val).attempts = 3 ∧ c.log.seq = s.log.seq + 1 ∧
    (c.log.ring = Tab.set LogEntry.zero s.log.ring s.log.next
      { seq := s.log.seq + 1, code := 0x8104, count := 1, timebase := s.shownTime, aonTime := BitVec.ofNat 64 s.aon,
        args := [BitVec.ofNat 8 l.val] }) ∧
    (∀ j, j ≠ l.val → c.link j = s.link j) ∧ c.mem = s.mem := by
  refine State.gives_live (f := fun c => c.bringupTimeout l.val false) rfl hlive ?_
  have hcellar : decide (10 ≤ l.val) = false := by simpa using hl
  rw [Chip.bringupTimeout, hstate, show LinkState.training.bringUp = true from rfl, Chip.when_true]
  simp only [Bool.false_and, Bool.false_eq_true, if_false, Chip.linkDrop, Chip.setLink_same, hattempts, Chip.linkFail,
    hcellar]
  refine ⟨by simp, by simp [hattempts], rfl, rfl, fun j hj => ?_, rfl⟩
  simp [Chip.setLink_other _ _ _ _ hj]

/-- While the peer is in reset, within 100 ms of the own reset, no attempt counts (R39). -/
theorem gives_gdpBringupTimeout_peerInReset (s : State) (l : Fin 34) (hlive : s.live = true)
    (hstate : (s.link l.val).state = .exchange) (hearly : s.aon < s.mgmt.bootOrigin + 100000000) :
    s.gives (.gdpBringupTimeout l true) fun c =>
    (c.link l.val).state = .training ∧ (c.link l.val).attempts = (s.link l.val).attempts ∧ c.log = s.log := by
  refine State.gives_live (f := fun c => c.bringupTimeout l.val true) rfl hlive ?_
  have hwait : (true && decide ((s.toChip.linkDrop l.val .training).aon <
      (s.toChip.linkDrop l.val .training).mgmt.bootOrigin + 100000000)) = true := by
    rw [Bool.true_and]
    exact decide_eq_true hearly
  rw [Chip.bringupTimeout, hstate, show LinkState.exchange.bringUp = true from rfl, Chip.when_true]
  dsimp only
  rw [if_pos hwait]
  exact ⟨by simp [Chip.linkDrop], by simp [Chip.linkDrop], rfl⟩

/-- A die in the wrong place is quarantined (R36, log 138). -/
theorem gives_gdpDescriptorReceived_misplaced (s : State) (l : Fin 34) (d : List Byte) (hlive : s.live = true)
    (hstate : (s.link l.val).state = .exchange) (hvalid : descValid (fit 256 d) = true)
    (hplace : descMisplaced l.val (fit 256 d) = true) : s.gives (.gdpDescriptorReceived l d) fun c =>
    (c.link l.val).state = .quarantined ∧ c.log.seq = s.log.seq + 1 ∧
    (∀ j, j ≠ l.val → c.link j = s.link j) ∧ c.mem = s.mem := by
  refine State.gives_live (f := fun c => c.takeDescriptor l.val d) rfl hlive ?_
  have hquarantined : settlement l.val (s.localDesc l.val) (fit 256 d) = .quarantined := by
    simp [settlement, hplace]
  rw [Chip.takeDescriptor, hstate, BEq.rfl, Chip.when_true]
  simp only [hvalid, Bool.not_true, Bool.false_eq_true, if_false, hquarantined]
  refine ⟨by simp, rfl, fun j hj => ?_, rfl⟩
  simp [Chip.setLink_other _ _ _ _ hj]

/-! ### Swaps of modules -/

/-- A swap begins where none runs and the peer spares live (R42, R43). -/
theorem Chip.startSwap_begins {s : Chip} {l : Nat} (hswap : (s.link l).swap = none) (hlive : (s.link l).feature 7 = true)
    (hspare : 0 < (s.link l).sparesLeft) (m : Nat) (own : Bool) : s.startSwap l m own =
      (s.setLink l fun x => { x with state := .sparing, swap := some ⟨m, own, false, none⟩ }).emit
        (.linkCtrl l (if own then .spareReq m else .spareAck m)) := by
  simp [Chip.startSwap, hswap, hlive, hspare]

theorem gives_gdpModuleFailure (s : State) (l : Fin 34) (m : Fin 26) (hlive : s.live = true)
    (hstate : (s.link l.val).state = .active) (hm : m.val < (Link.modulesOf l.val).1 + (Link.modulesOf l.val).2)
    (hswap : (s.link l.val).swap = none) (hfeature : (s.link l.val).feature 7 = true) (hspare : 0 < (s.link l.val).sparesLeft) :
    s.gives (.gdpModuleFailure l m) fun c =>
    c = (s.toChip.setLink l.val fun x => { x with state := .sparing, swap := some ⟨m.val, true, false, none⟩ }).emit
      (.linkCtrl l.val (.spareReq m.val)) := by
  refine State.gives_live (f := fun c => c.moduleFailure l.val m.val) rfl hlive ?_
  simp only [Chip.moduleFailure, hstate, show LinkState.active.carries = true from rfl, hm, decide_true, Bool.and_self,
    Chip.when_true]
  exact Chip.startSwap_begins hswap hfeature hspare m.val true

theorem gives_spareReq (s : State) (l : Fin 34) (m : Fin 26) (hlive : s.live = true) (hstate : (s.link l.val).state = .active)
    (hswap : (s.link l.val).swap = none) (hfeature : (s.link l.val).feature 7 = true) (hspare : 0 < (s.link l.val).sparesLeft) :
    s.gives (.spareReq l m) fun c =>
    c = (s.toChip.setLink l.val fun x => { x with state := .sparing, swap := some ⟨m.val, false, false, none⟩ }).emit
      (.linkCtrl l.val (.spareAck m.val)) := by
  refine State.gives_live (f := fun c => c.spareReq l.val m.val) rfl hlive ?_
  simp only [Chip.spareReq, hstate, show LinkState.active.carries = true from rfl, hfeature, Bool.and_self, Chip.when_true]
  exact Chip.startSwap_begins hswap hfeature hspare m.val false

theorem gives_gdpSwitch (s : State) (l : Fin 34) (n : Nat) (w : Swap) (hlive : s.live = true)
    (hswap : (s.link l.val).swap = some w) (htrained : w.trained = true) (hat : w.own = true → w.switchAt = some n)
    (hqueued : (s.link l.val).queued = []) : s.gives (.gdpSwitch l n) fun c =>
    c = ((if w.own then s.toChip else s.toChip.emit (.linkCtrl l.val (.switchConfirm n))).setLink l.val fun x => { x with
      swap := none, sparesLeft := x.sparesLeft - 1
      state := if x.modules < x.firstOffer then .degraded else .active }).raise 0x0101 [.u8 l.val, .u8 w.module] := by
  refine State.gives_live (f := fun c => c.switchFlit l.val n) rfl hlive ?_
  have hdue : (!w.trained || (w.own && w.switchAt != some n)) = false := by
    cases hown : w.own with
    | false => simp [htrained]
    | true => simp [htrained, hat hown]
  have hlink : (if w.own then s.toChip else s.toChip.emit (.linkCtrl l.val (.switchConfirm n))).link l.val = s.link l.val := by
    split <;> rfl
  simp only [Chip.switchFlit, hswap, hdue, Bool.false_eq_true, if_false, Chip.raise_link, Chip.setLink_same, hlink, hqueued,
    Link.upState]

/-! ### Lanes -/

/-- What is counted last is in the count (R43). -/
theorem Link.le_laneCount_append {x : Link} {m k a n : Nat} {l : List (Nat × Nat × Nat × Nat)}
    (h : x.laneHits = l ++ [(m, k, a, n)]) : n ≤ x.laneCount m k := by
  rw [Link.laneCount, h, List.foldl_append]
  simp

theorem gives_laneRetryLimitExceeded (s : State) (l : Fin 34) (m : Fin 26) (k : Fin 64) (n : Nat) (hlive : s.live = true)
    (hstate : (s.link l.val).state = .active) (hlimit : s.obj O.laneRetryLimit < n) (hdue : (s.link l.val).lanesDue = []) :
    s.gives (.laneRetryLimitExceeded l m k n) fun c =>
    (c.link l.val).crcRetries = (s.link l.val).crcRetries + BitVec.ofNat 64 n ∧
    (c.link l.val).lanesDue = [(m.val, k.val)] ∧ (∀ j, j ≠ l.val → c.link j = s.link j) ∧
    c = { s.toChip with links := c.links } := by
  refine State.gives_live (f := fun c => c.laneRetries l.val m.val k.val n) rfl hlive ?_
  have hframe : ∀ f g, s.toChip.changesLink l.val ((s.toChip.setLink l.val f).setLink l.val g) := fun f g =>
    ((s.toChip.changesLink_self l.val).setLink f).setLink g
  rw [Chip.laneRetries, hstate, show LinkState.active.carries = true from rfl, Chip.when_true]
  dsimp only
  rw [Chip.when_pos]
  · refine ⟨?_, ?_, (hframe _ _).1, (hframe _ _).quiet rfl⟩
    · rw [Chip.setLink_same, Chip.setLink_same]
    · rw [Chip.setLink_same, Chip.setLink_same, hdue]
      rfl
  · rw [Chip.setLink_same, Bool.and_eq_true, decide_eq_true_eq]
    exact ⟨lt_of_lt_of_le hlimit (Link.le_laneCount_append rfl), by rw [hdue]; rfl⟩

/-- Settles O12: each clause is one step of a link's bring-up, of a swap, or of its lane counts. -/
theorem links : Obligations.Links := by
  unfold Obligations.Links
  refine ⟨gives_gdpAdapterActive_exchange, gives_gdpDescriptorReceived_settles, gives_gdpSettleReceived_agrees,
    gives_gdpAdapterActive_retrained, gives_gdpLinkActive, gives_gdpLinkLost, gives_gdpBringupTimeout_fails,
    gives_gdpBringupTimeout_peerInReset, gives_gdpDescriptorReceived_misplaced, gives_gdpModuleFailure, gives_spareReq, ?_, ?_,
    gives_gdpSwitch, gives_laneRetryLimitExceeded⟩
  · intro s l n w hlive hswap htrained hown
    refine State.gives_live (f := fun c => c.spareTrained l.val n) rfl hlive ?_
    simp [Chip.spareTrained, hswap, htrained, hown]
  · intro s l n w hlive hswap htrained hown
    refine State.gives_live (f := fun c => c.spareTrained l.val n) rfl hlive ?_
    simp [Chip.spareTrained, hswap, htrained, hown]

end Sys2Proof.Machine
end

section
/-! PROOF. Messages of the Grethasen Die Protocol (R26–R35, R41): what is not settled, the requests, responses and timeouts. -/

namespace Sys2Proof.Machine

/-! ### Arrival -/

section
variable {s : Chip} {l : Nat} {m : GdpMsg} {mine : GdpOp} {f : Chip → Chip}

theorem LinkState.carries_of_active {x : Link} (h : x.state = .active) : x.state.carries = true := by rw [h]; rfl

/-- What a message of its row's opcode meets on a link that carries traffic (R26–R28). -/
theorem Chip.gdpArrival_of_carries (hcarries : (s.link l).state.carries = true) (hop : m.op = mine)
    (hnot : ∀ c, mine ≠ .reserved c) : s.gdpArrival l m mine f =
      if !(gdpSettled m (s.link l)) || !(gdpPrioOk m) then s.gdpUnsupported l m
      else if !(s.unitKnown m) then s.gdpAnswer l m 4 [] false else f s := by
  subst hop
  rw [Chip.gdpArrival, hcarries, Chip.when_true]
  split
  · next c hc => exact absurd hc (hnot c)
  · rw [if_neg (not_not.mpr rfl)]

theorem Chip.gdpArrival_of_takes (h : s.gdpTakes l m) (hop : m.op = mine) (hnot : ∀ c, mine ≠ .reserved c) :
    s.gdpArrival l m mine f = f s := by
  obtain ⟨-, hstate, hsettled, hprio, hunit⟩ := h
  rw [Chip.gdpArrival_of_carries (LinkState.carries_of_active hstate) hop hnot, hsettled, hprio, hunit]
  rfl

theorem Chip.gdpArrival_unsettled (hstate : (s.link l).state = .active) (hop : m.op = mine) (hnot : ∀ c, mine ≠ .reserved c)
    (hno : gdpSettled m (s.link l) = false) : s.gdpArrival l m mine f = s.gdpUnsupported l m := by
  rw [Chip.gdpArrival_of_carries (LinkState.carries_of_active hstate) hop hnot, hno]
  rfl

end

/-! ### Requests -/

section
variable {s : Chip} {l : Nat} {m : GdpMsg}

theorem Chip.gdpRead_memory (hlen : m.len.toNat ≤ 256) (hdata : s.rangeData m.addr.toNat m.len.toNat = true) :
    s.gdpRead l m = if s.cutOff (linkEnd l).1 m.addr.toNat then s.gdpAnswer l m 5 (List.replicate m.len.toNat 0xFF) true
      else let r := s.readFrom (linkEnd l).1 m.addr.toNat m.len.toNat m.hint
        r.1.gdpAnswer l m (if readPoison r.2 then 1 else 0) (readData r.2) (readPoison r.2) := by
  rw [Chip.gdpRead]
  dsimp only
  rw [if_neg (not_lt.mpr hlen), if_pos hdata]

theorem Chip.gdpRead_other (hlen : m.len.toNat ≤ 256) (hdata : s.rangeData m.addr.toNat m.len.toNat = false) :
    s.gdpRead l m =
      if ((s.region m.addr.toNat).isCsr && wordSized m.addr.toNat m.len.toNat) || inCounterRange m.addr.toNat then
        match s.regBytes m.addr.toNat m.len.toNat with
        | some bs => s.gdpAnswer l m 0 bs false
        | none => (if inCounterRange m.addr.toNat then s.counterRefusal else s).gdpAnswer l m 4 [] false
      else s.gdpAnswer l m 4 [] false := by
  rw [Chip.gdpRead]
  dsimp only
  rw [if_neg (not_lt.mpr hlen), hdata]
  rfl

theorem Chip.gdpRead_long (hlen : 256 < m.len.toNat) : s.gdpRead l m = s.gdpAnswer l m 4 [] false := if_pos hlen

theorem Chip.gdpWrite_memory (hlen : m.len.toNat ≤ 256) (hdata : s.rangeData m.addr.toNat m.len.toNat = true) :
    s.gdpWrite l m =
      let t := s.writeFrom (linkEnd l).1 m.addr.toNat (fit m.len.toNat m.payload) m.poison m.hint
      if s.cutOff (linkEnd l).1 m.addr.toNat then t.gdpAnswer l m 5 [] false else t.gdpAnswer l m 0 [] false := by
  rw [Chip.gdpWrite]
  dsimp only
  rw [if_neg (not_lt.mpr hlen), if_pos hdata]

theorem Chip.gdpWrite_other (hlen : m.len.toNat ≤ 256) (hdata : s.rangeData m.addr.toNat m.len.toNat = false) :
    s.gdpWrite l m =
      if (s.region m.addr.toNat).isCsr && wordSized m.addr.toNat m.len.toNat then
        (s.regWrite m.addr.toNat m.len.toNat (leNat (fit m.len.toNat m.payload)) (.gdp l m.tag)).gdpAnswer l m 0 [] false
      else if inBarriers m.addr.toNat && m.len.toNat == 8 && m.addr.toNat % 8 == 0 then
        (s.barrierStore m.addr.toNat (BitVec.ofNat 64 (leNat (fit m.len.toNat m.payload)))).gdpAnswer l m 0 [] false
      else (if inCounterRange m.addr.toNat then s.counterRefusal else s).gdpAnswer l m 4 [] false := by
  rw [Chip.gdpWrite]
  dsimp only
  rw [if_neg (not_lt.mpr hlen), hdata]
  rfl

/-- The answer to a READ, and that to a WRITE (R30). -/
theorem Chip.gdpAnswer_read (hop : m.op = .read) (st : Nat) (bs : List Byte) (p : Bool) : s.gdpAnswer l m st bs p =
    s.gdpSend l { m with
      op := .readResp, hint := 0, poison := p, src := m.dst, dst := m.src, status := BitVec.ofNat 4 st, aop := 0
      len := BitVec.ofNat 9 bs.length, payload := bs } := by
  simp only [Chip.gdpAnswer, hop, gdpResponseOp]

theorem Chip.gdpAnswer_write (hop : m.op = .write) (st : Nat) (bs : List Byte) (p : Bool) : s.gdpAnswer l m st bs p =
    s.gdpSend l { m with
      op := .writeAck, hint := 0, poison := p, src := m.dst, dst := m.src, status := BitVec.ofNat 4 st, aop := 0
      len := BitVec.ofNat 9 bs.length, payload := bs } := by
  simp only [Chip.gdpAnswer, hop, gdpResponseOp]

theorem Chip.gdpAnswer_atomic (hop : m.op = .atomic) (st : Nat) (bs : List Byte) (p : Bool) : s.gdpAnswer l m st bs p =
    s.gdpSend l { m with
      op := .atomicResp, hint := 0, poison := p, src := m.dst, dst := m.src, status := BitVec.ofNat 4 st, aop := 0
      len := BitVec.ofNat 9 bs.length, payload := bs } := by
  simp only [Chip.gdpAnswer, hop, gdpResponseOp]

/-- A counter that is no barrier's takes what a message adds to it. -/
theorem Chip.addFrom_gdp (i : Nat) (amount : Word) (tag : BitVec 12) (harrive : s.arriveOf i = none) (hdone : s.doneOf i = none) :
    s.addFrom i amount (.gdp l tag) = (s.plainAdd i amount (0, 0, 0), .applied (s.counter i).value) := by
  simp only [Chip.addFrom, Chip.counterAdd, harrive, hdone, Option.isSome_none, Bool.false_eq_true, if_false]
  rfl

end

/-! ### The requests of the statement -/

section
variable {s : State} {l : Fin 34} {m : GdpMsg} {P : Chip → Prop}

theorem gives_gdpRead_taken (h : s.gdpTakes l.val m) (hop : m.op = .read) (hp : P (s.toChip.gdpRead l.val m)) :
    s.gives (.gdpRead l m) P := by
  refine State.gives_live (f := fun c => c.gdpArrival l.val m .read fun c => c.gdpRead l.val m) rfl h.1 ?_
  rwa [Chip.gdpArrival_of_takes h hop (by simp)]

theorem gives_gdpWrite_taken (h : s.gdpTakes l.val m) (hop : m.op = .write) (hp : P (s.toChip.gdpWrite l.val m)) :
    s.gives (.gdpWrite l m) P := by
  refine State.gives_live (f := fun c => c.gdpArrival l.val m .write fun c => c.gdpWrite l.val m) rfl h.1 ?_
  rwa [Chip.gdpArrival_of_takes h hop (by simp)]

theorem gives_gdpAtomic_taken (h : s.gdpTakes l.val m) (hop : m.op = .atomic) (hp : P (s.toChip.gdpAtomic l.val m)) :
    s.gives (.gdpAtomic l m) P := by
  refine State.gives_live (f := fun c => c.gdpArrival l.val m .atomic fun c => c.gdpAtomic l.val m) rfl h.1 ?_
  rwa [Chip.gdpArrival_of_takes h hop (by simp)]

end

theorem gives_gdpAtomic_memory (s : State) (l : Fin 34) (m : GdpMsg) (n : Nat) (h : s.gdpTakes l.val m) (hop : m.op = .atomic)
    (hn : n = (if m.aop = 8 then 4 else 8)) (hdet : m.aop = 8 → s.objb O.detMode = false) (halign : m.addr.toNat % n = 0)
    (hdata : s.rangeData m.addr.toNat n = true) (hcut : s.cutOff (linkEnd l.val).1 m.addr.toNat = false) :
    s.gives (.gdpAtomic l m) fun c =>
    c = let r := s.toChip.memAtomic (linkEnd l.val).1 m.addr.toNat n m.aop.toNat (leNat (slice m.payload 0 n))
          (leNat (slice m.payload n n)) m.poison m.hint
      r.1.gdpAnswer l.val m (if r.2.2 then 1 else 0) (leBytes n r.2.1) r.2.2 := by
  refine gives_gdpAtomic_taken h hop ?_
  have hallowed : (m.aop = 8 && s.objb O.detMode) = false := by
    by_cases h8 : m.aop = 8
    · rw [hdet h8, Bool.and_false]
    · rw [decide_eq_false h8, Bool.false_and]
  simp only [Chip.gdpAtomic, ← hn, hallowed, hdata, halign, hcut, BEq.rfl, Bool.and_self, Bool.false_eq_true, if_false, if_true]

theorem gives_gdpAtomic_unsettled (s : State) (l : Fin 34) (m : GdpMsg) (hlive : s.live = true)
    (hstate : (s.link l.val).state = .active) (hop : m.op = .atomic) (hsettled : (s.link l.val).settled = none) :
    s.gives (.gdpAtomic l m) fun c =>
    c = (s.toChip.gdpSend l.val { m with
      op := .atomicResp, hint := 0, poison := false, src := m.dst, dst := m.src, status := 2, aop := 0, len := 0
      payload := [] }).raiseLimited 0x4108 l.val [.u8 l.val] := by
  refine State.gives_live (f := fun c => c.gdpArrival l.val m .atomic fun c => c.gdpAtomic l.val m) rfl hlive ?_
  have hno : gdpSettled m (s.link l.val) = false := by simp [gdpSettled, hop, Link.feature, hsettled]
  rw [Chip.gdpArrival_unsettled hstate hop (by simp) hno, Chip.gdpUnsupported, Chip.gdpAnswer_atomic hop]
  rfl

theorem gives_gdpCell_unsettled (s : State) (l : Fin 34) (m : GdpMsg) (hlive : s.live = true)
    (hstate : (s.link l.val).state = .active) (hop : m.op = .cell) (hfeature : (s.link l.val).feature 5 = false) :
    s.gives (.gdpCell l m) fun c => c = s.toChip.raiseLimited 0x4108 l.val [.u8 l.val] := by
  refine State.gives_live (f := fun c => c.gdpArrival l.val m .cell fun c => c.gdpCell m) rfl hlive ?_
  have hno : gdpSettled m (s.link l.val) = false := by simp [gdpSettled, hop, hfeature]
  rw [Chip.gdpArrival_unsettled hstate hop (by simp) hno, Chip.gdpUnsupported, Chip.gdpAnswer, hop]
  rfl

theorem gives_gdpCounterSignal_plain (s : State) (l : Fin 34) (m : GdpMsg) (h : s.gdpTakes l.val m) (hop : m.op = .counterSignal)
    (hpoison : m.poison = false) (hcounter : namesCounter m.addr.toNat = true)
    (harrive : s.arriveOf (counterOfOffset m.addr.toNat) = none) (hdone : s.doneOf (counterOfOffset m.addr.toNat) = none) :
    s.gives (.gdpCounterSignal l m) fun c =>
    c = s.toChip.plainAdd (counterOfOffset m.addr.toNat) (BitVec.ofNat 64 (leNat (slice m.payload 0 8))) (0, 0, 0) := by
  refine State.gives_live (f := fun c => c.gdpArrival l.val m .counterSignal fun c => c.gdpSignal l.val m) rfl h.1 ?_
  rw [Chip.gdpArrival_of_takes h hop (by simp)]
  simp only [Chip.gdpSignal, hcounter, if_true, hpoison, Bool.false_eq_true, if_false, Chip.addFrom_gdp _ _ _ harrive hdone]

/-! ### Responses and timeouts (R33, R41) -/

theorem Chip.setLink_congr {s : Chip} {l : Nat} {f g : Link → Link} (h : f (s.link l) = g (s.link l)) :
    s.setLink l f = s.setLink l g := by
  simp only [Chip.setLink, h]

section
variable {s : Chip} {l : Nat} {m r : GdpMsg}

/-- A response completes the one request that waits for it. -/
theorem Chip.gdpResponse_of_single (hout : (s.link l).outstanding = [r]) (htag : r.tag = m.tag)
    (hop : gdpResponseOp r.op = some m.op) : s.gdpResponse l m =
      let t := s.setLink l fun x => { x with outstanding := [] }
      if r.op = .write then t.emit (.gdpDone l r.tag m.status.toNat [] false)
      else if m.status = 0 ∨ m.status = 1 then
        t.emit (.gdpDone l r.tag m.status.toNat (if r.op = .read then fit r.len.toNat m.payload else m.payload)
          (m.poison || m.status == 1))
      else t.emit (.gdpDone l r.tag m.status.toNat (if r.op = .read then List.replicate r.len.toNat 0xFF else []) true) := by
  have hset : s.setLink l (fun x => { x with outstanding := x.outstanding.erase r }) =
      s.setLink l fun x => { x with outstanding := [] } := Chip.setLink_congr (by simp [hout])
  simp only [Chip.gdpResponse, hout, List.find?_cons, htag, hop, BEq.rfl, Bool.and_self, hset]

/-- The chip once the one request of a link has ended without a response. -/
def Chip.lost (s : Chip) (l : Nat) (r : GdpMsg) : Chip :=
  s.setLink l fun x => { x with outstanding := [], waiting := x.waiting.erase r }

theorem Chip.gdpTimeout_of_single (hout : (s.link l).outstanding = [r]) : s.gdpTimeout l r.tag =
    let t := if r.op = .write then ((s.lost l r).raise 0x8109 [.u8 l, .u16 r.tag.toNat]).emit (.gdpDone l r.tag 5 [] false)
      else (s.lost l r).emit (.gdpDone l r.tag 5 (if r.op = .read then List.replicate r.len.toNat 0xFF else []) (r.op == .read))
    match t.newWay l with
    | some k => if (t.link k).outstanding.any (·.tag == r.tag) then t else t.gdpRequest k r
    | none => t := by
  have hset : s.setLink l (fun x => { x with outstanding := x.outstanding.erase r, waiting := x.waiting.erase r }) =
      s.lost l r := Chip.setLink_congr (by simp [hout])
  simp only [Chip.gdpTimeout, hout, List.find?_cons, BEq.rfl, hset] <;> rfl

theorem Chip.newWay_of_active (h : (s.link l).state = .active) : s.newWay l = none := by
  rw [Chip.newWay, LinkState.carries_of_active h, Bool.or_true, if_pos rfl]

theorem Chip.lost_link_state (r : GdpMsg) (j : Nat) : ((s.lost l r).link j).state = (s.link j).state := by
  by_cases hj : j = l
  · rw [hj, Chip.lost, Chip.setLink_same]
  · rw [Chip.lost, Chip.setLink_other _ _ _ _ hj]

/-- The paths between sites go by the states of the culverts alone (R41). -/
theorem Chip.path_congr {t : Chip} (h : ∀ j, (t.link j).state = (s.link j).state) (a b : Nat) : t.path a b = s.path a b := by
  have hways : t.ways = s.ways := funext fun site => by simp only [Chip.ways, h]
  have hspread : ∀ n known, Chip.spreadFuel t n known = Chip.spreadFuel s n known := by
    intro n
    induction n with
    | zero => exact fun _ => rfl
    | succ n ih => exact fun known => by simp only [Chip.spreadFuel, Chip.spread, hways, ih]
  simp only [Chip.path, hspread]

end

section
variable {s : State} {l : Fin 34} {r : GdpMsg}

/-- On a link that carries traffic a request that times out is completed, and no more (R33). -/
theorem gives_gdpRequestTimeout (hlive : s.live = true) (hstate : (s.link l.val).state = .active)
    (hout : (s.link l.val).outstanding = [r]) : s.gives (.gdpRequestTimeout l r.tag) fun c =>
    c = if r.op = .write then ((s.toChip.lost l.val r).raise 0x8109 [.u8 l.val, .u16 r.tag.toNat]).emit
        (.gdpDone l.val r.tag 5 [] false)
      else (s.toChip.lost l.val r).emit
        (.gdpDone l.val r.tag 5 (if r.op = .read then List.replicate r.len.toNat 0xFF else []) (r.op == .read)) := by
  refine State.gives_live (f := fun c => c.gdpTimeout l.val r.tag) rfl hlive ?_
  have hlost : ((s.toChip.lost l.val r).link l.val).state = .active := (Chip.lost_link_state r l.val).trans hstate
  rw [Chip.gdpTimeout_of_single hout]
  dsimp only
  rw [Chip.newWay_of_active]
  split
  · exact hlost
  · exact hlost

end

theorem gives_gdpRequestTimeout_newWay (s : State) (l : Fin 34) (r : GdpMsg) (k : Nat) (w : List Nat) (hlive : s.live = true)
    (hl : l.val < 10) (hstate : (s.link l.val).state = .down) (hout : (s.link l.val).outstanding = [r]) (hop : r.op = .read)
    (hpath : s.path (linkEnd l.val).1 (farEnd l.val).1 = some (k :: w)) (hk : (s.link k).outstanding = []) :
    s.gives (.gdpRequestTimeout l r.tag) fun c =>
    c = ((s.toChip.setLink l.val fun x => { x with outstanding := [], waiting := x.waiting.erase r }).emit
      (.gdpDone l.val r.tag 5 (List.replicate r.len.toNat 0xFF) true)).gdpRequest k r := by
  refine State.gives_live (f := fun c => c.gdpTimeout l.val r.tag) rfl hlive ?_
  have hkl : k ≠ l.val := by
    rintro rfl
    simp [hk] at hout
  have hway : ((s.toChip.lost l.val r).emit (.gdpDone l.val r.tag 5 (List.replicate r.len.toNat 0xFF) true)).newWay l.val =
      some k := by
    have hdown : ((s.toChip.lost l.val r).link l.val).state.carries = false := by
      rw [Chip.lost_link_state, hstate]
      rfl
    have hfar : decide (10 ≤ l.val) = false := by simpa using hl
    have hsame := Chip.path_congr (s := s.toChip)
      (t := (s.toChip.lost l.val r).emit (.gdpDone l.val r.tag 5 (List.replicate r.len.toNat 0xFF) true))
      (fun j => Chip.lost_link_state r j) (linkEnd l.val).1 (farEnd l.val).1
    simp only [Chip.newWay, hfar, Chip.emit_link, hdown, Bool.or_self, Bool.false_eq_true, if_false, hsame, hpath]
  have hfree : ((s.toChip.lost l.val r).link k).outstanding = [] := by
    rw [Chip.lost, Chip.setLink_other _ _ _ _ hkl, hk]
  rw [Chip.gdpTimeout_of_single hout]
  simp only [hop, show (GdpOp.read = GdpOp.write) = False by simp, if_false, if_true, BEq.rfl, hway, Chip.emit_link, hfree,
    List.any_nil, Bool.false_eq_true]
  rfl

/-- Settles O13: a message that a link takes is served by its opcode's rule; responses and timeouts end the one request that
waits. -/
theorem gdpMessages : Obligations.Gdp_messages := by
  unfold Obligations.Gdp_messages
  refine ⟨?_, ?_, gives_gdpAtomic_unsettled, gives_gdpCell_unsettled, ?_, ?_, ?_, ?_, ?_, ?_, ?_, ?_, ?_,
    gives_gdpAtomic_memory, ?_, gives_gdpCounterSignal_plain, ?_, ?_, ?_, ?_, ?_, ?_, ?_, ?_, ?_, ?_,
    gives_gdpRequestTimeout_newWay⟩
  case refine_1 => exact fun s l m h => if_pos h
  case refine_2 => exact fun s l m h => if_neg (not_le.mpr h)
  case refine_3 =>
    intro s l m h hop hlen hdata hcut
    refine gives_gdpRead_taken h hop ?_
    rw [Chip.gdpRead_memory hlen hdata, hcut]
    refine (Chip.gdpAnswer_read hop _ _ _).trans ?_
    dsimp only
    split <;> rfl
  case refine_4 =>
    intro s l m h hop hlen hdata hcut
    refine gives_gdpRead_taken h hop ?_
    rw [Chip.gdpRead_memory hlen hdata, hcut]
    rfl
  case refine_5 =>
    intro s l m bs h hop hlen hdata hreg hbytes
    refine gives_gdpRead_taken h hop ?_
    rw [Chip.gdpRead_other hlen hdata, hreg, if_pos rfl, hbytes]
  case refine_6 =>
    rintro s l m h hop (hlong | ⟨hdata, hreg⟩)
    · exact gives_gdpRead_taken h hop (Chip.gdpRead_long hlong)
    · refine gives_gdpRead_taken h hop ?_
      by_cases hlen : m.len.toNat ≤ 256
      · rw [Chip.gdpRead_other hlen hdata, hreg]
        rfl
      · exact Chip.gdpRead_long (not_le.mp hlen)
  case refine_7 =>
    intro s l m h hop hlen hdata hcut
    refine gives_gdpWrite_taken h hop ?_
    rw [Chip.gdpWrite_memory hlen hdata, hcut]
    exact Chip.gdpAnswer_write hop _ _ _
  case refine_8 =>
    intro s l m h hop hlen hdata hreg
    refine gives_gdpWrite_taken h hop ?_
    rw [Chip.gdpWrite_other hlen hdata, hreg, if_pos rfl]
  case refine_9 =>
    intro s l m h hop hlen hdata hcut
    refine gives_gdpWrite_taken h hop ?_
    rw [Chip.gdpWrite_memory hlen hdata, hcut]
    rfl
  case refine_10 =>
    intro s l m h hop hlen hdata hcsr hbarrier halign
    refine gives_gdpWrite_taken h hop ?_
    have hn : m.len.toNat = 8 := by rw [hlen]; rfl
    rw [Chip.gdpWrite_other (by omega) (by rw [hn]; exact hdata), hcsr, hbarrier, hn, halign]
    rfl
  case refine_11 =>
    intro s l m h hop hlen hdata hcsr hcounter hbarrier
    refine gives_gdpWrite_taken h hop ?_
    rw [Chip.gdpWrite_other hlen hdata, hcsr, hcounter, hbarrier]
    rfl
  case refine_12 =>
    intro s l m h hop haop hdet
    refine gives_gdpAtomic_taken h hop ?_
    simp only [Chip.gdpAtomic, haop, hdet, decide_true, Bool.and_self, if_true]
  case refine_13 =>
    intro s l m h hop hpoison
    refine State.gives_live (f := fun c => c.gdpArrival l.val m .cell fun c => c.gdpCell m) rfl h.1 ?_
    rw [Chip.gdpArrival_of_takes h hop (by simp), Chip.gdpCell, hpoison]
    rfl
  case refine_14 =>
    intro s l m h hop
    refine State.gives_live (f := fun c => c.gdpArrival l.val m .mgmt fun c => c.gdpMgmt l.val m) rfl h.1 ?_
    rw [Chip.gdpArrival_of_takes h hop (by simp)]
    rfl
  case refine_15 =>
    intro s l m rs good h hop hl hgood
    refine State.gives_live (f := fun c => c.gdpArrival l.val m .telemetry fun c => c.telemetry l.val rs) rfl h.1 ?_
    rw [Chip.gdpArrival_of_takes h hop (by simp), hgood]
    simp only [Chip.telemetry, if_neg (not_lt.mpr hl)]
  case refine_16 =>
    intro s l m r hlive hstate hout htag hop hwrite hst
    refine State.gives_live (f := fun c => c.when (c.link l.val).state.carries fun c => c.gdpResponse l.val m) rfl hlive ?_
    rw [LinkState.carries_of_active hstate, Chip.when_true, Chip.gdpResponse_of_single hout htag hop, if_neg hwrite, if_pos hst]
  case refine_17 =>
    intro s l m r hlive hstate hout htag hop hwrite h0 h1
    refine State.gives_live (f := fun c => c.when (c.link l.val).state.carries fun c => c.gdpResponse l.val m) rfl hlive ?_
    rw [LinkState.carries_of_active hstate, Chip.when_true, Chip.gdpResponse_of_single hout htag hop, if_neg hwrite,
      if_neg (not_or.mpr ⟨h0, h1⟩)]
  case refine_18 =>
    intro s l m r hlive hstate hout htag hop hack
    refine State.gives_live (f := fun c => c.when (c.link l.val).state.carries fun c => c.gdpResponse l.val m) rfl hlive ?_
    rw [LinkState.carries_of_active hstate, Chip.when_true,
      Chip.gdpResponse_of_single hout htag (by rw [hop, hack]; rfl), if_pos hop]
  case refine_19 =>
    intro s l m hlive hout
    refine State.gives_live (f := fun c => c.when (c.link l.val).state.carries fun c => c.gdpResponse l.val m) rfl hlive ?_
    refine Chip.when_keeps _ id _ _ ?_
    simp [Chip.gdpResponse, hout]
  case refine_20 =>
    intro s l r hlive hstate hout hop
    refine (gives_gdpRequestTimeout hlive hstate hout).imp fun c hc => ?_
    rw [hc, if_neg (by simp [hop]), if_pos hop, hop]
    rfl
  case refine_21 =>
    intro s l r hlive hstate hout hread hwrite
    refine (gives_gdpRequestTimeout hlive hstate hout).imp fun c hc => ?_
    rw [hc, if_neg hwrite, if_neg hread, beq_false_of_ne hread]
    rfl
  case refine_22 =>
    intro s l r hlive hstate hout hop
    refine (gives_gdpRequestTimeout hlive hstate hout).imp fun c hc => ?_
    rw [hc, if_pos hop]
    rfl

end Sys2Proof.Machine
end

section
/-! PROOF. A port that fails as the last usable GN port (R66, R149, R159): the statement `Engines_and_port_bring_up` fails. -/

namespace Sys2Proof.Machine

/-- A READ of 64 bytes for the core DMA of core 0, to offset 0, that waits at the output of port 0. -/
def strandedRead : GnReq :=
  { tag := 0, pkt := { gnBlank with len := 64 }, rack := 0, port := 0, pin := none, work := .dma 0 0, sink := .mem 0 0 }

/-- A running chip whose one GN port is as x says while that READ waits at its output. -/
def oneGnPort (x : Port) : State :=
  { State.reset with
    mgmt := { Mgmt.reset with stage := 6 }
    objs := [(O.portRole, 2)]
    ports := [(0, x)]
    gn := { Gn.reset with outq := [⟨0, strandedRead.pkt, false⟩], reqs := [strandedRead] } }

/-- The port has trained twice in vain. -/
def lastGnPort : State := oneGnPort { Port.reset with state := .aligning, attempts := 2 }

/-- The READ ends UNREACHABLE, and its ones land where its data was to (R159): memory changes. -/
theorem lastGnPort_lands_ones : (lastGnPort.toChip.portVerified 0 2).mem ≠ [] := by decide +kernel

/-- Refutes O14: a third verification in vain of the last GN port writes the ones of a stranded READ to memory. -/
theorem not_enginesAndPortBringUp : ¬ Obligations.Engines_and_port_bring_up := by
  unfold Obligations.Engines_and_port_bring_up
  rintro ⟨-, -, -, -, -, -, -, -, hfails, -⟩
  obtain ⟨-, -, -, hmem⟩ := State.of_gives (c := lastGnPort.toChip.portVerified 0 2)
    (hfails lastGnPort 0 2 rfl rfl (le_refl 2) rfl) rfl
  exact lastGnPort_lands_ones hmem

end Sys2Proof.Machine
end

section
/-! PROOF. A GN port that trains again as the last usable one (R62, R149, R159): the statement `Superframes_and_link_control`
fails. -/

namespace Sys2Proof.Machine

/-- The one GN port is Active, and 16 replays of a superframe have failed. -/
def failingGnPort : State := oneGnPort { Port.reset with state := .active, failedReplays := 16 }

/-- A port that trains is none that packets can use: the READ ends UNREACHABLE, and its ones land. -/
theorem failingGnPort_lands_ones : (failingGnPort.toChip.retune 0).mem ≠ [] := by decide +kernel

/-- Refutes O15: LINK_RETRAIN of the last GN port writes the ones of a stranded READ to memory. -/
theorem not_superframesAndLinkControl : ¬ Obligations.Superframes_and_link_control := by
  unfold Obligations.Superframes_and_link_control
  rintro ⟨-, -, -, -, -, -, -, -, -, hretrain⟩
  obtain ⟨-, -, hmem, -⟩ := State.of_gives (c := failingGnPort.toChip.retune 0)
    (hretrain failingGnPort 0 rfl rfl (.inl (le_refl 16)) rfl) rfl
  exact failingGnPort_lands_ones hmem

end Sys2Proof.Machine
end

section
/-! PROOF. GN ports that go dark as the last usable ones (R84, R85, R149, R159): the statements `Circuit_mode_and_eye_safety` and
`Port_administration` fail. -/

namespace Sys2Proof.Machine

/-- The one GN port holds off under SPM, and its peer has sent no MONITOR. -/
def darkGnPort : State :=
  { oneGnPort { Port.reset with state := .active, lightLost := some 0 } with
    objs := [(O.portRole, 2), (O.safetyMode, 1)]
    mgmt := { Mgmt.reset with stage := 6, configEnded := true } }

/-- The port probes again, and the READ ends UNREACHABLE: its ones land. -/
theorem darkGnPort_lands_ones : (darkGnPort.toChip.holdOff 0).mem ≠ [] := by decide +kernel

theorem darkGnPort_spm : darkGnPort.spm 0 = true := by decide +kernel

/-- Refutes O17: the end of a hold-off of the last GN port writes the ones of a stranded READ to memory. -/
theorem not_circuitModeAndEyeSafety : ¬ Obligations.Circuit_mode_and_eye_safety := by
  unfold Obligations.Circuit_mode_and_eye_safety
  rintro ⟨-, -, -, -, -, -, -, -, -, -, hholdOff, -, -⟩
  obtain ⟨-, -, -, -, hmem⟩ := State.of_gives (c := darkGnPort.toChip.holdOff 0)
    (hholdOff darkGnPort 0 rfl darkGnPort_spm rfl rfl rfl) rfl
  exact darkGnPort_lands_ones hmem

/-- The one GN port drains, and has sent all it had of cells. -/
def drainedGnPort : State := oneGnPort { Port.reset with state := .draining, drains := true }

theorem drainedGnPort_lands_ones : (drainedGnPort.toChip.closePort 0 .disabled).mem ≠ [] := by decide +kernel

/-- Refutes O18: the end of the last GN port's drain writes the ones of a stranded READ to memory. -/
theorem not_portAdministration : ¬ Obligations.Port_administration := by
  unfold Obligations.Port_administration
  rintro ⟨-, -, -, -, hcomplete, -⟩
  obtain ⟨-, -, -, hmem, -⟩ := State.of_gives (c := drainedGnPort.toChip.closePort 0 .disabled)
    (hcomplete drainedGnPort 0 rfl rfl rfl rfl rfl) rfl
  exact drainedGnPort_lands_ones hmem

end Sys2Proof.Machine
end

section
/-! PROOF. One slot of the router with at most one cell in it (R92, R99, R100). -/

namespace Sys2Proof.Machine

/-! ### Routing one cell -/

section
variable {r : Slot} {k : Cell} {o : Bool}

theorem Slot.route_here (h : k.dest.toNat = r.chip.chipNumber) : r.route k o = { r with chip := r.chip.eject k } := if_pos h

theorem Slot.route_time (h : k.dest.toNat ≠ r.chip.chipNumber) (ht : k.type = 9) : r.route k o = r :=
  (if_neg h).trans (if_pos ht)

theorem Slot.route_old (h : k.dest.toNat ≠ r.chip.chipNumber) (ht : k.type ≠ 9) (hage : 46 ≤ r.chip.cellAge k) :
    r.route k o = { r with chip := (r.chip.bump O.lifetimeDiscards 1).raiseLimited 0x4301 0 [] } :=
  (if_neg h).trans ((if_neg ht).trans (if_pos hage))

end

/-! ### The slot time -/

section
variable {s : Chip} {k : Cell}

/-- Empty buffers of the router may be written as they are. -/
theorem Tn.with_empty {t : Tn} (ht : t.transit = []) (hi : t.inject = []) :
    ({ t with arrivals := [], transit := [], inject := [] } : Tn) = { t with arrivals := [] } := by
  cases t
  cases ht
  cases hi
  rfl

theorem Tn.with_transit {t : Tn} (ht : t.transit = []) : ({ t with transit := [], inject := t.inject } : Tn) = t := by
  cases t
  cases ht
  rfl

theorem Tn.with_idle {t : Tn} (ha : t.arrivals = []) (ht : t.transit = []) :
    ({ t with arrivals := [], transit := [], inject := t.inject } : Tn) = t := by
  cases t
  cases ha
  cases ht
  rfl

/-- What a slot time ends with, once its cells are routed: the ports used send what they have. -/
def Slot.close (r : Slot) (keep : List Cell) : Chip :=
  (({ r.chip with tn := { r.chip.tn with transit := r.transit, inject := keep ++ r.inject ++ r.chip.tn.inject } } : Chip).each
    r.used fun s p => s.flushPort p).trimTransit

/-- A slot time of a router whose buffers stand as tn says: the cells it holds, those offered for injection, and those kept. -/
def Chip.slotTime (s : Chip) (tn : Tn) (held offered keep : List Cell) : Chip :=
  (offered.foldl (fun r k => Slot.route r k true)
    (held.foldl (fun r k => Slot.route r k false) ⟨{ s with tn := tn }, [], [], []⟩)).close keep

theorem Chip.routerSlot_eq (s : Chip) : s.routerSlot =
    let blocked := s.tn.transit.length > 4096 || !s.tnReady
    s.slotTime { s.tn with arrivals := [], transit := [], inject := [] } ((s.tn.arrivals ++ s.tn.transit).mergeSort s.outranks)
      (if blocked then [] else (s.tn.inject.map s.injected).mergeSort s.outranks) (if blocked then s.tn.inject else []) := rfl

theorem Chip.slotTime_idle (tn : Tn) (keep : List Cell) : s.slotTime tn [] [] keep =
    Chip.trimTransit { s with tn := { tn with transit := [], inject := keep ++ [] ++ tn.inject } } := rfl

/-- A slot time with one cell that arrives, and none in transit or to inject. -/
theorem Chip.routerSlot_single (ha : s.tn.arrivals = [k]) (ht : s.tn.transit = []) (hi : s.tn.inject = []) :
    s.routerSlot = (Slot.route ⟨{ s with tn := { s.tn with arrivals := [] } }, [], [], []⟩ k false).close [] := by
  rw [Chip.routerSlot_eq, Tn.with_empty ht hi]
  simp only [ha, ht, hi, List.append_nil, List.mergeSort_singleton, List.map_nil, List.mergeSort_nil, ite_self]
  rfl

theorem Chip.trimTransit_of_empty (h : s.tn.transit = []) : s.trimTransit = s := by
  simp [Chip.trimTransit, h]

/-- Nothing is left to send or to keep after a slot time that used no port. -/
theorem Slot.close_of_idle {c : Chip} (ht : c.tn.transit = []) : (Slot.mk c [] [] []).close [] = c := by
  refine Eq.trans ?_ (Chip.trimTransit_of_empty ht)
  exact congrArg (fun t => ({ c with tn := t } : Chip).trimTransit) (Tn.with_transit ht)

theorem Chip.cellAge_tn (t : Tn) : ({ s with tn := t } : Chip).cellAge k = s.cellAge k := rfl

theorem Chip.raiseLimited_tn (code unit : Nat) (args : List Arg) : (s.raiseLimited code unit args).tn = s.tn := by
  unfold Chip.raiseLimited
  split
  · dsimp only
    split <;> rfl
  · rfl

theorem Chip.eject_of_type (h : k.type ≠ 10) : s.eject k = { s with tn := { s.tn with ejected := s.tn.ejected ++ [k] } } := by
  have hplain : (k.type = 10 && !k.flags.getLsbD 2) = false := by rw [decide_eq_false h, Bool.false_and]
  rw [Chip.eject, hplain]
  rfl

/-- Nothing is injected while the chip is not TNREADY (R92). -/
theorem Chip.routerSlot_idle (ha : s.tn.arrivals = []) (ht : s.tn.transit = []) (hready : s.tnReady = false) :
    s.routerSlot = s := by
  have hkept : s.routerSlot = s.slotTime { s.tn with arrivals := [], transit := [], inject := [] } [] [] s.tn.inject := by
    rw [Chip.routerSlot_eq]
    simp only [hready, ha, ht, Bool.not_false, Bool.or_true, if_true, List.append_nil, List.mergeSort_nil]
  have htn : ({ s.tn with arrivals := [], transit := [], inject := s.tn.inject ++ [] ++ [] } : Tn) = s.tn := by
    rw [List.append_nil, List.append_nil]
    exact Tn.with_idle ha ht
  rw [hkept, Chip.slotTime_idle, htn]
  exact Chip.trimTransit_of_empty ht

end

/-- Settles O20: a slot time routes its one cell, by where it goes, what it is and how old it is. -/
theorem router : Obligations.Router := by
  unfold Obligations.Router
  refine ⟨?_, fun s k => Chip.eject_of_type, ?_, ?_, ?_⟩
  · intro s k hlive ha ht hi hdest
    refine State.gives_live (f := Chip.routerSlot) rfl hlive ?_
    rw [Chip.routerSlot_single ha ht hi, Slot.route_here hdest]
    exact Slot.close_of_idle ht
  · intro s k hlive ha ht hi hdest htype
    refine State.gives_live (f := Chip.routerSlot) rfl hlive ?_
    rw [Chip.routerSlot_single ha ht hi, Slot.route_time hdest htype]
    exact Slot.close_of_idle ht
  · intro s k hlive ha ht hi hdest htype hage
    refine State.gives_live (f := Chip.routerSlot) rfl hlive ?_
    rw [Chip.routerSlot_single ha ht hi, Slot.route_old hdest htype (by rw [Chip.cellAge_tn]; exact hage)]
    exact Slot.close_of_idle (by rw [Chip.raiseLimited_tn]; exact ht)
  · intro s hlive ha ht hready
    exact State.gives_live (f := Chip.routerSlot) rfl hlive (Chip.routerSlot_idle ha ht hready)

end Sys2Proof.Machine
end

section
/-! PROOF. Reads of memory, and what they leave alone. -/

namespace Sys2Proof.Machine

section
variable (s : Chip)

@[simp] theorem Chip.dropLine_outside (line : Nat) : (s.dropLine line).outside = s.outside := by
  unfold Chip.dropLine
  split
  · rfl
  · dsimp only
    split <;> simp

@[simp] theorem Chip.readHbmLine_outside (line : Nat) (hint : Hint) (errors : List (Nat × Nat)) :
    (s.readHbmLine line hint errors).1.outside = s.outside := by
  unfold Chip.readHbmLine
  split
  · rfl
  · dsimp only
    split
    · simp
    · split
      · split
        · simp
        · split <;> simp
      · split <;> simp

@[simp] theorem Chip.readPiece_outside (a n : Nat) (hint : Hint) : (s.readPiece a n hint).1.outside = s.outside := by
  unfold Chip.readPiece
  split
  · rfl
  · split <;> simp

@[simp] theorem Chip.read_outside (a len : Nat) (hint : Hint) : (s.read a len hint).1.outside = s.outside := by
  unfold Chip.read
  refine foldl_fst_keeps Chip.outside (fun r p => ?_) _ _
  exact Chip.readPiece_outside r.1 ..

@[simp] theorem Chip.readPieceFrom_outside (site a n : Nat) (hint : Hint) :
    (s.readPieceFrom site a n hint).1.outside = s.outside := by
  unfold Chip.readPieceFrom
  split <;> simp

@[simp] theorem Chip.readFrom_outside (site a len : Nat) (hint : Hint) : (s.readFrom site a len hint).1.outside = s.outside := by
  unfold Chip.readFrom
  refine foldl_fst_keeps Chip.outside (fun r p => ?_) _ _
  exact Chip.readPieceFrom_outside r.1 ..

@[simp] theorem Chip.memModify_outside (site o n : Nat) (f : Nat → Nat) (poison : Bool) (hint : BitVec 2) :
    (s.memModify site o n f poison hint).1.outside = s.outside := by
  unfold Chip.memModify
  dsimp only
  split <;> simp

end

end Sys2Proof.Machine
end

section
/-! PROOF. How sequenced cells land (R95, R98, R105, R109, R114, R115, R119). -/

namespace Sys2Proof.Machine

section
variable {s t : Chip} {k : Cell}

/-- The Headgate of a chip whose one cell to process is k. -/
theorem Tn.erase_ejected {tn : Tn} (h : tn.ejected = []) (k : Cell) : ({ tn with ejected := tn.ejected.erase k } : Tn) = tn := by
  cases tn
  cases h
  rfl

/-- A cell that its context can take lands, and the context notes it (R109). -/
theorem Chip.takeCell_lands {x : RxContext} (hjob : s.job.state < 2) (hlag : s.service.lagEpisode = false)
    (hx : s.context k.src k.stream = some x) (hwindow : (k.seq - x.cum - 1).toNat < 4096) (hnew : s.seenSeq x k.seq = false)
    (hroom : s.recvUsed < 1048576) (hejected : s.tn.ejected = []) (hland : s.landCell k = (t, .landed)) :
    s.takeCell k = (Chip.unpark Chip.landCell (t.noteLanded k.src k.stream k.seq) k.src k.stream).mirrorPump.collFeed := by
  have hin : Chip.landIn Chip.landCell s k = t.noteLanded k.src k.stream k.seq := by rw [Chip.landIn, hland]
  have hseq : Chip.sequenced Chip.landCell s k =
      Chip.unpark Chip.landCell (t.noteLanded k.src k.stream k.seq) k.src k.stream := by
    rw [← hin]
    simp only [Chip.sequenced, if_neg (not_le.mpr hjob), hlag, hx, Option.isSome_some, Bool.not_true, Bool.false_and,
      Bool.false_eq_true, if_false, if_true, hwindow, hnew, ge_iff_le, if_neg (not_le.mpr hroom)]
  rw [Chip.takeCell, Tn.erase_ejected hejected, ← hseq]

/-- Any command that brings k to this chip has it taken. -/
theorem gives_cell {s : State} {i : Instr} {b : Bool} {P : Chip → Prop}
    (he : exec i s = s.act fun c => c.when (b && c.forMe k) fun c => c.takeCell k) (hb : b = true) (hlive : s.live = true)
    (hdest : k.dest.toNat = s.chipNumber) (hp : P (s.toChip.takeCell k)) : s.gives i P := by
  refine State.gives_live he hlive ?_
  have hme : s.toChip.forMe k = true := by rw [Chip.forMe, hdest, BEq.rfl]
  rw [hb, hme]
  exact hp

/-! ### PUT -/

@[simp] theorem Chip.write_tn (a : Nat) (bs : List Byte) (poison : Bool) (hint : Hint) :
    (s.write a bs poison hint).tn = s.tn := congrArg Outside.tn (s.write_outside a bs poison hint)

theorem Chip.noteMirror_tn (e : MirrorEffect) : (s.noteMirror e).tn = s.tn := by
  unfold Chip.noteMirror
  split <;> rfl

theorem Chip.applyPart_sluice (l : Nat) : (s.applyPart k l).tn.sluice = s.tn.sluice := by
  simp only [Chip.applyPart, Chip.noteMirror_tn, Chip.write_tn]

/-- Lines without a queue take their part of a cell at once, one after the other (R117). -/
theorem Chip.foldl_applyPart {f : Chip × Landing → Nat → Chip × Landing}
    (hf : ∀ c l, c.tn.sluice = [] → f (c, .landed) l = (c.applyPart k l, .landed)) (ls : List Nat) (hs : s.tn.sluice = []) :
    ls.foldl f (s, .landed) = (s.each ls fun t l => t.applyPart k l, .landed) := by
  induction ls generalizing s with
  | nil => rfl
  | cons l r ih =>
    rw [List.foldl_cons, hf s l hs]
    exact ih ((s.applyPart_sluice l).trans hs)

theorem Chip.landPut_direct (hlen : 0 < k.len.toNat) (hrange : s.rangeData (cellOffset k) k.len.toNat = true)
    (hsluice : s.tn.sluice = []) (hrecent : s.tn.recentPuts = []) :
    s.landPut k = (s.each (putLines k) fun t l => t.applyPart k l, .landed) := by
  have hne : k.len ≠ 0 := by
    rintro h
    simp [h] at hlen
  have hqueue : ∀ {c : Chip} (l : Nat), c.tn.sluice = [] → c.lineQueue l = none := fun l h => by
    rw [Chip.lineQueue, h, List.find?_nil]
  have hbad : (!(s.rangeData (cellOffset k) k.len.toNat) || (k.len = 0 && !(s.rangeData (cellOffset k) 1))) = false := by
    rw [hrange, decide_eq_false hne]
    rfl
  unfold Chip.landPut
  dsimp only
  rw [hbad, if_neg (by decide)]
  rw [if_neg (by simp [hqueue _ hsluice])]
  refine Chip.foldl_applyPart (fun c l hc => ?_) _ hsluice
  simp [hqueue l hc, hrecent]

/-! ### SIGNAL, ATOMIC_ADD and multicast -/

theorem Chip.plainAdd_tn (i : Nat) (amount : Word) (sig : Nat × Nat × Nat) : (s.plainAdd i amount sig).tn = s.tn := by
  simp only [Chip.plainAdd]
  split
  · exact congrArg Outside.tn (Chip.raise_outside ..)
  · rfl

theorem Chip.plainAdd_service (i : Nat) (amount : Word) (sig : Nat × Nat × Nat) : (s.plainAdd i amount sig).service = s.service := by
  simp only [Chip.plainAdd]
  split
  · exact congrArg Outside.service (Chip.raise_outside ..)
  · rfl

/-- The acknowledgement of a cell that no pending signal stands for. -/
theorem Chip.acknowledge_cell_nothing (h : s.tn.pendingSignals = []) (src : Half) (stream : BitVec 14) (seq : Half)
    (i : Nat) (old : Word) :
    s.acknowledge (.cell src stream seq) i old = s := by
  have htn : ({ s.tn with pendingSignals := [] } : Tn) = s.tn := by rw [← h]
  simp only [Chip.acknowledge, h, List.filter_nil, htn]

theorem Chip.noteMirror_of_not_mirroring (h : s.mirroring = false) (e : MirrorEffect) : s.noteMirror e = s := by
  rw [Chip.noteMirror, h]
  rfl

/-- A cell's amount goes to a counter that is no barrier's, and nothing of it is kept (R114). -/
theorem Chip.cellAdd_plain {amount : Word} (harrive : s.arriveOf (counterOfOffset (cellOffset k)) = none)
    (hdone : s.doneOf (counterOfOffset (cellOffset k)) = none) (hmirror : s.mirroring = false)
    (hpending : s.tn.pendingSignals = []) : s.cellAdd k amount false =
      (s.plainAdd (counterOfOffset (cellOffset k)) amount (3, k.src.toNat, k.stream.toNat),
        .applied (s.counter (counterOfOffset (cellOffset k))).value) := by
  have hadd : s.counterAdd (counterOfOffset (cellOffset k)) amount (.cell k.src k.stream k.seq) false =
      (s.plainAdd (counterOfOffset (cellOffset k)) amount (3, k.src.toNat, k.stream.toNat),
        .applied (s.counter (counterOfOffset (cellOffset k))).value) := by
    simp only [Chip.counterAdd, harrive, hdone, Option.isSome_none, Bool.false_eq_true, if_false]
    rfl
  rw [Chip.cellAdd]
  simp only [hadd]
  rw [Chip.acknowledge_cell_nothing ((congrArg Tn.pendingSignals (Chip.plainAdd_tn ..)).trans hpending),
    Chip.noteMirror_of_not_mirroring]
  rw [Chip.mirroring, Chip.plainAdd_service]
  exact hmirror

theorem Chip.landCell_put (h : k.type = 0) : s.landCell k = s.landPut k := if_pos h
theorem Chip.landCell_signal (h : k.type = 1) : s.landCell k = s.landSignal k := by simp [Chip.landCell, h]
theorem Chip.landCell_atomic (h : k.type = 2) : s.landCell k = s.landAtomic k := by simp [Chip.landCell, h]
theorem Chip.landCell_mcast (h : k.type = 7) : s.landCell k = s.landMcast k := by simp [Chip.landCell, h]

end

theorem landCell_badAddr (s : Chip) (k : Cell) (htype : k.type = 0) (hrange : s.rangeData (cellOffset k) k.len.toNat = false)
    (hcounter : inCounterRange (cellOffset k) = false) : s.landCell k = (s, .nack 7 0) := by
  rw [Chip.landCell_put htype, Chip.landPut]
  simp [hrange, Chip.badAddr, hcounter]

theorem landCell_signal_adds (s : Chip) (k : Cell) (htype : k.type = 1) (hcounter : namesCounter (cellOffset k) = true)
    (hcover : k.payload.getLsbD 303 = false) (harrive : s.arriveOf (counterOfOffset (cellOffset k)) = none)
    (hdone : s.doneOf (counterOfOffset (cellOffset k)) = none) (hmirror : s.mirroring = false)
    (hpending : s.tn.pendingSignals = []) : s.landCell k = (s.plainAdd (counterOfOffset (cellOffset k))
      (BitVec.ofNat 64 (payloadField k 383 320)) (3, k.src.toNat, k.stream.toNat), .landed) := by
  rw [Chip.landCell_signal htype, Chip.landSignal]
  simp only [hcounter, hcover, Bool.not_true, Bool.not_false, Bool.true_or, Bool.false_eq_true, if_false, if_true,
    Chip.cellAdd_plain harrive hdone hmirror hpending]

theorem landCell_signal_held (s : Chip) (k : Cell) (x : RxContext) (htype : k.type = 1)
    (hcounter : namesCounter (cellOffset k) = true) (hcover : k.payload.getLsbD 303 = true)
    (hx : s.context k.src k.stream = some x) (hopen : x.covers (BitVec.ofNat 16 (payloadField k 319 304)) = false)
    (hroom : s.tn.pendingSignals.length < 4096) : s.landCell k = ({ s with tn := { s.tn with
      pendingSignals := s.tn.pendingSignals ++
      [⟨k.src, k.stream, k.seq, some (BitVec.ofNat 16 (payloadField k 319 304)), counterOfOffset (cellOffset k),
        BitVec.ofNat 64 (payloadField k 383 320), none⟩] } }, .landed) := by
  rw [Chip.landCell_signal htype, Chip.landSignal]
  simp only [hcounter, hcover, hx, hopen, Bool.not_true, Bool.or_self, Bool.false_eq_true, if_false,
    ge_iff_le, if_neg (not_le.mpr hroom)]

theorem landCell_atomic_memory (s : Chip) (k : Cell) (htype : k.type = 2) (hcounter : inCounterRange (cellOffset k) = false)
    (hwide : k.payload.getLsbD 319 = true) (hrange : s.rangeData (cellOffset k) 8 = true) (halign : cellOffset k % 8 = 0) :
    s.landCell k = ((s.memAdd (cellOffset k) 8 (payloadField k 383 320)).noteMirror
      (.atomic (cellOffset k) 0 true (BitVec.ofNat 64 (payloadField k 383 320)) 0), .landed) := by
  rw [Chip.landCell_atomic htype, Chip.landAtomic]
  simp only [hcounter, hwide, hrange, halign, Bool.false_eq_true, if_false, if_true, BEq.rfl, Bool.and_self]

section
variable {s t : Chip} {k : Cell} (hflag : k.flags.getLsbD 0 = false)

include hflag

/-- A multicast PUT lands at its turn chip as a PUT, and is relayed (R119, R120). -/
theorem Chip.landMcast_own (hrange : s.rangeData (cellOffset k) k.len.toNat = true)
    (hready : s.relayReady (s.mcastOthers k) = true) (hown : (s.mcastMembers k).contains s.chipNumber = true)
    (hland : s.landPut (relayCell k) = (t, .landed)) : s.landMcast k = (t.relayTo k (s.mcastOthers k), .landed) := by
  simp only [Chip.landMcast, hflag, hrange, hready, hown, hland, Bool.not_true, Bool.and_false, Bool.false_eq_true, if_false,
    if_true]

theorem Chip.landMcast_relay (hready : s.relayReady (s.mcastOthers k) = true)
    (hown : (s.mcastMembers k).contains s.chipNumber = false) : s.landMcast k = (s.relayTo k (s.mcastOthers k), .landed) := by
  simp only [Chip.landMcast, hflag, hready, hown, Bool.not_true, Bool.false_and, Bool.false_eq_true, if_false]

theorem Chip.landMcast_full (hrange : s.rangeData (cellOffset k) k.len.toNat = true)
    (hready : s.relayReady (s.mcastOthers k) = false) : s.landMcast k = (s, .nack 1 0) := by
  simp only [Chip.landMcast, hflag, hrange, hready, Bool.not_true, Bool.not_false, Bool.and_false, Bool.false_eq_true, if_false,
    if_true]

end

/-- Settles O21: a cell lands by its type's rule, each of which is a lemma above. -/
theorem cells : Obligations.Cells := by
  unfold Obligations.Cells
  refine ⟨?_, ?_, landCell_badAddr, landCell_signal_adds, landCell_signal_held, landCell_atomic_memory, ?_, ?_, ?_⟩
  · intro i s k x t hi hlive hdest hjob hlag hx hwindow hnew hroom hejected hland
    have htake := Chip.takeCell_lands hjob hlag hx hwindow hnew hroom hejected hland
    rcases hi with ⟨rfl, ht⟩ | ⟨rfl, ht⟩ | ⟨rfl, ht⟩ | ⟨rfl, ht⟩ | ⟨rfl, ht⟩ | ⟨rfl, ht, hk⟩ | ⟨rfl, ht, hk⟩ | ⟨rfl, ht, hk⟩
    · exact gives_cell (b := k.type == 0) rfl (by rw [ht]; rfl) hlive hdest htake
    · exact gives_cell (b := k.type == 1) rfl (by rw [ht]; rfl) hlive hdest htake
    · exact gives_cell (b := k.type == 2) rfl (by rw [ht]; rfl) hlive hdest htake
    · exact gives_cell (b := k.type == 5) rfl (by rw [ht]; rfl) hlive hdest htake
    · exact gives_cell (b := k.type == 7 || k.type == 8) rfl (by rcases ht with ht | ht <;> rw [ht] <;> rfl) hlive hdest htake
    · exact gives_cell (b := k.type == 6 && ctrlKind k != 2 && ctrlKind k != 3) rfl (by rw [ht, hk]; rfl) hlive hdest htake
    · exact gives_cell (b := k.type == 6 && ctrlKind k == 2) rfl (by rw [ht, hk]; rfl) hlive hdest htake
    · exact gives_cell (b := k.type == 6 && ctrlKind k == 3) rfl (by rw [ht, hk]; rfl) hlive hdest htake
  · intro s k htype hlen hrange hsluice hrecent
    rw [Chip.landCell_put htype, Chip.landPut_direct hlen hrange hsluice hrecent]
  · intro s t k htype hflag hrange hready hown hland
    rw [Chip.landCell_mcast htype, Chip.landMcast_own hflag hrange hready hown hland]
  · intro s k htype hflag hready hown
    rw [Chip.landCell_mcast htype, Chip.landMcast_relay hflag hready hown]
  · intro s k htype hflag hrange hready
    rw [Chip.landCell_mcast htype, Chip.landMcast_full hflag hrange hready]

end Sys2Proof.Machine
end

section
/-! PROOF. Cells without a SEQ and the timers of streams (R96, R106, R107, R110–R113, R117, R126, R127, R234, R516). -/

namespace Sys2Proof.Machine

section
variable {s : Chip} {k : Cell}

/-- A cell for another chip waits for a slot. -/
theorem Chip.offer_away (h : k.dest.toNat ≠ s.chipNumber) :
    s.offer k = { s with tn := { s.tn with inject := s.tn.inject ++ [{ k with age := s.ageNow }] } } := if_neg h

/-- A SIGNAL or copy with a multicast that waits: there is none, and nothing is tried again (R120). -/
theorem Chip.retryMcasts_none (h : (s.tn.pendingSignals.all fun p => p.mcast.isNone) = true) : s.retryMcasts = s := by
  have hnone : s.tn.pendingSignals.filter (·.mcast.isSome) = [] := by
    rw [List.filter_eq_nil_iff]
    intro p hp hsome
    rw [Option.isNone_iff_eq_none.mp (List.all_eq_true.mp h p hp)] at hsome
    cases hsome
  rw [Chip.retryMcasts, hnone]
  rfl

theorem Chip.collFeed_none (h : s.coll.waiting = []) : s.collFeed = s := by rw [Chip.collFeed, h]; rfl

@[simp] theorem Chip.stream_setStream (n : Nat) (v : Option SendStream) : (s.setStream n v).stream n = v :=
  Tab.get_set_same ..

theorem Chip.stream_of_set {t : Tab (Option SendStream)} {n : Nat} {v : Option SendStream} (h : s.tn.streams = Tab.set none t n v) :
    s.stream n = v := by
  rw [Chip.stream, h]
  exact Tab.get_set_same ..

theorem Chip.each_cellDone_none {st : Status} {l : List TxCell} (h : (l.all fun t => t.work == Work.none) = true) :
    (s.each l fun s t => s.cellDone t.work st) = s := by
  induction l with
  | nil => rfl
  | cons t r ih =>
    simp only [List.all_cons, Bool.and_eq_true, beq_iff_eq] at h
    rw [Chip.each_cons, h.1]
    exact ih h.2

/-! ### ACK and close -/

/-- An ACK to a stream with no cell more to send, whose cells nobody waits for, frees what it covers (R110). -/
theorem Chip.takeAck_frees {x : SendStream} (hx : s.stream k.stream.toNat = some x) (hdest : x.dest = k.src)
    (hpend : x.pend = []) (hrefused : x.refused = false) (hwork : (x.cells.all fun t => t.work == Work.none) = true) :
    s.takeAck k = { s with tn := { s.tn with
      streams := Tab.set none s.tn.streams k.stream.toNat (some { x with cells := x.cells.filter fun t => !ackCovers k t.cell.seq })
      unreach := Tab.set 0 s.tn.unreach x.dest.toNat 0 } } := by
  have hgone : ((x.cells.filter fun t => ackCovers k t.cell.seq).all fun t => t.work == Work.none) = true := by
    rw [List.all_eq_true] at hwork ⊢
    exact fun t ht => hwork t (List.mem_of_mem_filter ht)
  rw [Chip.takeAck, hx]
  simp only [hdest, ne_eq, not_true_eq_false, if_false]
  rw [Chip.each_cellDone_none hgone]
  simp [Chip.streamPump, Chip.closeRefused, Chip.stream, Chip.setStream, hpend, hrefused, Chip.streamFuel]

end

theorem cellAck_frees (s : State) (k : Cell) (x : SendStream) (hlive : s.live = true) (htype : k.type = 3) (hflags : k.flags = 0)
    (hk : k.dest.toNat = s.chipNumber) (hejected : s.tn.ejected = []) (hx : s.stream k.stream.toNat = some x)
    (hdest : x.dest = k.src) (hpend : x.pend = []) (hrefused : x.refused = false)
    (hmcast : (s.tn.pendingSignals.all fun p => p.mcast.isNone) = true)
    (hwork : (x.cells.all fun t => t.work == Work.none) = true) : s.gives (.cellAck k) fun c =>
    c.stream k.stream.toNat = some { x with cells := x.cells.filter fun t => !ackCovers k t.cell.seq } ∧
    Tab.get 0 c.tn.unreach k.src.toNat = 0 ∧ c = { s.toChip with tn := { s.tn with streams := c.tn.streams, unreach := c.tn.unreach } } := by
  refine State.gives_live (f := fun c => _) rfl hlive ?_
  dsimp only
  rw [Chip.when_pos (by simp [htype, hflags, hk]), Tn.erase_ejected hejected]
  rw [Chip.retryMcasts_none (by rw [Chip.takeAck_frees hx hdest hpend hrefused hwork]; exact hmcast),
    Chip.takeAck_frees hx hdest hpend hrefused hwork, ← hdest]
  exact ⟨Chip.stream_of_set rfl, Tab.get_set_same 0 s.tn.unreach x.dest.toNat 0, rfl⟩

theorem cellAckFin_frees (s : State) (k : Cell) (hlive : s.live = true) (htype : k.type = 3) (hflags : k.flags = 1)
    (hk : k.dest.toNat = s.chipNumber) (hsrc : k.src.toNat ≠ s.chipNumber) (hejected : s.tn.ejected = [])
    (hmcast : (s.tn.pendingSignals.all fun p => p.mcast.isNone) = true) (hwaiting : s.coll.waiting = []) :
    s.gives (.cellAckFin k) fun c =>
    c.context k.src k.stream = none ∧ c.tn.inject = s.tn.inject ++ [{ cellBlank with
      type := 3, flags := 5, dest := k.src, src := BitVec.ofNat 16 s.chipNumber, age := s.ageNow, stream := k.stream, seq := k.seq }] ∧
    c.mem = s.mem ∧ c.tn.streams = s.tn.streams := by
  refine State.gives_live (f := fun c => _) rfl hlive ?_
  dsimp only
  rw [Chip.when_pos (by simp [htype, hflags, hk]), Tn.erase_ejected hejected, Chip.takeFin, if_neg (by rw [hflags]; decide)]
  dsimp only
  rw [Chip.reply, Chip.offer_away hsrc, Chip.retryMcasts_none, Chip.collFeed_none]
  · refine ⟨?_, rfl, rfl, rfl⟩
    rw [Chip.context, List.find?_eq_none]
    intro x hx
    have hkeep := (List.mem_filter.mp hx).2
    rw [Bool.not_eq_true'] at hkeep
    rw [hkeep]
    exact Bool.false_ne_true
  · exact hwaiting
  · rw [List.all_eq_true] at hmcast ⊢
    exact fun p hp => hmcast p (List.mem_of_mem_filter hp)

theorem cellNack_backs_off (s : State) (k : Cell) (x : SendStream) (t : TxCell) (hlive : s.live = true) (htype : k.type = 4)
    (hk : k.dest.toNat = s.chipNumber) (hejected : s.tn.ejected = []) (hx : s.stream k.stream.toNat = some x)
    (hdest : x.dest = k.src) (ht : x.cells.find? (fun t => t.cell.seq == k.seq) = some t) (hreason : payloadField k 383 380 = 3) :
    s.gives (.cellNack k) fun c =>
    c = s.toChip.failNew (s.toChip.setStream k.stream.toNat (some (x.modify k.seq fun u => { u with
      nacks := t.nacks + 1, retx := 0
      backoff := some (s.aon + s.backoffTime (payloadField k 375 360) (t.nacks + 1)) }))).drew k.src := by
  refine State.gives_live (f := fun c => _) rfl hlive ?_
  dsimp only
  rw [Chip.when_pos (by simp [htype, hk]), Tn.erase_ejected hejected]
  simp [Chip.takeNack, hreason, hx, ht, hdest]

/-! ### PROBE -/

section
variable {k : Cell}

/-- A PROBE as it is ejected, with T_SEEN in place. -/
def seenProbe (k : Cell) (t : Word) : Cell := { k with payload := BitVec.ofNat 384 (setBits k.payload.toNat 319 256 t.toNat) }

theorem setBits_lt {x v : Nat} (h : x < 2 ^ 384) : setBits x 319 256 v < 2 ^ 384 := by
  unfold setBits bitsOf
  omega

theorem seenProbe_payload (t : Word) : (seenProbe k t).payload.toNat = setBits k.payload.toNat 319 256 t.toNat := by
  rw [seenProbe, BitVec.toNat_ofNat, Nat.mod_eq_of_lt (setBits_lt k.payload.isLt)]

theorem seenProbe_seen (t : Word) : payloadField (seenProbe k t) 319 256 = t.toNat := by
  rw [payloadField, seenProbe_payload]
  have := t.isLt
  unfold setBits bitsOf
  omega

theorem seenProbe_sent (t : Word) : payloadField (seenProbe k t) 383 320 = payloadField k 383 320 := by
  rw [payloadField, payloadField, seenProbe_payload]
  have := t.isLt
  unfold setBits bitsOf
  omega

theorem setBits_twice (x v : Nat) : setBits (setBits x 319 256 v) 319 256 0 = setBits x 319 256 0 := by
  unfold setBits bitsOf
  omega

theorem unstamped_of_payload {p : BitVec 384} (h : setBits p.toNat 319 256 0 = setBits k.payload.toNat 319 256 0) :
    unstamped { k with payload := p } = unstamped k := by
  simp only [unstamped, h]

theorem unstamped_seenProbe (t : Word) : unstamped (seenProbe k t) = unstamped k := by
  refine unstamped_of_payload ?_
  have hpayload := seenProbe_payload (k := k) t
  rw [seenProbe] at hpayload
  rw [hpayload, setBits_twice]

theorem src_withPayload (p : BitVec 384) : ({ k with payload := p } : Cell).src = k.src := rfl
theorem flags_withPayload (p : BitVec 384) : ({ k with payload := p } : Cell).flags = k.flags := rfl
theorem seenProbe_src (t : Word) : (seenProbe k t).src = k.src := src_withPayload _
theorem seenProbe_flags (t : Word) : (seenProbe k t).flags = k.flags := flags_withPayload _

end

section
variable {s : Chip} {k : Cell} (htype : k.type = 10) (hejected : s.tn.ejected = [])

include htype hejected

/-- A PROBE that the router hands out while nothing else waits is stamped with T_SEEN. -/
theorem Chip.ejectedProbe_request (hflags : k.flags = 0) : s.ejectedProbe k = (s, seenProbe k s.timebase) := by
  have heject : s.eject k = { s with tn := { s.tn with ejected := [seenProbe k s.timebase] } } := by
    rw [Chip.eject, hejected]
    simp [htype, hflags, seenProbe]
  have htn : ({ s.tn with ejected := [] } : Tn) = s.tn := by rw [← hejected]
  rw [Chip.ejectedProbe, hejected]
  simp [heject, unstamped_seenProbe, htn]

theorem Chip.ejectedProbe_answer (hflags : k.flags = 4) : s.ejectedProbe k = (s, k) := by
  have heject : s.eject k = { s with tn := { s.tn with ejected := [k] } } := by
    rw [Chip.eject, hejected]
    simp [htype, hflags]
  have htn : ({ s.tn with ejected := [] } : Tn) = s.tn := by rw [← hejected]
  rw [Chip.ejectedProbe, hejected]
  simp [heject, htn]

end

/-- The answer to a PROBE carries T_SENT and T_SEEN back (R127). -/
theorem Chip.takeProbe_request {s : Chip} {k : Cell} {sent seen : Nat} (h : k.flags.getLsbD 2 = false)
    (hsent : payloadField k 383 320 = sent) (hseen : payloadField k 319 256 = seen) (hsrc : k.src.toNat ≠ s.chipNumber) :
    s.takeProbe k = { s with tn := { s.tn with inject := s.tn.inject ++ [{ cellBlank with
      type := 10, flags := 4, dest := k.src, src := BitVec.ofNat 16 s.chipNumber, age := s.ageNow
      payload := BitVec.ofNat 384 (sent * 2 ^ 320 + seen * 2 ^ 256) }] } } := by
  rw [Chip.takeProbe, h, if_neg Bool.false_ne_true, hsent, hseen, Chip.reply, Chip.offer_away (by exact hsrc)]

theorem cellProbe_request (s : State) (k : Cell) (hlive : s.live = true) (htype : k.type = 10) (hflags : k.flags = 0)
    (hk : k.dest.toNat = s.chipNumber) (hsrc : k.src.toNat ≠ s.chipNumber) (hejected : s.tn.ejected = []) :
    s.gives (.cellProbe k) fun c =>
    c = { s.toChip with tn := { s.tn with inject := s.tn.inject ++ [{ cellBlank with
      type := 10, flags := 4, dest := k.src, src := BitVec.ofNat 16 s.chipNumber, age := s.ageNow
      payload := BitVec.ofNat 384 (payloadField k 383 320 * 2 ^ 320 + s.timebase.toNat * 2 ^ 256) }] } } := by
  refine State.gives_live (f := fun c => _) rfl hlive ?_
  dsimp only
  rw [Chip.when_pos (by simp [htype, hk]), Chip.ejectedProbe_request htype hejected hflags,
    Chip.takeProbe_request (k := seenProbe k s.timebase) (by rw [seenProbe_flags, hflags]; rfl) (seenProbe_sent _)
      (seenProbe_seen _) (by rw [seenProbe_src]; exact hsrc), seenProbe_src]

theorem cellProbe_answer (s : State) (k : Cell) (hlive : s.live = true) (htype : k.type = 10) (hflags : k.flags = 4)
    (hk : k.dest.toNat = s.chipNumber) (hejected : s.tn.ejected = []) (hprobe : s.tn.probe = some k.src) :
    s.gives (.cellProbe k) fun c =>
    let sent := BitVec.ofNat 64 (payloadField k 383 320)
    c = { s.toChip with tn := { s.tn with
      probe := none
      probeResult := BitVec.ofNat 64 ((s.timebase - sent).toNat % 2 ^ 32 * 2 ^ 32 +
        (BitVec.ofNat 64 (payloadField k 319 256) - sent).toNat % 2 ^ 32) } } := by
  refine State.gives_live (f := fun c => _) rfl hlive ?_
  dsimp only
  rw [Chip.when_pos (by simp [htype, hk]), Chip.ejectedProbe_answer htype hejected hflags, Chip.takeProbe,
    if_pos (by rw [hflags]; decide), hprobe]
  exact if_pos rfl

/-! ### The timers of streams -/

theorem retxTimeout_repeats (s : State) (n : BitVec 14) (q : Half) (x : SendStream) (t : TxCell) (hlive : s.live = true)
    (hx : s.stream n.toNat = some x) (hclosing : x.closing = false) (hheld : x.held = false)
    (ht : x.cells.find? (fun t => t.cell.seq == q && t.backoff.isNone) = some t) (hretx : t.retx < s.obj O.retxLimit) :
    s.gives (.retxTimeout n q) fun c =>
    c = s.toChip.failNew ((s.toChip.setStream n.toNat (some (x.modify q fun t => { t with retx := t.retx + 1 }))).resendCell
      n.toNat t) x.dest := by
  refine State.gives_live (f := fun c => _) rfl hlive ?_
  simp only [hx, Chip.retxTimeout, hclosing, hheld, ht, ge_iff_le, if_neg (not_le.mpr hretx), Bool.false_eq_true, if_false]

theorem retxTimeout_holds (s : State) (n : BitVec 14) (q : Half) (x : SendStream) (t : TxCell) (hlive : s.live = true)
    (hx : s.stream n.toNat = some x) (hclosing : x.closing = false) (hheld : x.held = false)
    (ht : x.cells.find? (fun t => t.cell.seq == q && t.backoff.isNone) = some t) (hretx : s.obj O.retxLimit ≤ t.retx) :
    s.gives (.retxTimeout n q) fun c =>
    c = s.toChip.failNew (((s.toChip.setStream n.toNat (some { x with held := true })).recall fun k => k.stream.toNat == n.toNat).raise
      0x8302 [.u16 n.toNat, .u16 x.dest.toNat]) x.dest := by
  refine State.gives_live (f := fun c => _) rfl hlive ?_
  simp only [hx, Chip.retxTimeout, hclosing, hheld, ht, ge_iff_le, if_pos hretx, Bool.false_eq_true, if_false]

theorem streamIdleExpiry_closes (s : State) (n : BitVec 14) (x : SendStream) (hlive : s.live = true)
    (hx : s.stream n.toNat = some x) (hpend : x.pend = []) (hcells : x.cells = []) (hheld : x.held = false)
    (hclosing : x.closing = false) : s.gives (.streamIdleExpiry n) fun c =>
    c = (s.toChip.setStream n.toNat (some { x with closing := true })).reply { cellBlank with
      type := 3, flags := 1, dest := x.dest, stream := n, seq := x.nextSeq - 1 } := by
  refine State.gives_live (f := fun c => _) rfl hlive ?_
  simp [Chip.streamIdle, Chip.closeStream, Chip.sendFin, hx, hpend, hcells, hheld, hclosing]

theorem streamIdleExpiry_waits (s : State) (n : BitVec 14) (x : SendStream) (hlive : s.live = true)
    (hx : s.stream n.toNat = some x) (hcells : x.cells ≠ []) : s.gives (.streamIdleExpiry n) fun c => c = s.toChip := by
  refine State.gives_live (f := fun c => _) rfl hlive ?_
  simp [Chip.streamIdle, Chip.closeStream, hx, hcells]

theorem sluiceApply_lands (s : State) (l : Nat) (k : Cell) (n : Nat) (hlive : s.live = true) (hs : s.tn.sluice = [⟨l, [k], n⟩]) :
    s.gives (.sluiceApply l) fun c =>
    c = let t := ({ s.toChip with tn := { s.tn with sluice := [] } } : Chip).applyPart k l
      (Chip.unpark Chip.landCell (t.noteLanded k.src k.stream k.seq) k.src k.stream).mirrorPump := by
  refine State.gives_live (f := fun c => _) rfl hlive ?_
  have hline : s.toChip.lineQueue l = some ⟨l, [k], n⟩ := by simp [Chip.lineQueue, hs]
  simp [Chip.sluiceApply, hline, hs, Chip.applyPart_sluice]

/-! ### DEST_RELEASE -/

section
variable {s : Chip}

/-- Freeing a set of streams takes each of them away. -/
theorem Chip.stream_each_setStream_none {α : Type} (l : List (Nat × α)) (n : Nat) :
    (s.each l fun s e => s.setStream e.1 none).stream n = if n ∈ l.map (·.1) then none else s.stream n := by
  induction l generalizing s with
  | nil => rfl
  | cons e r ih =>
    rw [Chip.each_cons, ih]
    by_cases hr : n ∈ r.map (·.1)
    · simp [hr]
    · by_cases hn : n = e.1
      · simp [hn]
      · simp [hr, hn, Chip.stream, Chip.setStream, Tab.get_set_ne]


theorem Chip.cellDone_tn (w : Work) (st : Status) : (s.cellDone w st).tn = s.tn := by
  cases w <;> simp only [Chip.cellDone, Chip.setQueue_tn]
  split <;> rfl
theorem Chip.cellDone_mem (w : Work) (st : Status) : (s.cellDone w st).mem = s.mem := by
  cases w <;> simp only [Chip.cellDone, Chip.setQueue_mem]
  split <;> rfl
theorem Chip.cellDone_log (w : Work) (st : Status) : (s.cellDone w st).log = s.log := by
  cases w <;> simp only [Chip.cellDone, Chip.setQueue_log]
  split <;> rfl
theorem Chip.cellDone_waiting (w : Work) (st : Status) : (s.cellDone w st).coll.waiting = s.coll.waiting := by
  cases w <;> simp only [Chip.cellDone, Chip.setQueue_coll]
  split <;> rfl

theorem Chip.memberFailed_unbound (h : (s.coll.comms.all fun e => e.2.state == .unbound) = true) (d : Half) :
    s.memberFailed d = s := by
  have hnone : (s.coll.comms.filter fun e => e.2.state != .unbound && (e.2.indexOf d).isSome &&
      e.2.chip e.2.myIndex.toNat != d) = [] := by
    rw [List.filter_eq_nil_iff]
    intro e he
    have hunbound := List.all_eq_true.mp h e he
    rw [beq_iff_eq] at hunbound
    simp [hunbound]
  rw [Chip.memberFailed, hnone]
  rfl

/-- The streams to a chip, with their numbers. -/
def Chip.streamsTo (s : Chip) (d : Half) : List (Nat × SendStream) := s.tn.streams.filterMap fun e => match e.2 with
  | some x => if x.dest = d then some (e.1, x) else none
  | none => none

/-- The chip with everything to and from d forgotten, before those who wait for it are told. -/
def Chip.forgotten (s : Chip) (d : Half) : Chip :=
  let mineCell (c : Cell) := c.dest == d && cellSequenced c && c.src.toNat == (s.each (s.streamsTo d) fun s e => s.setStream e.1 none).chipNumber
  let t := s.each (s.streamsTo d) fun s e => s.setStream e.1 none
  { t with
    coll := { t.coll with contextComm := t.coll.contextComm.filter fun e => e.1 != d }
    tn := { t.tn with
      inject := t.tn.inject.filter fun c => !mineCell c
      contexts := t.tn.contexts.filter fun c => c.src != d
      pendingSignals := t.tn.pendingSignals.filter fun p => p.src != d || p.cover.isNone
      unreach := Tab.set 0 t.tn.unreach d.toNat 0
      heldDests := Tab.set false t.tn.heldDests d.toNat false } }

/-- Telling those who wait keeps whatever `cellDone` keeps. -/
theorem Chip.destRelease_keeps {β : Type} (p : Chip → β) (h : ∀ s w st, p (Chip.cellDone s w st) = p s) (d : Half) :
    p (s.destRelease d) = p (s.forgotten d) :=
  Chip.each_keeps _ p _ (fun t _ => Chip.each_keeps t p _ (fun u _ => h u _ _) _) _

theorem Tab.mem_of_get {α : Type} {t : Tab (Option α)} {n : Nat} {x : α} (h : Tab.get none t n = some x) : (n, some x) ∈ t := by
  induction t with
  | nil => cases h
  | cons e r ih =>
    rw [Tab.get] at h
    split at h
    · rename_i hn
      rw [hn, ← h]
      exact List.mem_cons_self
    · exact List.mem_cons_of_mem _ (ih h)

theorem Chip.forgotten_stream {d : Half} {n : Nat} {x : SendStream} (hx : (s.forgotten d).stream n = some x) : x.dest ≠ d := by
  have hfree : (s.each (s.streamsTo d) fun s e => s.setStream e.1 none).stream n = some x := hx
  rw [Chip.stream_each_setStream_none] at hfree
  split at hfree
  · cases hfree
  · rename_i hother
    intro hdest
    refine hother (List.mem_map.mpr ⟨(n, x), ?_, rfl⟩)
    refine List.mem_filterMap.mpr ⟨(n, some x), Tab.mem_of_get hfree, ?_⟩
    simp only [hdest, if_true]

theorem Chip.forgotten_keeps {β : Type} (p : Chip → β)
    (htn : ∀ s x y, p { s with coll := { s.coll with contextComm := x }, tn := y } = p s) (d : Half) : p (s.forgotten d) = p s := by
  have hstreams : p (s.each (s.streamsTo d) fun s e => s.setStream e.1 none) = p s :=
    Chip.each_keeps s p _ (fun t e => htn t t.coll.contextComm _) _
  rw [← hstreams]
  exact htn _ _ _

theorem Chip.forgotten_contexts (d : Half) : (s.forgotten d).tn.contexts = s.tn.contexts.filter fun x => x.src != d := by
  have hkeep : (s.each (s.streamsTo d) fun s e => s.setStream e.1 none).tn.contexts = s.tn.contexts :=
    Chip.each_keeps s (·.tn.contexts) (fun s (e : Nat × SendStream) => s.setStream e.1 none) (fun t e => rfl) _
  rw [← hkeep]
  rfl

theorem Chip.forgotten_pendingSignals {q : PendingSignal → Bool} (h : s.tn.pendingSignals.all q = true) (d : Half) :
    (s.forgotten d).tn.pendingSignals.all q = true := by
  have hkeep : (s.each (s.streamsTo d) fun s e => s.setStream e.1 none).tn.pendingSignals = s.tn.pendingSignals :=
    Chip.each_keeps s (·.tn.pendingSignals) (fun s (e : Nat × SendStream) => s.setStream e.1 none) (fun t e => rfl) _
  rw [← hkeep, List.all_eq_true] at h
  rw [List.all_eq_true]
  exact fun p hp => h p (List.mem_of_mem_filter hp)

end

theorem destRelease_forgets (s : State) (d : Half) (hlive : s.live = true)
    (hcomms : (s.coll.comms.all fun e => e.2.state == .unbound) = true)
    (hmcast : (s.tn.pendingSignals.all fun p => p.mcast.isNone) = true) (hwaiting : s.coll.waiting = []) :
    s.gives (.destRelease d) fun c =>
    (∀ n x, c.stream n = some x → x.dest ≠ d) ∧ c.tn.contexts = s.tn.contexts.filter (fun x => x.src != d) ∧
    Tab.get false c.tn.heldDests d.toNat = false ∧ Tab.get 0 c.tn.unreach d.toNat = 0 ∧ c.mem = s.mem ∧ c.log = s.log := by
  have htn : (s.toChip.destRelease d).tn = (s.toChip.forgotten d).tn := Chip.destRelease_keeps Chip.tn (fun _ => Chip.cellDone_tn) d
  have hwait : (s.toChip.destRelease d).coll.waiting = [] :=
    ((Chip.destRelease_keeps (·.coll.waiting) (fun _ => Chip.cellDone_waiting) d).trans
      (Chip.forgotten_keeps (·.coll.waiting) (fun _ _ _ => rfl) d)).trans hwaiting
  have hnone : ((s.toChip.destRelease d).tn.pendingSignals.all fun p => p.mcast.isNone) = true := by
    rw [htn]
    exact Chip.forgotten_pendingSignals hmcast d
  refine State.gives_live (f := fun c => _) rfl hlive ?_
  rw [Chip.releaseDest, Chip.memberFailed_unbound hcomms, Chip.retryMcasts_none hnone, Chip.collFeed_none hwait]
  refine ⟨fun n x hx => ?_, ?_, ?_, ?_, ?_, ?_⟩
  · rw [Chip.stream, htn] at hx
    exact Chip.forgotten_stream hx
  · rw [htn]
    exact Chip.forgotten_contexts d
  · rw [htn, Chip.forgotten]
    simp
  · rw [htn, Chip.forgotten]
    simp
  · exact (Chip.destRelease_keeps Chip.mem (fun _ => Chip.cellDone_mem) d).trans (Chip.forgotten_keeps Chip.mem (fun _ _ _ => rfl) d)
  · exact (Chip.destRelease_keeps Chip.log (fun _ => Chip.cellDone_log) d).trans (Chip.forgotten_keeps Chip.log (fun _ _ _ => rfl) d)

/-- Settles O22: each clause is a lemma above, or one branch of the function its command names. -/
theorem controlCellsAndStreams : Obligations.Control_cells_and_streams := by
  unfold Obligations.Control_cells_and_streams
  refine ⟨cellAck_frees, cellAckFin_frees, cellNack_backs_off, ?_, cellProbe_request, cellProbe_answer, ?_, ?_, retxTimeout_repeats,
    retxTimeout_holds, ?_, streamIdleExpiry_closes, streamIdleExpiry_waits, sluiceApply_lands, destRelease_forgets⟩
  · intro s t d h
    rw [Chip.failNew, h, Bool.and_not_self]
    rfl
  · intro s k hlive htype hk hejected
    refine State.gives_live (f := fun c => _) rfl hlive ?_
    dsimp only
    have hreserved : decide (k.type ≥ 11) = true := decide_eq_true htype
    rw [Chip.when_pos (by rw [hreserved, hk, BEq.rfl]; rfl), Tn.erase_ejected hejected]
  · intro s src n x hlive hx hunacked
    refine State.gives_live rfl hlive ?_
    simp only [Chip.ackTime, hx, gt_iff_lt, if_pos hunacked]
  · intro s n q x t hlive hx hheld ht
    refine State.gives_live rfl hlive ?_
    simp only [Chip.backoffEnd, hx, ht, hheld, Bool.false_eq_true, if_false]

end Sys2Proof.Machine
end

section
/-! PROOF. The timebase and the objects that name the chip (R89, R91, R92, R121–R123, R127, R129, R141). -/

namespace Sys2Proof.Machine

/-! ### What a port sends

Sending on a port changes the port and what leaves it, and keeps everything else. -/

section
variable {β : Type} (f : Chip → β) (hport : ∀ s q g, f (Chip.setPort s q g) = f s) (hemit : ∀ s o, f (Chip.emit s o) = f s)
  (s : Chip) (p : Nat)

include hport hemit

theorem Chip.transmit_keeps (out : List (Nat × LaneFrame) → Output) (frames : List (Nat × LaneFrame)) :
    f (s.transmit p out frames) = f s := by
  rw [Chip.transmit, hemit, hport]

theorem Chip.sendSuperframe_keeps (k : Option CtrlSlot) : f (s.sendSuperframe p k) = f s := by
  rw [Chip.sendSuperframe, Chip.sendFrame, Chip.transmit_keeps f hport hemit, hport, hport]

theorem Chip.flushPort_keeps : f (s.flushPort p) = f s := by
  rw [Chip.flushPort]
  generalize (s.port p).txPending.length = fuel
  induction fuel generalizing s with
  | zero => rfl
  | succ n ih =>
    simp only [Chip.flushFuel]
    split
    · rw [ih, Chip.sendSuperframe_keeps f hport hemit]
    · rfl

theorem Chip.sendPrbs_keeps : f (s.sendPrbs p) = f s := by
  rw [Chip.sendPrbs, hport, Chip.transmit_keeps f hport hemit]

theorem Chip.sendCtrl_keeps (code : Byte) (arg : Nat) : f (s.sendCtrl p code arg) = f s := by
  simp only [Chip.sendCtrl]
  split
  · split
    · exact Chip.sendPrbs_keeps f hport hemit s p
    · rw [Chip.flushPort_keeps f hport hemit, Chip.sendSuperframe_keeps f hport hemit, hemit]
  · rfl

end

/-! ### The timebase -/

section
variable {s : Chip}

theorem Chip.timeExchange_master (hassigned : s.objb O.chipAssigned = true) (hmaster : s.chipNumber = s.tbMasterChip) :
    s.timeExchange = { s with tn := { s.tn with tbState := .master, tbParent := 0xFFFFFFFF } } := by
  simp only [Chip.timeExchange, hassigned, hmaster, Bool.not_true, Bool.false_eq_true, if_false, if_true]

theorem Chip.timeExchange_locked (hassigned : s.objb O.chipAssigned = true) (hmaster : s.chipNumber ≠ s.tbMasterChip)
    (hlocked : s.tn.tbState = .locked) : s.timeExchange =
      ({ s with tn := { s.tn with tbParent := BitVec.ofNat 32 s.tbParentChip } } : Chip).sendTime s.tbParentChip
        (s.timebase.toNat * 2 ^ 320) := by
  simp only [Chip.timeExchange, hassigned, hmaster, hlocked, Bool.not_true, Bool.false_eq_true, if_false, reduceCtorEq]

variable {port : Nat} {k : Cell} (v : Word) (hk : k.dest.toNat = s.chipNumber)
  (hport : s.tnPorts.contains (port, k.src.toNat) = true)

include hk hport

/-- A time request is answered with its own time, that of its arrival and that of the answer (R121). -/
theorem Chip.takeTime_request (hrequest : payloadField k 255 192 = 0) : s.takeTime port k v =
    s.sendTime k.src.toNat (payloadField k 383 320 * 2 ^ 320 + v.toNat * 2 ^ 256 + s.timebase.toNat * 2 ^ 192) := by
  simp only [Chip.takeTime, hk, hport, hrequest, ne_eq, not_true_eq_false, Bool.not_true, Bool.false_eq_true, or_self, if_false]

/-- The parent's answer gives one more offset, and nothing else before the eighth (R121). -/
theorem Chip.takeTime_answer (hanswer : payloadField k 255 192 ≠ 0) (hparent : s.tn.tbParent.toNat = k.src.toNat)
    (hfew : s.tn.offsets.length < 7) : s.takeTime port k v = { s with tn := { s.tn with offsets :=
      ((((payloadField k 319 256 : Int) - payloadField k 383 320) - ((v.toNat : Int) - payloadField k 255 192)).tdiv 2) ::
        s.tn.offsets } } := by
  have htake (o : Int) : (o :: s.tn.offsets).take 8 = o :: s.tn.offsets := List.take_of_length_le (by simp; omega)
  have hlength (o : Int) : (o :: s.tn.offsets).length < 8 := by simp; omega
  simp only [Chip.takeTime, hk, hport, hanswer, hparent, ne_eq, not_true_eq_false, Bool.not_true, Bool.false_eq_true, or_self,
    not_false_eq_true, if_false, if_true, Chip.timeAnswer, htake, hlength]

end

theorem cellTime_gives {s : State} {p : Fin 160} {k : Cell} {v : Word} {P : Chip → Prop} (hlive : s.live = true)
    (htype : k.type = 9) (hejected : s.tn.ejected = []) (hp : P (s.toChip.takeTime p.val k v)) : s.gives (.cellTime p k v) P := by
  refine State.gives_live (f := fun c => _) rfl hlive ?_
  rw [Chip.when_pos (by rw [htype]; rfl), Tn.erase_ejected hejected]
  exact hp

theorem tnreadyChange_announces (s : State) (hlive : s.live = true) (hready : s.tnReady ≠ s.tn.readySent)
    (hwaiting : s.coll.waiting = []) : s.gives .tnreadyChange fun c =>
    c = let t := s.toChip.each ((s.ports.filter fun e => s.obju O.portRole e.1 == 1 && e.2.state.linked).map (·.1)) (fun t p => t.sendCtrl p 0 0)
      { t with tn := { t.tn with readySent := t.tnReady } } := by
  have hkept : s.toChip.readyChange.coll.waiting = [] := by
    rw [← hwaiting]
    exact Chip.each_keeps s.toChip (·.coll.waiting) (fun t p => t.sendCtrl p 0 0)
      (fun t p => Chip.sendCtrl_keeps (·.coll.waiting) (fun _ _ _ => rfl) (fun _ _ => rfl) t p 0 0) _
  refine State.gives_live (f := fun c => _) rfl hlive ?_
  rw [Chip.when_pos (bne_iff_ne.mpr hready), Chip.collFeed_none hkept]
  rfl

theorem probeTarget_sends (s : State) (chip : Half) (hlive : s.live = true) (hother : chip.toNat ≠ s.chipNumber) :
    s.gives (.probeTarget chip) fun c => c = { s.toChip with tn := { s.tn with
      probe := some chip
      inject := s.tn.inject ++ [{ cellBlank with type := 10, dest := chip, src := BitVec.ofNat 16 s.chipNumber, age := s.ageNow }] } } := by
  refine State.gives_live rfl hlive ?_
  rw [Chip.probeTo, Chip.reply, Chip.offer_away (by exact hother)]
  rfl

theorem injected_probe (s : Chip) (k : Cell) (htype : k.type = 10) (hflags : k.flags = 0) : s.injected k = { k with
    age := s.ageNow, payload := BitVec.ofNat 384 (setBits k.payload.toNat 383 320 s.timebase.toNat) } := by
  simp [Chip.injected, htype, hflags]

/-! ### The objects that name the chip -/

theorem domainShapeWrite_taken (s : State) (w : ShapeObject) (v : Byte) (hlive : s.live = true) (hdisabled : s.allDisabled 1 = true)
    (hrange : inRange (shapeKey w) v.toNat = true) (hsum : (s.toChip.setObj (shapeKey w) v.toNat).obj O.bundle *
      ((s.toChip.setObj (shapeKey w) v.toNat).obj O.domainX + (s.toChip.setObj (shapeKey w) v.toNat).obj O.domainY - 2) ≤ 126) :
    s.gives (.domainShapeWrite w v) fun c => c = s.toChip.setObj (shapeKey w) v.toNat := by
  refine State.gives_live rfl hlive ?_
  rw [Chip.shapeWrite, if_pos (by rw [hdisabled, hrange, decide_eq_true hsum]; rfl)]
  rfl

theorem tbMasterWrite_taken (s : State) (v : Word32) (hlive : s.live = true) (hv : v.toNat < 65536 ∨ v = 0xFFFFFFFF) :
    s.gives (.tbMasterWrite v) fun c =>
    c.obj O.tbMaster = v.toNat ∧ c = { s.toChip.setObj O.tbMaster v.toNat with tn := { s.tn with tbParent := c.tn.tbParent } } := by
  have hvalue : v.toNat < 65536 ∨ v.toNat = 0xFFFFFFFF := hv.imp_right fun h => by rw [h]; rfl
  refine State.gives_live rfl hlive ?_
  rw [Chip.tbMasterWrite, if_pos hvalue]
  exact ⟨s.toChip.setObj_same _ _, rfl⟩

theorem rackMembersWrite_taken (s : State) (l : List Word32) (hlive : s.live = true) (hlength : l.length ≤ 32)
    (hmembers : (l.all fun v => v.toNat < 0xFFFFF) = true) :
    s.gives (.rackMembersWrite l) fun c => c = { s.toChip with gn := { s.gn with members := l.map (·.toNat) } } := by
  refine State.gives_live rfl hlive ?_
  rw [Chip.rackMembersWrite, if_pos (by rw [List.length_map, decide_eq_true hlength, List.all_map]; exact hmembers)]
  rfl

/-- While a port of its network is not Disabled, no object that names the chip is written (R89, R141). -/
theorem names_refused (s : State) (i : Instr) (hlive : s.live = true)
    (h : (s.allDisabled 1 = false ∧ ((∃ v, i = .chipNumberWrite v) ∨ (∃ v, i = .chipAssignedWrite v) ∨ ∃ w v, i = .domainShapeWrite w v)) ∨
      (s.allDisabled 2 = false ∧ ∃ v, i = .gnNodeWrite v)) : s.gives i fun c => c = s.toChip := by
  rcases h with ⟨h, ⟨v, rfl⟩ | ⟨v, rfl⟩ | ⟨w, v, rfl⟩⟩ | ⟨h, v, rfl⟩
  · refine State.gives_live rfl hlive ?_
    rw [Chip.chipNumberWrite, h]
    rfl
  · refine State.gives_live rfl hlive ?_
    rw [Chip.chipAssignedWrite, h]
    rfl
  · refine State.gives_live rfl hlive ?_
    rw [Chip.shapeWrite, h]
    rfl
  · refine State.gives_live rfl hlive ?_
    rw [Chip.gnNodeWrite, h]
    rfl

/-- Settles O23: each clause is a lemma above, or one branch of the function its command names. -/
theorem timebaseAndNames : Obligations.Timebase_and_names := by
  unfold Obligations.Timebase_and_names
  refine ⟨?_, ?_, ?_, ?_, ?_, tnreadyChange_announces, ?_, probeTarget_sends, injected_probe, ?_, ?_, ?_, domainShapeWrite_taken,
    tbMasterWrite_taken, ?_, rackMembersWrite_taken, names_refused⟩
  · intro s hlive hassigned hmaster
    exact State.gives_live rfl hlive (Chip.timeExchange_master hassigned hmaster)
  · intro s hlive hassigned hmaster hlocked
    exact State.gives_live rfl hlive (Chip.timeExchange_locked hassigned hmaster hlocked)
  · intro s hlive hlocked
    refine State.gives_live (f := fun c => _) rfl hlive ?_
    rw [Chip.when_pos (by rw [hlocked]; rfl)]
    rfl
  · intro s p k v hlive htype hk hejected hport hrequest
    exact cellTime_gives hlive htype hejected (Chip.takeTime_request v hk hport hrequest)
  · intro s p k v hlive htype hk hejected hport hanswer hparent hfew
    exact cellTime_gives hlive htype hejected (Chip.takeTime_answer v hk hport hanswer hparent hfew)
  · intro s p hlive
    exact State.gives_live rfl hlive rfl
  · intro s hlive hprobe
    refine State.gives_live (f := fun c => _) rfl hlive ?_
    rw [Chip.when_pos hprobe]
  · intro s v hlive hdisabled
    refine State.gives_live rfl hlive ?_
    rw [Chip.chipNumberWrite, if_pos (by rw [hdisabled, decide_eq_true v.isLt]; rfl)]
    rfl
  · intro s v hlive hdisabled
    refine State.gives_live rfl hlive ?_
    rw [Chip.chipAssignedWrite, if_pos hdisabled]
    rfl
  · intro s v hlive hdisabled hv
    refine State.gives_live rfl hlive ?_
    rw [Chip.gnNodeWrite, if_pos (by rw [hdisabled, decide_eq_true hv]; rfl)]
    rfl

end Sys2Proof.Machine
end

section
/-! PROOF. Packets of the general network: requests, responses, targets, and the end of a job (R133–R160, R190). -/

namespace Sys2Proof.Machine

/-! ### What sending a packet keeps -/

section
variable {β : Type} (f : Chip → β) (hport : ∀ s q g, f (Chip.setPort s q g) = f s) (hemit : ∀ s o, f (Chip.emit s o) = f s)
  (hgn : ∀ s (g : Gn), f { (s : Chip) with gn := g } = f s) (s : Chip) (p : Nat)

include hport hemit hgn

theorem Chip.startPacket_keeps (o : OutPacket) (rr1 rr2 : Nat) : f (s.startPacket o rr1 rr2) = f s := by
  rw [Chip.startPacket, Chip.flushPort_keeps f hport hemit, hemit, hgn, Chip.enqueue, hport, Chip.setGnCredits, hgn]

theorem Chip.pumpFuel_keeps (fuel : Nat) : f (Chip.pumpFuel p fuel s) = f s := by
  induction fuel generalizing s with
  | zero => rfl
  | succ n ih =>
    simp only [Chip.pumpFuel]
    split
    · rw [ih, Chip.startPacket_keeps f hport hemit hgn]
    · rfl

theorem Chip.gnPump_keeps : f (s.gnPump p) = f s := by
  rw [Chip.gnPump]
  split
  · exact Chip.pumpFuel_keeps f hport hemit hgn s p _
  · rfl

theorem Chip.gnAnswer_keeps (k : GnPacket) (st : BitVec 4) (w : Word) (bs : List Byte) (marks : List Bool) :
    f (s.gnAnswer k st w bs marks) = f s := by
  rw [Chip.gnAnswer, Chip.gnRespond]
  split
  · rw [Chip.gnQueue, Chip.gnPump_keeps f hport hemit hgn, hgn]
  · rfl

theorem Chip.gnTake_keeps (k : GnPacket) : f (s.gnTake p k) = f s := by
  simp only [Chip.gnTake]
  split
  · rw [Chip.setGnCredits, hgn]
  · rw [Chip.gnPump_keeps f hport hemit hgn, Chip.setGnCredits, hgn, Chip.setGnCredits, hgn]

end

@[simp] theorem Chip.gnTake_mem (s : Chip) (p : Nat) (k : GnPacket) : (s.gnTake p k).mem = s.mem :=
  s.gnTake_keeps Chip.mem (fun _ _ _ => rfl) (fun _ _ => rfl) (fun _ _ => rfl) p k
@[simp] theorem Chip.gnTake_job (s : Chip) (p : Nat) (k : GnPacket) : (s.gnTake p k).job = s.job :=
  s.gnTake_keeps Chip.job (fun _ _ _ => rfl) (fun _ _ => rfl) (fun _ _ => rfl) p k
@[simp] theorem Chip.gnAnswer_mem (s : Chip) (k : GnPacket) (st : BitVec 4) (w : Word) (bs : List Byte) (marks : List Bool) :
    (s.gnAnswer k st w bs marks).mem = s.mem :=
  s.gnAnswer_keeps Chip.mem (fun _ _ _ => rfl) (fun _ _ => rfl) (fun _ _ => rfl) k st w bs marks
theorem Chip.raiseLimited_mem (s : Chip) (code u : Nat) (args : List Arg) : (s.raiseLimited code u args).mem = s.mem := by
  simp only [Chip.raiseLimited]
  split
  · split <;> rfl
  · exact s.raise_mem code args
@[simp] theorem Chip.gnBad_mem (s : Chip) : s.gnBad.mem = s.mem := by
  exact Chip.raiseLimited_mem ..

/-! ### Arrival -/

section
variable {s : Chip} {p : Nat} {k : GnPacket} {types : List (BitVec 4)} {g : Chip → Chip}

theorem Chip.gnArrival_bad (haccepts : s.gnAccepts p k = true) (hcrc : k.hcrc ≠ gnHcrc k) : s.gnArrival p k types g = s.gnBad := by
  rw [Chip.gnArrival, Chip.when_pos haccepts, if_pos (bne_iff_ne.mpr hcrc)]

theorem Chip.gnArrival_good (haccepts : s.gnAccepts p k = true) (hcrc : k.hcrc = gnHcrc k) (htype : types.contains k.ptype = true) :
    s.gnArrival p k types g = g (s.gnTake p k) := by
  rw [Chip.gnArrival, Chip.when_pos haccepts, if_neg (by simp [hcrc]), if_pos htype]

/-- Whatever a packet of a row's types keeps after its slots are taken in, its arrival keeps. -/
theorem Chip.gnArrival_mem (hg : (g (s.gnTake p k)).mem = s.mem) : (s.gnArrival p k types g).mem = s.mem := by
  refine Chip.when_of (·.mem = s.mem) rfl ?_
  split
  · exact s.gnBad_mem
  · split
    · exact hg
    · split
      · exact s.gnBad_mem
      · rfl

/-! ### A chip whose job ends (R147, R190) -/

theorem Chip.gnServe_closed (h : 2 ≤ s.job.state) : s.gnServeRead p k = s.gnAnswer k 3 0 [] [] ∧
    s.gnServeWrite p k = s.gnAnswer k 3 0 [] [] ∧ s.gnServeAtomic p k = s.gnAnswer k 3 0 [] [] := by
  have hclosed : s.gnClosed = true := decide_eq_true h
  simp only [Chip.gnServeRead, Chip.gnServeWrite, Chip.gnServeAtomic, hclosed, if_true, and_self]

end

/-- Settles O27: a chip whose job ends answers STATUS 3, and sending an answer keeps memory. -/
theorem jobEndClosesMemory : Obligations.Job_end_closes_memory := by
  unfold Obligations.Job_end_closes_memory
  intro s p k i hi hlive hjob
  obtain ⟨hread, hwrite, hatomic⟩ :=
    Chip.gnServe_closed (s := s.toChip.gnTake p.val k) (p := p.val) (k := k) (by rw [Chip.gnTake_job]; exact hjob)
  rcases hi with rfl | rfl | rfl | rfl <;> refine State.gives_live rfl hlive (Chip.gnArrival_mem ?_)
  · rw [hread, Chip.gnAnswer_mem, Chip.gnTake_mem]
  · rw [hwrite, Chip.gnAnswer_mem, Chip.gnTake_mem]
  · rw [hwrite, Chip.gnAnswer_mem, Chip.gnTake_mem]
  · rw [hatomic, Chip.gnAnswer_mem, Chip.gnTake_mem]

/-! ### Requests (R133–R136) -/

section
variable {s : Chip} {p : Nat} {k : GnPacket} (hjob : s.job.state < 2) (hcut : s.cutOff (portSite p) k.addr.toNat = false)

include hjob hcut

theorem Chip.gnServeRead_memory (hblock : k.addr.toNat % 4096 + k.len.toNat ≤ 4096)
    (hrange : s.rangeData k.addr.toNat k.len.toNat = true) : s.gnServeRead p k =
      let r := s.readFrom (portSite p) k.addr.toNat k.len.toNat k.hint
      r.1.gnAnswer k (if readPoison r.2 then 1 else 0) 0 (readData r.2) (lineMarks r.2) := by
  have hopen : s.gnClosed = false := decide_eq_false (not_le.mpr hjob)
  simp only [Chip.gnServeRead, hopen, gt_iff_lt, if_neg (not_lt.mpr hblock), hrange, hcut, Bool.false_eq_true, if_false, if_true]

theorem Chip.gnServeWrite_memory (hshort : k.ptype = 3 → k.len.toNat ≤ 64) (hdcrc : k.dcrc = gnDcrc k)
    (hblock : k.addr.toNat % 4096 + k.len.toNat ≤ 4096) (hrange : s.rangeData k.addr.toNat k.len.toNat = true) :
    s.gnServeWrite p k = (s.landBytes (portSite p) k.addr.toNat (fit k.len.toNat k.payload) (gnMarks k) k.hint).gnAnswer k 0 0 [] [] := by
  have hopen : s.gnClosed = false := decide_eq_false (not_le.mpr hjob)
  have hwhole : (gnCarriesData k && k.dcrc != gnDcrc k) = false := by simp [hdcrc]
  have hlength : ¬(k.ptype = 3 ∧ k.len.toNat > 64) := fun h => absurd (hshort h.1) (not_le.mpr h.2)
  simp only [Chip.gnServeWrite, hopen, hwhole, hlength, gt_iff_lt, if_neg (not_lt.mpr hblock), hrange, hcut, Bool.false_eq_true,
    if_false, if_true]

theorem Chip.gnServeAtomic_add (haop : k.aop = 0) (hsize : k.size = true) (halign : k.addr.toNat % 8 = 0)
    (hrange : s.rangeData k.addr.toNat 8 = true) : s.gnServeAtomic p k =
      let r := s.memAtomic (portSite p) k.addr.toNat 8 0 k.opA.toNat k.opB.toNat false k.hint
      (if r.2.2 then r.1 else r.1.noteMirror (.atomic k.addr.toNat 0 true k.opA k.opB)).gnAnswer k (if r.2.2 then 1 else 0)
        (BitVec.ofNat 64 r.2.1) [] [] := by
  have hopen : s.gnClosed = false := decide_eq_false (not_le.mpr hjob)
  simp [Chip.gnServeAtomic, hopen, haop, hsize, halign, hrange, hcut]

end

/-- Settles O24: the arrival of a packet, and then the branch of its service. -/
theorem gnRequests : Obligations.Gn_requests := by
  unfold Obligations.Gn_requests
  refine ⟨?_, ?_, ?_, ?_, ?_, ?_⟩
  · intro s p k hlive haccepts hcrc
    refine State.gives_live (f := fun c => _) rfl hlive ?_
    rw [Chip.when_pos (by rw [haccepts, bne_iff_ne.mpr hcrc]; rfl)]
    rfl
  · intro s p k i hlive haccepts hcrc hi
    rcases hi with rfl | rfl | rfl | rfl | rfl | rfl <;>
      exact State.gives_live rfl hlive (Chip.gnArrival_bad haccepts hcrc)
  · intro s p k hlive haccepts hcrc htype hjob hblock hrange hcut
    refine State.gives_live rfl hlive ?_
    rw [Chip.gnArrival_good haccepts hcrc (by rw [htype]; rfl), Chip.gnServeRead_memory hjob hcut hblock hrange]
  · intro s p k i hlive haccepts hcrc hi hdcrc hjob hblock hrange hcut
    rcases hi with ⟨rfl, htype⟩ | ⟨rfl, htype, hlen⟩ <;> refine State.gives_live rfl hlive ?_
    · rw [Chip.gnArrival_good haccepts hcrc (by rw [htype]; rfl),
        Chip.gnServeWrite_memory hjob hcut (fun h => by rw [htype] at h; cases h) hdcrc hblock hrange]
    · rw [Chip.gnArrival_good haccepts hcrc (by rw [htype]; rfl),
        Chip.gnServeWrite_memory hjob hcut (fun _ => hlen) hdcrc hblock hrange]
  · intro s p k hlive haccepts hcrc htype hjob haop hsize halign hrange hcut
    refine State.gives_live rfl hlive ?_
    rw [Chip.gnArrival_good haccepts hcrc (by rw [htype]; rfl), Chip.gnServeAtomic_add hjob hcut haop hsize halign hrange]
  · intro s p k i hlive haccepts hcrc hi hjob
    obtain ⟨hread, hwrite, hatomic⟩ := Chip.gnServe_closed (p := p.val) (k := k) hjob
    rcases hi with ⟨rfl, htype⟩ | ⟨rfl, htype⟩ | ⟨rfl, htype⟩ <;> refine State.gives_live rfl hlive ?_
    · rw [Chip.gnArrival_good haccepts hcrc (by rw [htype]; rfl), hread]
    · rw [Chip.gnArrival_good haccepts hcrc (by rw [htype]; rfl), hwrite]
    · rw [Chip.gnArrival_good haccepts hcrc (by rw [htype]; rfl), hatomic]

/-! ### Responses and credits (R138, R160) -/

section
variable {s : Chip} {k : GnPacket} {r : GnReq}

/-- The answer to a WRITE settles it (R160). -/
theorem Chip.gnResponse_write (htype : k.ptype = 4) (hrequest : r.pkt.ptype = 2) (hstatus : k.status = 0) (hpayload : k.payload = [])
    (hr : s.gn.reqs.find? (fun q => q.tag == k.tag && q.pkt.dest == k.src) = some r) : s.gnResponse k =
      (({ s with gn := { s.gn with reqs := s.gn.reqs.erase r } } : Chip).gnSettle r .ok [] [] k.opA).gnFeed.mirrorPump := by
  have hdata : gnCarriesData k = false := by simp [gnCarriesData, htype]
  simp [Chip.gnResponse, hr, htype, hrequest, hstatus, hpayload, hdata, gnStatus]

end

/-- Settles O25: each clause is one branch of the function its command names. -/
theorem gnResponses : Obligations.Gn_responses := by
  unfold Obligations.Gn_responses
  refine ⟨?_, ?_, ?_, ?_, ?_⟩
  · intro s p k r hlive haccepts hcrc htype hrequest hstatus hpayload hr
    refine State.gives_live rfl hlive ?_
    rw [Chip.gnArrival_good haccepts hcrc (by rw [htype]; rfl), Chip.gnResponse_write htype hrequest hstatus hpayload hr]
  · intro s p k hlive haccepts hcrc htype hr
    refine State.gives_live rfl hlive ?_
    rw [Chip.gnArrival_good haccepts hcrc (by rw [htype]; rfl), Chip.gnResponse, hr]
  · intro s p k hlive haccepts hcrc htype htag
    refine State.gives_live rfl hlive ?_
    rw [Chip.gnArrival_good haccepts hcrc (by rw [htype]; rfl)]
    simp only [Chip.gnCreditPacket, htag, if_true]
  · intro s p v hlive hactive hmany hfew
    refine State.gives_live rfl hlive ?_
    rw [Chip.creditReturn, Chip.when_pos (by rw [hactive, decide_eq_true (show _ ≥ 64 from hmany)]; rfl), min_eq_left hfew]
    simp only [Nat.sub_self]
    rfl
  · intro s p i hlive hi
    refine State.gives_live rfl hlive ?_
    rw [Chip.bulkAge, hi]

/-! ### Targets and windows (R140, R145, R153–R155, R158, R159) -/

section
variable {s : Chip}

theorem Chip.gnFeed_none (h : s.gn.waiting = []) : s.gnFeed = s := by rw [Chip.gnFeed, Chip.gnGrant, h]; rfl

theorem Chip.mirrorPump_unpaired (h : s.service.pair = none) : s.mirrorPump = s := by rw [Chip.mirrorPump, h]

theorem Chip.markDead_new {n : Nat} {tag : Half} (h : s.gn.dead.contains n = false) : s.markDead n tag =
    ({ s with gn := { s.gn with dead := s.gn.dead ++ [n] } } : Chip).raise 0x8401 [.u32 n, .u16 tag.toNat] := by
  rw [Chip.markDead, h]
  rfl

theorem Chip.deadTime_kills {r : GnReq} (hr : s.gn.reqs.find? (fun q => q.tag == r.tag) = some r)
    (hdead : s.gn.dead.contains r.pkt.dest.toNat = false)
    (hsent : (s.gn.outq.any fun o => o.port == r.port && gnIsRequest o.pkt && o.pkt.tag == r.tag) = false) :
    s.deadTime r.tag = ((({ s with gn := { s.gn with
      reqs := s.gn.reqs.erase r
      dead := s.gn.dead ++ [r.pkt.dest.toNat] } } : Chip).raise 0x8401
        [.u32 r.pkt.dest.toNat, .u16 r.tag.toNat]).gnFail r .timeout).gnFeed.mirrorPump := by
  simp only [Chip.deadTime, hr, hsent, Bool.false_eq_true, if_false]
  rw [Chip.markDead_new (s := { s with gn := { s.gn with reqs := s.gn.reqs.erase r } }) hdead]

theorem Gn.with_nothing_tagged {g : Gn} (hreqs : g.reqs = []) (hgranules : g.granuleHeld = []) (hflagged : g.flaggedHeld = [])
    (l : List Nat) : ({ g with dead := l, reqs := [], granuleHeld := [], flaggedHeld := [] } : Gn) = { g with dead := l } := by
  cases g
  cases hreqs
  cases hgranules
  cases hflagged
  rfl

/-- The release of a target of which nothing is left (R159). -/
theorem Chip.targetRelease_nothing {n : Nat} (htagged : s.tagged = []) (hwaiting : s.gn.waiting = []) (hpair : s.service.pair = none) :
    s.targetRelease n = ({ s with gn := { s.gn with dead := s.gn.dead.filter (· != n) } } : Chip).raise 0x0401 [.u32 n] := by
  have hparts := htagged
  rw [Chip.tagged, List.append_eq_nil_iff, List.append_eq_nil_iff, List.map_eq_nil_iff] at hparts
  obtain ⟨⟨hreqs, hgranules⟩, hflagged⟩ := hparts
  have hgn : ({ s.gn with dead := s.gn.dead.filter (· != n), reqs := [], granuleHeld := [], flaggedHeld := [] } : Gn) =
      { s.gn with dead := s.gn.dead.filter (· != n) } := Gn.with_nothing_tagged hreqs hgranules hflagged _
  rw [Chip.targetRelease, htagged, hreqs, hgranules, hflagged]
  simp only [List.filter_nil, Chip.each_nil]
  rw [hgn, Chip.gnFeed_none (by rw [Chip.raise_gn]; exact hwaiting), Chip.mirrorPump_unpaired (by rw [Chip.raise_service]; exact hpair)]

theorem Chip.flaggedRelease_sends {h : FlaggedHold} (hheld : s.gn.flaggedHeld = [h]) (hwait : h.waitFor = []) (hfailed : h.failed = none)
    (hdead : s.gn.dead = []) :
    s.flaggedRelease h.req.tag = (({ s with gn := { s.gn with flaggedHeld := [] } } : Chip).gnSend h.req).gnFeed := by
  simp [Chip.flaggedRelease, hheld, hwait, hfailed, hdead]

theorem Chip.granuleRelease_sends {r : GnReq} (hheld : s.gn.granuleHeld = [r]) (hreqs : s.gn.reqs = []) :
    s.granuleRelease (r.rack / 4096) = ({ s with gn := { s.gn with granuleHeld := [] } } : Chip).gnSend r := by
  simp [Chip.granuleRelease, hheld, hreqs]

theorem Chip.rebuildPortMap_same (h : s.usableGn = s.gn.usable) (p : Nat) : s.rebuildPortMap p = s := if_pos h

/-- A WRITE that its port returns ends TIMEOUT (R140). -/
theorem Chip.packetsReturned_write {p : Nat} {r : GnReq} (hreturned : s.gn.returned = [(p, r.pkt)]) (hreqs : s.gn.reqs = [r])
    (hport : r.port = p) (htag : r.pkt.tag = r.tag) (htype : r.pkt.ptype = 2) (husable : s.usableGn = s.gn.usable) :
    s.packetsReturned p = (((({ s with gn := { s.gn with returned := [] } } : Chip).raise 0x4402
      [.u8 p, .u32 s.gn.usable.length]) |> fun t => ({ t with gn := { t.gn with reqs := [] } } : Chip).raise 0x8402
        [.u8 p, .u16 r.tag.toNat]).gnFail r .timeout).gnFeed := by
  have hmine : s.gn.returned.filter (fun r => r.1 == p) = [(p, r.pkt)] := by simp [hreturned]
  have hrest : s.gn.returned.filter (fun r => r.1 != p) = [] := by simp [hreturned]
  have hbefore : (({ s with gn := { s.gn with returned := [] } } : Chip).usableGn == s.gn.usable) = true := beq_iff_eq.mpr husable
  simp only [Chip.packetsReturned, hmine, hrest, List.isEmpty_cons, Bool.not_false, Chip.when_true, Chip.each_cons, Chip.each_nil]
  rw [Chip.rebuildPortMap_same (s := { s with gn := { s.gn with returned := [] } }) husable, if_pos hbefore]
  simp [hreqs, hport, htag, htype, gnIsRequest]

end

theorem windowEntryCommit_takes (s : State) (e : Fin 1024) (w : Word) (hlive : s.live = true) : s.gives (.windowEntryCommit e w) fun c =>
    (c.windowEntry e.val).live = windowKept (BitVec.ofNat 256 (w.toNat * 2 ^ 192 + (s.windowEntry e.val).staged.toNat)) ∧
    (c.windowEntry e.val).staged = (s.windowEntry e.val).staged ∧ (∀ j, j ≠ e.val → c.windowEntry j = s.windowEntry j) ∧
    c = { s.toChip with gn := { s.gn with window := c.gn.window } } := by
  have hget (j : Nat) : (s.toChip.windowCommit e.val w).windowEntry j = if j = e.val then { s.windowEntry e.val with
      live := windowKept (BitVec.ofNat 256 (w.toNat * 2 ^ 192 + (s.windowEntry e.val).staged.toNat)) } else s.windowEntry j := by
    rw [Chip.windowCommit, Chip.windowEntry, Tab.get_modify]
    rfl
  refine State.gives_live rfl hlive ⟨?_, ?_, fun j hj => ?_, rfl⟩
  · rw [hget, if_pos rfl]
  · rw [hget, if_pos rfl]
  · rw [hget, if_neg hj]

/-- Settles O26: each clause is a lemma above. -/
theorem gnTargets : Obligations.Gn_targets := by
  unfold Obligations.Gn_targets
  refine ⟨windowEntryCommit_takes, ?_, ?_, ?_, ?_, ?_⟩
  · intro s r hlive hr hdead hsent
    exact State.gives_live rfl hlive (Chip.deadTime_kills hr hdead hsent)
  · intro s n hlive htagged hwaiting hpair
    exact State.gives_live rfl hlive (Chip.targetRelease_nothing htagged hwaiting hpair)
  · intro s h hlive hheld hwait hfailed hdead
    exact State.gives_live rfl hlive (Chip.flaggedRelease_sends hheld hwait hfailed hdead)
  · intro s r hlive hheld hreqs
    exact State.gives_live rfl hlive (Chip.granuleRelease_sends hheld hreqs)
  · intro s p r hlive hreturned hreqs hport htag htype husable
    exact State.gives_live rfl hlive (Chip.packetsReturned_write hreturned hreqs hport htag htype husable)

end Sys2Proof.Machine
end

section
/-! PROOF. Doorbells, control writes and the fetch of a slot; the checks at a queue's head and the start of a command (R166–R171,
R175–R181, R190). -/

namespace Sys2Proof.Machine

/-! ### The queue control block as a number -/

theorem QState.code_lt (q : QState) : q.code < 2 ^ 8 := by cases q <;> decide

theorem ofNat_eq_of_mod {n x : Nat} {b : BitVec n} (h : x % 2 ^ n = b.toNat) : BitVec.ofNat n x = b :=
  BitVec.eq_of_toNat_eq (by rw [BitVec.toNat_ofNat, h])

theorem flag_eq_of_mod {x : Nat} {b : Bool} (h : x % 2 = b.toNat) : (x % 2 == 1) = b := by
  rw [h]
  cases b <;> rfl

/-- Writing the first word of a queue's block changes its ring's base alone. -/
theorem Queue.withBits_setBits_sqBase (v : Queue) (x : Nat) :
    v.withBits (setBits v.bits 511 448 x) = { v with sqBase := BitVec.ofNat 64 x } := by
  have hsqBase := v.sqBase.isLt
  have hcqBase := v.cqBase.isLt
  have hsqLog2 := v.sqLog2.isLt
  have hcqLog2 := v.cqLog2.isLt
  have hprio := v.prio.isLt
  have hstop : v.stopOnErr.toNat < 2 := Bool.toNat_lt _
  have hcount : v.cqCountEn.toNat < 2 := Bool.toNat_lt _
  have hcounter := v.cqCounter.isLt
  have hsqHead := v.sqHead.isLt
  have hsqTail := v.sqTail.isLt
  have hcqTail := v.cqTail.isLt
  have hcqHead := v.cqHead.isLt
  have hlimit := v.waitLimit.isLt
  have hstate := QState.code_lt v.state
  have hstatus := v.lastStatus.isLt
  have hindex := v.lastIndex.isLt
  have hentries : v.entries.length % 65536 < 65536 := Nat.mod_lt _ (by decide)
  unfold Queue.withBits
  simp only [Queue.mk.injEq, true_and, and_true]
  refine ⟨ofNat_eq_of_mod (Eq.trans ?_ (BitVec.toNat_ofNat ..).symm), ofNat_eq_of_mod ?_, ofNat_eq_of_mod ?_, ofNat_eq_of_mod ?_,
    ofNat_eq_of_mod ?_, flag_eq_of_mod ?_, flag_eq_of_mod ?_, ofNat_eq_of_mod ?_, ofNat_eq_of_mod ?_⟩
  all_goals
    unfold setBits bitsOf Queue.bits
    omega

/-! ### Doorbells and control writes -/

section
variable {s : Chip} {q : Nat}

theorem Chip.queueAt_setQueue (f : Queue → Queue) (j : Nat) :
    (s.setQueue q f).queueAt j = if j = q then f (s.queueAt q) else s.queueAt j := Tab.get_modify ..

theorem Chip.sqDoorbell_moves {t : Word32} (hactive : (s.queueAt q).state = .active)
    (hring : (t - (s.queueAt q).sqHead).toNat ≤ 2 ^ (s.queueAt q).sqLog2.toNat)
    (hforward : (t - (s.queueAt q).sqTail).toNat < 2 ^ 31) :
    s.sqDoorbell q t = s.setQueue q fun v => { v with sqTail := t } := by
  rw [Chip.sqDoorbell, if_pos (by rw [hactive, decide_eq_true hring, decide_eq_true hforward]; rfl)]

theorem Chip.sqDoorbell_refused {t : Word32} (h : (s.queueAt q).state ≠ .active) :
    s.sqDoorbell q t = s.raiseLimited 0x4502 q [] := by
  rw [Chip.sqDoorbell, if_neg (by rw [decide_eq_false h]; exact Bool.false_ne_true)]
  rfl

theorem Chip.cqDoorbell_moves {t : Word32} (hactive : (s.queueAt q).state = .active)
    (hring : ((s.queueAt q).cqTail - t).toNat ≤ 2 ^ (s.queueAt q).cqLog2.toNat)
    (hforward : (t - (s.queueAt q).cqHead).toNat < 2 ^ 31) :
    s.cqDoorbell q t = s.setQueue q fun v => { v with cqHead := t } := by
  rw [Chip.cqDoorbell, if_pos (by rw [hactive, decide_eq_true hring, decide_eq_true hforward]; rfl)]

/-- A queue as it is enabled (R167). -/
def Queue.enabled (v : Queue) : Queue := { v with state := .active, sqHead := 0, sqTail := 0, cqTail := 0, cqHead := 0, aged := false }

/-- A queue that is enabled, and the job with the first one (R167, R190). -/
theorem Chip.enableQueue_takes (hdisabled : (s.queueAt q).state = .disabled) (hcheck : s.enableCheck (s.queueAt q) = none) :
    s.enableQueue q = { s.setQueue q Queue.enabled with
      job := { s.job with state := if s.job.state = 0 then 1 else s.job.state } } := by
  rw [Chip.enableQueue, if_neg (not_not_intro hdisabled), hcheck]
  dsimp only
  split
  · rename_i h
    rw [if_pos (by exact h)]
    rfl
  · rename_i h
    rw [if_neg (by exact h)]
    rfl

theorem Chip.enableQueue_refused {k : Nat} (hdisabled : (s.queueAt q).state = .disabled)
    (hcheck : s.enableCheck (s.queueAt q) = some k) : s.enableQueue q = s.raise 0x4501 [.u16 q, .u8 k] := by
  rw [Chip.enableQueue, if_neg (not_not_intro hdisabled), hcheck]
  rfl

/-- An empty queue that drains is Disabled at once (R167). -/
theorem Chip.drainQueue_empty (hactive : (s.queueAt q).state = .active) (hentries : (s.queueAt q).entries = []) :
    s.drainQueue q = (s.setQueue q fun v => { v with state := .draining }).setQueue q fun v => { v with state := .disabled } := by
  have hdraining : (s.setQueue q fun v => { v with state := .draining }).queueAt q = { s.queueAt q with state := .draining } := by
    rw [Chip.queueAt_setQueue, if_pos rfl]
  rw [Chip.drainQueue, if_pos (.inl hactive), Chip.cancelUnstarted, hdraining, hentries]
  simp only [List.filter_nil, Chip.each_nil, Chip.settleQueue, hdraining, hentries, List.isEmpty_nil]
  rfl

theorem Chip.qcbWrite_sqBase (w : Word) (hdisabled : (s.queueAt q).state = .disabled) :
    s.qcbWrite q 56 8 w.toNat = s.setQueue q fun v => { v with sqBase := w } := by
  have hfields : (fun v : Queue => v.withBits (setBits v.bits 511 448 w.toNat)) = fun v => { v with sqBase := w } := by
    funext v
    rw [Queue.withBits_setBits_sqBase, BitVec.ofNat_toNat, BitVec.setWidth_eq]
  rw [← hfields]
  simp [Chip.qcbWrite, hdisabled]

theorem Chip.qcbWrite_refused (x : Nat) (h : (s.queueAt q).state ≠ .disabled) :
    s.qcbWrite q 56 8 x = s.raise 0x4501 [.u16 q, .u8 1] := by
  simp [Chip.qcbWrite, h, Chip.queueRefusal, rwField]

/-! ### Fetching (R169, R170) -/

/-- The entry of a slot that was fetched with the bytes r. -/
def fetchedEntry (num : Word32) (r : List (List Byte × Bool)) : QEntry :=
  { num := num, raw := BitVec.ofNat 512 (leNat (readData r)), phase := .fetched, ready := none, headTime := 0,
    fails := [], outstanding := 0, failAt := none, status := if readPoison r then .poisoned else .ok, detail := 0,
    sig := .notSent, segMap := none, held := [] }

/-- The slot that is fetched next from a queue's ring. -/
def Queue.slotAddr (v : Queue) : Nat := v.sqBase.toNat + 64 * (v.sqHead.toNat % 2 ^ v.sqLog2.toNat)

theorem Chip.fetchCommand_idle (h : (s.queueAt q).sqHead = (s.queueAt q).sqTail) : s.fetchCommand q = s := by
  simp [Chip.fetchCommand, h, Chip.when]

/-- The head of a queue with one command that has not started. -/
theorem Queue.head_single {v : Queue} {e : QEntry} (hentries : v.entries = [e]) (h : e.unstarted = true) : v.head = some e := by
  simp [Queue.head, hentries, h]

theorem Queue.head_none {v : Queue} {e : QEntry} (hentries : v.entries = [e]) (h : e.unstarted = false) : v.head = none := by
  simp [Queue.head, hentries, h]

theorem Queue.entries_setEntry {v : Queue} {e : QEntry} (hentries : v.entries = [e]) (f : QEntry → QEntry) :
    (v.setEntry e.num f).entries = [f e] := by
  simp [Queue.setEntry, hentries]

theorem Chip.queueAt_setEntry (num : Word32) (f : QEntry → QEntry) :
    (s.setEntry q num f).queueAt q = (s.queueAt q).setEntry num f := by
  rw [Chip.setEntry, Chip.queueAt_setQueue, if_pos rfl]

theorem Chip.stampHead_none (h : (s.queueAt q).head = none) : s.stampHead q = s := by rw [Chip.stampHead, h]

/-- The next slot of the ring joins a queue that has nothing in flight (R169, R170). -/
theorem Chip.fetchCommand_takes (hawake : s.cpAsleep q = false) (hactive : (s.queueAt q).state = .active)
    (hcovered : (s.queueAt q).sqHead ≠ (s.queueAt q).sqTail) (hentries : (s.queueAt q).entries = [])
    (hroom : ((s.queueAt q).cqTail - (s.queueAt q).cqHead).toNat < 2 ^ (s.queueAt q).cqLog2.toNat) :
    let r := s.readFrom (queueSite q) (s.queueAt q).slotAddr 64 0
    ((s.fetchCommand q).queueAt q).sqHead = (s.queueAt q).sqHead + 1 ∧
    ∃ now, ((s.fetchCommand q).queueAt q).entries = [{ fetchedEntry (s.queueAt q).sqHead r.2 with headTime := now }] := by
  intro r
  have hkept : r.1.queueAt q = s.queueAt q := by
    rw [Chip.queueAt, Chip.queueAt, show r.1.queues = s.queues from congrArg Outside.queues (Chip.readFrom_outside ..)]
  have hfetch : s.fetchCommand q = (r.1.setQueue q fun v => { v with
      sqHead := v.sqHead + 1, entries := v.entries ++ [fetchedEntry (s.queueAt q).sqHead r.2] }).stampHead q := by
    simp only [Chip.fetchCommand, hawake, Bool.not_false, Chip.when_true, hactive, hentries, hcovered, hroom, bne_iff_ne, ne_eq,
      not_false_eq_true, decide_true, List.filter_nil, List.length_nil, Nat.add_zero, Nat.zero_lt_succ, if_true,
      Bool.and_true, Bool.true_and]
    rfl
  have htaken : (r.1.setQueue q fun v => { v with
      sqHead := v.sqHead + 1, entries := v.entries ++ [fetchedEntry (s.queueAt q).sqHead r.2] }).queueAt q =
      { s.queueAt q with sqHead := (s.queueAt q).sqHead + 1, entries := [fetchedEntry (s.queueAt q).sqHead r.2] } := by
    rw [Chip.queueAt_setQueue, if_pos rfl, hkept, hentries, List.nil_append]
  rw [hfetch, Chip.stampHead, htaken, Queue.head_single (e := fetchedEntry (s.queueAt q).sqHead r.2) rfl rfl]
  dsimp only
  rw [Chip.queueAt_setEntry, htaken]
  exact ⟨rfl, _, Queue.entries_setEntry rfl _⟩

end

theorem ctrlEnable_takes (s : State) (q : Fin 16384) (hlive : s.live = true) (hdisabled : (s.queueAt q.val).state = .disabled)
    (hcheck : s.enableCheck (s.queueAt q.val) = none) : s.gives (.ctrlEnable q) fun c =>
    c.queueAt q.val = { s.queueAt q.val with
      state := .active, sqHead := 0, sqTail := 0, cqTail := 0, cqHead := 0, aged := false } ∧
    c.job.state = (if s.job.state = 0 then 1 else s.job.state) ∧ (∀ j, j ≠ q.val → c.queueAt j = s.queueAt j) ∧
    c = { s.toChip with queues := c.queues, job := c.job } := by
  refine State.gives_live rfl hlive ?_
  rw [Chip.enableQueue_takes hdisabled hcheck]
  refine ⟨?_, rfl, fun j hj => ?_, rfl⟩
  · exact (Chip.queueAt_setQueue (s := s.toChip) Queue.enabled q.val).trans (if_pos rfl)
  · exact (Chip.queueAt_setQueue (s := s.toChip) Queue.enabled j).trans (if_neg hj)

theorem ctrlDisable_empty (s : State) (q : Fin 16384) (hlive : s.live = true) (hactive : (s.queueAt q.val).state = .active)
    (hentries : (s.queueAt q.val).entries = []) : s.gives (.ctrlDisable q) fun c =>
    c.queueAt q.val = { s.queueAt q.val with state := .disabled } ∧
    (∀ j, j ≠ q.val → c.queueAt j = s.queueAt j) ∧ c = { s.toChip with queues := c.queues } := by
  refine State.gives_live rfl hlive ?_
  rw [Chip.drainQueue_empty hactive hentries]
  refine ⟨?_, fun j hj => ?_, rfl⟩
  · rw [Chip.queueAt_setQueue, if_pos rfl, Chip.queueAt_setQueue, if_pos rfl]
  · rw [Chip.queueAt_setQueue, if_neg hj, Chip.queueAt_setQueue, if_neg hj]

theorem queueConfigWrite_sqBase (s : State) (q : Fin 16384) (w : Word) (hlive : s.live = true)
    (hdisabled : (s.queueAt q.val).state = .disabled) : s.gives (.queueConfigWrite q 7 w) fun c =>
    c.queueAt q.val = { s.queueAt q.val with sqBase := w } ∧ (∀ j, j ≠ q.val → c.queueAt j = s.queueAt j) ∧
    c = { s.toChip with queues := c.queues } := by
  refine State.gives_live (f := fun c => c.qcbWrite q.val 56 8 w.toNat) rfl hlive ?_
  rw [Chip.qcbWrite_sqBase w hdisabled]
  refine ⟨?_, fun j hj => ?_, rfl⟩
  · rw [Chip.queueAt_setQueue, if_pos rfl]
  · rw [Chip.queueAt_setQueue, if_neg hj]

theorem commandFetch_takes (s : State) (q : Fin 16384) (hlive : s.live = true) (hawake : s.cpAsleep q.val = false)
    (hactive : (s.queueAt q.val).state = .active) (hcovered : (s.queueAt q.val).sqHead ≠ (s.queueAt q.val).sqTail)
    (hentries : (s.queueAt q.val).entries = [])
    (hroom : ((s.queueAt q.val).cqTail - (s.queueAt q.val).cqHead).toNat < 2 ^ (s.queueAt q.val).cqLog2.toNat) :
    s.gives (.commandFetch q) fun c =>
    (c.queueAt q.val).sqHead = (s.queueAt q.val).sqHead + 1 ∧
    ∃ e, (c.queueAt q.val).entries = [e] ∧ e.num = (s.queueAt q.val).sqHead ∧ e.phase = .fetched ∧
      e.raw = BitVec.ofNat 512 (leNat (readData (s.toChip.readFrom (queueSite q.val) ((s.queueAt q.val).sqBase.toNat + 64 * ((s.queueAt q.val).sqHead.toNat %
        2 ^ (s.queueAt q.val).sqLog2.toNat)) 64 0).2)) := by
  obtain ⟨hhead, now, hentry⟩ := Chip.fetchCommand_takes hawake hactive hcovered hentries hroom
  exact State.gives_live rfl hlive ⟨hhead, _, hentry, rfl, rfl, rfl⟩

/-- Settles O28: each clause is a lemma above, or the refusing branch of its function. -/
theorem queueControl : Obligations.Queue_control := by
  unfold Obligations.Queue_control
  refine ⟨?_, ?_, ?_, ctrlEnable_takes, ?_, ctrlDisable_empty, queueConfigWrite_sqBase, ?_, commandFetch_takes, ?_⟩
  · intro s q t hlive hactive hring hforward
    exact State.gives_live rfl hlive (Chip.sqDoorbell_moves hactive hring hforward)
  · intro s q t hlive h
    exact State.gives_live rfl hlive (Chip.sqDoorbell_refused h)
  · intro s q t hlive hactive hring hforward
    exact State.gives_live rfl hlive (Chip.cqDoorbell_moves hactive hring hforward)
  · intro s q k hlive hdisabled hcheck
    exact State.gives_live rfl hlive (Chip.enableQueue_refused hdisabled hcheck)
  · intro s q w hlive h
    exact State.gives_live (f := fun c => c.qcbWrite q.val 56 8 w.toNat) rfl hlive (Chip.qcbWrite_refused _ h)
  · intro s q hlive h
    exact State.gives_live rfl hlive (Chip.fetchCommand_idle h)

/-! ### The head of a queue (R175, R179–R181) -/

section
variable {s t : Chip} {q : Nat} {e : QEntry} {mine : Nat → Bool} {own : Chip → QEntry → Chip × Verdict}
  {start : Chip → Nat → QEntry → Chip} (hactive : (s.queueAt q).state = .active) (hhead : (s.queueAt q).head = some e)
  (hmine : mine e.opcode = true) (hawake : s.cpAsleep q = false) (hrestarts : s.cpRestarts q = false)

include hactive hhead hmine hawake hrestarts

/-- A checked command whose waits are all met starts on its turn. -/
theorem Chip.attempt_starts (hphase : e.phase = .waiting) (hready : e.ready.isSome = true)
    (hentry : (s.queueAt q).entry e.num = some e) (hwaits : s.meetWaits q e = (t, true))
    (hkept : (t.queueAt q).entry e.num = some e) (hstartable : t.startable q = true) (hturn : t.cpTurn q = true) :
    s.attempt q mine own start = (start (t.begin' q e) q e).release q e := by
  have hstamped : e.ready.isNone = false := by rw [Option.isNone_eq_false_iff]; exact hready
  simp [Chip.attempt, hhead, hactive, hmine, hawake, hrestarts, hphase, hentry, hwaits, hstamped, hkept, hstartable, hturn]

/-- A command that fails its check is finished with the check's status, and does nothing. -/
theorem Chip.attempt_fails {st : Status} (hentries : (s.queueAt q).entries = [e]) (hphase : e.phase = .fetched)
    (hcheck : s.headCheck e own = (s, .fail st none)) : s.attempt q mine own start =
      s.setEntry q e.num fun e => { e with phase := .finished, status := st, segMap := none } := by
  have hset : ((s.setEntry q e.num fun e => { e with phase := .finished, status := st, segMap := none }).queueAt q).entries =
      [{ e with phase := .finished, status := st, segMap := none }] := by
    rw [Chip.queueAt_setEntry, Queue.entries_setEntry hentries]
  have hstamp := Chip.stampHead_none (Queue.head_none hset rfl)
  have hentry : ((s.setEntry q e.num fun e => { e with phase := .finished, status := st, segMap := none }).queueAt q).entry e.num =
      some { e with phase := .finished, status := st, segMap := none } := by
    rw [Queue.entry, hset, List.find?_cons_of_pos (by exact beq_self_eq_true e.num)]
  simp [Chip.attempt, hhead, hactive, hmine, hawake, hrestarts, hphase, hcheck, hstamp, hentry]

end

theorem Chip.headCheck_reserved {s : Chip} {e : QEntry} (hopcode : 10 < e.opcode) (hstatus : e.status = .ok) :
    s.headCheck e ownPlain = (s, .fail .refused none) := by
  have hplain : s.checkPlain e = some .refused := by
    unfold Chip.checkPlain
    split
    case h_7 => exact if_pos hopcode
    all_goals omega
  have hcoll : (decide (e.opcode = 8)) = false := decide_eq_false (by omega)
  simp [Chip.headCheck, hstatus, ownPlain, hplain, hcoll]

/-- The entry of a command that starts (R175). -/
def QEntry.begun (e : QEntry) : QEntry := { e with phase := .started, outstanding := 1 }

theorem Chip.begin_entries {s : Chip} {q : Nat} {e : QEntry} (hentries : (s.queueAt q).entries = [e]) :
    ((s.begin' q e).queueAt q).entries = [e.begun] := by
  have hbegun : (({ s.setQueue q fun v => { v.setEntry e.num QEntry.begun with aged := false } with
      cpLast := Tab.set 0 s.cpLast (queueSite q) q } : Chip).queueAt q).entries = [e.begun] := by
    have hq := Chip.queueAt_setQueue (s := s) (q := q) (fun v => { v.setEntry e.num QEntry.begun with aged := false }) q
    rw [if_pos rfl] at hq
    exact (congrArg Queue.entries hq).trans (Queue.entries_setEntry hentries _)
  have hstamp := Chip.stampHead_none (Queue.head_none hbegun rfl)
  exact (congrArg (fun c : Chip => (c.queueAt q).entries) hstamp).trans hbegun

/-- The last piece of a command without parts leaves it finished with the status it had. -/
theorem QEntry.pieceDone_begun {e : QEntry} (hfails : e.fails = []) :
    (e.begun.pieceDone 0 0 .ok).phase = .finished ∧ (e.begun.pieceDone 0 0 .ok).status = e.status := by
  simp [QEntry.pieceDone, QEntry.begun, QEntry.finishIf, hfails, settleOver]

theorem begin_release_finished (s : Chip) (q : Nat) (e x : QEntry) (hshadow : s.isShadow = false) (hentries : (s.queueAt q).entries = [e])
    (_ : (s.queueAt q).head = some e) (_ : e.opcode = 0) (hfails : e.fails = [])
    (hx : (((s.begin' q e).release q e).queueAt q).entries = [x]) : x.phase = .finished ∧ x.status = e.status := by
  have hkept : (s.begin' q e).isShadow = s.isShadow := by
    simp only [Chip.begin', Chip.stampHead]
    split <;> rfl
  have hdone : (((s.begin' q e).queueAt q).setEntry e.num fun e => e.pieceDone 0 0 .ok).entries = [e.begun.pieceDone 0 0 .ok] :=
    Queue.entries_setEntry (e := e.begun) (Chip.begin_entries hentries) _
  rw [Chip.release, hkept, hshadow, Bool.false_and, if_neg Bool.false_ne_true, Chip.queueAt_setEntry, hdone, List.cons.injEq] at hx
  rw [← hx.1]
  exact QEntry.pieceDone_begun hfails

/-- Settles O29: every opcode's command is one attempt at the head, and the checks are those of `headCheck`. -/
theorem commandsStart : Obligations.Commands_start := by
  unfold Obligations.Commands_start
  refine ⟨?_, ?_, begin_release_finished, ?_, ?_⟩
  · intro i s q e start t hi hlive hactive hhead hphase hready hentry hawake hrestarts hwaits hkept hstartable hturn
    have hstarts {mine : Nat → Bool} (own : Chip → QEntry → Chip × Verdict) (hmine : mine e.opcode = true) :
        s.toChip.attempt q.val mine own start = (start (t.begin' q.val e) q.val e).release q.val e :=
      Chip.attempt_starts hactive hhead hmine hawake hrestarts hphase hready hentry hwaits hkept hstartable hturn
    rcases hi with ⟨rfl, h, rfl⟩ | ⟨rfl, h, rfl⟩ | ⟨rfl, h, rfl⟩ | ⟨rfl, h, rfl⟩ | ⟨rfl, h, rfl⟩ | ⟨rfl, h, rfl⟩ | ⟨rfl, h, rfl⟩ |
      ⟨rfl, h, rfl⟩ | ⟨rfl, h, rfl⟩ | ⟨rfl, h, rfl⟩ <;> exact State.gives_live rfl hlive (hstarts _ (by rw [h]; rfl))
  · intro s q e t hopcode hlive hactive hhead hphase hready hentry hawake hrestarts hwaits hkept hstartable hturn
    refine State.gives_live rfl hlive ?_
    rw [Chip.attempt_starts hactive hhead (by rw [hopcode]; rfl) hawake hrestarts hphase hready hentry hwaits hkept hstartable hturn]
  · intro s q e hlive hactive hentries hphase hopcode hstatus hawake hrestarts
    have hhead := Queue.head_single hentries (by rw [QEntry.unstarted, hphase]; rfl)
    exact State.gives_live rfl hlive (Chip.attempt_fails hactive hhead (decide_eq_true hopcode) hawake hrestarts hentries hphase
      (Chip.headCheck_reserved hopcode hstatus))
  · intro s q e hlive hactive hentries hphase hopcode hstatus hawake hrestarts
    have hhead := Queue.head_single hentries (by rw [QEntry.unstarted, hphase]; rfl)
    have hcheck : s.toChip.headCheck e ownPlain = (s.toChip, .fail .poisoned none) := by
      rw [Chip.headCheck, if_pos (by rw [hstatus]; decide), hstatus]
    exact State.gives_live rfl hlive (Chip.attempt_fails hactive hhead (by rw [hopcode]; rfl) hawake hrestarts hentries hphase hcheck)

end Sys2Proof.Machine
end

section
/-! PROOF. The end of a job, counters with their waits, and barriers (R126, R190, R194–R208). -/

namespace Sys2Proof.Machine

/-! ### The end of a job -/

section
variable {s : Chip}

theorem Chip.jobEnd_state (h : s.job.state < 2) : s.jobEnd.job.state = 2 := by rw [Chip.jobEnd, if_pos h]

theorem Chip.jobEnd_idle (h : s.job.state < 2) (hqueues : s.queues = []) (hserving : s.service.state = .serving) :
    s.jobEnd = { s with job := { state := 2, endTime := s.aon } } := by
  have hnone : s.drainAllQueues = s := by simp [Chip.drainAllQueues, Chip.liveQueues, hqueues]
  simp [Chip.jobEnd, h, hnone, hserving]

theorem Chip.sanitiseStart_begins (h : s.job.state = 2) (hquiet : s.jobQuiet = true) :
    s.sanitiseStart = { s.freeStreams.resetCores with job := { s.job with state := 3 } } := by
  rw [Chip.sanitiseStart, Chip.when_pos (by rw [h, hquiet]; rfl)]
  rfl

/-- Sanitising ends with every store empty and the job Idle (R190, R196). -/
theorem Chip.sanitiseDone_ends (h : s.job.state = 3) (hstage : s.mgmt.stage = 6) (h0 : s.cellarDown 0 = false) (h1 : s.cellarDown 1 = false) :
    ∃ t ms, t = (s.wipe.bump O.sanitiseCount 1).setObj O.sanitiseTime (min ms (2 ^ 32 - 1)) ∧
      s.sanitiseDone = ({ t with job := { t.job with state := 0 } } : Chip).raise 0x0501 [.u32 ms] := by
  refine ⟨_, (s.aon - s.job.endTime) / 1000000, rfl, ?_⟩
  rw [Chip.sanitiseDone, Chip.when_pos (by rw [h, hstage]; rfl), h0, h1]
  rfl

/-- What every entry of a table and its default agree on, every read gives. -/
theorem Tab.get_map {α β : Type} (f : α → α) (p : α → β) {v : β} (d : α) (hd : p d = v) (hf : ∀ a, p (f a) = v) (t : Tab α) (k : Nat) :
    p (Tab.get d (t.map fun e => (e.1, f e.2)) k) = v := by
  induction t with
  | nil => exact hd
  | cons e r ih =>
    rw [List.map_cons, Tab.get]
    split
    · exact hf e.2
    · exact ih

theorem Chip.wipe_array (k : Nat) : (s.wipe.core k).array = ArraySt.reset :=
  Tab.get_map (fun x : CoreSt => { x with array := ArraySt.reset }) CoreSt.array CoreSt.reset rfl (fun _ => rfl) s.cores k

end

/-- Settles O31: each clause is one branch of its command's function. -/
theorem jobSequence : Obligations.Job_sequence := by
  unfold Obligations.Job_sequence
  refine ⟨?_, ?_, ?_, ?_⟩
  · intro s hlive hjob hqueues hserving
    exact State.gives_live (f := fun c => c.when true Chip.jobEnd) rfl hlive (Chip.jobEnd_idle hjob hqueues hserving)
  · intro s hlive hjob
    exact State.gives_live (f := fun c => c.when true Chip.jobEnd) rfl hlive (Chip.jobEnd_state hjob)
  · intro s hlive hjob hquiet
    refine State.gives_live rfl hlive ?_
    rw [Chip.sanitiseStart_begins hjob hquiet]
    exact ⟨rfl, rfl, rfl, rfl, rfl, rfl⟩
  · intro s hlive hjob hstage h0 h1
    obtain ⟨t, ms, rfl, h⟩ := Chip.sanitiseDone_ends hjob hstage h0 h1
    refine State.gives_live rfl hlive ?_
    rw [h]
    exact ⟨rfl, rfl, rfl, rfl, rfl, rfl, rfl, fun k => Chip.wipe_array k, rfl, rfl, rfl⟩

/-! ### Adds to counters (R195, R199, R208) -/

section
variable {s : Chip} {i : Nat} {a : Word}

theorem satAdd_fits {v a : Word} (h : v.toNat + a.toNat < 2 ^ 64) : satAdd v a = (v + a, false) := if_neg (not_le.mpr h)
theorem satAdd_saturates {v a : Word} (h : 2 ^ 64 ≤ v.toNat + a.toNat) : satAdd v a = (BitVec.allOnes 64, true) := if_pos h

/-- Management's add to a counter that is no barrier's. -/
theorem Chip.addFrom_mgmt (harrive : s.arriveOf i = none) (hdone : s.doneOf i = none) :
    (s.addFrom i a .mgmt).1 = s.plainAdd i a (6, 0, 0) := by
  simp only [Chip.addFrom, Chip.counterAdd, harrive, hdone, Option.isSome_none, Bool.false_eq_true, if_false]
  rfl

theorem Chip.addFrom_done (harrive : s.arriveOf i = none) (hdone : (s.doneOf i).isSome = true) :
    (s.addFrom i a .mgmt).1 = (s.bump O.counterRefusals 1).raiseLimited 0x4602 0 [] := by
  simp only [Chip.addFrom, Chip.counterAdd, harrive, hdone, if_true]
  rfl

/-- An add that does not reach 2^64. -/
theorem Chip.plainAdd_fits (sig : Nat × Nat × Nat) (h : (s.counter i).value.toNat + a.toNat < 2 ^ 64) :
    s.plainAdd i a sig = (s.setCounter i ({ s.counter i with value := (s.counter i).value + a }.note a s.timebase sig)).wake i := by
  rw [Chip.plainAdd, satAdd_fits h]
  rfl

theorem Chip.plainAdd_saturates (sig : Nat × Nat × Nat) (h : 2 ^ 64 ≤ (s.counter i).value.toNat + a.toNat) :
    s.plainAdd i a sig = ((s.setCounter i ({ s.counter i with value := BitVec.allOnes 64 }.note a s.timebase sig)).raise 0x4601
      [.u32 i]).wake i := by
  rw [Chip.plainAdd, satAdd_saturates h]
  rfl

@[simp] theorem Chip.wake_counter (j : Nat) : (s.wake i).counter j = s.counter j := rfl
@[simp] theorem Chip.wake_barrier (b : Nat) : (s.wake i).barrier b = s.barrier b := rfl

theorem Chip.localAdd_fits {c j : Nat} (src : AddSrc) (h : (s.coreCounter c j).value.toNat + a.toNat < 2 ^ 64) :
    s.localAdd c j a src = s.setCoreCounter c j
      ({ s.coreCounter c j with value := (s.coreCounter c j).value + a }.note a s.timebase (s.signaller src)) := by
  rw [Chip.localAdd, satAdd_fits h]
  rfl

@[simp] theorem Chip.coreCounter_setCoreCounter (c j : Nat) (r : CounterRec) : (s.setCoreCounter c j r).coreCounter c j = r :=
  Tab.get_set_same ..

/-! ### Waits (R199, R200) -/

theorem Chip.registerWait_met {t : Word} (o : WaitOwner) (h : t.toNat ≤ (s.counter i).value.toNat) :
    (s.registerWait i t o).1 = { s with sync := { s.sync with waiters := s.sync.waiters.filter fun w =>
      !(w.counter == i && w.owner == o && w.threshold == t) } } := by
  rw [Chip.registerWait, if_pos h]

theorem Chip.registerWait_joins {t : Word} {o : WaitOwner} (h : (s.counter i).value.toNat < t.toNat)
    (hnew : (s.sync.waiters.all fun w => !(w.counter == i && w.owner == o && w.threshold == t)) = true)
    (hroom : s.waitersUsed (counterSite i) < 16384) : (s.registerWait i t o).1 = { s with sync := { s.sync with
      waiters := s.sync.waiters ++ [⟨i, t, o, true, s.sync.clock⟩], clock := s.sync.clock + 1 } } := by
  have hany : (s.sync.waiters.any fun w => w.counter == i && w.owner == o && w.threshold == t) = false := by
    rw [← Bool.not_eq_true', List.not_any_eq_all_not]
    exact hnew
  simp only [Chip.registerWait, if_neg (not_le.mpr h), hany, hroom, Bool.false_eq_true, if_false, decide_true, if_true]

end

theorem counterAdd_plain (s : State) (i : BitVec 18) (a : Word) (hlive : s.live = true) (harrive : s.arriveOf i.toNat = none)
    (hdone : s.doneOf i.toNat = none) (h : (s.counter i.toNat).value.toNat + a.toNat < 2 ^ 64) : s.gives (.counterAdd i a .mgmt) fun c =>
    (c.counter i.toNat).value = (s.counter i.toNat).value + a ∧ (c.counter i.toNat).lastAdd = a ∧
    (c.counter i.toNat).lastStamp = s.timebase ∧ (c.counter i.toNat).lastKind = 6 ∧
    (∀ j, j ≠ i.toNat → c.counter j = s.counter j) ∧
    c.sync.waiters = s.sync.waiters.filter (fun w =>
      !(w.counter == i.toNat && w.registered && w.threshold.toNat ≤ ((s.counter i.toNat).value + a).toNat)) ∧
    c = { s.toChip with sync := { s.sync with counters := c.sync.counters, waiters := c.sync.waiters } } := by
  refine State.gives_live rfl hlive ?_
  rw [Chip.addFrom_mgmt harrive hdone, Chip.plainAdd_fits _ h]
  simp only [Chip.wake_counter, Chip.setCounter_same]
  refine ⟨rfl, rfl, rfl, rfl, fun j hj => Chip.setCounter_other _ _ _ _ hj, ?_, rfl⟩
  rw [Chip.wake, Chip.setCounter_same]
  rfl

theorem counterAdd_saturated (s : State) (i : BitVec 18) (a : Word) (hlive : s.live = true) (harrive : s.arriveOf i.toNat = none)
    (hdone : s.doneOf i.toNat = none) (h : 2 ^ 64 ≤ (s.counter i.toNat).value.toNat + a.toNat) : s.gives (.counterAdd i a .mgmt) fun c =>
    (c.counter i.toNat).value = BitVec.allOnes 64 ∧ c.log.seq = s.log.seq + 1 ∧ c.mem = s.mem := by
  refine State.gives_live rfl hlive ?_
  rw [Chip.addFrom_mgmt harrive hdone, Chip.plainAdd_saturates _ h, Chip.wake_counter, Chip.raise_counter, Chip.setCounter_same]
  exact ⟨rfl, rfl, rfl⟩

/-- Settles O32: each clause is a lemma above, or one branch of its command's function. -/
theorem countersAndWaits : Obligations.Counters_and_waits := by
  unfold Obligations.Counters_and_waits
  refine ⟨counterAdd_plain, counterAdd_saturated, ?_, ?_, ?_, ?_, ?_, ?_⟩
  · intro s i a hlive harrive hdone
    exact State.gives_live rfl hlive (Chip.addFrom_done harrive hdone)
  · intro s k o v hlive hpage halign h
    refine State.gives_live rfl hlive ?_
    rw [Chip.counterPageWrite, if_pos ⟨hpage, halign⟩, Chip.localAdd_fits _ h, Chip.coreCounter_setCoreCounter]
    exact ⟨rfl, rfl, rfl⟩
  · intro s k o v r hlive hpage
    exact State.gives_live rfl hlive (if_neg fun h => absurd h.1 (not_lt.mpr hpage))
  · intro s i t o hlive h
    exact State.gives_live rfl hlive (Chip.registerWait_met o h)
  · intro s i t o hlive h hnew hroom
    exact State.gives_live rfl hlive (Chip.registerWait_joins h hnew hroom)
  · intro s i o hlive
    exact State.gives_live rfl hlive rfl

/-! ### Barriers (R203–R207) -/

section
variable {s : Chip} {b : Nat}

@[simp] theorem Chip.barrier_setBarrier (r : Barrier) : (s.setBarrier b r).barrier b = r := Tab.get_set_same ..
@[simp] theorem Chip.counter_setBarrier (r : Barrier) (j : Nat) : (s.setBarrier b r).counter j = s.counter j := rfl
@[simp] theorem Chip.barrier_setCounter (i : Nat) (r : CounterRec) (j : Nat) : (s.setCounter i r).barrier j = s.barrier j := rfl

theorem Chip.barrierBind_takes {w : Word} (hfree : (s.barrier b).enable = false)
    (hcheck : s.bindCheck b (barrierFields w).1.toNat (barrierFields w).2.1.toNat (barrierFields w).2.2.toNat = none) :
    s.barrierBind b w = s.setBarrier b { s.barrier b with
      enable := true, arriveCtr := (barrierFields w).1, doneCtr := (barrierFields w).2.1, participants := (barrierFields w).2.2
      arrivedG := 0, arrivedG1 := 0, overrunStalls := 0, staleArrivals := 0
      generation := (s.counter (barrierFields w).2.1.toNat).value, held := [] } := by
  simp only [Chip.barrierBind, hfree, hcheck, Bool.false_eq_true, if_false]

theorem Chip.barrierBind_refused {w : Word} {k : Nat} (hfree : (s.barrier b).enable = false)
    (hcheck : s.bindCheck b (barrierFields w).1.toNat (barrierFields w).2.1.toNat (barrierFields w).2.2.toNat = some k) :
    s.barrierBind b w = (s.setBarrier b { s.barrier b with
      arriveCtr := (barrierFields w).1, doneCtr := (barrierFields w).2.1, participants := (barrierFields w).2.2 }).raise 0x4605
        [.u16 b, .u8 k] := by
  simp only [Chip.barrierBind, hfree, hcheck, Bool.false_eq_true, if_false]

theorem Chip.barrierBind_bound {w : Word} (hbound : (s.barrier b).enable = true) :
    s.barrierBind b w = ((s.bump O.counterRefusals 1).raiseLimited 0x4602 0 []).raise 0x4605 [.u16 b, .u8 5] := by
  simp only [Chip.barrierBind, hbound, if_true]
  rfl

theorem Chip.barrierUnbind_empty {w : Word} (hheld : (s.barrier b).held = []) : s.barrierUnbind b w = s.setBarrier b { s.barrier b with
    enable := false, arriveCtr := (barrierFields w).1, doneCtr := (barrierFields w).2.1, participants := (barrierFields w).2.2
    held := [] } := by
  simp only [Chip.barrierUnbind, hheld, Chip.each_nil, List.isEmpty_nil, Bool.not_true, Bool.and_false, Bool.false_eq_true, if_false]

theorem Chip.barrierWord_low {k : Fin 3} (w : Word) : s.barrierWord b k.val w =
    if (s.barrier b).enable then (s.bump O.counterRefusals 1).raiseLimited 0x4602 0 [] else s := by
  have hk : k.val ≠ 3 := by omega
  simp only [Chip.barrierWord, if_neg hk, Chip.barrierRefuses, bne_iff_ne.mpr hk, Bool.true_or, Bool.and_true]
  rfl

/-! ### Arrivals -/

variable {i : Nat} {a : Word} {x : Barrier} (harrive : s.arriveOf i = some (b, x))

include harrive

theorem Chip.addFrom_arrives {t : Chip} {old : Word} (h : s.arrive b a .mgmt false = (t, .applied old)) :
    (s.addFrom i a .mgmt).1 = t := by
  simp only [Chip.addFrom, Chip.counterAdd, harrive, h]
  rfl

theorem Chip.addFrom_stale (h : a.toNat ≤ (s.counter (s.barrier b).doneCtr.toNat).value.toNat) :
    (s.addFrom i a .mgmt).1 = s.staleArrival b a .mgmt := by
  refine Chip.addFrom_arrives harrive (old := (s.counter (s.barrier b).arriveCtr.toNat).value) ?_
  simp only [Chip.arrive, if_pos h]

theorem Chip.addFrom_ahead (h : a.toNat = (s.counter (s.barrier b).doneCtr.toNat).value.toNat + 2)
    (hroom : (s.barrier b).arrivedG1 ≠ (s.barrier b).participants) : (s.addFrom i a .mgmt).1 =
      (s.setBarrier b { s.barrier b with
        arrivedG1 := (s.barrier b).arrivedG1 + 1, originG1 := s.originOf .mgmt }).noteArrival b a .mgmt := by
  refine Chip.addFrom_arrives harrive (old := (s.counter (s.barrier b).arriveCtr.toNat).value) ?_
  have hlater : ¬a.toNat ≤ (s.counter (s.barrier b).doneCtr.toNat).value.toNat := by omega
  have hnotNext : ¬a.toNat = (s.counter (s.barrier b).doneCtr.toNat).value.toNat + 1 := by omega
  simp only [Chip.arrive, if_neg hlater, if_neg hnotNext, if_pos h, if_neg hroom]

theorem Chip.addFrom_next (h : a.toNat = (s.counter (s.barrier b).doneCtr.toNat).value.toNat + 1) :
    (s.addFrom i a .mgmt).1 = Chip.barrierLoop b ((s.barrier b).held.length + 3) ((s.setBarrier b { s.barrier b with
      arrivedG := (s.barrier b).arrivedG + 1, originG := s.originOf .mgmt }).noteArrival b a .mgmt) := by
  refine Chip.addFrom_arrives harrive (old := (s.counter (s.barrier b).arriveCtr.toNat).value) ?_
  have hlater : ¬a.toNat ≤ (s.counter (s.barrier b).doneCtr.toNat).value.toNat := by omega
  simp only [Chip.arrive, if_neg hlater, if_pos h]

omit harrive

theorem Chip.barrierLoop_waits {n : Nat} (h : (s.barrier b).arrivedG ≠ (s.barrier b).participants) :
    Chip.barrierLoop b (n + 1) s = s := by
  rw [Chip.barrierLoop, if_neg h]

/-- A generation of which every participant has arrived completes, and the next one begins (R205). -/
theorem Chip.barrierLoop_completes {n : Nat} (hall : (s.barrier b).arrivedG = (s.barrier b).participants)
    (hheld : (s.barrier b).held = []) (hnext : (s.barrier b).arrivedG1 = 0) (hsome : (s.barrier b).participants ≠ 0) :
    ∃ t : Chip, t = s.plainAdd (s.barrier b).doneCtr.toNat 1 (5, (s.barrier b).originG.toNat, b) ∧
      Chip.barrierLoop b (n + 2) s = t.setBarrier b { s.barrier b with
        generation := (t.counter (s.barrier b).doneCtr.toNat).value, arrivedG := 0, arrivedG1 := 0
        originG := (s.barrier b).originG1, originG1 := 0 } := by
  refine ⟨_, rfl, ?_⟩
  rw [Chip.barrierLoop, if_pos hall]
  simp only [hheld, hnext, List.filter_nil, Chip.each_nil]
  refine Chip.barrierLoop_waits ?_
  rw [Chip.barrier_setBarrier]
  exact hsome.symm

end

/-- A barrier with an arrival more for its next generation. -/
def Chip.arrived (s : Chip) (b : Nat) (a : Word) : Chip := (s.setBarrier b { s.barrier b with
  arrivedG := (s.barrier b).arrivedG + 1, originG := s.originOf .mgmt }).noteArrival b a .mgmt

section
variable {s : Chip} {b : Nat} {a : Word}

theorem Chip.arrived_barrier : (s.arrived b a).barrier b = { s.barrier b with
    arrivedG := (s.barrier b).arrivedG + 1, originG := s.originOf .mgmt } := Chip.barrier_setBarrier _

theorem Chip.arrived_counter {j : Nat} (h : j ≠ (s.barrier b).arriveCtr.toNat) : (s.arrived b a).counter j = s.counter j := by
  refine (Chip.setCounter_other _ _ _ _ ?_).trans (Chip.counter_setBarrier _ _)
  rw [Chip.barrier_setBarrier]
  exact h

/-- What an arrival note keeps of a counter. -/
theorem Chip.noteArrival_value (src : AddSrc) (j : Nat) : ((s.noteArrival b a src).counter j).value = (s.counter j).value := by
  by_cases h : j = (s.barrier b).arriveCtr.toNat
  · rw [Chip.noteArrival, h, Chip.setCounter_same]
    rfl
  · rw [Chip.noteArrival, Chip.setCounter_other _ _ _ _ h]

theorem Chip.plainAdd_mem (i : Nat) (sig : Nat × Nat × Nat) : (s.plainAdd i a sig).mem = s.mem := by
  simp only [Chip.plainAdd]
  split <;> rfl

end

theorem counterAdd_completes (s : State) (i : BitVec 18) (a : Word) (b : Nat) (x : Barrier) (hlive : s.live = true)
    (harrive : s.arriveOf i.toNat = some (b, x)) (h : a.toNat = (s.counter (s.barrier b).doneCtr.toNat).value.toNat + 1)
    (hheld : (s.barrier b).held = []) (hall : (s.barrier b).participants = (s.barrier b).arrivedG + 1)
    (hnext : (s.barrier b).arrivedG1 = 0) (hsome : (s.barrier b).participants ≠ 0)
    (hother : (s.barrier b).arriveCtr ≠ (s.barrier b).doneCtr) : s.gives (.counterAdd i a .mgmt) fun c =>
    (c.counter (s.barrier b).doneCtr.toNat).value = a ∧ (c.barrier b).generation = a ∧ (c.barrier b).arrivedG = 0 ∧ c.mem = s.mem := by
  have hbarrier := Chip.arrived_barrier (s := s.toChip) (b := b) (a := a)
  have hcounter : (s.toChip.arrived b a).counter (s.barrier b).doneCtr.toNat = s.counter (s.barrier b).doneCtr.toNat :=
    Chip.arrived_counter fun heq => hother (BitVec.eq_of_toNat_eq heq.symm)
  obtain ⟨t, ht, hloop⟩ := Chip.barrierLoop_completes (s := s.toChip.arrived b a) (b := b) (n := 1)
    (by rw [hbarrier]; exact hall.symm) (by rw [hbarrier]; exact hheld) (by rw [hbarrier]; exact hnext) (by rw [hbarrier]; exact hsome)
  have hdone : ((s.toChip.arrived b a).barrier b).doneCtr = (s.barrier b).doneCtr := by rw [hbarrier]
  have hfits : ((s.toChip.arrived b a).counter (s.barrier b).doneCtr.toNat).value.toNat + (1 : Word).toNat < 2 ^ 64 := by
    rw [hcounter]
    have := a.isLt
    rw [h] at this
    exact this
  have hvalue : (t.counter (s.barrier b).doneCtr.toNat).value = a := by
    rw [ht, hdone, Chip.plainAdd_fits _ hfits, Chip.wake_counter, Chip.setCounter_same]
    refine BitVec.eq_of_toNat_eq ?_
    rw [h, ← hcounter]
    exact (BitVec.toNat_add_of_lt hfits)
  have hlast : (s.toChip.addFrom i.toNat a .mgmt).1 = Chip.barrierLoop b 3 (s.toChip.arrived b a) := by
    rw [Chip.addFrom_next harrive h, hheld]
    rfl
  refine State.gives_live rfl hlive ?_
  rw [hlast, hloop, Chip.counter_setBarrier, Chip.barrier_setBarrier, hdone]
  refine ⟨hvalue, hvalue, rfl, ?_⟩
  rw [ht]
  exact Chip.plainAdd_mem ..

/-- Settles O33: each clause is a lemma above, or one branch of its command's function. -/
theorem barriers : Obligations.Barriers := by
  unfold Obligations.Barriers
  refine ⟨?_, ?_, ?_, ?_, ?_, ?_, ?_, counterAdd_completes, ?_⟩
  · intro s b w hlive hw hfree hcheck
    refine State.gives_live (f := fun c => _) rfl hlive ?_
    rw [hw, Chip.when_true, Chip.barrierBind_takes hfree hcheck]
  · intro s b w hlive hw hfree hsame
    refine State.gives_live (f := fun c => _) rfl hlive ?_
    rw [hw, Chip.when_true, Chip.barrierBind_refused (k := 1) hfree (if_pos (by rw [hsame]))]
    exact ⟨(congrArg Barrier.enable (Chip.barrier_setBarrier (s := s.toChip) _)).trans hfree, rfl, rfl⟩
  · intro s b w hlive hw hheld
    refine State.gives_live (f := fun c => _) rfl hlive ?_
    rw [hw, Bool.not_false, Chip.when_true, Chip.barrierUnbind_empty hheld]
  · intro s b k w hlive
    exact State.gives_live rfl hlive (Chip.barrierWord_low w)
  · intro s b w hlive hw hbound
    refine State.gives_live (f := fun c => _) rfl hlive ?_
    rw [hw, Chip.when_true, Chip.barrierBind_bound hbound]
  · intro s r hlive hresends
    refine State.gives_live rfl hlive ?_
    simp [Chip.resend, hresends]
  · intro s i a b x hlive harrive h
    exact State.gives_live rfl hlive (Chip.addFrom_stale harrive h)
  · intro s i a b x hlive harrive h hroom
    refine State.gives_live rfl hlive ?_
    rw [Chip.addFrom_ahead harrive h hroom, Chip.noteArrival_value, Chip.noteArrival, Chip.barrier_setCounter, Chip.barrier_setBarrier]
    exact ⟨rfl, rfl, rfl, rfl⟩

end Sys2Proof.Machine
end

section
/-! PROOF. A communicator slot that its table lists twice (R213, R221, R235): the statement `Collectives` fails. -/

namespace Sys2Proof.Machine

/-- A COLLECTIVE of no elements on communicator id. -/
def emptyCollective (id : Half) : CollCmd :=
  { src := 0, dst := 0, count := 0, commId := id, op := 2, dtype := 0, redop := 0, rootRow := 0, capacity := 0, arrivalOrder := false
    bulk := false, hint := 0 }

/-- A running chip whose table of communicators lists slot 0 twice: first Draining with a collective in flight, then Bound to another
communicator, for which a COLLECTIVE waits. -/
def twiceListed : State :=
  { State.reset with
    mgmt := { Mgmt.reset with stage := 6 }
    objs := [(O.chipAssigned, 1)]
    tn := { Tn.reset with tbState := .master }
    coll := { Coll.reset with
      comms := [(0, { CommSlot.zero with state := .draining, commId := 1 }), (0, { CommSlot.zero with state := .bound, commId := 2, nmembers := 1 })]
      active := [{ slot := 0, seq := 0, queue := 0, num := 0, cmd := emptyCollective 1, sig := 0, tStart := 0, starts := [], selfLast := false,
                   grants := [], given := [], rowsKept := 0, pieces := [], landed := [], offers := [], gathering := false, lost := false }]
      waiting := [{ queue := 1, num := 0, cmd := emptyCollective 2, tStart := 0 }] } }

/-- Once the slot is unbound, the second listing is found, and what waits for it begins on the same slot. -/
theorem twiceListed_begins : ((twiceListed.toChip.collDrain 0).collFeed).inflightOn 0 ≠ [] := by decide +kernel

/-- Refutes O34: at the drain deadline of a slot listed twice, a collective of its other listing begins there. -/
theorem not_collectives : ¬ Obligations.Collectives := by
  unfold Obligations.Collectives
  rintro ⟨-, -, -, -, -, -, -, -, -, -, -, -, hdrain, -⟩
  obtain ⟨-, hempty⟩ := State.of_gives (c := (twiceListed.toChip.collDrain 0).collFeed)
    (hdrain twiceListed 0 rfl rfl (List.cons_ne_nil _ _)) rfl
  exact twiceListed_begins hempty

end Sys2Proof.Machine
end

section
/-! PROOF. What a write of data memory leaves as it was (R249, R250). -/

namespace Sys2Proof.Machine

/-! ### Chips whose cache hides nothing

Where every channel answers, and no clean line of the cache hides another copy of its bytes, an access that makes room in the cache
changes no byte. -/

/-- No clean cached line hides another copy, and every channel answers. -/
structure Chip.Calm (s : Chip) : Prop where
  answers : ∀ n, (s.channel n).unresponsive = false
  clean : ∀ l x, Tab.get none s.hbm.cache l = some x → x.under = none ∨ x.dirty = true

section
variable {s : Chip}

theorem Chip.Calm.of_eq {t : Chip} (h : s.Calm) (hchannels : t.hbm.channels = s.hbm.channels) (hcache : t.hbm.cache = s.hbm.cache) :
    t.Calm := by
  refine ⟨fun n => ?_, fun l x hx => h.clean l x (by rw [← hcache]; exact hx)⟩
  rw [Chip.channel, hchannels]
  exact h.answers n

theorem Chip.Calm.setCache {c : Option CacheLine} (h : s.Calm) (l : Nat) (hc : ∀ x, c = some x → x.under = none ∨ x.dirty = true) :
    (s.setCache l c).Calm := by
  refine ⟨h.answers, fun j x hx => ?_⟩
  rw [Chip.setCache, Tab.get_set] at hx
  split at hx
  · exact hc x hx
  · exact h.clean j x hx

theorem Chip.Calm.evict (h : s.Calm) (l : Nat) : (s.evict l).Calm ∧ ∀ b, (s.evict l).byte b = s.byte b := by
  unfold Chip.evict
  split
  · exact ⟨h, fun _ => rfl⟩
  · rename_i c hc
    have hgone : (s.setCache l none).Calm := h.setCache l fun x hx => nomatch hx
    dsimp only
    split
    · rename_i hdirty hunder
      rcases h.clean l c hc with hnone | hset
      · rw [hnone] at hunder
        cases hunder
      · rw [hset] at hdirty
        cases hdirty
    · exact ⟨hgone, fun _ => rfl⟩

/-- What keeps a chip calm and each of its bytes. -/
def Chip.Quiet (s t : Chip) : Prop := t.Calm ∧ ∀ b, t.byte b = s.byte b

theorem Chip.Calm.quiet (h : s.Calm) : s.Quiet s := ⟨h, fun _ => rfl⟩

theorem Chip.Quiet.trans {t u : Chip} (h : s.Quiet t) (g : t.Calm → t.Quiet u) : s.Quiet u :=
  ⟨(g h.1).1, fun b => ((g h.1).2 b).trans (h.2 b)⟩

theorem Chip.Calm.keepRoom (h : s.Calm) (l : Nat) : s.Quiet (s.keepRoom l) := by
  unfold Chip.keepRoom
  dsimp only
  split
  · exact h.quiet
  · split
    · exact h.quiet
    · split
      · exact h.evict _
      · exact h.quiet

theorem Chip.Calm.lineRoom (h : s.Calm) (l : Nat) : s.Quiet (s.lineRoom l) := by
  unfold Chip.lineRoom
  dsimp only
  split
  · exact h.quiet
  · split
    · exact h.quiet
    · split
      · exact h.evict _
      · split
        · exact h.evict _
        · exact h.quiet

theorem Chip.Calm.place (h : s.Calm) {c : CacheLine} (hc : c.under = none ∨ c.dirty = true) (l n : Nat) :
    s.Quiet ({ s.setCache l (some c) with hbm := { (s.setCache l (some c)).hbm with cacheClock := n } } : Chip) :=
  ⟨(h.setCache l fun x hx => by rw [← Option.some.inj hx]; exact hc).of_eq rfl rfl, fun _ => rfl⟩

theorem Chip.Calm.allocate (h : s.Calm) (l : Nat) (keep dirty : Bool) (under : Option (List Byte × Bool))
    (hc : under = none ∨ dirty = true) : s.Quiet (s.allocate l keep dirty under) := by
  unfold Chip.allocate
  dsimp only
  have hroom : s.Quiet ((if keep && s.obj O.keepWays != 0 then s.keepRoom l else s).lineRoom l) := by
    split
    · exact (h.keepRoom l).trans fun h => h.lineRoom l
    · exact h.lineRoom l
  exact hroom.trans fun h => h.place hc l _

theorem Chip.Calm.touch (h : s.Calm) (l : Nat) {c : CacheLine} (keep : Bool) (hc : c.under = none ∨ c.dirty = true) :
    s.Quiet (s.touch l c keep) := by
  unfold Chip.touch
  dsimp only
  refine Chip.Quiet.trans (t := if (keep && s.obj O.keepWays != 0) && !c.keep then s.keepRoom l else s) ?_ fun h => ?_
  · split
    · exact h.keepRoom l
    · exact h.quiet
  · exact h.place (by exact hc) l _

theorem Chip.Calm.setSilent (h : s.Calm) (n : Nat) : s.Quiet (s.setChannel n fun c => { c with silent := 0 }) := by
  refine ⟨⟨fun m => ?_, h.clean⟩, fun _ => rfl⟩
  have hget : (s.setChannel n fun c => { c with silent := 0 }).channel m =
      if m = n then { s.channel n with silent := 0 } else s.channel m := by
    rw [Chip.channel, Chip.setChannel, Tab.get_modify]
    rfl
  rw [hget]
  split
  · exact h.answers n
  · exact h.answers m

theorem Chip.Calm.deadPlace (h : s.Calm) (pl : Place) : s.deadPlace pl = false := h.answers _

/-- A line whose channel answers is read as it is stored. -/
theorem Chip.Calm.readStored (h : s.Calm) (l : Nat) : s.Quiet (s.readStored l []).1 := by
  unfold Chip.readStored
  split
  · exact h.quiet
  · rw [h.deadPlace]
    exact h.setSilent _

theorem Chip.Calm.mergeLine (h : s.Calm) (pl : Place) (l : Nat) : s.Quiet (s.mergeLine pl l []) := by
  unfold Chip.mergeLine
  rw [h.deadPlace]
  exact h.readStored l

theorem Chip.Calm.wakeStack (h : s.Calm) (t : Nat) : s.Quiet (s.wakeStack t) := by
  unfold Chip.wakeStack
  split
  · exact ⟨h.of_eq rfl rfl, fun _ => rfl⟩
  · exact h.quiet

theorem Chip.Calm.wakeCellar (h : s.Calm) (a : Nat) : s.Quiet (s.wakeCellar a) := by
  unfold Chip.wakeCellar
  split
  · exact ⟨h.of_eq rfl rfl, fun _ => rfl⟩
  · exact h.quiet

/-! ### Storing -/

/-- What keeps a chip calm and each of its bytes outside a range. -/
def Chip.QuietOutside (a n : Nat) (s t : Chip) : Prop := t.Calm ∧ ∀ b, b < a ∨ a + n ≤ b → t.byte b = s.byte b

theorem Chip.Quiet.outside {t : Chip} (h : s.Quiet t) (a n : Nat) : s.QuietOutside a n t := ⟨h.1, fun b _ => h.2 b⟩

theorem Chip.Quiet.then {t u : Chip} {a n : Nat} (h : s.Quiet t) (g : t.Calm → t.QuietOutside a n u) : s.QuietOutside a n u :=
  ⟨(g h.1).1, fun b hb => ((g h.1).2 b hb).trans (h.2 b)⟩

theorem Chip.QuietOutside.then {t u : Chip} {a n : Nat} (h : s.QuietOutside a n t) (g : t.Calm → t.Quiet u) : s.QuietOutside a n u :=
  ⟨(g h.1).1, fun b hb => ((g h.1).2 b).trans (h.2 b hb)⟩

theorem Chip.Calm.mark (h : s.Calm) (a : Nat) (p : Bool) : s.Quiet (s.mark a p) := by
  refine ⟨h.of_eq ?_ ?_, fun _ => rfl⟩ <;> unfold Chip.mark <;> dsimp only <;> split <;> rfl

theorem Chip.Calm.putBytes (h : s.Calm) (a : Nat) (bs : List Byte) : s.QuietOutside a bs.length (s.putBytes a bs) :=
  ⟨h.of_eq rfl rfl, fun b hb => s.putBytes_byte_other a b bs hb⟩

theorem Chip.Calm.putLine (h : s.Calm) (a : Nat) (bs : List Byte) (p : Bool) : s.QuietOutside a bs.length (s.putLine a bs p) := by
  have hput := h.putBytes a bs
  unfold Chip.putLine
  dsimp only
  split
  · split
    · exact hput.then fun h => h.mark a p
    · exact hput
  · split
    · exact hput.then fun h => h.mark a true
    · exact hput

theorem Chip.Calm.noteWritten (h : s.Calm) (u l : Nat) : s.Quiet (s.noteWritten u l) := by
  unfold Chip.noteWritten
  split
  · exact ⟨h.of_eq rfl rfl, fun _ => rfl⟩
  · exact h.quiet

theorem Chip.Calm.writeHbmLine (h : s.Calm) (a : Nat) (bs : List Byte) (p : Bool) (hint : Hint) :
    s.QuietOutside a bs.length (s.writeHbmLine a bs p hint []) := by
  unfold Chip.writeHbmLine
  dsimp only
  split
  · exact h.quiet.outside a _
  · rename_i pl hpl
    refine (h.wakeStack (unitChannel (s.servingUnit pl.unit) / 32)).then fun h => ?_
    generalize s.wakeStack (unitChannel (s.servingUnit pl.unit) / 32) = w at h ⊢
    split
    · refine Chip.Quiet.then (t := if bs.length = 64 then w.noteWritten pl.unit pl.unitLine else w) ?_ fun h => h.putLine a bs p
      split
      · exact h.noteWritten _ _
      · exact h.quiet
    · split
      · refine (h.putLine a bs p).then fun h => ?_
        split
        · exact h.touch _ _ (.inr rfl)
        · exact ⟨h.setCache _ fun x hx => by rw [← Option.some.inj hx]; exact .inr rfl, fun _ => rfl⟩
      · refine Chip.Quiet.then (t := if bs.length = 64 then w else w.mergeLine pl (a / 64) []) ?_ fun h => ?_
        · split
          · exact h.quiet
          · exact h.mergeLine pl _
        · generalize (if bs.length = 64 then w else w.mergeLine pl (a / 64) []) = u at h ⊢
          split
          · exact (h.allocate _ _ true _ (.inr rfl)).then fun h => h.putLine a bs p
          · exact h.putLine a bs p

theorem Chip.Calm.writePiece (h : s.Calm) (a : Nat) (bs : List Byte) (p : Bool) (hint : Hint) :
    s.QuietOutside a bs.length (s.writePiece a bs p hint) := by
  unfold Chip.writePiece
  split
  · exact ⟨h.of_eq rfl rfl, fun _ _ => rfl⟩
  · split
    · split
      · exact h.quiet.outside a _
      · exact h.writeHbmLine a bs p hint
    · exact (h.wakeCellar a).then fun h => h.putLine a bs p

/-- The pieces of a range lie in it. -/
theorem linePieces_within {fuel a len : Nat} {p : Nat × Nat} (hp : p ∈ linePieces fuel a len) : a ≤ p.1 ∧ p.1 + p.2 ≤ a + len := by
  induction fuel generalizing a len with
  | zero => cases hp
  | succ n ih =>
    rw [linePieces] at hp
    split at hp
    · cases hp
    · rcases List.mem_cons.mp hp with rfl | hrest
      · exact ⟨le_refl a, by dsimp only; omega⟩
      · have := ih hrest
        omega

theorem Chip.Calm.write (h : s.Calm) (a : Nat) (bs : List Byte) (p : Bool) (hint : Hint) :
    s.QuietOutside a bs.length (s.write a bs p hint) := by
  unfold Chip.write
  have hin : ∀ q ∈ pieces a bs.length, a ≤ q.1 ∧ q.1 + q.2 ≤ a + bs.length := fun q hq => linePieces_within hq
  generalize pieces a bs.length = l at hin ⊢
  induction l generalizing s with
  | nil => exact h.quiet.outside a _
  | cons q r ih =>
    obtain ⟨hlow, hhigh⟩ := hin q List.mem_cons_self
    have hlength : ((bs.drop (q.1 - a)).take q.2).length ≤ q.2 := List.length_take_le ..
    obtain ⟨hcalm, hbytes⟩ := h.writePiece q.1 ((bs.drop (q.1 - a)).take q.2) p hint
    obtain ⟨hcalm', hbytes'⟩ := ih hcalm fun q hq => hin q (List.mem_cons_of_mem _ hq)
    exact ⟨hcalm', fun b hb => (hbytes' b hb).trans (hbytes b (by omega))⟩

end

/-- Settles O36: in a calm chip, what a write does beside its own bytes changes none. -/
theorem writesLeaveOtherBytes : Obligations.Writes_leave_other_bytes := by
  unfold Obligations.Writes_leave_other_bytes
  intro s a b bs hanswers hclean hb
  exact (Chip.Calm.write ⟨hanswers, hclean⟩ a bs false 0).2 b hb

end Sys2Proof.Machine
end

section
/-! PROOF. A cached line whose hidden copy is longer than a line (R249, R250): the statement `Read_after_write` fails.

The set in which a line is cached is an opaque function, so the two lines of one set that the chip needs are found by counting. -/

namespace Sys2Proof.Machine

/-- The map of HBM is that of the reset state: one GLOBAL region, no unit moved or being moved, and every stack awake. -/
structure Chip.Plain (s : Chip) : Prop where
  interleave : s.hbm.interleave = [(0, Hbm.entry0 1008)]
  v : s.hbm.v = 1008
  remap : s.hbm.remap = []
  migration : s.hbm.migration = none
  sweeps : s.hbm.sweeps = []
  awakeStacks : s.hbm.hbmStacks = []

/-- The place of an offset in the first GiB. -/
def firstPlace (o : Nat) : Place := placeIn 0 (Hbm.entry0 1008) o

theorem firstPlace_channel (o : Nat) : (firstPlace o).channel < 1024 := by
  have hpolicy : ilPolicy (Hbm.entry0 1008) = 0 := by decide
  simp only [firstPlace, placeIn, hpolicy, if_true]
  rw [Nat.zero_add]
  exact Nat.mod_lt _ (by decide)

theorem firstPlace_chaddr {o : Nat} (h : o < 2 ^ 30) : (firstPlace o).chaddr < 2 ^ 22 := by
  have hpolicy : ilPolicy (Hbm.entry0 1008) = 0 := by decide
  have hbase : ilBase (Hbm.entry0 1008) = 0 := by decide
  have hchannel : ilChBase (Hbm.entry0 1008) = 0 := by decide
  simp only [firstPlace, placeIn, hpolicy, hbase, hchannel, if_true]
  omega

theorem firstPlace_unit {o : Nat} (h : o < 2 ^ 30) : unitChannel (firstPlace o).unit < 1024 := by
  have hchannel := firstPlace_channel o
  have hchaddr := firstPlace_chaddr h
  have hpc : (firstPlace o).pc = 2 * (firstPlace o).channel + (firstPlace o).chaddr / 256 % 2 := rfl
  have hpcaddr : (firstPlace o).pcaddr = (firstPlace o).chaddr / 512 * 256 + (o - ilBase (Hbm.entry0 1008) * 2 ^ 30) % 256 := rfl
  unfold unitChannel Place.unit unitBytes
  omega

section
variable {s : Chip} (hs : s.Plain)

include hs

theorem Chip.Plain.place {o : Nat} (h : o < 2 ^ 30) : s.place o = some (firstPlace o) := by
  have hregions : s.regions = [(0, Hbm.entry0 1008)] := by
    rw [Chip.regions, hs.interleave]
    decide
  have hbase : ilBase (Hbm.entry0 1008) = 0 := by decide
  have hsize : ilSize (Hbm.entry0 1008) = 3024 := by decide
  have hin : ilBase (Hbm.entry0 1008) ≤ o / 2 ^ 30 ∧ o / 2 ^ 30 < ilBase (Hbm.entry0 1008) + ilSize (Hbm.entry0 1008) := by
    rw [hbase, hsize]
    omega
  rw [Chip.place, hregions, List.find?_cons_of_pos (by exact decide_eq_true hin)]
  rfl

theorem Chip.Plain.region {o : Nat} (h : o < 2 ^ 30) : s.region o = .hbm (firstPlace o) := by
  have hchaddr := firstPlace_chaddr h
  have hlow : o < 0x30000000000 := by omega
  have hend : ¬(firstPlace o).chaddr ≥ visibleEnd s.hbm.v := by
    rw [hs.v]
    unfold visibleEnd unitBytes
    omega
  have hvisible : ¬o ≥ s.hbmVisible := by
    rw [Chip.hbmVisible, hs.v]
    omega
  rw [Chip.region, if_pos hlow, hs.place h]
  simp only [if_neg hend, if_neg hvisible]

theorem Chip.Plain.copying (u : Nat) : s.copying u = false := by
  rw [Chip.copying, hs.migration, hs.sweeps]
  rfl

theorem Chip.Plain.wakeStack (n : Nat) : s.wakeStack n = s := by
  rw [Chip.wakeStack, hs.awakeStacks]
  rfl

theorem Chip.Plain.servingUnit (u : Nat) : s.servingUnit u = u := by
  rw [Chip.servingUnit, Chip.donorOf, hs.sweeps, hs.remap]
  rfl

theorem Chip.Plain.lineSet {l : Nat} (h : 64 * l < 2 ^ 30) :
    s.lineSet l = (unitChannel (firstPlace (64 * l)).unit, Config.cacheSet l % 1536) := by
  rw [Chip.lineSet, hs.place h]
  simp only [hs.servingUnit]

end

/-! ### Two lines of one set -/

/-- The number of a line's set. -/
def setNumber (l : Nat) : Nat := 1536 * unitChannel (firstPlace (64 * l)).unit + Config.cacheSet l % 1536

/-- Of the first even lines, two lie in one set. -/
theorem exists_same_set : ∃ i j, i < j ∧ j < 1572865 ∧ setNumber (2 * i) = setNumber (2 * j) := by
  have hmaps : ∀ i ∈ Finset.range 1572865, setNumber (2 * i) ∈ Finset.range 1572864 := by
    intro i hi
    have hunit := firstPlace_unit (o := 64 * (2 * i)) (by rw [Finset.mem_range] at hi; omega)
    rw [Finset.mem_range, setNumber]
    omega
  obtain ⟨i, hi, j, hj, hne, heq⟩ := Finset.exists_ne_map_eq_of_card_lt_of_maps_to (by simp) hmaps
  rw [Finset.mem_range] at hi hj
  rcases lt_or_gt_of_ne hne with h | h
  · exact ⟨i, j, h, hj, heq⟩
  · exact ⟨j, i, h, hi, heq.symm⟩

theorem lineSet_of_setNumber {s : Chip} (hs : s.Plain) {k l : Nat} (hk : 64 * k < 2 ^ 30) (hl : 64 * l < 2 ^ 30)
    (h : setNumber k = setNumber l) : s.lineSet k = s.lineSet l := by
  unfold setNumber at h
  rw [hs.lineSet hk, hs.lineSet hl, Prod.mk.injEq]
  omega

/-! ### The chip -/

/-- A clean line that hides n ones. -/
def hidingOnes (n : Nat) : CacheLine := ⟨false, some (List.replicate n 1, false), false, 0⟩

/-- The cache lists line e sixteen times, with a copy that reaches to the end of line l, and line l once as a KEEP line. -/
def crowdedCache (e l : Nat) (x : CacheLine) : Tab (Option CacheLine) :=
  List.replicate 16 (e, some (hidingOnes (64 * (l + 1 - e)))) ++ [(l, some x)]

def crowded (e l : Nat) : Chip := { Chip.reset with hbm := { Hbm.reset with cache := crowdedCache e l ⟨true, none, true, 0⟩ } }

theorem crowded_plain (e l : Nat) : (crowded e l).Plain := ⟨rfl, rfl, rfl, rfl, rfl, rfl⟩

section
variable {e l : Nat} {x : CacheLine}

theorem get_crowdedCache (h : l ≠ e) : Tab.get none (crowdedCache e l x) l = some x := by
  simp [crowdedCache, List.replicate, Tab.get, h]

theorem get_crowdedCache_first : Tab.get none (crowdedCache e l x) e = some (hidingOnes (64 * (l + 1 - e))) := by
  simp [crowdedCache, List.replicate, Tab.get]

theorem get_crowdedCache_other {k : Nat} (h : k ≠ e) (h' : k ≠ l) : Tab.get none (crowdedCache e l x) k = none := by
  simp [crowdedCache, List.replicate, Tab.get, h, h']

theorem set_crowdedCache (h : e < l) (y : CacheLine) : Tab.set none (crowdedCache e l x) l (some y) = crowdedCache e l y := by
  have hlt : ¬l < e := by omega
  have hne : l ≠ e := by omega
  simp [crowdedCache, List.replicate, Tab.set, Tab.insert, hlt, hne]

end

/-- Room in the set of line e is made by writing back line e, since line l is a KEEP line. -/
theorem Chip.lineRoom_crowded {s : Chip} {e l k : Nat} {x : CacheLine} (hcache : s.hbm.cache = crowdedCache e l x) (hx : x.keep = true)
    (hset : s.lineSet e = s.lineSet k) : s.lineRoom k = s.evict e := by
  have hlines : s.cachedLines = List.replicate 16 (e, hidingOnes (64 * (l + 1 - e))) ++ [(l, x)] := by
    rw [Chip.cachedLines, hcache]
    simp [crowdedCache, List.replicate]
  have hhere : s.cachedLines.filter (fun y => s.lineSet y.1 == s.lineSet k) = List.replicate 16 (e, hidingOnes (64 * (l + 1 - e))) ++
      [(l, x)].filter fun y => s.lineSet y.1 == s.lineSet k := by
    rw [hlines, List.filter_append, List.filter_replicate, hset, BEq.rfl, if_pos rfl]
  have hkept : ([(l, x)].filter fun y => s.lineSet y.1 == s.lineSet k).filter (fun y => !y.2.keep) = [] := by
    rw [List.filter_filter, List.filter_eq_nil_iff]
    simp [hx]
  have hoffered : (s.cachedLines.filter fun y => s.lineSet y.1 == s.lineSet k).filter (fun y => !y.2.keep) =
      List.replicate 16 (e, hidingOnes (64 * (l + 1 - e))) := by
    rw [hhere, List.filter_append, hkept, List.append_nil, List.filter_replicate]
    rfl
  have hmany : ¬s.cachedLines.length < 16 := by simp [hlines]
  have hfull : ¬(s.cachedLines.filter fun y => s.lineSet y.1 == s.lineSet k).length < 16 := by
    rw [hhere, List.length_append, List.length_replicate]
    omega
  have hlru : lruOf (List.replicate 16 (e, hidingOnes (64 * (l + 1 - e)))) = some (e, hidingOnes (64 * (l + 1 - e))) := by
    simp [lruOf, maxBy, List.replicate]
  rw [Chip.lineRoom]
  simp only [if_neg hmany, if_neg hfull, hoffered, hlru]

/-! ### The write -/

section
variable {s : Chip}

theorem Chip.Plain.of_hbm {t : Chip} (hs : s.Plain) (hinterleave : t.hbm.interleave = s.hbm.interleave) (hv : t.hbm.v = s.hbm.v)
    (hremap : t.hbm.remap = s.hbm.remap) (hmigration : t.hbm.migration = s.hbm.migration) (hsweeps : t.hbm.sweeps = s.hbm.sweeps)
    (hstacks : t.hbm.hbmStacks = s.hbm.hbmStacks) : t.Plain :=
  ⟨hinterleave.trans hs.interleave, hv.trans hs.v, hremap.trans hs.remap, hmigration.trans hs.migration, hsweeps.trans hs.sweeps,
    hstacks.trans hs.awakeStacks⟩

theorem firstPlace_cacheable (o : Nat) : effHint (ilNoCache (firstPlace o).word) 0 = 0 := by
  have hword : (firstPlace o).word = Hbm.entry0 1008 := rfl
  rw [hword]
  decide

/-- A whole line of a plain chip that is cached is stored in the cache. -/
theorem Chip.Plain.writePiece_cached (hs : s.Plain) {l : Nat} {x : CacheLine} {bs : List Byte} (h : 64 * l < 2 ^ 30)
    (hx : Tab.get none s.hbm.cache l = some x) : s.writePiece (64 * l) bs false 0 =
      (s.putLine (64 * l) bs false).touch l { x with dirty := true, under := some (s.hbmCopy l) } false := by
  have hreach : s.unreachable (64 * l) = false := by
    rw [Chip.unreachable, decide_eq_false (by omega)]
    rfl
  have hlow : 64 * l < 0x30000000000 := by omega
  have hline : 64 * l / 64 = l := by omega
  rw [Chip.writePiece, hreach, if_neg Bool.false_ne_true, if_pos hlow, hs.region h]
  simp only [Chip.writeHbmLine, hs.place h, hs.wakeStack, hs.copying, hline, hx, firstPlace_cacheable, Bool.false_eq_true, if_false]
  rfl

/-- A whole line of a plain chip that is not cached takes a place in the cache first. -/
theorem Chip.Plain.writePiece_uncached (hs : s.Plain) {l : Nat} {bs : List Byte} (h : 64 * l < 2 ^ 30) (hbs : bs.length = 64)
    (hx : Tab.get none s.hbm.cache l = none) : s.writePiece (64 * l) bs false 0 =
      (s.allocate l false true (some (s.hbmCopy l))).putLine (64 * l) bs false := by
  have hreach : s.unreachable (64 * l) = false := by
    rw [Chip.unreachable, decide_eq_false (by omega)]
    rfl
  have hlow : 64 * l < 0x30000000000 := by omega
  have hline : 64 * l / 64 = l := by omega
  rw [Chip.writePiece, hreach, if_neg Bool.false_ne_true, if_pos hlow, hs.region h]
  simp only [Chip.writeHbmLine, hs.place h, hs.wakeStack, hs.copying, hline, hx, hbs, firstPlace_cacheable, Bool.false_eq_true, if_false,
    if_true]
  rfl

theorem Chip.Plain.readPiece_cached (hs : s.Plain) {l : Nat} {x : CacheLine} (h : 64 * l < 2 ^ 30)
    (hx : Tab.get none s.hbm.cache l = some x) : (s.readPiece (64 * l) 64 0).2.1 = s.bytes (64 * l) 64 := by
  have hreach : s.unreachable (64 * l) = false := by
    rw [Chip.unreachable, decide_eq_false (by omega)]
    rfl
  have hlow : 64 * l < 0x30000000000 := by omega
  have hline : 64 * l / 64 = l := by omega
  have hstart : 64 * l % 64 = 0 := by omega
  have hbytes : ((s.bytes (64 * l) 64).drop 0).take 64 = s.bytes (64 * l) 64 := by
    rw [List.drop_zero, List.take_of_length_le]
    simp [Chip.bytes]
  rw [Chip.readPiece, hreach, if_neg Bool.false_ne_true, if_pos hlow, hline, hstart, ← hbytes]
  simp only [Chip.readHbmLine, hs.place h, hs.wakeStack, hs.copying, hx, firstPlace_cacheable, Bool.false_eq_true, if_false]
  rfl

/-- Marks alone change beside the bytes where bytes are stored. -/
theorem Chip.mark_keeps {β : Type} (f : Hbm → β) (hf : ∀ h x y, f { h with poison := x, unitPoison := y } = f h) (a : Nat) (p : Bool) :
    f (s.mark a p).hbm = f s.hbm := by
  unfold Chip.mark
  dsimp only
  split
  · exact hf s.hbm _ _
  · exact hf s.hbm _ s.hbm.unitPoison

theorem Chip.putLine_keeps {β : Type} (f : Hbm → β) (hf : ∀ h x y, f { h with poison := x, unitPoison := y } = f h) (a : Nat)
    (bs : List Byte) (p : Bool) : f (s.putLine a bs p).hbm = f s.hbm := by
  unfold Chip.putLine
  dsimp only
  split
  · split
    · exact Chip.mark_keeps f hf a p
    · rfl
  · split
    · exact Chip.mark_keeps f hf a true
    · rfl

theorem Chip.putLine_byte (a b : Nat) (bs : List Byte) (p : Bool) : (s.putLine a bs p).byte b = (s.putBytes a bs).byte b := by
  have hmark (t : Chip) (m : Bool) : (t.mark a m).byte b = t.byte b := rfl
  unfold Chip.putLine
  dsimp only
  split
  · split
    · exact hmark _ _
    · rfl
  · split
    · exact hmark _ _
    · rfl

theorem Chip.Plain.putLine (hs : s.Plain) (a : Nat) (bs : List Byte) (p : Bool) : (s.putLine a bs p).Plain :=
  hs.of_hbm (Chip.putLine_keeps Hbm.interleave (fun _ _ _ => rfl) a bs p) (Chip.putLine_keeps Hbm.v (fun _ _ _ => rfl) a bs p)
    (Chip.putLine_keeps Hbm.remap (fun _ _ _ => rfl) a bs p) (Chip.putLine_keeps Hbm.migration (fun _ _ _ => rfl) a bs p)
    (Chip.putLine_keeps Hbm.sweeps (fun _ _ _ => rfl) a bs p) (Chip.putLine_keeps Hbm.hbmStacks (fun _ _ _ => rfl) a bs p)

/-- The chip after line e is written back. -/
theorem Chip.Plain.evict_hiding (hs : s.Plain) {e n : Nat} (he : Tab.get none s.hbm.cache e = some (hidingOnes n)) :
    (s.evict e).Plain ∧ (s.evict e).hbm.cache = Tab.set none s.hbm.cache e none ∧
      ∀ k, k < n → (s.evict e).byte (64 * e + k) = 1 := by
  have hevict : s.evict e = ((s.setCache e none).putBytes (64 * e) (List.replicate n 1)).mark (64 * e) false := by
    simp only [Chip.evict, he, hidingOnes]
  rw [hevict]
  refine ⟨hs.of_hbm (Chip.mark_keeps Hbm.interleave (fun _ _ _ => rfl) _ _) (Chip.mark_keeps Hbm.v (fun _ _ _ => rfl) _ _)
    (Chip.mark_keeps Hbm.remap (fun _ _ _ => rfl) _ _) (Chip.mark_keeps Hbm.migration (fun _ _ _ => rfl) _ _)
    (Chip.mark_keeps Hbm.sweeps (fun _ _ _ => rfl) _ _) (Chip.mark_keeps Hbm.hbmStacks (fun _ _ _ => rfl) _ _),
    Chip.mark_keeps Hbm.cache (fun _ _ _ => rfl) _ _, fun k hk => ?_⟩
  refine (Chip.putBytes_byte_same _ _ k _ (by rw [List.length_replicate]; exact hk)).trans ?_
  rw [List.getElem_replicate]

end

theorem Chip.get_cache_of_set {s : Chip} {c : Tab (Option CacheLine)} {k j : Nat} {v : Option CacheLine}
    (h : s.hbm.cache = Tab.set none c k v) (hne : j ≠ k) : Tab.get none s.hbm.cache j = Tab.get none c j := by
  rw [h]
  exact Tab.get_set_ne none c k j v hne

/-- The pieces of two whole lines. -/
theorem pieces_two_lines (l : Nat) : pieces (64 * l) 128 = [(64 * l, 64), (64 * (l + 1), 64)] := by
  have h0 : 64 * l % 64 = 0 := by omega
  have h1 : (64 * l + 64) % 64 = 0 := by omega
  simp [pieces, linePieces, h0, h1, Nat.mul_add]

section
variable {e l : Nat} (hel : e < l) (hl : 64 * (l + 1) < 2 ^ 30) (hset : setNumber e = setNumber (l + 1))

/-- Sixty-four zeros. -/
def zeroLine : List Byte := List.replicate 64 0

include hel hl

/-- The first line is stored in the cache, where it was. -/
theorem crowded_writePiece : ((crowded e l).writePiece (64 * l) zeroLine false 0).Plain ∧
    ∃ x, ((crowded e l).writePiece (64 * l) zeroLine false 0).hbm.cache = crowdedCache e l x ∧ x.keep = true := by
  have hx : Tab.get none (crowded e l).hbm.cache l = some ⟨true, none, true, 0⟩ := get_crowdedCache (by omega)
  rw [(crowded_plain e l).writePiece_cached (by omega) hx]
  have hput := (crowded_plain e l).putLine (64 * l) zeroLine false
  have hcache : ((crowded e l).putLine (64 * l) zeroLine false).hbm.cache = crowdedCache e l ⟨true, none, true, 0⟩ :=
    Chip.putLine_keeps Hbm.cache (fun _ _ _ => rfl) _ _ _
  generalize (crowded e l).putLine (64 * l) zeroLine false = t at hput hcache
  refine ⟨hput.of_hbm rfl rfl rfl rfl rfl rfl, ?_, ?_, ?_⟩
  · exact { dirty := true, under := some ((crowded e l).hbmCopy l), keep := true, stamp := t.hbm.cacheClock }
  · exact (congrArg (fun c => Tab.set none c l _) hcache).trans (set_crowdedCache hel _)
  · rfl

include hset

/-- The second line takes the place of line e, whose copy is written over the first. -/
theorem crowded_write : ((crowded e l).write (64 * l) (List.replicate 128 0) false 0).Plain ∧
    (∃ x, Tab.get none ((crowded e l).write (64 * l) (List.replicate 128 0) false 0).hbm.cache l = some x) ∧
    ((crowded e l).write (64 * l) (List.replicate 128 0) false 0).byte (64 * l) = 1 := by
  have hwrite : (crowded e l).write (64 * l) (List.replicate 128 0) false 0 =
      ((crowded e l).writePiece (64 * l) zeroLine false 0).writePiece (64 * (l + 1)) zeroLine false 0 := by
    have hsub : 64 * (l + 1) - 64 * l = 64 := by omega
    rw [Chip.write, List.length_replicate, pieces_two_lines]
    simp only [List.foldl_cons, List.foldl_nil, Nat.sub_self, hsub]
    rfl
  obtain ⟨hplain, x, hcache, hkeep⟩ := crowded_writePiece hel hl
  rw [hwrite]
  generalize (crowded e l).writePiece (64 * l) zeroLine false 0 = t at hplain hcache
  have hnew : Tab.get none t.hbm.cache (l + 1) = none := by
    rw [hcache]
    exact get_crowdedCache_other (by omega) (by omega)
  have hfirst : Tab.get none t.hbm.cache e = some (hidingOnes (64 * (l + 1 - e))) := by
    rw [hcache]
    exact get_crowdedCache_first
  obtain ⟨hevicted, hrest, hones⟩ := hplain.evict_hiding hfirst
  have hroom : t.lineRoom (l + 1) = t.evict e :=
    Chip.lineRoom_crowded hcache hkeep (lineSet_of_setNumber hplain (by omega) hl hset)
  rw [hplain.writePiece_uncached hl rfl hnew, Chip.allocate]
  simp only [Bool.false_and, Bool.false_eq_true, if_false, hroom]
  refine ⟨Chip.Plain.putLine ?_ _ _ _, ⟨x, ?_⟩, ?_⟩
  · exact hevicted.of_hbm rfl rfl rfl rfl rfl rfl
  · rw [Chip.putLine_keeps Hbm.cache (fun _ _ _ => rfl)]
    refine (Chip.get_cache_of_set (c := (t.evict e).hbm.cache) (k := l + 1)
      (v := some ⟨true, some (t.hbmCopy (l + 1)), false, (t.evict e).hbm.cacheClock⟩) rfl (by omega)).trans ?_
    rw [hrest, Tab.get_set_ne none _ e l _ (by omega), hcache]
    exact get_crowdedCache (by omega)
  · rw [Chip.putLine_byte, Chip.putBytes_byte_other _ _ _ _ (.inl (by omega))]
    have hone := hones (64 * (l - e)) (by omega)
    rw [show 64 * e + 64 * (l - e) = 64 * l by omega] at hone
    exact hone

/-- Reading both lines begins with a one. -/
theorem crowded_read : (readData (((crowded e l).write (64 * l) (List.replicate 128 0) false 0).read (64 * l) 128 0).2).head? = some 1 := by
  obtain ⟨hplain, ⟨x, hx⟩, hone⟩ := crowded_write hel hl hset
  generalize (crowded e l).write (64 * l) (List.replicate 128 0) false 0 = t at hplain hx hone
  have hfirst := hplain.readPiece_cached (by omega) hx
  rw [Chip.read, pieces_two_lines]
  simp only [List.foldl_cons, List.foldl_nil, List.nil_append, List.cons_append, readData, List.flatMap_cons, hfirst]
  rw [List.head?_append]
  simp [Chip.bytes, List.range_succ_eq_map, hone]

end

/-- Refutes O35: a clean cached line that hides a copy longer than a line writes over a line that was stored before. -/
theorem not_readAfterWrite : ¬ Obligations.Read_after_write := by
  unfold Obligations.Read_after_write
  intro h
  obtain ⟨i, j, hij, hj, hset⟩ := exists_same_set
  obtain ⟨l, hl⟩ : ∃ l, 2 * j = l + 1 := ⟨2 * j - 1, by omega⟩
  rw [hl] at hset
  have hread := crowded_read (e := 2 * i) (l := l) (by omega) (by omega) hset
  have hsame := h (crowded (2 * i) l) (64 * l) (List.replicate 128 0) (crowded_plain _ _).copying (fun _ => rfl) fun k hk => ?_
  · rw [List.length_replicate] at hsame
    rw [hsame] at hread
    cases hread
  · rw [List.length_replicate] at hk
    rw [(crowded_plain (2 * i) l).region (by omega), Chip.unreachable, decide_eq_false (by omega)]
    exact ⟨rfl, rfl⟩

end Sys2Proof.Machine
end

section
/-! PROOF. Memory keeps its canonical form, function by function, and the statement `Memory_stays_canonical`. -/

namespace Sys2Proof.Machine

section
variable (s : Chip)

/-! A part of the chip beside memory may become anything. -/

@[simp] theorem Chip.canonical_objs (v : Tab Nat) : ({ s with objs := v } : Chip).canonical = s.canonical := (rfl)
@[simp] theorem Chip.canonical_hbm (v : Hbm) : ({ s with hbm := v } : Chip).canonical = s.canonical := (rfl)
@[simp] theorem Chip.canonical_log (v : EventLog) : ({ s with log := v } : Chip).canonical = s.canonical := (rfl)
@[simp] theorem Chip.canonical_out (v : List Output) : ({ s with out := v } : Chip).canonical = s.canonical := (rfl)
@[simp] theorem Chip.canonical_power (v : Power) : ({ s with power := v } : Chip).canonical = s.canonical := (rfl)
@[simp] theorem Chip.canonical_cellar (v : Cellar) : ({ s with cellar := v } : Chip).canonical = s.canonical := (rfl)
@[simp] theorem Chip.canonical_cores (v : Tab CoreSt) : ({ s with cores := v } : Chip).canonical = s.canonical := (rfl)
@[simp] theorem Chip.canonical_freeCtr (v : Nat) : ({ s with freeCtr := v } : Chip).canonical = s.canonical := (rfl)

theorem Chip.each_canonical {α : Type} {f : Chip → α → Chip} (h : ∀ t a, t.canonical → (f t a).canonical) (l : List α)
    (hs : s.canonical) : (s.each l f).canonical := by
  induction l generalizing s with
  | nil => exact hs
  | cons a r ih => exact ih _ (h s a hs)

@[simp] theorem Chip.each_canonical_eq {α : Type} {f : Chip → α → Chip} (h : ∀ t a, (f t a).canonical = t.canonical) (l : List α) :
    (s.each l f).canonical = s.canonical := s.each_keeps Chip.canonical f h l

theorem foldl_fst_canonical {α β : Type} {f : Chip × β → α → Chip × β} (h : ∀ a x, a.1.canonical → (f a x).1.canonical)
    (l : List α) (a : Chip × β) (ha : a.1.canonical) : (l.foldl f a).1.canonical := by
  induction l generalizing a with
  | nil => exact ha
  | cons x r ih => exact ih _ (h a x ha)

@[simp] theorem Chip.raiseCount_canonical (code : Nat) (count : Nat) (args : List Arg) :
    (s.raiseCount code count args).canonical = s.canonical := (rfl)

@[simp] theorem Chip.raise_canonical (code : Nat) (args : List Arg) : (s.raise code args).canonical = s.canonical := (rfl)

@[simp] theorem Chip.drew_canonical : s.drew.canonical = s.canonical := (rfl)

@[simp] theorem Chip.wakeStack_canonical (t : Nat) : (s.wakeStack t).canonical = s.canonical := by
  unfold Chip.wakeStack
  split <;> simp

@[simp] theorem Chip.putBytes_canonical (a : Nat) (bs : List Byte) (hs : s.canonical) : (s.putBytes a bs).canonical :=
  s.putBytes_wf a bs hs

@[simp] theorem Chip.mark_canonical (a : Nat) (b : Bool) : (s.mark a b).canonical = s.canonical := (rfl)

@[simp] theorem Chip.putLine_canonical (a : Nat) (bs : List Byte) (poison : Bool) (hs : s.canonical) : (s.putLine a bs poison).canonical := by
  simp [hs, Chip.putLine, apply_ite Chip.canonical]

@[simp] theorem Chip.noteWritten_canonical (u : Nat) (line : Nat) : (s.noteWritten u line).canonical = s.canonical := by
  unfold Chip.noteWritten
  split <;> simp

@[simp] theorem Chip.setCache_canonical (line : Nat) (c : Option CacheLine) : (s.setCache line c).canonical = s.canonical := (rfl)

@[simp] theorem Chip.evict_canonical (line : Nat) (hs : s.canonical) : (s.evict line).canonical := by
  unfold Chip.evict
  split
  · exact hs
  · dsimp only
    split <;> simp [hs]

@[simp] theorem Chip.keepRoom_canonical (line : Nat) (hs : s.canonical) : (s.keepRoom line).canonical := by
  unfold Chip.keepRoom
  dsimp only
  split
  · exact hs
  · split
    · exact hs
    · split <;> simp [hs]

@[simp] theorem Chip.touch_canonical (line : Nat) (c : CacheLine) (keep : Bool) (hs : s.canonical) : (s.touch line c keep).canonical := by
  simp only [Chip.touch, Chip.canonical_hbm, Chip.setCache_canonical]
  split <;> simp [hs]

@[simp] theorem Chip.raiseLimited_canonical (code : Nat) (unit : Nat) (args : List Arg) :
    (s.raiseLimited code unit args).canonical = s.canonical := by
  unfold Chip.raiseLimited
  split
  · dsimp only
    split <;> rfl
  · rfl

@[simp] theorem Chip.setObj_canonical (key : Nat) (v : Nat) : (s.setObj key v).canonical = s.canonical := (rfl)

@[simp] theorem Chip.bump_canonical (key : Nat) (n : Nat) : (s.bump key n).canonical = s.canonical := (rfl)

@[simp] theorem Chip.unanswered_canonical (p : Nat) : (s.unanswered p).1.canonical = s.canonical := by
  simp [Chip.unanswered]

@[simp] theorem Chip.setChannel_canonical (n : Nat) (f : Channel → Channel) : (s.setChannel n f).canonical = s.canonical := (rfl)

@[simp] theorem Chip.setPc_canonical (p : Nat) (f : PseudoChannel → PseudoChannel) : (s.setPc p f).canonical = s.canonical := (rfl)

@[simp] theorem Chip.clearDonor_canonical (d : Nat) : (s.clearDonor d).canonical = s.canonical := (rfl)

@[simp] theorem Chip.relocate_canonical (u : Nat) (d : Nat) : (s.relocate u d).canonical = s.canonical := by
  simp only [Chip.relocate]
  split <;> simp

@[simp] theorem Chip.redeal_canonical (bad : Nat → Bool) : (s.redeal bad).canonical = s.canonical := by
  unfold Chip.redeal
  refine (Chip.each_canonical_eq _ (fun t w => Chip.each_canonical_eq _ (fun u v => ?_) _) _).trans ?_
  · split <;> rfl
  · split
    · rfl
    · refine Chip.each_canonical_eq _ (fun u v => ?_) _
      split <;> rfl

@[simp] theorem Chip.beginMapout_canonical (n : Nat) (cause : MapCause) : (s.beginMapout n cause).canonical = s.canonical := by
  simp only [Chip.beginMapout]
  split <;> simp

@[simp] theorem Chip.tryMapout_canonical (n : Nat) (cause : MapCause) : (s.tryMapout n cause).canonical = s.canonical := by
  unfold Chip.tryMapout
  split <;> simp

@[simp] theorem Chip.judge_canonical (n : Nat) (cause : MapCause) : (s.judge n cause).canonical = s.canonical := by
  unfold Chip.judge
  dsimp only
  split
  · split
    · split <;> simp
    · split
      · simp
      · split <;> simp
  · split <;> simp
  · split
    · split
      · split <;> simp
      · simp
    · simp
  · rfl

@[simp] theorem Chip.rowRepair_canonical (p : Nat) (b : Nat) (r : Nat) : (s.rowRepair p b r).canonical = s.canonical := by
  simp [Chip.rowRepair, apply_ite Chip.canonical]

@[simp] theorem Chip.markGroup_canonical (p : Nat) (k : Nat) : (s.markGroup p k).canonical = s.canonical := by
  unfold Chip.markGroup
  split <;> simp

@[simp] theorem Chip.book_canonical (p : Nat) (pcaddr : Nat) (groups : List Nat) (ue : Bool) :
    (s.book p pcaddr groups ue).canonical = s.canonical := by
  unfold Chip.book
  dsimp only
  split <;> simp [apply_ite Chip.canonical]

@[simp] theorem Chip.decodeLine_canonical (p : Nat) (pcaddr : Nat) (d0 : List Byte) (m0 : Bool) (errors : List (Nat × Nat)) :
    (s.decodeLine p pcaddr d0 m0 errors).1.canonical = s.canonical := by
  unfold Chip.decodeLine
  split <;> simp [apply_ite Chip.canonical]

@[simp] theorem Chip.setHbmCopy_canonical (line : Nat) (d : List Byte) (p : Bool) (hs : s.canonical) : (s.setHbmCopy line d p).canonical := by
  unfold Chip.setHbmCopy
  split <;> simp [hs]

@[simp] theorem Chip.readStored_canonical (line : Nat) (errors : List (Nat × Nat)) (hs : s.canonical) : (s.readStored line errors).1.canonical := by
  unfold Chip.readStored
  split
  · exact hs
  · dsimp only
    split
    · simp [hs]
    · split
      · simp [hs]
      · split <;> simp [hs]

@[simp] theorem Chip.mergeLine_canonical (pl : Place) (line : Nat) (errors : List (Nat × Nat)) (hs : s.canonical) :
    (s.mergeLine pl line errors).canonical := by
  simp only [Chip.mergeLine]
  split <;> simp [hs]

@[simp] theorem Chip.lineRoom_canonical (line : Nat) (hs : s.canonical) : (s.lineRoom line).canonical := by
  unfold Chip.lineRoom
  dsimp only
  split
  · exact hs
  · split
    · exact hs
    · split
      · simp [hs]
      · split <;> simp [hs]

@[simp] theorem Chip.allocate_canonical (line : Nat) (keep : Bool) (dirty : Bool) (under : Option (List Byte × Bool)) (hs : s.canonical) :
    (s.allocate line keep dirty under).canonical := by
  simp only [Chip.allocate, Chip.canonical_hbm, Chip.setCache_canonical]
  split <;> simp [hs]

@[simp] theorem Chip.writeHbmLine_canonical (a : Nat) (bs : List Byte) (poison : Bool) (hint : Hint) (errors : List (Nat × Nat)) (hs : s.canonical) :
    (s.writeHbmLine a bs poison hint errors).canonical := by
  unfold Chip.writeHbmLine
  dsimp only
  split
  · exact hs
  · split
    · simp [hs, apply_ite Chip.canonical]
    · split
      · split <;> simp [hs]
      · rename_i pl _ _ _ _
        have hmerged : (if bs.length = 64 then s.wakeStack (unitChannel (s.servingUnit pl.unit) / 32)
            else (s.wakeStack (unitChannel (s.servingUnit pl.unit) / 32)).mergeLine pl (a / 64) errors).canonical := by
          split <;> simp [hs]
        split
        · exact Chip.putLine_canonical _ _ _ _ (Chip.allocate_canonical _ _ _ _ _ hmerged)
        · exact Chip.putLine_canonical _ _ _ _ hmerged

@[simp] theorem Chip.wakeCellar_canonical (a : Nat) : (s.wakeCellar a).canonical = s.canonical := by
  unfold Chip.wakeCellar
  split <;> rfl

@[simp] theorem Chip.writePiece_canonical (a : Nat) (bs : List Byte) (poison : Bool) (hint : Hint) (hs : s.canonical) :
    (s.writePiece a bs poison hint).canonical := by
  unfold Chip.writePiece
  split
  · simp [hs]
  · split
    · split <;> simp [hs]
    · simp [hs]

@[simp] theorem Chip.write_canonical (a : Nat) (bs : List Byte) (poison : Bool) (hint : Hint) (hs : s.canonical) :
    (s.write a bs poison hint).canonical := by
  unfold Chip.write
  exact s.each_canonical (fun t p ht => t.writePiece_canonical _ _ _ _ ht) _ hs

@[simp] theorem Chip.dropLine_canonical (line : Nat) (hs : s.canonical) : (s.dropLine line).canonical := by
  unfold Chip.dropLine
  split
  · exact hs
  · dsimp only
    split <;> simp [hs]

@[simp] theorem Chip.readHbmLine_canonical (line : Nat) (hint : Hint) (errors : List (Nat × Nat)) (hs : s.canonical) :
    (s.readHbmLine line hint errors).1.canonical := by
  unfold Chip.readHbmLine
  split
  · exact hs
  · dsimp only
    split
    · simp [hs]
    · split
      · split
        · simp [hs]
        · split <;> simp [hs]
      · split <;> simp [hs]

@[simp] theorem Chip.readPiece_canonical (a n : Nat) (hint : Hint) (hs : s.canonical) : (s.readPiece a n hint).1.canonical := by
  unfold Chip.readPiece
  split
  · exact hs
  · split <;> simp [hs]

@[simp] theorem Chip.read_canonical (a len : Nat) (hint : Hint) (hs : s.canonical) : (s.read a len hint).1.canonical := by
  unfold Chip.read
  refine foldl_fst_canonical (fun r p hr => ?_) _ _ ?_
  · exact Chip.readPiece_canonical r.1 _ _ _ hr
  · exact hs

@[simp] theorem Chip.emit_canonical (o : Output) : (s.emit o).canonical = s.canonical := (rfl)

@[simp] theorem Chip.setCore_canonical (n : Nat) (f : CoreSt → CoreSt) : (s.setCore n f).canonical = s.canonical := (rfl)

@[simp] theorem Chip.setSweep_canonical (p : Nat) (f : Sweep → Sweep) : (s.setSweep p f).canonical = s.canonical := (rfl)

theorem Chip.when_canonical {f : Chip → Chip} (h : s.canonical → (f s).canonical) (b : Bool) (hs : s.canonical) :
    (s.when b f).canonical := by
  unfold Chip.when
  split
  · exact h hs
  · exact hs

/-! ### Scrubs and core memory -/

@[simp] theorem Chip.coreWord_canonical (line j : Nat) (errors : List (Nat × Nat)) (hs : s.canonical) :
    (s.coreWord line j errors).canonical := by
  unfold Chip.coreWord
  dsimp only
  split
  · exact hs
  · simp [hs]
  · simp [hs]
  · split <;> exact s.putBytes_canonical _ _ hs

@[simp] theorem Chip.readCoreLine_canonical (line : Nat) (errors : List (Nat × Nat)) (hs : s.canonical) :
    (s.readCoreLine line errors).canonical :=
  s.each_canonical (fun t j ht => t.coreWord_canonical line j errors ht) _ hs

@[simp] theorem Chip.readCellar_canonical (line : Nat) (errors : List (Nat × Nat)) (hs : s.canonical) :
    (s.readCellar line errors).1.canonical := by
  unfold Chip.readCellar
  dsimp only
  split
  · exact hs
  · split
    · split
      · exact hs
      · exact s.putBytes_canonical _ _ hs
    · split
      · exact hs
      · exact s.putBytes_canonical _ _ hs
    · exact (Chip.raiseLimited_canonical ..).mpr (s.putBytes_canonical _ _ hs)

@[simp] theorem Chip.accEntry_canonical (core row column : Nat) (errors : List (Nat × Nat)) :
    (s.accEntry core row column errors).canonical = s.canonical := by
  unfold Chip.accEntry
  dsimp only
  split
  · rfl
  · simp
  · simp
  · split <;> simp

@[simp] theorem Chip.scrubHidden_canonical (phys w : Nat) (errors : List (Nat × Nat)) :
    (s.scrubHidden phys w errors).canonical = s.canonical := by
  unfold Chip.scrubHidden
  split
  · simp
  · split
    · rfl
    · simp

@[simp] theorem Chip.scrubPlace_canonical (phys : Nat) (errors : List (Nat × Nat)) (hs : s.canonical) :
    (s.scrubPlace phys errors).canonical := by
  unfold Chip.scrubPlace
  dsimp only
  split
  · simp [hs]
  · split <;> simp [hs]

theorem Chip.scrub_canonical (line : Nat) (errors : List (Nat × Nat)) (hs : s.canonical) : (s.scrub line errors).canonical := by
  unfold Chip.scrub
  split
  · dsimp only
    split <;> simp [hs]
  · split
    · simp [hs]
    · split <;> simp [hs]

theorem Chip.hbmAccess_canonical (x : HbmAccess) (hs : s.canonical) : (s.hbmAccess x).canonical := by
  unfold Chip.hbmAccess
  dsimp only
  split
  · split
    · exact hs
    · split
      · simp [hs]
      · exact s.when_canonical (fun h => s.writeHbmLine_canonical _ _ _ _ _ h) _ hs
  · simp [hs]
  · exact hs

theorem Chip.channelTimeout_canonical (n : Nat) : (s.channelTimeout n).canonical = s.canonical := by
  have hsilent : ((({ s.setChannel n fun c => { c with silent := c.silent + 1 } with
      freeCtr := s.freeCtr + 8 }.bump (O.chUe + 256 * n) 1).raiseLimited 0x8801 0 [.u16 (2 * n)]).emit
      (.data ((List.range 8).flatMap fun i => leBytes 8 (Config.freeWord (s.freeCtr + i)).toNat) true)).canonical = s.canonical := by
    rw [Chip.emit_canonical, Chip.raiseLimited_canonical, Chip.bump_canonical, Chip.canonical_freeCtr, Chip.setChannel_canonical]
  unfold Chip.channelTimeout
  dsimp only
  split
  · exact (Chip.judge_canonical ..).trans hsilent
  · exact hsilent

theorem Chip.keepRelease_canonical : s.keepRelease.canonical = s.canonical := (rfl)

theorem Chip.odeccRead_canonical (counts : List (Nat × Nat)) : (s.odeccRead counts).canonical = s.canonical := by
  unfold Chip.odeccRead
  refine (Chip.each_canonical_eq _ (fun t n => ?_) _).trans (Chip.each_canonical_eq _ (fun t c => ?_) _)
  · split <;> simp
  · split <;> simp

theorem Chip.refresh_canonical (p : Nat) : (s.refresh p).canonical = s.canonical := by
  unfold Chip.refresh
  split <;> simp

/-! ### The interleave table and the visible capacity -/

@[simp] theorem Chip.retable_canonical (table : Tab Word) (hs : s.canonical) : (s.retable table).canonical := by
  have hflushed : (s.each (s.cachedLines.map (·.1)) fun s l => s.evict l).canonical :=
    s.each_canonical (fun t l ht => t.evict_canonical l ht) _ hs
  exact memory_fold_wf _ _ _ _ (memory_filter_wf _ (fun a => decide (a ≥ 0x30000000000)) hflushed)

theorem Chip.ilCommit_canonical (r : Nat) (w : Word) (hs : s.canonical) : (s.ilCommit r w).canonical := by
  unfold Chip.ilCommit
  split
  · simp [hs]
  · dsimp only
    split <;> simp [hs]

theorem Chip.dropLines_canonical (lines : List Nat) (gone : Nat → Bool) (hs : s.canonical) :
    (s.each lines fun t l => if gone l then t.dropLine l else t).canonical := by
  refine s.each_canonical (fun t l ht => ?_) _ hs
  split
  · exact t.dropLine_canonical l ht
  · exact ht

theorem Chip.withdraw_canonical (hs : s.canonical) : s.withdraw.canonical := by
  unfold Chip.withdraw
  split
  · exact hs
  · rw [Chip.beginMapout_canonical, Chip.raise_canonical]
    dsimp only [Chip.canonical, Memory.wf]
    exact Tab.wf_keep 0 _ _ (s.dropLines_canonical _
      (fun l => s.withdrawnRanges.any fun r => r.1 ≤ 64 * l && 64 * l ≤ r.2) hs)

/-! ### Map-out and sweeps -/

@[simp] theorem Chip.flushUnit_canonical (u : Nat) (hs : s.canonical) : (s.flushUnit u).canonical :=
  s.each_canonical (fun t l ht => t.evict_canonical l ht) _ hs

@[simp] theorem Chip.flushUnits_canonical (units : List Nat) (hs : s.canonical) :
    (s.each units Chip.flushUnit).canonical :=
  s.each_canonical (fun t u ht => t.flushUnit_canonical u ht) _ hs

@[simp] theorem Chip.fillCopies_canonical (hs : s.canonical) : s.fillCopies.canonical := by
  unfold Chip.fillCopies
  split
  · exact hs
  · simp [hs]

@[simp] theorem Chip.fillSweep_canonical (p : Nat) (hs : s.canonical) : (s.fillSweep p).canonical := by
  unfold Chip.fillSweep
  split
  · exact hs
  · simp [hs]

@[simp] theorem Chip.returnUnit_canonical (p u : Nat) : (s.returnUnit p u).canonical = s.canonical := (rfl)

@[simp] theorem Chip.sweepUnit_canonical (p u d : Nat) : (s.sweepUnit p u d).canonical = s.canonical := by
  unfold Chip.sweepUnit
  split
  · rfl
  · split <;> simp

@[simp] theorem Chip.sweepMoves_canonical (p : Nat) (hs : s.canonical) : (s.sweepMoves p).canonical := by
  unfold Chip.sweepMoves
  split
  · exact hs
  · simp [hs]

theorem Chip.startSweep_canonical (p : Nat) (hs : s.canonical) : (s.startSweep p).canonical := by
  simp [Chip.startSweep, hs]

@[simp] theorem Chip.trySweep_canonical (p : Nat) (hs : s.canonical) : (s.trySweep p).canonical := by
  unfold Chip.trySweep
  dsimp only
  split
  · exact hs
  · split
    · simp [hs]
    · split
      · exact hs
      · split
        · split <;> simp [hs]
        · exact s.startSweep_canonical p hs

@[simp] theorem Chip.askSweep_canonical (p : Nat) (hs : s.canonical) : (s.askSweep p).canonical := by
  simp [Chip.askSweep, hs]

@[simp] theorem Chip.dueSweeps_canonical (hs : s.canonical) : s.dueSweeps.canonical :=
  s.each_canonical (fun t p ht => t.trySweep_canonical p ht) _ hs

theorem Chip.marginPeriod_canonical (p : Nat) (hs : s.canonical) : (s.marginPeriod p).canonical := by
  unfold Chip.marginPeriod
  split <;> simp [hs]

@[simp] theorem Chip.checkWindows_canonical (p : Nat) (w : List PinWindow) : (s.checkWindows p w).canonical = s.canonical := by
  have heach : ∀ (t : Chip) (x : PinWindow × Nat),
      (if winWidth x.1.left x.1.right < s.obj O.marginTimeMin then
        t.raise 0x4803 [.u16 p, .u8 x.2, .u8 (winWidth x.1.left x.1.right).toNat]
      else if winWidth x.1.vlow x.1.vhigh < s.obj O.marginVrefMin then
        t.raise 0x4803 [.u16 p, .u8 x.2, .u8 (winWidth x.1.vlow x.1.vhigh).toNat]
      else t).canonical = t.canonical := fun t x => by
    split
    · simp
    · split <;> simp
  unfold Chip.checkWindows
  dsimp only
  split
  · rw [Chip.judge_canonical]
    exact s.each_canonical_eq heach _
  · exact s.each_canonical_eq heach _

theorem Chip.sweepPhaseDone_canonical (p : Nat) (windows : List (Int × Int × Int × Int)) (hs : s.canonical) :
    (s.sweepPhaseDone p windows).canonical := by
  unfold Chip.sweepPhaseDone
  split
  · exact hs
  · split <;> simp [hs]

theorem Chip.mapoutRequest_canonical (n : Nat) (hs : s.canonical) : (s.mapoutRequest n).canonical :=
  s.when_canonical (fun h => by simp [h]) _ hs

theorem Chip.mapoutStart_canonical (n : Nat) (hs : s.canonical) : (s.mapoutStart n).canonical := by
  unfold Chip.mapoutStart
  split
  · split <;> simp [hs]
  · exact hs

theorem Chip.unitCopyDone_canonical (u : Nat) (hs : s.canonical) : (s.unitCopyDone u).canonical := by
  unfold Chip.unitCopyDone
  split
  · simp [hs]
  · split <;> simp [hs]

@[simp] theorem Chip.nextMapout_canonical : s.nextMapout.canonical = s.canonical := by
  unfold Chip.nextMapout
  split
  · rfl
  · split
    · rfl
    · dsimp only
      split <;> simp

theorem Chip.mapoutComplete_canonical (hs : s.canonical) : s.mapoutComplete.canonical := by
  unfold Chip.mapoutComplete
  split
  · exact hs
  · split <;> simp [hs]

end

/-- A command of the dies keeps the form where its update of the chip does. -/
theorem State.act_canonical {s t : State} {f : Chip → Chip} (h : (f s.toChip).canonical) (hs : s.toChip.canonical)
    (hnext : s.act f = .next t) : t.toChip.canonical := by
  cases hlive : s.live with
  | true =>
    obtain rfl : { s with toChip := f s.toChip } = t := by simpa [State.act, hlive] using hnext
    exact h
  | false =>
    obtain rfl : s = t := by simpa [State.act, hlive] using hnext
    exact hs

/-- Settles O37, function by function of the memory system: each keeps the form, and a command runs one of them. -/
theorem memoryStaysCanonical : Obligations.Memory_stays_canonical := by
  refine ⟨fun s a n bs p h hs => ⟨s.write_canonical a bs p h hs, s.read_canonical a n h hs⟩, ?_⟩
  rintro s t i hs hnext (⟨x, rfl⟩ | ⟨n, rfl⟩ | ⟨e, w, rfl⟩ | ⟨v, rfl⟩ | ⟨l, rfl⟩ | ⟨l, e, rfl⟩ | ⟨n, rfl⟩ | ⟨n, rfl⟩ | ⟨u, rfl⟩ |
    rfl | ⟨v, rfl⟩ | rfl | ⟨p, rfl⟩ | ⟨p, rfl⟩ | ⟨p, w, rfl⟩ | ⟨p, rfl⟩)
  · exact State.act_canonical (Chip.hbmAccess_canonical _ x hs) hs hnext
  · exact State.act_canonical ((Chip.channelTimeout_canonical _ _).mpr hs) hs hnext
  · exact State.act_canonical (Chip.ilCommit_canonical _ _ w hs) hs hnext
  · exact State.act_canonical (Chip.when_canonical _ (Chip.keepRelease_canonical _).mpr v hs) hs hnext
  · exact State.act_canonical ((Chip.odeccRead_canonical _ l).mpr hs) hs hnext
  · exact State.act_canonical (Chip.scrub_canonical _ l _ hs) hs hnext
  · exact State.act_canonical (Chip.mapoutRequest_canonical _ _ hs) hs hnext
  · exact State.act_canonical (Chip.mapoutStart_canonical _ _ hs) hs hnext
  · exact State.act_canonical (Chip.unitCopyDone_canonical _ u hs) hs hnext
  · exact State.act_canonical (Chip.mapoutComplete_canonical _ hs) hs hnext
  · exact State.act_canonical (Chip.when_canonical _ (Chip.withdraw_canonical _) v hs) hs hnext
  · exact State.act_canonical (Chip.withdraw_canonical _ hs) hs hnext
  · exact State.act_canonical (f := fun c => c.marginPeriod p.val) (Chip.marginPeriod_canonical _ p.val hs) hs hnext
  · exact State.act_canonical (f := fun c => c.when (p.toNat < 2048) fun c => c.askSweep p.toNat)
      (Chip.when_canonical _ (Chip.askSweep_canonical _ p.toNat) _ hs) hs hnext
  · exact State.act_canonical (Chip.sweepPhaseDone_canonical _ _ w hs) hs hnext
  · exact State.act_canonical ((Chip.refresh_canonical _ _).mpr hs) hs hnext

end Sys2Proof.Machine
end

section
/-! PROOF. Accesses at the home of a line, silent channels, scrubs and the interleave table, and the statement `Hbm_accesses`. -/

namespace Sys2Proof.Machine

section
variable (s : Chip)

/-! ### STREAM accesses -/

/-- Waking a stack changes nothing but the stacks. -/
theorem Chip.wakeStack_eq (n : Nat) : ∃ v, s.wakeStack n = { s with hbm := { s.hbm with hbmStacks := v } } := by
  unfold Chip.wakeStack
  split
  · exact ⟨_, rfl⟩
  · exact ⟨s.hbm.hbmStacks, rfl⟩

@[simp] theorem effHint_stream (noCache : Bool) : effHint noCache 1 = 1 := by cases noCache <;> rfl

/-- What a read of a stored line without errors does: its channel has answered. -/
theorem Chip.readStored_clean {line : Nat} {r : Place} (hplace : s.place (64 * line) = some r) (hdead : s.deadPlace r = false)
    (hline : Tab.get none s.hbm.cache line = none) :
    s.readStored line [] = (s.setChannel (unitChannel (s.servingUnit r.unit)) fun c => { c with silent := 0 },
      s.bytes (64 * line) 64, s.poisoned (64 * line)) := by
  have hcopy : (s.setChannel (unitChannel (s.servingUnit r.unit)) fun c => { c with silent := 0 }).hbmCopy line =
      (s.bytes (64 * line) 64, s.poisoned (64 * line)) := by
    simp only [Chip.hbmCopy, Chip.setChannel, hline]
    rfl
  simp only [Chip.readStored, hplace, hdead, hcopy, Bool.false_eq_true, if_false, List.isEmpty_nil, if_true]

/-- A STREAM read of a line that is not cached reads what HBM stores and allocates nothing. -/
theorem Chip.readHbmLine_stream {line : Nat} {r : Place} (hplace : s.place (64 * line) = some r) (hcopying : s.copying r.unit = false)
    (hdead : s.deadPlace r = false) (hline : Tab.get none s.hbm.cache line = none) :
    ∃ v, s.readHbmLine line 1 [] =
      ({ s with hbm := { s.hbm with hbmStacks := v } }.setChannel (unitChannel (s.servingUnit r.unit)) fun c => { c with silent := 0 },
        s.bytes (64 * line) 64, s.poisoned (64 * line)) := by
  obtain ⟨v, hwake⟩ := s.wakeStack_eq (unitChannel (s.servingUnit r.unit) / 32)
  refine ⟨v, ?_⟩
  have hplace' : ({ s with hbm := { s.hbm with hbmStacks := v } } : Chip).place (64 * line) = some r := hplace
  have hcopying' : ({ s with hbm := { s.hbm with hbmStacks := v } } : Chip).copying r.unit = false := hcopying
  have hdead' : ({ s with hbm := { s.hbm with hbmStacks := v } } : Chip).deadPlace r = false := hdead
  simp only [Chip.readHbmLine, hplace, hwake, hcopying', hline, Chip.readStored_clean _ hplace' hdead' hline, effHint_stream,
    Bool.false_eq_true, if_false, decide_true, Bool.true_or, if_true]
  rfl

/-- A STREAM write of a whole line that is not cached stores its bytes. -/
theorem Chip.writeHbmLine_stream {a : Nat} {bs : List Byte} {p : Place} (b : Bool) (errors : List (Nat × Nat)) (hbs : bs.length = 64)
    (hplace : s.place a = some p) (hcopying : s.copying p.unit = false) (hline : Tab.get none s.hbm.cache (a / 64) = none) :
    ∃ v, s.writeHbmLine a bs b 1 errors = ({ s with hbm := { s.hbm with hbmStacks := v } } : Chip).putLine a bs b := by
  obtain ⟨v, hwake⟩ := s.wakeStack_eq (unitChannel (s.servingUnit p.unit) / 32)
  refine ⟨v, ?_⟩
  rw [← hwake]
  have hcopying' : (s.wakeStack (unitChannel (s.servingUnit p.unit) / 32)).copying p.unit = false := by
    rw [hwake]
    exact hcopying
  have hline' : Tab.get none (s.wakeStack (unitChannel (s.servingUnit p.unit) / 32)).hbm.cache (a / 64) = none := by
    rw [hwake]
    exact hline
  simp only [Chip.writeHbmLine, hplace]
  generalize s.wakeStack (unitChannel (s.servingUnit p.unit) / 32) = w at hcopying' hline' ⊢
  rw [if_neg (by simp [hcopying'])]
  rw [hline', effHint_stream]
  change (if _ then _ else _) = _
  rw [if_neg (by decide), if_pos hbs]

theorem ite_ne {α : Type} {c : Prop} [Decidable c] {a b x : α} (ha : a ≠ x) (hb : b ≠ x) : (if c then a else b) ≠ x := by
  split
  · exact ha
  · exact hb

/-- What is HBM at an offset is its place. -/
theorem Chip.place_of_region {a : Nat} {p : Place} (h : s.region a = .hbm p) : s.place a = some p := by
  by_cases hlow : a < 0x30000000000
  · rw [Chip.region, if_pos hlow] at h
    cases hplace : s.place a with
    | none =>
      rw [hplace] at h
      cases h
    | some q =>
      rw [hplace] at h
      dsimp only at h
      refine Classical.byContradiction fun hne => absurd h ?_
      exact ite_ne (ite_ne nofun nofun) (ite_ne nofun fun hq => hne (congrArg some (Region.hbm.inj hq)))
  · rw [Chip.region, if_neg hlow] at h
    refine absurd h ?_
    repeat' refine ite_ne ?_ ?_
    all_goals nofun

/-- The address map ends below 2⁴⁴. -/
theorem Chip.region_beyond {a : Nat} (h : 2 ^ 44 ≤ a) : s.region a = .unused := by
  unfold Chip.region
  repeat rw [if_neg (by omega)]

/-! ### A silent channel -/

theorem Chip.channel_setChannel (n : Nat) (f : Channel → Channel) : (s.setChannel n f).channel n = f (s.channel n) := by
  rw [Chip.setChannel, Chip.channel, Tab.get_modify, if_pos rfl]
  rfl

@[simp] theorem Chip.relocate_channels (u d : Nat) : (s.relocate u d).hbm.channels = s.hbm.channels := by
  simp only [Chip.relocate]
  split <;> rfl

@[simp] theorem Chip.redeal_channels (bad : Nat → Bool) : (s.redeal bad).hbm.channels = s.hbm.channels := by
  unfold Chip.redeal
  refine (Chip.each_keeps _ (fun c => c.hbm.channels) _ (fun t w => ?_) _).trans ?_
  · refine Chip.each_keeps _ (fun c => c.hbm.channels) _ (fun t u => ?_) _
    split <;> rfl
  · split
    · rfl
    · refine Chip.each_keeps _ (fun c => c.hbm.channels) _ (fun t u => ?_) _
      split <;> rfl

/-- A map-out that begins takes its channel out of service. -/
theorem Chip.beginMapout_channels (n : Nat) (cause : MapCause) : (s.beginMapout n cause).hbm.channels =
    (s.setChannel n fun c => { c with state := .migrating, waiting := false }).hbm.channels := by
  have hdealt : ((({ s.setChannel n fun c => { c with state := .migrating, waiting := false } with hbm :=
      { (s.setChannel n fun c => { c with state := .migrating, waiting := false }).hbm with
        sweeps := s.hbm.sweeps.filter fun w => w.pc / 2 != n
        migration := some ⟨n, cause, (s.channel n).unresponsive, s.aon, false, [], []⟩ } } : Chip).each
      ((s.hbm.sweeps.filter fun w => w.pc / 2 == n).flatMap Sweep.away) fun s m => s.relocate m.1 m.2).redeal
      fun p => p / 2 == n).hbm.channels = (s.setChannel n fun c => { c with state := .migrating, waiting := false }).hbm.channels := by
    rw [Chip.redeal_channels]
    exact Chip.each_keeps _ (fun c => c.hbm.channels) _ (fun t m => t.relocate_channels ..) _
  unfold Chip.beginMapout
  dsimp only
  split
  · exact hdealt
  · exact hdealt

/-- A channel that a map-out takes, or that waits for a shrink, is healthy no more. -/
theorem Chip.tryMapout_channel (n : Nat) (cause : MapCause) :
    ((s.tryMapout n cause).channel n).unresponsive = (s.channel n).unresponsive ∧ ((s.tryMapout n cause).channel n).state ≠ .healthy := by
  unfold Chip.tryMapout
  split
  · change ((s.setChannel n fun c => { c with state := .pending, waiting := false }).channel n).unresponsive = _ ∧
      ((s.setChannel n fun c => { c with state := .pending, waiting := false }).channel n).state ≠ _
    rw [Chip.channel_setChannel]
    exact ⟨rfl, nofun⟩
  · have hset : (s.beginMapout n cause).channel n =
        (s.setChannel n fun c => { c with state := .migrating, waiting := false }).channel n := by
      rw [Chip.channel, Chip.beginMapout_channels]
      rfl
    rw [hset, Chip.channel_setChannel]
    exact ⟨rfl, nofun⟩

/-- A healthy channel judged unresponsive is healthy no more. -/
theorem Chip.judge_unresponsive {n : Nat} (h : (s.channel n).state = .healthy) :
    ((s.judge n .unresponsive).channel n).unresponsive = true ∧ ((s.judge n .unresponsive).channel n).state ≠ .healthy := by
  have hjudged : ((s.setChannel n fun c => { c with
      cause := some .unresponsive, unresponsive := c.unresponsive || decide (MapCause.unresponsive = .unresponsive) }).channel n).unresponsive
      = true := by
    rw [Chip.channel_setChannel]
    exact Bool.or_true _
  unfold Chip.judge
  dsimp only
  rw [h]
  dsimp only
  rw [if_neg (by simp)]
  generalize (s.setChannel n fun c => { c with
    cause := some .unresponsive, unresponsive := c.unresponsive || decide (MapCause.unresponsive = .unresponsive) }) = t at hjudged ⊢
  split
  · change ((t.setChannel n fun c => { c with state := .retained, waiting := false }).channel n).unresponsive = true ∧
      ((t.setChannel n fun c => { c with state := .retained, waiting := false }).channel n).state ≠ _
    rw [Chip.channel_setChannel]
    exact ⟨hjudged, nofun⟩
  · split
    · change ((t.setChannel n fun c => { c with state := .pending, waiting := false }).channel n).unresponsive = true ∧
        ((t.setChannel n fun c => { c with state := .pending, waiting := false }).channel n).state ≠ _
      rw [Chip.channel_setChannel]
      exact ⟨hjudged, nofun⟩
    · exact ⟨(t.tryMapout_channel n _).1.trans hjudged, (t.tryMapout_channel n _).2⟩

@[simp] theorem Chip.relocate_mem (u d : Nat) : (s.relocate u d).mem = s.mem := by
  simp only [Chip.relocate]
  split <;> rfl

@[simp] theorem Chip.redeal_mem (bad : Nat → Bool) : (s.redeal bad).mem = s.mem := by
  unfold Chip.redeal
  refine (Chip.each_keeps _ Chip.mem _ (fun t w => ?_) _).trans ?_
  · refine Chip.each_keeps _ Chip.mem _ (fun t u => ?_) _
    split <;> rfl
  · split
    · rfl
    · refine Chip.each_keeps _ Chip.mem _ (fun t u => ?_) _
      split <;> rfl

@[simp] theorem Chip.beginMapout_mem (n : Nat) (cause : MapCause) : (s.beginMapout n cause).mem = s.mem := by
  have hdealt (t : Chip) : ((t.each ((s.hbm.sweeps.filter fun w => w.pc / 2 == n).flatMap Sweep.away) fun s m => s.relocate m.1 m.2).redeal
      fun p => p / 2 == n).mem = t.mem := by
    rw [Chip.redeal_mem]
    exact Chip.each_keeps _ Chip.mem _ (fun t m => t.relocate_mem ..) _
  unfold Chip.beginMapout
  dsimp only
  split
  · exact (hdealt _).trans rfl
  · exact (hdealt _).trans rfl

@[simp] theorem Chip.tryMapout_mem (n : Nat) (cause : MapCause) : (s.tryMapout n cause).mem = s.mem := by
  unfold Chip.tryMapout
  split
  · rfl
  · exact s.beginMapout_mem n cause

@[simp] theorem Chip.judge_mem (n : Nat) (cause : MapCause) : (s.judge n cause).mem = s.mem := by
  unfold Chip.judge
  dsimp only
  split
  · split
    · split <;> rfl
    · split
      · rfl
      · split
        · rfl
        · exact Chip.tryMapout_mem ..
  · split <;> rfl
  · split
    · split
      · split <;> rfl
      · rfl
    · rfl
  · rfl

/-- What the cache lists for a line after KEEP_RELEASE. -/
theorem Chip.keepRelease_line (l : Nat) :
    Tab.get none s.keepRelease.hbm.cache l = (Tab.get none s.hbm.cache l).map fun x => { x with keep := false } := by
  unfold Chip.keepRelease
  dsimp only
  induction s.hbm.cache with
  | nil => rfl
  | cons e r ih =>
    rw [List.map_cons, Tab.get, Tab.get]
    split
    · rfl
    · exact ih

/-! ### Scrubs -/

theorem Chip.readCoreLine_clean (line : Nat) : s.readCoreLine line [] = s :=
  Chip.each_keeps s id _ (fun t j => by simp [Chip.coreWord, wordFlips, secdedOf, onesIn]) _

/-- A line of the cellar or of core memory without errors is as it was. -/
theorem Chip.scrub_clean {l : Nat} (h : s.region (64 * l) = .cellar ∨ s.region (64 * l) = .coreMem) : s.scrub l [] = s := by
  have hlow : l < 2 ^ 38 := Decidable.byContradiction fun hl => by
    rw [s.region_beyond (by omega)] at h
    exact h.elim nofun nofun
  rw [Chip.scrub, if_neg (by omega), if_neg (by omega)]
  rcases h with h | h
  · rw [h]
    rfl
  · rw [h]
    exact s.readCoreLine_clean l

/-! ### The interleave table -/

@[simp] theorem Chip.evict_log (line : Nat) : (s.evict line).log = s.log := by
  unfold Chip.evict
  split
  · rfl
  · dsimp only
    split <;> rfl

@[simp] theorem Chip.retable_log (table : Tab Word) : (s.retable table).log = s.log :=
  Chip.each_keeps s Chip.log _ (fun t l => t.evict_log l) _

@[simp] theorem Chip.retable_queues (table : Tab Word) : (s.retable table).queues = s.queues :=
  Chip.each_keeps s Chip.queues _ (fun t l => congrArg Outside.queues (t.evict_outside l)) _

theorem Chip.ilWord_retable (r j : Nat) (w : Word) :
    (s.retable (Tab.set 0 s.hbm.interleave r w)).ilWord j = if j = r then w else s.ilWord j :=
  Tab.get_set ..

/-- The mask of an entry keeps VALID. -/
theorem ilValid_masked {w : Word} (h : w.getLsbD 63 = true) : ilValid (w &&& 0xFE000FFFFFFFFF00) = true := by
  rw [ilValid, BitVec.getLsbD_and, h]
  decide

end

/-! ### The clauses -/

theorem gives_hbmAccess_read (s : State) (x : HbmAccess) {p r : Place} (hlive : s.live = true) (hregion : s.region x.addr = .hbm p)
    (hplace : s.place (64 * (x.addr / 64)) = some r) (hlen : 0 < x.len) (hfits : x.addr % 64 + x.len ≤ 64) (hread : x.write = none)
    (herrors : x.errors = []) (hhint : x.hint = 1) (hcopying : s.copying r.unit = false) (hdead : s.deadPlace r = false)
    (hline : Tab.get none s.hbm.cache (x.addr / 64) = none) :
    s.gives (.hbmAccess x) fun c => c.out = .data (s.bytes x.addr x.len) (s.poisoned (64 * (x.addr / 64))) :: s.out ∧
      c.mem = s.mem ∧ c.hbm.cache = s.hbm.cache ∧ c.hbm.poison = s.hbm.poison ∧ c.objs = s.objs := by
  obtain ⟨v, hstored⟩ := s.toChip.readHbmLine_stream hplace hcopying hdead hline
  have hbytes : ((s.bytes (64 * (x.addr / 64)) 64).drop (x.addr % 64)).take x.len = s.bytes x.addr x.len := by
    refine List.ext_getElem (by simp [Chip.bytes]; omega) fun i hi hj => ?_
    simp only [Chip.bytes, List.getElem_take, List.getElem_drop, List.getElem_map, List.getElem_range]
    congr 1
    omega
  refine State.gives_live (f := fun c => c.hbmAccess x) rfl hlive ?_
  simp only [Chip.hbmAccess, hregion, if_neg (show ¬ (x.len = 0 ∨ x.addr % 64 + x.len > 64) by omega), hread, herrors, List.map_nil,
    hhint, hstored, hbytes]
  exact ⟨rfl, rfl, rfl, rfl, rfl⟩

theorem Chip.putLine_objs (s : Chip) (a : Nat) (bs : List Byte) (b : Bool) : (s.putLine a bs b).objs = s.objs := by
  unfold Chip.putLine
  dsimp only
  split
  · split <;> rfl
  · split <;> rfl

theorem gives_hbmAccess_write (s : State) (x : HbmAccess) {p : Place} {bs : List Byte} {b : Bool} (hlive : s.live = true)
    (hregion : s.region x.addr = .hbm p) (hlen : x.len = 64) (haligned : x.addr % 64 = 0) (hwrite : x.write = some (bs, b))
    (hbs : bs.length = 64) (hhint : x.hint = 1) (hcopying : s.copying p.unit = false)
    (hline : Tab.get none s.hbm.cache (x.addr / 64) = none) :
    s.gives (.hbmAccess x) fun c => (∀ i, i < 64 → c.byte (x.addr + i) = nth 0 bs i) ∧
      (∀ k, k < x.addr ∨ x.addr + 64 ≤ k → c.byte k = s.byte k) ∧ c.hbm.cache = s.hbm.cache ∧ c.queues = s.queues ∧ c.objs = s.objs := by
  obtain ⟨v, hstored⟩ := s.toChip.writeHbmLine_stream b (x.errors.map fun e => (e.1.val, e.2.toNat)) hbs (s.toChip.place_of_region hregion) hcopying hline
  refine State.gives_live (f := fun c => c.hbmAccess x) rfl hlive ?_
  have haccess : s.hbmAccess x = ({ s.toChip with hbm := { s.hbm with hbmStacks := v } } : Chip).putLine x.addr bs b := by
    unfold Chip.hbmAccess
    dsimp only
    rw [hregion]
    dsimp only
    rw [if_neg (by omega), hwrite]
    dsimp only
    rw [Chip.when_pos (by simp [hbs, hlen]), hhint]
    exact hstored
  rw [haccess]
  refine ⟨fun i hi => ?_, fun k hk => ?_, ?_, ?_, ?_⟩
  · rw [Chip.putLine_byte, Chip.putBytes_byte_same _ _ _ _ (by omega), nth, List.getD_eq_getElem _ _ (by omega)]
  · rw [Chip.putLine_byte, Chip.putBytes_byte_other _ _ _ _ (by omega)]
    rfl
  · exact Chip.putLine_keeps Hbm.cache (fun _ _ _ => rfl) _ _ _
  · exact congrArg Outside.queues (Chip.putLine_outside ..)
  · exact Chip.putLine_objs ..

/-! ### Silent channels -/

theorem Chip.raiseLimited_hbm (s : Chip) (code u : Nat) (args : List Arg) : (s.raiseLimited code u args).hbm = s.hbm := by
  simp only [Chip.raiseLimited]
  split
  · split <;> rfl
  · exact s.raise_hbm code args

/-- The chip after a channel's silence, before the channel is judged. -/
def Chip.silence (s : Chip) (n : Nat) : Chip :=
  ((({ s.setChannel n fun c => { c with silent := c.silent + 1 } with freeCtr := s.freeCtr + 8 } : Chip).bump
    (O.chUe + 256 * n) 1).raiseLimited 0x8801 0 [.u16 (2 * n)]).emit
    (.data ((List.range 8).flatMap fun i => leBytes 8 (Config.freeWord (s.freeCtr + i)).toNat) true)

theorem Chip.channelTimeout_eq (s : Chip) (n : Nat) : s.channelTimeout n =
    if ((s.silence n).channel n).silent ≥ 8 then (s.silence n).judge n .unresponsive else s.silence n := rfl

theorem Chip.silence_hbm (s : Chip) (n : Nat) :
    (s.silence n).hbm = (s.setChannel n fun c => { c with silent := c.silent + 1 }).hbm :=
  Chip.raiseLimited_hbm ..

theorem Chip.silence_channel (s : Chip) (n : Nat) :
    (s.silence n).channel n = { s.channel n with silent := (s.channel n).silent + 1 } := by
  rw [Chip.channel, Chip.silence_hbm]
  exact s.channel_setChannel n _

theorem Chip.silence_mem (s : Chip) (n : Nat) : (s.silence n).mem = s.mem := Chip.raiseLimited_mem ..

theorem freeBytes_length (w : Nat → Nat) : ((List.range 8).flatMap fun i => leBytes 8 (w i)).length = 64 := by
  simp [List.length_flatMap, leBytes]

/-! ### The interleave table -/

theorem gives_interleaveEntryCommit_taken (s : State) (r : Fin 64) (w : Word) (hlive : s.live = true) (hidle : s.job.state = 0)
    (hvalid : w.getLsbD 63 = true) (hcheck : s.ilCheck r.val (w &&& 0xFE000FFFFFFFFF00) = none) :
    s.gives (.interleaveEntryCommit r w) fun c => c.ilWord r.val = w &&& 0xFE000FFFFFFFFF00 ∧
      (∀ j, j ≠ r.val → c.ilWord j = s.ilWord j) ∧ c.log = s.log ∧ c.queues = s.queues := by
  refine State.gives_live (f := fun c => c.ilCommit r.val w) rfl hlive ?_
  have hcommit : s.ilCommit r.val w = s.retable (Tab.set 0 s.hbm.interleave r.val (w &&& 0xFE000FFFFFFFFF00)) := by
    simp only [Chip.ilCommit, hidle, ne_eq, not_true_eq_false, if_false, ilValid_masked hvalid, if_true, hcheck]
  rw [hcommit]
  refine ⟨?_, fun j hj => ?_, Chip.retable_log .., Chip.retable_queues ..⟩
  · rw [Chip.ilWord_retable, if_pos rfl]
  · rw [Chip.ilWord_retable, if_neg hj]

theorem gives_interleaveEntryCommit_refused (s : State) (r : Fin 64) (w : Word) (k : Nat) (hlive : s.live = true)
    (hidle : s.job.state = 0) (hvalid : w.getLsbD 63 = true) (hcheck : s.ilCheck r.val (w &&& 0xFE000FFFFFFFFF00) = some k) :
    s.gives (.interleaveEntryCommit r w) fun c => (c.ilWord r.val).getLsbD 63 = false ∧
      (∀ j, j ≠ r.val → c.ilWord j = s.ilWord j) ∧ c.log.seq = s.log.seq + 1 ∧
      (Tab.get LogEntry.zero c.log.ring s.log.next).args = [BitVec.ofNat 8 r.val, 0, BitVec.ofNat 8 k] := by
  refine State.gives_live (f := fun c => c.ilCommit r.val w) rfl hlive ?_
  have hcommit : s.ilCommit r.val w = (s.retable (Tab.set 0 s.hbm.interleave r.val
      (w &&& 0xFE000FFFFFFFFF00 &&& 0x7FFFFFFFFFFFFFFF))).raise 0x4806 [.u16 r.val, .u8 k] := by
    simp only [Chip.ilCommit, hidle, ne_eq, not_true_eq_false, if_false, ilValid_masked hvalid, if_true, hcheck]
  have hargs (t : Chip) : (Tab.get LogEntry.zero (t.raise 0x4806 [.u16 r.val, .u8 k]).log.ring t.log.next).args =
      argBytes [.u16 r.val, .u8 k] [] := congrArg LogEntry.args (Tab.get_set_same ..)
  have hlog : (s.retable (Tab.set 0 s.hbm.interleave r.val (w &&& 0xFE000FFFFFFFFF00 &&& 0x7FFFFFFFFFFFFFFF))).log = s.log :=
    Chip.retable_log ..
  rw [hcommit]
  refine ⟨?_, fun j hj => ?_, ?_, ?_⟩
  · change (Chip.ilWord (s.retable _) r.val).getLsbD 63 = false
    rw [Chip.ilWord_retable, if_pos rfl, BitVec.getLsbD_and]
    exact Bool.and_false _
  · change Chip.ilWord (s.retable _) j = _
    rw [Chip.ilWord_retable, if_neg hj]
  · exact congrArg (fun l => l.seq + 1) hlog
  · rw [← hlog, hargs]
    have hr : r.val / 256 = 0 := Nat.div_eq_of_lt (by omega)
    simp [argBytes, Arg.layout, leBytes, hr]

/-- Settles O38: each clause is one branch of its command's function. -/
theorem hbmAccesses : Obligations.Hbm_accesses := by
  unfold Obligations.Hbm_accesses
  refine ⟨?_, ?_, ?_, ?_, ?_, ?_, ?_, ?_, ?_, ?_, ?_, ?_⟩
  · intro s x p r hlive hregion hplace hlen hfits hread herrors hhint hcopying hdead hline
    exact gives_hbmAccess_read s x hlive hregion hplace hlen hfits hread herrors hhint hcopying hdead hline
  · intro s x p bs b hlive hregion hlen haligned hwrite hbs hhint hcopying hline
    exact gives_hbmAccess_write s x hlive hregion hlen haligned hwrite hbs hhint hcopying hline
  · intro s n hlive hsilent
    refine State.gives_live (f := fun c => c.channelTimeout n.val) rfl hlive ?_
    rw [Chip.channelTimeout_eq, Chip.silence_channel, if_neg (by simp only; omega)]
    exact ⟨congrArg Channel.silent (s.toChip.silence_channel n.val), ⟨_, _, rfl, freeBytes_length _⟩, s.toChip.silence_mem n.val,
      (congrArg Hbm.migration (s.toChip.silence_hbm n.val)).trans rfl⟩
  · intro s n hlive hsilent hstate
    refine State.gives_live (f := fun c => c.channelTimeout n.val) rfl hlive ?_
    have hhealthy : ((s.silence n.val).channel n.val).state = .healthy := by
      rw [Chip.silence_channel]
      exact hstate
    have hjudged := (s.silence n.val).judge_unresponsive hhealthy
    rw [Chip.channelTimeout_eq, Chip.silence_channel, if_pos (by simp only; omega)]
    exact ⟨hjudged.1, hjudged.2, (Chip.judge_mem ..).trans (s.toChip.silence_mem n.val)⟩
  · intro s n k hlive hpcs
    refine State.gives_live (f := fun c => c.odeccRead [(n.val, k)]) rfl hlive ?_
    have hseen : (s.toChip.bump (O.chOdecc + 256 * n.val) k).channelsSeen = [] := by
      rw [Chip.channelsSeen, Chip.bump_hbm, hpcs]
      rfl
    have hbump : s.toChip.each [(n.val, k)] (fun t c => if c.1 < 1024 then t.bump (O.chOdecc + 256 * c.1) c.2 else t) =
        s.toChip.bump (O.chOdecc + 256 * n.val) k := if_pos n.isLt
    rw [Chip.odeccRead, hbump, hseen]
    rfl
  · intro s l hlive hregion
    exact State.gives_live (f := fun c => c.scrub l []) rfl hlive (s.toChip.scrub_clean hregion)
  · intro s l p hlive hregion hdead
    refine State.gives_live (f := fun c => c.scrub l []) rfl hlive ?_
    have hlow : l < 2 ^ 38 := Decidable.byContradiction fun hl => by
      rw [s.toChip.region_beyond (by omega)] at hregion
      cases hregion
    rw [Chip.scrub, if_neg (by omega), if_neg (by omega), hregion]
    simp only [Chip.readStored, s.toChip.place_of_region hregion, hdead, Bool.false_eq_true, if_false, List.isEmpty_nil, if_true]
  · intro s l hlive hl howner hanswers
    refine State.gives_live (f := fun c => c.scrub (2 ^ 38 + l) []) rfl hlive ?_
    rw [Chip.scrub, if_neg (by omega), if_pos (by omega), Nat.add_sub_cancel_left]
    simp only [Chip.scrubPlace, howner, Chip.scrubHidden, hanswers, Bool.false_eq_true, if_false, List.isEmpty_nil, if_true]
  · intro s hlive
    refine State.gives_live (f := fun c => c.when true Chip.keepRelease) rfl hlive ⟨fun l x hx => ?_, rfl⟩
    rw [Chip.when_pos rfl, Chip.keepRelease_line] at hx
    obtain ⟨y, hy, rfl⟩ := Option.map_eq_some_iff.mp hx
    exact ⟨rfl, y, hy, rfl⟩
  · exact gives_interleaveEntryCommit_taken
  · exact gives_interleaveEntryCommit_refused
  · intro s r w hlive hrunning
    refine State.gives_live (f := fun c => c.ilCommit r.val w) rfl hlive ?_
    exact if_pos hrunning

end Sys2Proof.Machine
end

section
/-! PROOF. Map-out of channels, shrinking of the visible capacity, margin sweeps and refresh, and the statement `Map_out`. -/

namespace Sys2Proof.Machine

/-! ### What flushing and moving units leave alone -/

section
variable {β : Type} (s : Chip)

theorem Chip.evict_keeps (f : Hbm → β) (hf : ∀ h c x y, f { h with cache := c, poison := x, unitPoison := y } = f h) (l : Nat) :
    f (s.evict l).hbm = f s.hbm := by
  have hgone : f (s.setCache l none).hbm = f s.hbm := hf s.hbm _ s.hbm.poison s.hbm.unitPoison
  unfold Chip.evict
  split
  · rfl
  · dsimp only
    split
    · exact (Chip.mark_keeps f (fun h x y => hf h h.cache x y) _ _).trans hgone
    · exact hgone

theorem Chip.dropLine_keeps (f : Hbm → β) (hf : ∀ h c x y, f { h with cache := c, poison := x, unitPoison := y } = f h) (l : Nat) :
    f (s.dropLine l).hbm = f s.hbm := by
  have hgone : f (s.setCache l none).hbm = f s.hbm := hf s.hbm _ s.hbm.poison s.hbm.unitPoison
  unfold Chip.dropLine
  split
  · rfl
  · dsimp only
    split
    · exact (Chip.mark_keeps f (fun h x y => hf h h.cache x y) _ _).trans hgone
    · exact hgone

theorem Chip.dropLine_log (l : Nat) : (s.dropLine l).log = s.log := by
  unfold Chip.dropLine
  split
  · rfl
  · dsimp only
    split <;> rfl

theorem Chip.flushUnits_keeps (f : Hbm → β) (hf : ∀ h c x y, f { h with cache := c, poison := x, unitPoison := y } = f h)
    (units : List Nat) : f (s.each units Chip.flushUnit).hbm = f s.hbm :=
  s.each_keeps (fun c => f c.hbm) _ (fun t _ => t.each_keeps (fun c => f c.hbm) _ (fun v l => v.evict_keeps f hf l) _) _

theorem Chip.flushUnits_log (units : List Nat) : (s.each units Chip.flushUnit).log = s.log :=
  s.each_keeps Chip.log _ (fun t _ => t.each_keeps Chip.log _ (fun v l => v.evict_log l) _) _

theorem Chip.flushUnits_queues (units : List Nat) : (s.each units Chip.flushUnit).queues = s.queues :=
  s.each_keeps Chip.queues _
    (fun t _ => t.each_keeps Chip.queues _ (fun v l => congrArg Outside.queues (v.evict_outside l)) _) _

theorem Chip.evict_objs (l : Nat) : (s.evict l).objs = s.objs := by
  unfold Chip.evict
  split
  · rfl
  · dsimp only
    split <;> rfl

theorem Chip.flushUnits_objs (units : List Nat) : (s.each units Chip.flushUnit).objs = s.objs :=
  s.each_keeps Chip.objs _ (fun t _ => t.each_keeps Chip.objs _ (fun v l => v.evict_objs l) _) _

/-- Over an empty cache there is nothing to flush. -/
theorem Chip.flushUnits_uncached (h : s.hbm.cache = []) (units : List Nat) : s.each units Chip.flushUnit = s := by
  induction units with
  | nil => rfl
  | cons u r ih =>
    have hnone : s.flushUnit u = s := by
      simp only [Chip.flushUnit, Chip.cachedLines, h]
      rfl
    exact (congrArg (fun t : Chip => t.each r Chip.flushUnit) hnone).trans ih

theorem Chip.relocate_keeps (f : Hbm → β)
    (hf : ∀ h a b c d, f { h with hidden := a, hiddenPoison := b, sweeps := c, remap := d } = f h) (u d : Nat) :
    f (s.relocate u d).hbm = f s.hbm := by
  simp only [Chip.relocate]
  split
  · exact hf s.hbm _ _ _ s.hbm.remap
  · exact hf s.hbm _ _ s.hbm.sweeps _

theorem Chip.relocate_log (u d : Nat) : (s.relocate u d).log = s.log := by
  simp only [Chip.relocate]
  split <;> rfl

theorem Chip.redeal_keeps (f : Hbm → β) (hf : ∀ h a b, f { h with migration := a, sweeps := b } = f h) (bad : Nat → Bool) :
    f (s.redeal bad).hbm = f s.hbm := by
  unfold Chip.redeal
  refine (Chip.each_keeps _ (fun c => f c.hbm) _ (fun t w => ?_) _).trans ?_
  · refine Chip.each_keeps _ (fun c => f c.hbm) _ (fun t u => ?_) _
    split
    · rfl
    · exact hf t.hbm t.hbm.migration _
  · split
    · rfl
    · refine Chip.each_keeps _ (fun c => f c.hbm) _ (fun t u => ?_) _
      split
      · rfl
      · exact hf t.hbm _ t.hbm.sweeps

theorem Chip.redeal_log (bad : Nat → Bool) : (s.redeal bad).log = s.log := by
  unfold Chip.redeal
  refine (Chip.each_keeps _ Chip.log _ (fun t w => ?_) _).trans ?_
  · refine Chip.each_keeps _ Chip.log _ (fun t u => ?_) _
    split <;> rfl
  · split
    · rfl
    · refine Chip.each_keeps _ Chip.log _ (fun t u => ?_) _
      split <;> rfl

/-- Dealing again changes no migration that has promised nothing. -/
theorem Chip.redeal_migration {m : Migration} (hm : s.hbm.migration = some m) (htodo : m.todo = []) (hcopying : m.copying = [])
    (bad : Nat → Bool) : (s.redeal bad).hbm.migration = some m := by
  have hpromised : m.promised = [] := by rw [Migration.promised, htodo, hcopying]; rfl
  unfold Chip.redeal
  dsimp only
  rw [hm]
  dsimp only
  rw [hpromised]
  refine (Chip.each_keeps _ (fun c => c.hbm.migration) _ (fun t w => ?_) _).trans hm
  refine Chip.each_keeps _ (fun c => c.hbm.migration) _ (fun t u => ?_) _
  split <;> rfl

/-! ### Where a unit stands -/

/-- The donor at which the sweeps let a unit stand: that of the last sweep which has drained it. -/
def sweptTo (l : List Sweep) (v : Nat) : Option (Nat × Nat) := l.reverse.findSome? fun w => w.away.find? (fun m => m.1 = v)

theorem Chip.donorOf_eq (v : Nat) : s.donorOf v =
    ((sweptTo s.hbm.sweeps v).map Prod.snd).or (Tab.get none s.hbm.remap v) := by
  unfold Chip.donorOf
  change (match sweptTo s.hbm.sweeps v with | some m => some m.2 | none => Tab.get none s.hbm.remap v) = _
  cases sweptTo s.hbm.sweeps v <;> rfl

theorem sweptTo_cons (w : Sweep) (l : List Sweep) (v : Nat) :
    sweptTo (w :: l) v = (sweptTo l v).or (w.away.find? fun m => m.1 = v) := by
  simp only [sweptTo, List.reverse_cons, List.findSome?_append, List.findSome?_cons, List.findSome?_nil]
  cases w.away.find? _ <;> rfl

theorem redonorPair_fst (u d : Nat) (m : Nat × Nat) : (redonorPair u d m).1 = m.1 := by
  unfold redonorPair
  split
  · rename_i h
    exact h.symm
  · rfl

theorem away_redonor (u d : Nat) (w : Sweep) : (w.redonor u d).away = w.away.map (redonorPair u d) := by
  have hpair : UnitCopy.pair ∘ UnitCopy.redonor u d = redonorPair u d ∘ UnitCopy.pair := by
    funext c
    by_cases h : c.unit = u
    · simp [UnitCopy.redonor, redonorPair, UnitCopy.pair, h]
    · simp [UnitCopy.redonor, redonorPair, UnitCopy.pair, h]
  simp only [Sweep.away, Sweep.redonor, Sweep.promised]
  split
  · rw [List.map_append, List.map_map, List.map_map, hpair]
  · rfl

/-- A unit given a new donor stands there; the others stand where they were. -/
theorem find_away_redonor (u d v : Nat) (w : Sweep) : ((w.redonor u d).away.find? fun m => m.1 = v) =
    (w.away.find? fun m => m.1 = v).map (redonorPair u d) := by
  rw [away_redonor, List.find?_map]
  congr 2
  funext m
  exact congrArg (fun k => decide (k = v)) (redonorPair_fst u d m)

theorem find_away_redonor_self (u d : Nat) (w : Sweep) : (((w.redonor u d).away.find? fun m => m.1 = u).map Prod.snd) =
    (w.away.find? fun m => m.1 = u).map fun _ => d := by
  rw [find_away_redonor]
  cases h : w.away.find? (fun m => m.1 = u) with
  | none => rfl
  | some m =>
    have hu : m.1 = u := by simpa using List.find?_some h
    simp [redonorPair, hu]

theorem find_away_redonor_other {u v : Nat} (d : Nat) (w : Sweep) (hv : v ≠ u) : ((w.redonor u d).away.find? fun m => m.1 = v) =
    w.away.find? fun m => m.1 = v := by
  rw [find_away_redonor]
  cases h : w.away.find? (fun m => m.1 = v) with
  | none => rfl
  | some m =>
    have hm : m.1 = v := by simpa using List.find?_some h
    simp [redonorPair, hm, hv]

/-- The sweeps after `relocate` has named a donor, and whether one of them held the unit. -/
def redonorLast (u d : Nat) (l : List Sweep) : List Sweep × Bool :=
  l.foldr (fun w (r : List Sweep × Bool) =>
    if !r.2 && w.away.any (·.1 == u) then (w.redonor u d :: r.1, true) else (w :: r.1, r.2)) ([], false)

theorem redonorLast_cons (u d : Nat) (w : Sweep) (r : List Sweep) :
    redonorLast u d (w :: r) = if !(redonorLast u d r).2 && w.away.any (·.1 == u) then
      (w.redonor u d :: (redonorLast u d r).1, true) else (w :: (redonorLast u d r).1, (redonorLast u d r).2) := rfl

theorem any_away_eq (u : Nat) (w : Sweep) : w.away.any (·.1 == u) = (w.away.find? fun m => m.1 = u).isSome := by
  induction w.away with
  | nil => rfl
  | cons m r ih =>
    rw [List.any_cons, List.find?_cons, ih]
    by_cases h : m.1 = u <;> simp [h]

theorem redonorLast_snd (u d : Nat) (l : List Sweep) : (redonorLast u d l).2 = (sweptTo l u).isSome := by
  induction l with
  | nil => rfl
  | cons w r ih =>
    rw [redonorLast_cons, sweptTo_cons, any_away_eq, ih]
    cases sweptTo r u <;> cases w.away.find? (fun m => m.1 = u) <;> rfl

theorem redonorLast_self (u d : Nat) (l : List Sweep) :
    (sweptTo (redonorLast u d l).1 u).map Prod.snd = (sweptTo l u).map fun _ => d := by
  induction l with
  | nil => rfl
  | cons w r ih =>
    have hmap {α β : Type} (f : α → β) (x y : Option α) : (x.or y).map f = (x.map f).or (y.map f) := by cases x <;> rfl
    rw [redonorLast_cons, redonorLast_snd, any_away_eq]
    cases hr : sweptTo r u with
    | some m =>
      simp only [Option.isSome_some, Bool.not_true, Bool.false_and, Bool.false_eq_true, if_false, sweptTo_cons, hmap, ih, hr]
      rfl
    | none =>
      rw [hr] at ih
      cases hw : w.away.find? (fun m => m.1 = u) with
      | none => simp [sweptTo_cons, ih, hr, hw]
      | some m => simp [sweptTo_cons, hmap, ih, hr, hw, find_away_redonor_self]

theorem redonorLast_other {u v : Nat} (d : Nat) (l : List Sweep) (hv : v ≠ u) : sweptTo (redonorLast u d l).1 v = sweptTo l v := by
  induction l with
  | nil => rfl
  | cons w r ih =>
    rw [redonorLast_cons]
    split
    · rw [sweptTo_cons, sweptTo_cons, ih, find_away_redonor_other d w hv]
    · rw [sweptTo_cons, sweptTo_cons, ih]

theorem Chip.relocate_hbm (u d : Nat) : (s.relocate u d).hbm.sweeps = (if (sweptTo s.hbm.sweeps u).isSome then
      (redonorLast u d s.hbm.sweeps).1 else s.hbm.sweeps) ∧
    (s.relocate u d).hbm.remap = if (sweptTo s.hbm.sweeps u).isSome then s.hbm.remap else Tab.set none s.hbm.remap u (some d) := by
  rw [← redonorLast_snd u d]
  unfold Chip.relocate
  change Hbm.sweeps (Chip.hbm (if (redonorLast u d s.hbm.sweeps).2 then _ else _)) = _ ∧
    Hbm.remap (Chip.hbm (if (redonorLast u d s.hbm.sweeps).2 then _ else _)) = _
  split <;> exact ⟨rfl, rfl⟩

theorem Chip.servingUnit_relocate (u d : Nat) : (s.relocate u d).servingUnit u = d := by
  obtain ⟨hsweeps, hremap⟩ := s.relocate_hbm u d
  rw [Chip.servingUnit, Chip.donorOf_eq, hsweeps, hremap]
  cases hu : sweptTo s.hbm.sweeps u with
  | none =>
    simp only [Option.isSome_none, Bool.false_eq_true, if_false, hu, Tab.get_set_same]
    rfl
  | some m =>
    simp only [Option.isSome_some, if_true, redonorLast_self, hu]
    rfl

theorem Chip.servingUnit_relocate_other {u v : Nat} (d : Nat) (hv : v ≠ u) :
    (s.relocate u d).servingUnit v = s.servingUnit v := by
  obtain ⟨hsweeps, hremap⟩ := s.relocate_hbm u d
  rw [Chip.servingUnit, Chip.servingUnit, Chip.donorOf_eq, Chip.donorOf_eq, hsweeps, hremap]
  split
  · rw [redonorLast_other d _ hv]
  · rw [Tab.get_set_ne _ _ _ _ _ hv]

/-! ### Map-out -/

/-- A map-out begins with nothing promised, and is reported. -/
theorem Chip.beginMapout_begins {n : Nat} {k : MapCause} (h : (s.channel n).unresponsive = false) :
    ((s.beginMapout n k).channel n).state = .migrating ∧
      (s.beginMapout n k).hbm.migration = some ⟨n, k, false, s.aon, false, [], []⟩ ∧ (s.beginMapout n k).log.seq = s.log.seq + 1 := by
  refine ⟨?_, ?_, ?_⟩
  · rw [Chip.channel, Chip.beginMapout_channels]
    exact congrArg Channel.state (s.channel_setChannel n _)
  · unfold Chip.beginMapout
    dsimp only
    rw [h]
    refine (Chip.redeal_migration _ ?_ rfl rfl _).trans rfl
    refine (Chip.each_keeps _ (fun c => c.hbm.migration) _ (fun t m => ?_) _).trans rfl
    exact t.relocate_keeps Hbm.migration (fun _ _ _ _ _ => rfl) m.1 m.2
  · unfold Chip.beginMapout
    dsimp only
    rw [h]
    refine congrArg (· + 1) ((congrArg EventLog.seq (Chip.redeal_log ..)).trans ?_)
    exact congrArg EventLog.seq (Chip.each_keeps _ Chip.log _ (fun t (m : Nat × Nat) => t.relocate_log m.1 m.2) _)

theorem Chip.beginMapout_keeps (f : Hbm → β)
    (hf : ∀ h a b c d e g, f { h with hidden := a, hiddenPoison := b, sweeps := c, remap := d, migration := e, channels := g } = f h)
    (n : Nat) (k : MapCause) : f (s.beginMapout n k).hbm = f s.hbm := by
  have hdealt (t : Chip) : f ((t.each ((s.hbm.sweeps.filter fun w => w.pc / 2 == n).flatMap Sweep.away) fun s m =>
      s.relocate m.1 m.2).redeal fun p => p / 2 == n).hbm = f t.hbm := by
    refine (Chip.redeal_keeps _ f (fun h a b => hf h h.hidden h.hiddenPoison b h.remap a h.channels) _).trans ?_
    exact Chip.each_keeps _ (fun c => f c.hbm) _
      (fun t (m : Nat × Nat) => t.relocate_keeps f (fun h a b c d => hf h a b c d h.migration h.channels) m.1 m.2) _
  unfold Chip.beginMapout
  dsimp only
  split
  · exact (hdealt _).trans (hf s.hbm _ _ _ _ _ _)
  · exact (hdealt _).trans (hf s.hbm _ _ _ _ _ _)

/-- With every copy ended there is nothing to fill. -/
theorem Chip.fillCopies_done {m : Migration} (hm : s.hbm.migration = some m) (htodo : m.todo = []) : s.fillCopies = s := by
  obtain ⟨channel, cause, poison, start, chosen, todo, copying⟩ := m
  obtain rfl : todo = [] := htodo
  simp only [Chip.fillCopies, hm, List.take_nil, List.map_nil, List.drop_nil, List.append_nil, List.length_nil]
  rw [← hm]
  rfl

theorem Chip.dueSweeps_none (h : ∀ e ∈ s.hbm.pcs, e.2.sweepDue = false) : s.dueSweeps = s := by
  have hnone : (s.hbm.pcs.filter fun e => e.2.sweepDue) = [] := List.filter_eq_nil_iff.mpr fun e he => by simp [h e he]
  rw [Chip.dueSweeps, hnone]
  rfl

theorem getLast?_drop_append {α : Type} (l : List α) (x : α) :
    ((l ++ [x]).drop ((l ++ [x]).length - 64)).getLast? = some x := by
  rw [List.getLast?_drop, if_neg (by simp)]
  simp

end

/-! ### The clauses of a map-out -/

theorem gives_mapoutRequest (s : State) (n : Half) (t : Chip) (hlive : s.live = true) (hn : n.toNat < 1024)
    (hstate : (s.channel n.toNat).state = .healthy)
    (ht : t = s.toChip.setChannel n.toNat fun x => { x with cause := some .request }) (hcount : t.mappedOutCount < 64)
    (hmigration : s.hbm.migration = none) (hshrink : s.hbm.shrink = none) (hwaiting : s.hbm.waitingChannels = []) :
    s.gives (.mapoutRequest n) fun c => c = t.tryMapout n.toNat .request := by
  refine State.gives_live (f := fun c => c.mapoutRequest n.toNat) rfl hlive ?_
  have hset : (s.toChip.setChannel n.toNat fun c => { c with
      cause := some .request, unresponsive := c.unresponsive || decide (MapCause.request = .unresponsive) }) = t := by
    rw [ht]
    congr
    funext c
    rw [show decide (MapCause.request = .unresponsive) = false from rfl, Bool.or_false]
  have hidle : t.hbm.migration = none ∧ t.hbm.shrink = none ∧ t.hbm.waitingChannels = [] := by
    rw [ht]
    exact ⟨hmigration, hshrink, hwaiting⟩
  rw [Chip.mapoutRequest, Chip.when_pos (by simp [hn, hstate]), Chip.judge]
  dsimp only
  rw [hstate]
  dsimp only
  rw [hset, if_neg (by simp), if_neg (by omega), hidle.1, hidle.2.1, hidle.2.2]
  rfl

theorem gives_unitCopyDone (s : State) (m : Migration) (x : UnitCopy) (hlive : s.live = true) (hm : s.hbm.migration = some m)
    (htodo : m.todo = []) (hcopying : m.copying = [x]) (P : Chip → Prop)
    (hp : P (({ s.toChip with hbm := { s.hbm with
      unitPoison := if m.poison && !x.zeroed then
        UnitPoison.mk x.unit x.written :: s.hbm.unitPoison.filter fun y => y.unit != x.unit || !m.poison
        else s.hbm.unitPoison.filter fun y => y.unit != x.unit || !m.poison
      migration := some { m with copying := [] } } } : Chip).relocate x.unit x.donor)) :
    s.gives (.unitCopyDone x.unit) P := by
  refine State.gives_live (f := fun c => c.unitCopyDone x.unit) rfl hlive ?_
  have hfound : (s.hbm.migration.bind fun m => (m.copying.find? fun c => c.unit == x.unit).map (m, ·)) = some (m, x) := by
    simp [hm, hcopying]
  have hfill (t : Chip) (ht : t.hbm.migration = some { m with copying := [] }) :
      (t.relocate x.unit x.donor).fillCopies = t.relocate x.unit x.donor :=
    Chip.fillCopies_done _ ((t.relocate_keeps Hbm.migration (fun _ _ _ _ _ => rfl) _ _).trans ht) htodo
  rw [Chip.unitCopyDone, hfound]
  dsimp only
  rw [hcopying, show (List.filter (fun y : UnitCopy => y.unit != x.unit) [x]) = [] by simp, hfill _ rfl]
  exact hp

theorem gives_mapoutComplete (s : State) (m : Migration) (hlive : s.live = true) (hm : s.hbm.migration = some m) (hchosen : m.chosen = true)
    (htodo : m.todo = []) (hcopying : m.copying = []) (hwaiting : s.hbm.waitingChannels = [])
    (hdue : ∀ e ∈ s.hbm.pcs, e.2.sweepDue = false) :
    s.gives .mapoutComplete fun c => (c.channel m.channel).state = .mappedOut ∧ c.hbm.migration = none ∧ c.log.seq = s.log.seq + 1 ∧
      c.hbm.mapoutLog.getLast? = some ⟨m.channel, m.cause.code, if m.poison then 1 else 0, (s.aon - m.start) / 1000000, s.timebase⟩ ∧
      c.mem = s.mem := by
  refine State.gives_live (f := Chip.mapoutComplete) rfl hlive ?_
  have hend (t : Chip) (ht : t.hbm.waitingChannels = []) (hd : ∀ e ∈ t.hbm.pcs, e.2.sweepDue = false) :
      t.nextMapout.dueSweeps = t := by
    rw [Chip.nextMapout, ht]
    exact t.dueSweeps_none hd
  rw [Chip.mapoutComplete, hm]
  dsimp only
  rw [if_pos (by simp [hchosen, htodo, hcopying]), hend]
  case ht => exact hwaiting
  case hd => exact hdue
  refine ⟨?_, rfl, rfl, getLast?_drop_append _ _, rfl⟩
  change ((s.toChip.setChannel m.channel fun c => { c with state := .mappedOut }).channel m.channel).state = .mappedOut
  rw [Chip.channel_setChannel]

/-- The chip after a shrink has withdrawn its ranges, before the map-out begins. -/
theorem Chip.withdraw_eq {s : Chip} {k : Shrink} (hshrink : s.hbm.shrink = some k) :
    ∃ t : Chip, s.withdraw = t.beginMapout k.channel k.cause ∧ t.hbm.v = s.hbm.v - 1 ∧ t.hbm.shrink = none ∧
      t.hbm.channels = s.hbm.channels ∧ t.log.seq = s.log.seq + 1 := by
  let u := s.each (s.cachedLines.map (·.1)) fun s' l =>
    if s.withdrawnRanges.any (fun r => r.1 ≤ 64 * l && 64 * l ≤ r.2) then s'.dropLine l else s'
  have hkeeps {β : Type} (f : Hbm → β) (hf : ∀ h c x y, f { h with cache := c, poison := x, unitPoison := y } = f h) :
      f u.hbm = f s.hbm := Chip.each_keeps s (fun c => f c.hbm) _ (fun t l => by
    split
    · exact t.dropLine_keeps f hf l
    · rfl) _
  have hlog : u.log = s.log := Chip.each_keeps s Chip.log _ (fun t l => by
    split
    · exact t.dropLine_log l
    · rfl) _
  simp only [Chip.withdraw, hshrink]
  refine ⟨_, rfl, ?_, rfl, hkeeps Hbm.channels fun _ _ _ _ => rfl, congrArg (fun l => l.seq + 1) hlog⟩
  exact congrArg (· - 1) (hkeeps Hbm.v fun _ _ _ _ => rfl)

theorem gives_withdraw (s : State) (k : Shrink) (i : Instr) (hlive : s.live = true) (hi : i = .shrinkAck true ∨ i = .shrinkGraceExpiry)
    (hshrink : s.hbm.shrink = some k) (hanswers : (s.channel k.channel).unresponsive = false) :
    s.gives i fun c => c.hbm.v = s.hbm.v - 1 ∧ c.hbm.shrink = none ∧ (c.channel k.channel).state = .migrating ∧
      c.log.seq = s.log.seq + 2 := by
  obtain ⟨t, hwithdraw, hv, hnone, hchannels, hseq⟩ := Chip.withdraw_eq hshrink
  have hbegins := t.beginMapout_begins (n := k.channel) (k := k.cause) (by rw [Chip.channel, hchannels]; exact hanswers)
  have hgives : s.gives i fun c => c = s.withdraw := by
    rcases hi with rfl | rfl
    · exact State.gives_live (f := fun c => c.when true Chip.withdraw) rfl hlive (Chip.when_pos rfl)
    · exact State.gives_live (f := Chip.withdraw) rfl hlive rfl
  refine hgives.imp fun c hc => ?_
  rw [hc, hwithdraw]
  refine ⟨?_, ?_, hbegins.1, by rw [hbegins.2.2, hseq, BitVec.add_assoc]; rfl⟩
  · rw [t.beginMapout_keeps Hbm.v fun _ _ _ _ _ _ _ => rfl, hv]
  · rw [t.beginMapout_keeps Hbm.shrink fun _ _ _ _ _ _ _ => rfl, hnone]

/-! ### Margin sweeps -/

section
variable {s : Chip} {p : Nat}

/-- A sweep alone fills its copies. -/
theorem Chip.fillSweep_alone {w : Sweep} (h : s.hbm.sweeps = [w]) (hp : w.pc = p) :
    s.fillSweep p = (s.each ((w.todo.take (8 - w.copying.length)).map (·.1)) Chip.flushUnit).setSweep p fun x => { x with
      todo := x.todo.drop (w.todo.take (8 - w.copying.length)).length
      copying := x.copying ++ (w.todo.take (8 - w.copying.length)).map UnitCopy.begin' } := by
  have hfound : s.sweepOf p = some w := by simp [Chip.sweepOf, h, hp]
  rw [Chip.fillSweep, hfound]

theorem Chip.fillSweep_sweeps {w : Sweep} (h : s.hbm.sweeps = [w]) (hp : w.pc = p) : (s.fillSweep p).hbm.sweeps = [{ w with
      todo := w.todo.drop (8 - w.copying.length)
      copying := w.copying ++ (w.todo.take (8 - w.copying.length)).map UnitCopy.begin' }] := by
  have hsweeps := s.flushUnits_keeps Hbm.sweeps (fun _ _ _ _ => rfl) ((w.todo.take (8 - w.copying.length)).map (·.1))
  have hdrop (l : List (Nat × Nat)) (k : Nat) : l.drop (l.take k).length = l.drop k := by
    rw [List.length_take]
    rcases Nat.le_total k l.length with hk | hk
    · rw [Nat.min_eq_left hk]
    · rw [Nat.min_eq_right hk, List.drop_of_length_le hk, List.drop_length]
  rw [Chip.fillSweep_alone h hp, Chip.setSweep]
  dsimp only
  rw [hsweeps, h, List.map_singleton, if_pos hp, hdrop]

theorem Chip.fillSweep_keeps {β : Type} (f : Hbm → β)
    (hf : ∀ h c x y z, f { h with cache := c, poison := x, unitPoison := y, sweeps := z } = f h) : f (s.fillSweep p).hbm = f s.hbm := by
  unfold Chip.fillSweep
  split
  · rfl
  · rename_i w _
    have hflushed := s.flushUnits_keeps f (fun h c x y => hf h c x y h.sweeps) ((w.todo.take (8 - w.copying.length)).map (·.1))
    exact (hf _ (Hbm.cache _) (Hbm.poison _) (Hbm.unitPoison _) _).trans hflushed

theorem Chip.fillSweep_log : (s.fillSweep p).log = s.log := by
  unfold Chip.fillSweep
  split
  · rfl
  · exact s.flushUnits_log _

theorem Chip.fillSweep_queues : (s.fillSweep p).queues = s.queues := by
  unfold Chip.fillSweep
  split
  · rfl
  · exact s.flushUnits_queues _

/-! #### Donors -/

theorem dealRound_all {P : Nat → Prop} (fuel : Nat) (lists : List (List Nat)) (acc : List Nat) (n : Nat)
    (hlists : ∀ l ∈ lists, ∀ x ∈ l, P x) (hacc : ∀ x ∈ acc, P x) : ∀ x ∈ dealRound fuel lists acc n, P x := by
  induction fuel generalizing lists acc with
  | zero => exact hacc
  | succ k ih =>
    rw [dealRound]
    split
    · exact hacc
    · refine ih _ _ (fun l hl x hx => ?_) fun x hx => ?_
      · obtain ⟨l', hl', rfl⟩ := List.mem_map.mp hl
        exact hlists l' hl' x (List.mem_of_mem_drop hx)
      · rcases List.mem_append.mp hx with hx | hx
        · exact hacc x hx
        · obtain ⟨l, hl, hhead⟩ := List.mem_filterMap.mp (List.mem_of_mem_take hx)
          exact hlists l hl x (List.mem_of_mem_head? hhead)

/-- No donor lies on the channel to be avoided. -/
theorem Chip.chooseDonors_avoid (avoid n : Nat) : ∀ d ∈ s.chooseDonors p avoid n, unitPc d / 2 ≠ avoid := by
  have hsite (site : List Nat) (acc : List Nat) (hacc : ∀ d ∈ acc, unitPc d / 2 ≠ avoid) :
      ∀ d ∈ (if acc.length ≥ n then acc else acc ++ dealRound 1024
        ((site.filter (s.canDonate avoid)).map (freeUnits s.hbm.v s.donorsUsed)) [] (n - acc.length)), unitPc d / 2 ≠ avoid := by
    split
    · exact hacc
    · intro d hd
      rcases List.mem_append.mp hd with hd | hd
      · exact hacc d hd
      · refine dealRound_all (P := fun d => unitPc d / 2 ≠ avoid) _ _ _ _ (fun l hl x hx => ?_) (fun x hx => absurd hx List.not_mem_nil) d hd
        obtain ⟨q, hq, rfl⟩ := List.mem_map.mp hl
        have hdonates := (List.mem_filter.mp hq).2
        obtain ⟨i, hi, rfl⟩ := List.mem_map.mp (List.mem_filter.mp hx).1
        have hpc : unitPc (1024 * q + (1023 - i)) = q := by simp only [unitPc]; omega
        rw [hpc]
        intro heq
        simp [Chip.canDonate, heq] at hdonates
  have hall (l : List (List Nat)) (acc : List Nat) (hacc : ∀ d ∈ acc, unitPc d / 2 ≠ avoid) :
      ∀ d ∈ l.foldl (fun acc site => if acc.length ≥ n then acc else acc ++ dealRound 1024
        ((site.filter (s.canDonate avoid)).map (freeUnits s.hbm.v s.donorsUsed)) [] (n - acc.length)) acc, unitPc d / 2 ≠ avoid := by
    induction l generalizing acc with
    | nil => exact hacc
    | cons site r ih => exact ih _ (hsite site acc hacc)
  exact hall _ [] fun d hd => absurd hd List.not_mem_nil

theorem Chip.each_nothing {α : Type} {f : Chip → α → Chip} (l : List α) (h : ∀ a ∈ l, ∀ t, f t a = t) (t : Chip) : t.each l f = t := by
  induction l generalizing t with
  | nil => rfl
  | cons a r ih =>
    exact (congrArg (fun u : Chip => u.each r f) (h a (.head _) t)).trans (ih (fun b hb => h b (.tail _ hb)) t)

/-- Dealing again changes no sweep whose donors are all well. -/
theorem Chip.redeal_sweeps {bad : Nat → Bool} (h : ∀ w ∈ s.hbm.sweeps, ∀ t ∈ w.promised, bad (unitPc t.2) = false) :
    (s.redeal bad).hbm.sweeps = s.hbm.sweeps := by
  have hnone (w : Sweep) (hw : w ∈ s.hbm.sweeps) : (w.promised.filter fun t => bad (unitPc t.2)) = [] :=
    List.filter_eq_nil_iff.mpr fun t ht => by simp [h w hw t ht]
  unfold Chip.redeal
  dsimp only
  rw [Chip.each_nothing]
  · split
    · rfl
    · refine Chip.each_keeps _ (fun c => c.hbm.sweeps) _ (fun t u => ?_) _
      split <;> rfl
  · intro w hw t
    have hmem := (List.mem_filter.mp hw).1
    rw [hnone w]
    · rfl
    · revert hmem
      split
      · exact id
      · refine (congrArg (w ∈ ·) (Chip.each_keeps s (fun c => c.hbm.sweeps) _ (fun t u => ?_) _)).mp
        split <;> rfl

/-- A sweep that starts alone takes the units of its pseudo-channel and their donors. -/
theorem Chip.startSweep_alone (h : s.hbm.sweeps = []) :
    (s.startSweep p).hbm.sweeps = [⟨p, .draining, ((s.unitsOfPc p).zip (s.chooseDonors p (p / 2) (s.sweepNeed p))).drop 8,
      (((s.unitsOfPc p).zip (s.chooseDonors p (p / 2) (s.sweepNeed p))).take 8).map UnitCopy.begin', []⟩] ∧
    (s.startSweep p).log = s.log ∧ (s.startSweep p).queues = s.queues := by
  let l := (s.unitsOfPc p).zip (s.chooseDonors p (p / 2) (s.unitsOfPc p).length)
  let t : Chip := { s.setPc p fun c => { c with sweepDue := false } with hbm :=
    { (s.setPc p fun c => { c with sweepDue := false }).hbm with sweeps := s.hbm.sweeps ++ [⟨p, .draining, l, [], []⟩] } }
  have hsweeps : t.hbm.sweeps = [⟨p, .draining, l, [], []⟩] := by
    change s.hbm.sweeps ++ _ = _
    rw [h]
    rfl
  have hdealt : (t.redeal fun x => x == p).hbm.sweeps = [⟨p, .draining, l, [], []⟩] := by
    refine (Chip.redeal_sweeps fun w hw d hd => ?_).trans hsweeps
    rw [hsweeps, List.mem_singleton] at hw
    subst hw
    have hdonor : d.2 ∈ s.chooseDonors p (p / 2) (s.unitsOfPc p).length := by
      rw [Sweep.promised, List.map_nil, List.append_nil] at hd
      exact (List.of_mem_zip hd).2
    have havoid := s.chooseDonors_avoid (p / 2) _ d.2 hdonor
    exact beq_eq_false_iff_ne.mpr fun heq => havoid (by rw [heq])
  change ((t.redeal fun x => x == p).fillSweep p).hbm.sweeps = _ ∧ ((t.redeal fun x => x == p).fillSweep p).log = _ ∧
    ((t.redeal fun x => x == p).fillSweep p).queues = _
  refine ⟨Chip.fillSweep_sweeps hdealt rfl, ?_, ?_⟩
  · rw [Chip.fillSweep_log, Chip.redeal_log]
    rfl
  · rw [Chip.fillSweep_queues]
    exact congrArg Outside.queues (Chip.redeal_outside ..)

theorem Chip.pcOf_setPc (f : PseudoChannel → PseudoChannel) : (s.setPc p f).pcOf p = f (s.pcOf p) := by
  rw [Chip.setPc, Chip.pcOf, Tab.get_modify, if_pos rfl]
  rfl

theorem Chip.insertServed_setPc (f : PseudoChannel → PseudoChannel) : (s.setPc p f).insertServed = s.insertServed := by
  funext u l
  induction l with
  | nil => rfl
  | cons v r ih =>
    rw [Chip.insertServed, Chip.insertServed, ih]
    rfl

/-- Which units a pseudo-channel serves does not depend on its own record. -/
theorem Chip.unitsOfPc_setPc (q : Nat) (f : PseudoChannel → PseudoChannel) : (s.setPc p f).unitsOfPc q = s.unitsOfPc q := by
  unfold Chip.unitsOfPc Chip.hostedOn
  rw [Chip.insertServed_setPc]
  rfl

theorem Chip.sweepNeed_setPc (q : Nat) (f : PseudoChannel → PseudoChannel) : (s.setPc p f).sweepNeed q = s.sweepNeed q := by
  rw [Chip.sweepNeed, Chip.unitsOfPc_setPc]
  rfl

/-- What asking for a sweep of a healthy channel comes to, while no other runs. -/
theorem Chip.askSweep_healthy (hstate : (s.channel (p / 2)).state = .healthy) (hsweeps : s.hbm.sweeps = []) :
    s.askSweep p = if s.headlandFree < s.sweepNeed p + 2048 then
      (if (s.pcOf p).deferred then s.setPc p fun c => { c with sweepDue := true }
       else ((s.setPc p fun c => { c with sweepDue := true }).setPc p fun c => { c with deferred := true }).raise 0x4804 [.u16 p])
      else (s.setPc p fun c => { c with sweepDue := true }).startSweep p := by
  have hset : (s.setPc p fun c => { c with sweepDue := true }).pcOf p = { s.pcOf p with sweepDue := true } := Chip.pcOf_setPc _
  have hchannel : ((s.setPc p fun c => { c with sweepDue := true }).channel (p / 2)).state = .healthy := hstate
  have halone : (s.setPc p fun c => { c with sweepDue := true }).hbm.sweeps = [] := hsweeps
  unfold Chip.askSweep Chip.trySweep
  dsimp only
  rw [hset, if_neg (by simp), hchannel, if_neg (by simp), halone, if_neg (by simp), Chip.sweepNeed_setPc]
  rfl

/-! #### The phases of a sweep -/

theorem Chip.sweepUnit_drained {w : Sweep} (h : s.hbm.sweeps = [w]) (hp : w.pc = p) (hphase : w.phase ≠ .copyingBack) (u d : Nat) :
    (s.sweepUnit p u d).hbm.sweeps = [{ w.without u with moved := (w.without u).moved ++ [(u, d)] }] := by
  have hfound : s.sweepOf p = some w := by simp [Chip.sweepOf, h, hp]
  rw [Chip.sweepUnit, hfound]
  dsimp only
  rw [if_neg hphase, Chip.setSweep]
  change s.hbm.sweeps.map _ = _
  rw [h, List.map_singleton, if_pos hp]

/-- The units of a draining sweep move one after the other. -/
theorem Chip.drains (l done : List (Nat × Nat)) (t : Chip) (h : t.hbm.sweeps = [⟨p, .draining, l, [], done⟩])
    (hnodup : ((done ++ l).map (·.1)).Nodup) :
    (t.each l fun s t => s.sweepUnit p t.1 t.2).hbm.sweeps = [⟨p, .draining, [], [], done ++ l⟩] := by
  induction l generalizing done t with
  | nil =>
    rw [List.append_nil]
    exact h
  | cons x r ih =>
    have hsplit : done ++ x :: r = (done ++ [x]) ++ r := by simp
    have hdone : done.filter (fun y => y.1 != x.1) = done := List.filter_eq_self.mpr fun y hy => by
      rw [List.map_append, List.nodup_append] at hnodup
      exact bne_iff_ne.mpr (hnodup.2.2 y.1 (List.mem_map_of_mem hy) x.1 (by simp))
    have hrest : (x :: r).filter (fun y => y.1 != x.1) = r := by
      rw [List.filter_cons_of_neg (by simp)]
      refine List.filter_eq_self.mpr fun y hy => ?_
      rw [List.map_append, List.nodup_append, List.map_cons, List.nodup_cons] at hnodup
      exact bne_iff_ne.mpr fun heq => hnodup.2.1.1 (heq ▸ List.mem_map_of_mem hy)
    have hnext : (t.sweepUnit p x.1 x.2).hbm.sweeps = [⟨p, .draining, r, [], done ++ [x]⟩] := by
      rw [Chip.sweepUnit_drained h rfl nofun]
      simp only [Sweep.without, Sweep.keep, hdone, hrest, List.filter_nil]
    rw [hsplit] at hnodup ⊢
    exact ih _ _ hnext hnodup

theorem find_key {l : List (Nat × Nat)} {t : Nat × Nat} (ht : t ∈ l) (hnodup : (l.map (·.1)).Nodup) :
    (l.find? fun m => m.1 = t.1) = some t := by
  induction l with
  | nil => cases ht
  | cons x r ih =>
    rw [List.map_cons, List.nodup_cons] at hnodup
    rcases List.mem_cons.mp ht with rfl | hr
    · simp
    · rw [List.find?_cons_of_neg (by simpa using fun heq : x.1 = t.1 => hnodup.1 (heq ▸ List.mem_map_of_mem hr))]
      exact ih hr hnodup.2

theorem Chip.servingUnit_of_alone {w : Sweep} (h : s.hbm.sweeps = [w]) {t : Nat × Nat} (ht : t ∈ w.away)
    (hnodup : (w.away.map (·.1)).Nodup) : s.servingUnit t.1 = t.2 := by
  have hswept : sweptTo [w] t.1 = some t := by rw [sweptTo_cons, find_key ht hnodup]; rfl
  rw [Chip.servingUnit, Chip.donorOf_eq, h, hswept]
  rfl

theorem Chip.sweepUnit_log (u d : Nat) : (s.sweepUnit p u d).log = s.log := by
  unfold Chip.sweepUnit
  split
  · rfl
  · split <;> rfl

theorem Chip.sweepUnit_mem (u d : Nat) : (s.sweepUnit p u d).mem = s.mem := by
  unfold Chip.sweepUnit
  split
  · rfl
  · split <;> rfl

theorem Chip.sweepUnit_queues (u d : Nat) : (s.sweepUnit p u d).queues = s.queues := by
  unfold Chip.sweepUnit
  split
  · rfl
  · split <;> rfl

theorem Chip.sweepUnit_hbmPcs (u d : Nat) : (s.sweepUnit p u d).hbm.pcs = s.hbm.pcs := by
  unfold Chip.sweepUnit
  split
  · rfl
  · split <;> rfl

theorem Chip.sweepMoves_log : (s.sweepMoves p).log = s.log := by
  unfold Chip.sweepMoves
  split
  · rfl
  · exact (Chip.each_keeps _ Chip.log _ (fun t x => t.sweepUnit_log ..) _).trans (s.flushUnits_log _)

theorem Chip.sweepMoves_queues : (s.sweepMoves p).queues = s.queues := by
  unfold Chip.sweepMoves
  split
  · rfl
  · exact (Chip.each_keeps _ Chip.queues _ (fun t x => t.sweepUnit_queues ..) _).trans (s.flushUnits_queues _)

theorem Chip.sweepMoves_hbmPcs : (s.sweepMoves p).hbm.pcs = s.hbm.pcs := by
  unfold Chip.sweepMoves
  split
  · rfl
  · exact (Chip.each_keeps _ (fun c => c.hbm.pcs) _ (fun t x => t.sweepUnit_hbmPcs ..) _).trans
      (s.flushUnits_keeps Hbm.pcs (fun _ _ _ _ => rfl) _)

/-- Units that return leave the sweeps' pseudo-channels as they were. -/
theorem Chip.sweepUnit_pcs (u d : Nat) : (s.sweepUnit p u d).hbm.sweeps.map Sweep.pc = s.hbm.sweeps.map Sweep.pc := by
  have hreturn (l acc : List Sweep) (b : Bool) : (l.foldl (fun (r : List Sweep × Bool) w =>
      if r.2 || w.pc == p then (r.1 ++ [w.without u], true) else (r.1 ++ [w], false)) (acc, b)).1.map Sweep.pc =
      acc.map Sweep.pc ++ l.map Sweep.pc := by
    induction l generalizing acc b with
    | nil => simp
    | cons w r ih =>
      rw [List.foldl_cons]
      split
      · rw [ih]
        simp [Sweep.without, Sweep.keep]
      · rw [ih]
        simp
  unfold Chip.sweepUnit
  split
  · rfl
  · split
    · exact hreturn _ [] false
    · change (s.hbm.sweeps.map _).map Sweep.pc = _
      rw [List.map_map]
      refine List.map_congr_left fun w _ => ?_
      simp only [Function.comp_apply]
      split <;> rfl

theorem Chip.sweepMoves_pcs : (s.sweepMoves p).hbm.sweeps.map Sweep.pc = s.hbm.sweeps.map Sweep.pc := by
  unfold Chip.sweepMoves
  split
  · rfl
  · exact (Chip.each_keeps _ (fun c => c.hbm.sweeps.map Sweep.pc) _ (fun t x => t.sweepUnit_pcs ..) _).trans
      (s.flushUnits_keeps (fun h => h.sweeps.map Sweep.pc) (fun _ _ _ _ => rfl) _)

theorem Chip.judge_pcs (n : Nat) (cause : MapCause) : (s.judge n cause).hbm.pcs = s.hbm.pcs := by
  have htry (t : Chip) : (t.tryMapout n cause).hbm.pcs = t.hbm.pcs := by
    unfold Chip.tryMapout
    split
    · rfl
    · exact t.beginMapout_keeps Hbm.pcs (fun _ _ _ _ _ _ _ => rfl) n cause
  unfold Chip.judge
  dsimp only
  split
  · split
    · split <;> rfl
    · split
      · rfl
      · split
        · rfl
        · exact htry _
  · split <;> rfl
  · split
    · split
      · split <;> rfl
      · rfl
    · rfl
  · rfl

theorem Chip.checkWindows_pcs (w : List PinWindow) : (s.checkWindows p w).hbm.pcs = s.hbm.pcs := by
  have heach (t : Chip) (x : PinWindow × Nat) : (if winWidth x.1.left x.1.right < s.obj O.marginTimeMin then
        t.raise 0x4803 [.u16 p, .u8 x.2, .u8 (winWidth x.1.left x.1.right).toNat]
      else if winWidth x.1.vlow x.1.vhigh < s.obj O.marginVrefMin then
        t.raise 0x4803 [.u16 p, .u8 x.2, .u8 (winWidth x.1.vlow x.1.vhigh).toNat]
      else t).hbm.pcs = t.hbm.pcs := by
    split
    · rfl
    · split <;> rfl
  unfold Chip.checkWindows
  dsimp only
  split
  · rw [Chip.judge_pcs]
    exact s.each_keeps (fun c => c.hbm.pcs) _ heach _
  · exact s.each_keeps (fun c => c.hbm.pcs) _ heach _

theorem Chip.checkWindows_mem (w : List PinWindow) : (s.checkWindows p w).mem = s.mem := by
  have heach (t : Chip) (x : PinWindow × Nat) : (if winWidth x.1.left x.1.right < s.obj O.marginTimeMin then
        t.raise 0x4803 [.u16 p, .u8 x.2, .u8 (winWidth x.1.left x.1.right).toNat]
      else if winWidth x.1.vlow x.1.vhigh < s.obj O.marginVrefMin then
        t.raise 0x4803 [.u16 p, .u8 x.2, .u8 (winWidth x.1.vlow x.1.vhigh).toNat]
      else t).mem = t.mem := by
    split
    · rfl
    · split <;> rfl
  unfold Chip.checkWindows
  dsimp only
  split
  · rw [Chip.judge_mem]
    exact s.each_keeps Chip.mem _ heach _
  · exact s.each_keeps Chip.mem _ heach _

/-- Windows that are wide enough raise nothing. -/
theorem Chip.checkWindows_wide {w : List PinWindow} (h : ∀ x ∈ w, (s.obj O.marginTimeMin : Int) ≤ winWidth x.left x.right ∧
    (s.obj O.marginVrefMin : Int) ≤ winWidth x.vlow x.vhigh) : s.checkWindows p w = s := by
  have hwide : (w.any fun x => 2 * winWidth x.left x.right < (s.obj O.marginTimeMin : Int) ||
      2 * winWidth x.vlow x.vhigh < (s.obj O.marginVrefMin : Int)) = false :=
    List.any_eq_false.mpr fun x hx => by
      have hx := h x hx
      simp only [Bool.or_eq_true, decide_eq_true_eq]
      omega
  unfold Chip.checkWindows
  dsimp only
  rw [hwide, if_neg Bool.false_ne_true]
  refine Chip.each_nothing _ (fun x hx t => ?_) s
  have hx := h x.1 (by
    obtain ⟨hi, hget⟩ := List.mem_zipIdx' hx
    rw [hget]
    exact List.getElem_mem _)
  rw [if_neg (by omega), if_neg (by omega)]

end

/-! ### The clauses of a sweep -/

theorem gives_askSweep (s : State) (p : Nat) (i : Instr) (hlive : s.live = true) (hp : p < 2048)
    (hi : (∃ k : Fin 2048, k.val = p ∧ i = .marginPeriodTimer k) ∨ i = .marginNow (BitVec.ofNat 16 p))
    (hperiod : s.obj O.marginPeriod ≠ 0) (hstate : (s.channel (p / 2)).state = .healthy) (hsweeps : s.hbm.sweeps = [])
    (hroom : s.sweepNeed p + 2048 ≤ s.headlandFree) : s.gives i fun c =>
    (let l := (s.unitsOfPc p).zip (s.chooseDonors p (p / 2) (s.sweepNeed p))
     c.hbm.sweeps = [⟨p, .draining, l.drop 8, (l.take 8).map UnitCopy.begin', []⟩]) ∧ c.log = s.log ∧ c.queues = s.queues := by
  have hstarts (t : Chip) (hstate : (t.channel (p / 2)).state = .healthy) (hsweeps : t.hbm.sweeps = [])
      (hroom : t.sweepNeed p + 2048 ≤ t.headlandFree) := by
    have hask := Chip.askSweep_healthy hstate hsweeps
    rw [if_neg (by omega)] at hask
    have halone := Chip.startSweep_alone (s := t.setPc p fun c => { c with sweepDue := true }) (p := p) hsweeps
    rw [← hask, Chip.unitsOfPc_setPc, Chip.sweepNeed_setPc] at halone
    exact halone
  rcases hi with ⟨k, rfl, rfl⟩ | rfl
  · refine State.gives_live (f := fun c => c.marginPeriod k.val) rfl hlive ?_
    have hset := hstarts (s.toChip.setPc k.val fun c => { c with deferred := false }) hstate hsweeps
      (by rw [Chip.sweepNeed_setPc]; exact hroom)
    rw [Chip.unitsOfPc_setPc, Chip.sweepNeed_setPc] at hset
    rw [Chip.marginPeriod, if_neg hperiod]
    exact hset
  · refine State.gives_live (f := fun c => c.when ((BitVec.ofNat 16 p).toNat < 2048) fun c => c.askSweep (BitVec.ofNat 16 p).toNat)
      rfl hlive ?_
    rw [show (BitVec.ofNat 16 p).toNat = p by simp only [BitVec.toNat_ofNat]; omega, Chip.when_pos (by simpa using hp)]
    exact hstarts _ hstate hsweeps hroom

theorem gives_unitCopyDone_sweep (s : State) (p : Nat) (x : UnitCopy) (l : List (Nat × Nat)) (hlive : s.live = true)
    (hmigration : s.hbm.migration = none) (hsweeps : s.hbm.sweeps = [⟨p, .draining, [], [x], l⟩]) :
    s.gives (.unitCopyDone x.unit) fun c => c.servingUnit x.unit = x.donor ∧
      c.hbm.sweeps = [⟨p, .draining, [], [], l.filter (·.1 != x.unit) ++ [(x.unit, x.donor)]⟩] ∧ c.mem = s.mem ∧ c.log = s.log := by
  refine State.gives_live (f := fun c => c.unitCopyDone x.unit) rfl hlive ?_
  have hdone : s.unitCopyDone x.unit = (s.sweepUnit p x.unit x.donor).fillSweep p := by
    simp [Chip.unitCopyDone, hmigration, hsweeps]
  have hmoved : (s.sweepUnit p x.unit x.donor).hbm.sweeps =
      [⟨p, .draining, [], [], l.filter (·.1 != x.unit) ++ [(x.unit, x.donor)]⟩] := by
    rw [Chip.sweepUnit_drained hsweeps rfl nofun]
    simp [Sweep.without, Sweep.keep]
  have hfilled : ((s.sweepUnit p x.unit x.donor).fillSweep p).hbm.sweeps =
      [⟨p, .draining, [], [], l.filter (·.1 != x.unit) ++ [(x.unit, x.donor)]⟩] := by
    rw [Chip.fillSweep_sweeps hmoved rfl]
    rfl
  have hstands : sweptTo [⟨p, .draining, [], [], l.filter (·.1 != x.unit) ++ [(x.unit, x.donor)]⟩] x.unit = some (x.unit, x.donor) := by
    have hgone : (l.filter (·.1 != x.unit)).find? (fun m => m.1 = x.unit) = none :=
      List.find?_eq_none.mpr fun m hm => by simpa using (List.mem_filter.mp hm).2
    rw [sweptTo_cons]
    simp [sweptTo, Sweep.away, List.find?_append, hgone]
  rw [hdone]
  refine ⟨?_, hfilled, ?_, ?_⟩
  · rw [Chip.servingUnit, Chip.donorOf_eq, hfilled, hstands]
    rfl
  · rw [Chip.fillSweep_alone hmoved rfl]
    exact Chip.sweepUnit_mem ..
  · rw [Chip.fillSweep_log, Chip.sweepUnit_log]

theorem gives_sweepPhaseDone_draining (s : State) (p : Fin 2048) (w : List (Int × Int × Int × Int)) (l : List (Nat × Nat))
    (hlive : s.live = true) (hnodup : (l.map (·.1)).Nodup) (hsweeps : s.hbm.sweeps = [⟨p.val, .draining, l, [], []⟩]) :
    s.gives (.sweepPhaseDone p w) fun c => c.hbm.sweeps = [⟨p.val, .sweeping, [], [], l⟩] ∧ (∀ t ∈ l, c.servingUnit t.1 = t.2) ∧
      c.log = s.log ∧ c.queues = s.queues := by
  refine State.gives_live (f := fun c => c.sweepPhaseDone p.val w) rfl hlive ?_
  have hfound : s.sweepOf p.val = some ⟨p.val, .draining, l, [], []⟩ := by simp [Chip.sweepOf, hsweeps]
  have hdone : s.sweepPhaseDone p.val w = (s.sweepMoves p.val).setSweep p.val fun w => { w with phase := .sweeping } := by
    rw [Chip.sweepPhaseDone, hfound]
  have hdrained : (s.sweepMoves p.val).hbm.sweeps = [⟨p.val, .draining, [], [], l⟩] := by
    rw [Chip.sweepMoves, hfound]
    exact Chip.drains l [] _ ((s.toChip.flushUnits_keeps Hbm.sweeps (fun _ _ _ _ => rfl) _).trans hsweeps) hnodup
  have hnext : (s.sweepPhaseDone p.val w).hbm.sweeps = [⟨p.val, .sweeping, [], [], l⟩] := by
    rw [hdone, Chip.setSweep]
    dsimp only
    rw [hdrained, List.map_singleton, if_pos rfl]
  refine ⟨hnext, fun t ht => Chip.servingUnit_of_alone hnext ht hnodup, ?_, ?_⟩
  · rw [hdone]
    exact Chip.sweepMoves_log
  · rw [hdone]
    exact Chip.sweepMoves_queues

theorem gives_sweepPhaseDone_sweeping (s : State) (p : Fin 2048) (w : List (Int × Int × Int × Int)) (l : List (Nat × Nat))
    (hlive : s.live = true) (hsweeps : s.hbm.sweeps = [⟨p.val, .sweeping, [], [], l⟩]) :
    s.gives (.sweepPhaseDone p w) fun c => (c.pcOf p.val).windows = w.map retrained ∧ (c.pcOf p.val).windowTime = s.timebase ∧
      (s.hbm.cache = [] → c.mem = s.mem) ∧
      ((∀ x ∈ w.map retrained, (s.obj O.marginTimeMin : Int) ≤ winWidth x.left x.right ∧
          (s.obj O.marginVrefMin : Int) ≤ winWidth x.vlow x.vhigh) →
        c.hbm.sweeps = [⟨p.val, .copyingBack, l.drop 8, (l.take 8).map UnitCopy.begin', []⟩] ∧ c.log = s.log) := by
  refine State.gives_live (f := fun c => c.sweepPhaseDone p.val w) rfl hlive ?_
  have hfound : s.sweepOf p.val = some ⟨p.val, .sweeping, [], [], l⟩ := by simp [Chip.sweepOf, hsweeps]
  let t := (s.toChip.setPc p.val fun c => { c with windows := w.map retrained, windowTime := s.timebase }).setSweep p.val
    fun w => { w with phase := .copyingBack, todo := w.moved, moved := [] }
  have hdone : s.sweepPhaseDone p.val w = (t.fillSweep p.val).checkWindows p.val (w.map retrained) := by
    rw [Chip.sweepPhaseDone, hfound]
  have hback : t.hbm.sweeps = [⟨p.val, .copyingBack, l, [], []⟩] := by
    change s.hbm.sweeps.map _ = _
    rw [hsweeps, List.map_singleton, if_pos rfl]
  have hpc : (s.sweepPhaseDone p.val w).pcOf p.val =
      { s.pcOf p.val with windows := w.map retrained, windowTime := s.timebase } := by
    rw [hdone, Chip.pcOf, Chip.checkWindows_pcs, Chip.fillSweep_keeps Hbm.pcs fun _ _ _ _ _ => rfl]
    exact Chip.pcOf_setPc (s := s.toChip) (p := p.val) fun c => { c with windows := w.map retrained, windowTime := s.timebase }
  refine ⟨by rw [hpc], by rw [hpc], fun hcache => ?_, fun hwide => ?_⟩
  · have hempty : t.hbm.cache = [] := hcache
    rw [hdone, Chip.checkWindows_mem, Chip.fillSweep_alone hback rfl, Chip.flushUnits_uncached t hempty]
    rfl
  · have hobj : (t.fillSweep p.val).objs = s.objs := by
      rw [Chip.fillSweep_alone hback rfl]
      exact t.flushUnits_objs _
    have hkept : s.sweepPhaseDone p.val w = t.fillSweep p.val := by
      rw [hdone]
      refine Chip.checkWindows_wide fun x hx => ?_
      rw [Chip.obj, Chip.obj, hobj]
      exact hwide x hx
    rw [hkept]
    refine ⟨Chip.fillSweep_sweeps hback rfl, ?_⟩
    rw [Chip.fillSweep_log]
    rfl

theorem gives_sweepPhaseDone_copyingBack (s : State) (p : Fin 2048) (w : List (Int × Int × Int × Int)) (l : List (Nat × Nat))
    (hlive : s.live = true) (hdue : ∀ e ∈ s.hbm.pcs, e.2.sweepDue = false)
    (hsweeps : s.hbm.sweeps = [⟨p.val, .copyingBack, l, [], []⟩]) :
    s.gives (.sweepPhaseDone p w) fun c => c.hbm.sweeps = [] ∧ c.log = s.log := by
  refine State.gives_live (f := fun c => c.sweepPhaseDone p.val w) rfl hlive ?_
  have hfound : s.sweepOf p.val = some ⟨p.val, .copyingBack, l, [], []⟩ := by simp [Chip.sweepOf, hsweeps]
  let t : Chip := { s.sweepMoves p.val with hbm :=
    { (s.sweepMoves p.val).hbm with sweeps := (s.sweepMoves p.val).hbm.sweeps.filter fun x => x.pc != p.val } }
  have hpcs : t.hbm.pcs = s.hbm.pcs := Chip.sweepMoves_hbmPcs
  have hdone : s.sweepPhaseDone p.val w = t := by
    rw [Chip.sweepPhaseDone, hfound]
    exact t.dueSweeps_none (by rw [hpcs]; exact hdue)
  rw [hdone]
  refine ⟨List.filter_eq_nil_iff.mpr fun x hx => ?_, Chip.sweepMoves_log⟩
  have hall : (s.sweepMoves p.val).hbm.sweeps.map Sweep.pc = [p.val] := by
    rw [Chip.sweepMoves_pcs, hsweeps]
    rfl
  have hpc : x.pc ∈ [p.val] := hall ▸ List.mem_map_of_mem hx
  simpa using hpc

/-- Settles O39: each clause is one branch of its command's function. -/
theorem mapOut : Obligations.Map_out := by
  unfold Obligations.Map_out
  refine ⟨?_, ?_, ?_, ?_, ?_, ?_, ?_, ?_, ?_, ?_, ?_, ?_, ?_, ?_, ?_, ?_, ?_, ?_, ?_⟩
  · exact gives_mapoutRequest
  · intro s n k hroom hanswers
    have htry : s.tryMapout n k = s.beginMapout n k := if_neg (by omega)
    rw [htry]
    obtain ⟨hstate, hmigration, hseq⟩ := s.beginMapout_begins (n := n) (k := k) hanswers
    exact ⟨hstate, hmigration, hseq, s.beginMapout_mem n k⟩
  · intro s n k hroom
    have hset : (s.setChannel n fun c => { c with state := .pending, waiting := false }).channel n =
        { s.channel n with state := .pending, waiting := false } := s.channel_setChannel n _
    rw [Chip.tryMapout, if_pos (by omega)]
    exact ⟨congrArg Channel.state hset, rfl, rfl, rfl, rfl⟩
  · intro s n m hlive hm hchannel hchosen
    refine State.gives_live (f := fun c => c.mapoutStart n.val) rfl hlive ?_
    rw [Chip.mapoutStart, hm]
    exact if_pos (by simp [hchannel, hchosen])
  · intro s m x hlive hm htodo hcopying hpoison
    refine gives_unitCopyDone s m x hlive hm htodo hcopying _ ?_
    simp [hpoison]
  · exact fun s u d => ⟨s.servingUnit_relocate u d, s.relocate_mem u d, fun v hv => s.servingUnit_relocate_other d hv⟩
  · intro s m x hlive hm htodo hcopying hpoison
    refine gives_unitCopyDone s m x hlive hm htodo hcopying _ ?_
    refine ⟨Chip.servingUnit_relocate .., Chip.relocate_mem .., fun hz => ?_, fun hz y hy => ?_⟩
    · rw [Chip.relocate_keeps _ Hbm.unitPoison fun _ _ _ _ _ => rfl]
      simp [hpoison, hz]
    · rw [Chip.relocate_keeps _ Hbm.unitPoison fun _ _ _ _ _ => rfl] at hy
      simp only [hpoison, hz, Bool.not_true, Bool.and_false, Bool.false_eq_true, if_false, Bool.or_false] at hy
      simpa using (List.mem_filter.mp hy).2
  · exact gives_unitCopyDone_sweep
  · exact gives_mapoutComplete
  · exact gives_withdraw
  · intro s i hlive hi hshrink
    have hnone : s.withdraw = s.toChip := by rw [Chip.withdraw, hshrink]
    rcases hi with rfl | rfl
    · exact State.gives_live (f := fun c => c.when true Chip.withdraw) rfl hlive ((Chip.when_pos rfl).trans hnone)
    · exact State.gives_live (f := Chip.withdraw) rfl hlive hnone
  · exact gives_askSweep
  · intro s p hlive hperiod
    exact State.gives_live (f := fun c => c.marginPeriod p.val) rfl hlive (if_pos hperiod)
  · intro s p hlive hp hstate hsweeps hfull
    refine State.gives_live (f := fun c => c.when (p.toNat < 2048) fun c => c.askSweep p.toNat) rfl hlive ?_
    rw [Chip.when_pos (by simpa using hp), Chip.askSweep_healthy hstate hsweeps, if_pos hfull]
  · exact gives_sweepPhaseDone_draining
  · exact gives_sweepPhaseDone_sweeping
  · exact gives_sweepPhaseDone_copyingBack
  · intro s p hlive hself
    refine State.gives_live (f := fun c => c.refresh p.val) rfl hlive ?_
    exact if_neg (by simp [hself])
  · intro s p hlive hself
    exact State.gives_live (f := fun c => c.refresh p.val) rfl hlive (if_pos hself)

end Sys2Proof.Machine
end

section
/-! PROOF. How the control core issues an instruction, and the statement `Control_core_instructions`. -/

namespace Sys2Proof.Machine

/-! ### Issue -/

/-- An instruction that may issue runs on the chip that has fetched it. -/
theorem Chip.issue_of_mayIssue {s : Chip} {k n : Nat} (h : s.mayIssue k n) (own : Stall → Bool) (f : Chip → Chip) :
    s.issue k n own f = f (s.fetched k) := by
  obtain ⟨_, hissuing, hawake, hstall, hfetch⟩ := h
  simp only [Chip.issue, hissuing, hawake, hstall, Option.all_none, Bool.not_false, Bool.and_self, Chip.when, if_true, hfetch]
  rfl

/-- What a command gives that issues an instruction which may issue. -/
theorem State.gives_issued {s : State} {i : Instr} {k n : Nat} {own : Stall → Bool} {f : Chip → Chip} {P : Chip → Prop}
    (h : s.mayIssue k n) (hexec : exec i s = s.act fun c => c.issue k n own f) (hp : P (f (s.toChip.fetched k))) : s.gives i P :=
  State.gives_live hexec h.1 (by rw [Chip.issue_of_mayIssue h]; exact hp)

section
variable (s : Chip) (k : Nat)

theorem Chip.fetched_core : (s.fetched k).core k = { s.core k with icache := true } := Chip.setCore_same ..

theorem Chip.fetched_core_other {j : Nat} (h : j ≠ k) : (s.fetched k).core j = s.core j := Chip.setCore_other _ _ _ _ h

end

/-! ### Registers -/

section
variable (x : CoreSt)

@[simp] theorem CoreSt.setX_zero (v : Word) : x.setX 0 v = x := rfl

@[simp] theorem CoreSt.rx_zero : x.rx 0 = 0 := rfl

theorem CoreSt.rx_setX (rd : BitVec 5) (v : Word) (r : BitVec 5) : (x.setX rd.toNat v).rx r = if r = rd ∧ rd ≠ 0 then v else x.rx r := by
  by_cases hrd : rd = 0
  · subst hrd
    simp
  · have hnat : rd.toNat ≠ 0 := fun h => hrd (BitVec.eq_of_toNat_eq h)
    rw [CoreSt.setX, if_neg hnat, CoreSt.rx, CoreSt.rx]
    by_cases hr : r = 0
    · subst hr
      rw [if_pos rfl, if_pos rfl, if_neg fun h => hrd h.1.symm]
    · rw [if_neg hr, if_neg hr, Tab.get_set]
      by_cases heq : r = rd
      · subst heq
        rw [if_pos rfl, if_pos ⟨rfl, hrd⟩]
      · rw [if_neg fun h => heq (BitVec.eq_of_toNat_eq h), if_neg fun h => heq h.1]

end

/-- An operation on two operands that rounds, under a rounding mode there is. -/
theorem Chip.coreFp_rounds (s : Chip) (k : Nat) {op : FpOp} (dbl : Bool) (rd rs1 rs2 : BitVec 5) {rm : BitVec 3} {m : RMode}
    (hfma : ∀ a b c, op ≠ .fma a b c) (hrounds : op.rounds = true) (hround : (s.core k).roundingOf rm = some m) :
    s.coreFp k op dbl rd rs1 rs2 rm =
      (let r := fpResult op dbl m ((s.core k).rf rs1) ((s.core k).rf rs2) ((s.core k).rf 0) ((s.core k).rx rs1)
       let u := s.setCore k fun x => x.accrue r.flags
       if r.toF then u.retireF k rd.toNat r.value 4 else u.retireX k rd.toNat r.value 4) := by
  have hmode : (if op.rounds then (s.core k).roundingOf rm else some .rne) = some m := by rw [hrounds, if_pos rfl, hround]
  unfold Chip.coreFp
  dsimp only
  rw [hmode]
  cases op with
  | fma a b c => exact absurd rfl (hfma a b c)
  | _ => rfl

/-- Settles O40: each clause is one branch of what the core runs. -/
theorem controlCoreInstructions : Obligations.Control_core_instructions := by
  unfold Obligations.Control_core_instructions
  refine ⟨?_, ?_, ?_, ?_, ?_, fun x v => ⟨rfl, rfl⟩⟩
  · intro s k w t op half rd rs1 b v hissue ht hdecode hv
    refine State.gives_issued hissue rfl ?_
    rw [hdecode, hv, ht]
    rfl
  · intro s k w t op rs1 rs2 off hissue ht hdecode
    refine State.gives_issued hissue rfl ?_
    rw [hdecode, ht]
    have hother (f : CoreSt → CoreSt) (j : Nat) (hj : j ≠ k.val) : ((s.toChip.fetched k.val).setCore k.val f).core j = s.core j := by
      rw [Chip.setCore_other _ _ _ _ hj, Chip.fetched_core_other _ _ hj]
    dsimp only [Chip.runRv]
    split
    · refine ⟨?_, ?_, hother _, rfl⟩
      · rw [Chip.coreJump, Chip.setCore_same]
      · rw [Chip.coreJump, Chip.setCore_same]
        rfl
    · refine ⟨?_, ?_, hother _, rfl⟩
      · rw [Chip.retire, Chip.setCore_same]
        rfl
      · rw [Chip.retire, Chip.setCore_same]
        rfl
  · intro s k w rd off hissue hrd hdecode
    refine State.gives_issued hissue rfl ?_
    rw [hdecode]
    have hcore : (((s.toChip.fetched k.val).setCore k.val fun x => x.setX rd.toNat
        (x.pc + BitVec.ofNat 64 (rvLen w.toNat))).coreJump k.val
        (((s.toChip.fetched k.val).core k.val).pc + off)).core k.val =
        { ((s.toChip.fetched k.val).core k.val).setX rd.toNat
          (((s.toChip.fetched k.val).core k.val).pc + BitVec.ofNat 64 (rvLen w.toNat)) |>.retire 0 with
          pc := ((s.toChip.fetched k.val).core k.val).pc + off } := by
      rw [Chip.coreJump, Chip.setCore_same, Chip.setCore_same]
    dsimp only [Chip.runRv]
    rw [hcore]
    refine ⟨?_, ?_, fun r hr => ?_, rfl⟩
    · rw [Chip.fetched_core]
    · refine (CoreSt.rx_setX _ rd _ rd).trans ?_
      rw [if_pos ⟨rfl, hrd⟩, Chip.fetched_core]
    · refine (CoreSt.rx_setX _ rd _ r).trans ?_
      rw [if_neg fun h => hr h.1, Chip.fetched_core]
      rfl
  · intro s k w t op dbl rd rs1 rs2 rm m r hissue ht hdecode hfma hround hrounds hr
    refine State.gives_issued hissue rfl ?_
    rw [hdecode, hr, ht]
    exact Chip.coreFp_rounds _ k.val dbl rd rs1 rs2 hfma hrounds (ht ▸ hround)
  · intro s k w hissue hdecode
    refine State.gives_issued hissue rfl ?_
    rw [hdecode]
    rfl

end Sys2Proof.Machine
end

section
/-! PROOF. Loads, stores, atomics, CSRs and faults of the control core, and the statement `Control_core_accesses`. -/

namespace Sys2Proof.Machine

/-! ### What the end of a core leaves alone -/

section
variable {β : Type} (f : Chip → β) (hport : ∀ s q g, f (Chip.setPort s q g) = f s) (hemit : ∀ s o, f (Chip.emit s o) = f s)
  (hgn : ∀ s (g : Gn), f { (s : Chip) with gn := g } = f s) (hservice : ∀ s (v : Service), f { (s : Chip) with service := v } = f s)
  (hobjs : ∀ s (v : Tab Nat), f { (s : Chip) with objs := v } = f s) (s : Chip)

include hport hemit hgn hservice hobjs

/-- Giving tags to the requests that wait changes the general network and what leaves it. -/
theorem Chip.waitingGrant_keeps : f (s.gnGrant Chip.waitOn) = f s := by
  have hsend (t : Chip) (r : GnReq) : f (t.gnSendOr Chip.waitOn r) = f t := by
    unfold Chip.gnSendOr
    split
    · exact hgn t _
    · dsimp only
      split
      · exact hgn t _
      · rw [Chip.gnQueue, Chip.gnPump_keeps f hport hemit hgn, hgn, hgn]
  have htag (t : Chip) (r : GnReq) : f (t.gnTag Chip.waitOn r) = f t := by
    have hnumbered (g : Gn) (v : Service) : f { t with gn := g, service := v } = f t :=
      (hservice { t with gn := g } v).trans (hgn t g)
    unfold Chip.gnTag
    dsimp only
    split
    · refine (hobjs _ _).trans ((hgn _ _).trans ?_)
      split
      · exact hnumbered _ _
      · exact hgn t _
    · rw [hsend]
      split
      · exact hnumbered _ _
      · exact hgn t _
  unfold Chip.gnGrant
  refine foldl_fst_keeps f (fun a r => ?_) _ _
  dsimp only
  split
  · rfl
  · split
    · exact (hgn _ _).trans (hgn a.1 _)
    · split
      · exact (htag _ r).trans (hgn a.1 _)
      · rfl

theorem Chip.orphan_keeps (p : Work → Bool) : f (s.orphan p) = f s :=
  (Chip.waitingGrant_keeps f hport hemit hgn hservice hobjs _).trans (hgn s _)

end

/-- What the cores and memory hold. -/
def Chip.bench (s : Chip) : (Nat → CoreSt) × List Host.Cell := (s.core, s.mem)

theorem Chip.core_of_bench {s t : Chip} (h : s.bench = t.bench) (k : Nat) : s.core k = t.core k :=
  congrFun (congrArg Prod.fst h) k

theorem Chip.mem_of_bench {s t : Chip} (h : s.bench = t.bench) : s.mem = t.mem := congrArg Prod.snd h

section
variable (s : Chip) (k : Nat)

@[simp] theorem Chip.orphan_bench (p : Work → Bool) : (s.orphan p).bench = s.bench :=
  s.orphan_keeps Chip.bench (fun _ _ _ => rfl) (fun _ _ => rfl) (fun _ _ => rfl) (fun _ _ => rfl) (fun _ _ => rfl) p

@[simp] theorem Chip.dropCoreWaits_bench : (s.dropCoreWaits k).bench = s.bench :=
  s.each_keeps Chip.bench (fun s u => s.dropWaits (.core k u)) (fun _ _ => rfl) [0, 1, 2, 3]

@[simp] theorem Chip.raise_bench (code : Nat) (args : List Arg) : (s.raise code args).bench = s.bench := rfl
@[simp] theorem Chip.bump_bench (key n : Nat) : (s.bump key n).bench = s.bench := rfl
@[simp] theorem Chip.setObj_bench (key v : Nat) : (s.setObj key v).bench = s.bench := rfl
@[simp] theorem Chip.setQueue_bench (q : Nat) (f : Queue → Queue) : (s.setQueue q f).bench = s.bench := rfl
@[simp] theorem Chip.engineEnded_bench (e : Nat) (st : Status) : (s.engineEnded e st).bench = s.bench := rfl

theorem Chip.core_setCore (f : CoreSt → CoreSt) (j : Nat) : (s.setCore k f).core j = if j = k then f (s.core k) else s.core j := by
  split
  · rename_i h
    rw [h, Chip.setCore_same]
  · rename_i h
    exact Chip.setCore_other _ _ _ _ h

theorem Chip.setCore_bench {s t : Chip} (h : s.bench = t.bench) (k : Nat) (f : CoreSt → CoreSt) :
    (s.setCore k f).bench = (t.setCore k f).bench := by
  refine Prod.ext (funext fun j => ?_) (congrArg Prod.snd h :)
  change (s.setCore k f).core j = (t.setCore k f).core j
  rw [Chip.core_setCore, Chip.core_setCore, Chip.core_of_bench h, Chip.core_of_bench h]

theorem Chip.setCore_setCore_bench (f g : CoreSt → CoreSt) : ((s.setCore k f).setCore k g).bench = (s.setCore k fun x => g (f x)).bench := by
  refine Prod.ext (funext fun j => ?_) rfl
  change ((s.setCore k f).setCore k g).core j = (s.setCore k fun x => g (f x)).core j
  simp only [Chip.core_setCore, if_true]
  split <;> rfl

@[simp] theorem Chip.raiseLimited_bench (code u : Nat) (args : List Arg) : (s.raiseLimited code u args).bench = s.bench := by
  simp only [Chip.raiseLimited]
  split
  · split <;> rfl
  · rfl

/-- A core whose kernel has ended. -/
def CoreSt.atEnd (x : CoreSt) : CoreSt :=
  { (if x.state = .draining then x.cleared else x) with
    state := if x.drainOffline then .offline else .idle, stall := none, kernel := none, ended := false, faulted := none
    drainOffline := false, storesOut := 0, reservation := none }

theorem Chip.coreEnd_bench : (s.coreEnd k).bench = (s.setCore k CoreSt.atEnd).bench := by
  have hset : (((s.orphan (Work.ofCore k)).dropCoreWaits k).setCore k CoreSt.atEnd).bench = (s.setCore k CoreSt.atEnd).bench :=
    Chip.setCore_bench (by simp) k _
  unfold Chip.coreEnd
  dsimp only
  split
  · simp only [apply_ite Chip.bench, Chip.raise_bench, ite_self]
    exact hset
  · simp only [apply_ite Chip.bench, Chip.raise_bench, Chip.setQueue_bench, Chip.engineEnded_bench, ite_self]
    exact hset

theorem Chip.coreEndIf_bench : (s.coreEndIf k).bench = if (s.core k).kernel.isSome && (s.core k).ended && (s.core k).unitsIdle &&
    ((s.core k).faulted.isSome || (s.core k).storesOut == 0) then (s.setCore k CoreSt.atEnd).bench else s.bench := by
  unfold Chip.coreEndIf
  dsimp only
  split
  · exact s.coreEnd_bench k
  · rfl

/-! ### Faults -/

/-- A core that has faulted. -/
def CoreSt.atFault (x : CoreSt) (y : KernelCtx) (now : Word) (cause : Cause) (st : Status) (addr : Word) (unit sub : Nat) : CoreSt :=
  { x with
    ended := true, faulted := some (cause, st), stall := none, arrayQ := [], vectorQ := [], dmaQ := []
    fault := { timestamp := now, addr := addr, pc := x.pc, index := y.num.setWidth 16, queue := BitVec.ofNat 14 y.queue,
               unit := BitVec.ofNat 2 unit, sub := BitVec.ofNat 8 sub, status := st.code, cause := cause.code }
    state := if x.state = .draining || decide (cause = .hw) then .draining else .ending
    drainOffline := x.drainOffline || decide (cause = .hw) }

/-- A fault stops its core, and ends it where its units are idle. -/
theorem Chip.faultOne_bench {y : KernelCtx} (hkernel : (s.core k).kernel = some y) (hrunning : (s.core k).faulted = none) (cause : Cause)
    (st : Status) (addr : Word) (unit sub : Nat) (fate : Bool) :
    ∃ t : Chip, s.faultOne k cause st addr unit sub fate = t.coreEndIf k ∧
      t.bench = (s.setCore k fun _ => (s.core k).atFault y s.timebase cause st addr unit sub).bench := by
  have hset : (s.setCore k fun x => { x with
      ended := true, faulted := some (cause, st), stall := none, arrayQ := [], vectorQ := [], dmaQ := []
      fault := { timestamp := s.timebase, addr := addr, pc := (s.core k).pc, index := y.num.setWidth 16, queue := BitVec.ofNat 14 y.queue,
                 unit := BitVec.ofNat 2 unit, sub := BitVec.ofNat 8 sub, status := st.code, cause := cause.code }
      state := if x.state = .draining || decide (cause = .hw) then .draining else .ending
      drainOffline := x.drainOffline || decide (cause = .hw) }) =
      s.setCore k fun _ => (s.core k).atFault y s.timebase cause st addr unit sub := rfl
  unfold Chip.faultOne
  dsimp only
  rw [hkernel, hrunning]
  dsimp only
  refine ⟨_, rfl, ?_⟩
  rw [← hset]
  split
  · simp only [apply_ite Chip.bench, Chip.raise_bench, Chip.setObj_bench, Chip.bump_bench, Chip.setQueue_bench, Chip.raiseLimited_bench,
      Chip.dropCoreWaits_bench, ite_self]
  · simp only [apply_ite Chip.bench, Chip.raise_bench, Chip.setObj_bench, Chip.dropCoreWaits_bench, ite_self]

/-- The core after its fault: at its end where its units are idle. -/
theorem Chip.faultOne_core {y : KernelCtx} (hkernel : (s.core k).kernel = some y) (hrunning : (s.core k).faulted = none) (cause : Cause)
    (st : Status) (addr : Word) (unit sub : Nat) (fate : Bool) : (s.faultOne k cause st addr unit sub fate).bench =
      (s.setCore k fun _ => if ((s.core k).atFault y s.timebase cause st addr unit sub).unitsIdle then
        ((s.core k).atFault y s.timebase cause st addr unit sub).atEnd
        else (s.core k).atFault y s.timebase cause st addr unit sub).bench := by
  obtain ⟨t, hfault, hbench⟩ := s.faultOne_bench k hkernel hrunning cause st addr unit sub fate
  have hcore : t.core k = (s.core k).atFault y s.timebase cause st addr unit sub := by
    rw [Chip.core_of_bench hbench, Chip.setCore_same]
  have hends : ((s.core k).atFault y s.timebase cause st addr unit sub).kernel = some y := hkernel
  rw [hfault, Chip.coreEndIf_bench, hcore, hends]
  cases hidle : ((s.core k).atFault y s.timebase cause st addr unit sub).unitsIdle with
  | false =>
    rw [if_neg (by simp), if_neg (by simp)]
    exact hbench
  | true =>
    rw [if_pos (by simp [CoreSt.atFault]), if_pos rfl, Chip.setCore_bench hbench]
    exact s.setCore_setCore_bench k _ _

theorem CoreSt.atEnd_keeps (x : CoreSt) : x.atEnd.fault = x.fault ∧ x.atEnd.kernel = none ∧
    x.atEnd.state = (if x.drainOffline then .offline else .idle) ∧ (x.arrayQ = [] → x.atEnd.arrayQ = []) ∧
    (x.vectorQ = [] → x.atEnd.vectorQ = []) ∧ (x.dmaQ = [] → x.atEnd.dmaQ = []) := by
  unfold CoreSt.atEnd
  split
  · exact ⟨rfl, rfl, rfl, fun _ => rfl, fun _ => rfl, fun _ => rfl⟩
  · exact ⟨rfl, rfl, rfl, id, id, id⟩

/-- A fault of a core that shares its fate with no other is that core's alone. -/
theorem Chip.fault_alone {y : KernelCtx} (hkernel : (s.core k).kernel = some y) (hrunning : (s.core k).faulted = none)
    (hfate : y.fateShare = false) (cause : Cause) (a : Word) :
    s.fault k cause a = s.faultOne k cause cause.status a 0 0 false := by
  rw [Chip.fault, Chip.coreFault, hkernel, hrunning]
  simp only [hfate, Bool.false_and, Bool.false_eq_true, if_false, ite_self, List.mergeSort_singleton]
  rfl

end

theorem CoreSt.draining_eq (x : CoreSt) {y : KernelCtx} (hstate : x.state = .draining) (hkernel : x.kernel = some y) :
    { x with state := if x.kernel.isSome then .draining else x.state } = x := by
  cases x
  simp only at hstate hkernel
  subst hstate hkernel
  rfl

/-- A draining core that is cancelled ends. -/
theorem Chip.coreCancel_draining (s : Chip) (k : Nat) {y : KernelCtx} (hstate : (s.core k).state = .draining)
    (hkernel : (s.core k).kernel = some y) (hrunning : (s.core k).faulted = none) :
    ((s.coreCancel k).core k).kernel = none ∧
      ((s.coreCancel k).core k).state = (if (s.core k).drainOffline then .offline else .idle) ∧
      ((s.coreCancel k).core k).fault.cause = 0x0B ∧ (s.coreCancel k).mem = s.mem := by
  let u := s.setCore k fun x => { x with state := if x.kernel.isSome then .draining else x.state }
  have hcore : u.core k = s.core k := by
    change (s.setCore k _).core k = _
    rw [Chip.setCore_same]
    exact (s.core k).draining_eq hstate hkernel
  let x := (s.core k).atFault y u.timebase .cancel .cancelled 0 0 0
  have hfaulted : (u.faultOne k .cancel .cancelled 0 0 0 false).bench = (u.setCore k fun _ => if x.unitsIdle then x.atEnd else x).bench := by
    have h := u.faultOne_core k (by rw [hcore]; exact hkernel) (by rw [hcore]; exact hrunning) .cancel .cancelled 0 0 0 false
    rw [hcore] at h
    exact h
  let v := (u.faultOne k .cancel .cancelled 0 0 0 false).setCore k fun x => { x with arrayRun := [], vectorRun := [], dmaRun := [] }
  have hcancel : s.coreCancel k = v.coreEndIf k := by
    unfold Chip.coreCancel
    dsimp only
    rw [show ((s.setCore k fun x => { x with state := if x.kernel.isSome then .draining else x.state }).core k).faulted = none by
      rw [show (s.setCore k fun x => { x with state := if x.kernel.isSome then .draining else x.state }).core k = s.core k from hcore,
        hrunning]]
    rfl
  have hv : v.core k = { (if x.unitsIdle then x.atEnd else x) with arrayRun := [], vectorRun := [], dmaRun := [] } := by
    change (Chip.setCore _ k _).core k = _
    rw [Chip.setCore_same, Chip.core_of_bench hfaulted, Chip.setCore_same]
  have hvmem : v.mem = s.mem := (Chip.mem_of_bench hfaulted).trans rfl
  have hend := v.coreEndIf_bench k
  obtain ⟨hrecord, hnone, hended, _, _, _⟩ := x.atEnd_keeps
  rw [hcancel]
  cases hidle : x.unitsIdle with
  | true =>
    rw [hidle, if_pos rfl] at hv
    have hkept : (v.coreEndIf k).bench = v.bench := by
      rw [hend, if_neg]
      rw [hv]
      simp [hnone]
    rw [Chip.core_of_bench hkept, Chip.mem_of_bench hkept, hv]
    refine ⟨hnone, hended.trans ?_, congrArg FaultRecord.cause hrecord, hvmem⟩
    rw [show x.drainOffline = ((s.core k).drainOffline || false) from rfl, Bool.or_false]
  | false =>
    rw [hidle, if_neg Bool.false_ne_true] at hv
    have hgone : (v.coreEndIf k).bench = (v.setCore k CoreSt.atEnd).bench := by
      rw [hend, if_pos]
      rw [hv]
      simp [x, CoreSt.atFault, CoreSt.unitsIdle, hkernel]
    obtain ⟨hrecord', hnone', hended', _, _, _⟩ := (v.core k).atEnd_keeps
    rw [Chip.core_of_bench hgone, Chip.setCore_same]
    refine ⟨hnone', hended'.trans ?_, ?_, (Chip.mem_of_bench hgone).trans hvmem⟩
    · rw [hv]
      change (if ((s.core k).drainOffline || false) then _ else _) = _
      rw [Bool.or_false]
    · rw [hrecord', hv]
      rfl

/-! ### Accesses -/

section
variable {t : Chip} {k n o : Nat} {w : Word}

/-- A load of data of the chip. -/
theorem Chip.coreLoad_data {q : LoadKind} (haccess : t.accessTo k .load w (loadShape q).1 = .ok (.chip o))
    (hdata : (t.coreRegion o).isData = true) (rd len : Nat) : t.coreLoad k q rd w len =
      if readPoison (t.readFrom (coreSite k) o (loadShape q).1 (t.core k).hint).2 then
        (t.readFrom (coreSite k) o (loadShape q).1 (t.core k).hint).1.fault k .poison w
      else if (loadShape q).2.2 then (t.readFrom (coreSite k) o (loadShape q).1 (t.core k).hint).1.retireF k rd
        (loadValue (loadShape q).1 (loadShape q).2.1 (loadShape q).2.2 (leNat (readData (t.readFrom (coreSite k) o (loadShape q).1 (t.core k).hint).2))) len
      else (t.readFrom (coreSite k) o (loadShape q).1 (t.core k).hint).1.retireX k rd
        (loadValue (loadShape q).1 (loadShape q).2.1 (loadShape q).2.2 (leNat (readData (t.readFrom (coreSite k) o (loadShape q).1 (t.core k).hint).2))) len := by
  unfold Chip.coreLoad
  dsimp only
  rw [haccess]
  dsimp only
  rw [if_pos hdata]

theorem Chip.memModify_clean {site : Nat} {f : Nat → Nat} {hint : BitVec 2} (hclean : readPoison (t.readFrom site o n hint).2 = false) :
    t.memModify site o n f false hint = ((t.readFrom site o n hint).1.writeFrom site o
      (leBytes n (f (leNat (readData (t.readFrom site o n hint).2)))) false hint, leNat (readData (t.readFrom site o n hint).2), false) := by
  unfold Chip.memModify
  dsimp only
  rw [hclean]
  rfl

/-- An atomic on memory of the chip. -/
theorem Chip.coreAtomic_chip {f : Nat → Nat} {aop : Option (BitVec 4)} {dbl fp : Bool} {operand : Word} (hn : n = if dbl then 8 else 4)
    (haccess : t.accessTo k .amo w n = .ok (.chip o))
    (hclean : readPoison (t.readFrom (coreSite k) o n (t.core k).hint).2 = false) (rd : Nat) :
    t.coreAtomic k f aop dbl fp operand rd w =
      (let r := t.readFrom (coreSite k) o n (t.core k).hint
       let u := r.1.writeFrom (coreSite k) o (leBytes n (f (leNat (readData r.2)))) false (t.core k).hint
       if fp then u.retireF k rd (loadValue n true true (leNat (readData r.2))) 4
       else u.retireX k rd (loadValue n true false (leNat (readData r.2))) 4) := by
  subst hn
  unfold Chip.coreAtomic
  dsimp only
  rw [haccess]
  dsimp only
  rw [Chip.memModify_clean hclean]
  rfl

end

/-! ### CSRs -/

theorem CoreSt.csr_set (x : CoreSt) (n m : Nat) (v : Word) :
    ({ x with csrs := Tab.set 0 x.csrs n v } : CoreSt).csr m = if m = n then v else x.csr m := Tab.get_set ..

/-- A write of one of the core's own CSRs gives the old value and takes the new one. -/
theorem Chip.coreCsr_own (t : Chip) (k : Nat) {n : Nat} (hlow : 0x800 ≤ n) (hhigh : n ≤ 0x80A) (rd : Nat) (r : BitVec 5) :
    t.coreCsr k .rw n rd (.reg r) = (t.setCore k fun _ => { t.core k with
      csrs := Tab.set 0 (t.core k).csrs n ((t.core k).rx r) }).retireX k rd ((t.core k).csr n) 4 := by
  have hread : t.csrRead k n = some ((t.core k).csr n) := by
    unfold Chip.csrRead
    dsimp only
    rw [if_neg (by omega), if_neg (by omega), if_neg (by omega), if_pos ⟨hlow, hhigh⟩]
  have hwrite (v : Word) : (t.core k).csrWrite n v = some { t.core k with csrs := Tab.set 0 (t.core k).csrs n v } := by
    unfold CoreSt.csrWrite
    rw [if_neg (by omega), if_neg (by omega), if_neg (by omega), if_pos ⟨hlow, hhigh⟩]
  unfold Chip.coreCsr
  dsimp only
  rw [if_neg (by omega : ¬ n = 0xC00), hread]
  dsimp only
  rw [if_pos (.inl rfl), csrApply, hwrite]

theorem Chip.countStalls_core (t : Chip) (k j : Nat) : (t.countStalls k).core j = (t.setCore k fun x => { x with
    cycle := x.cycle + ((Config.freeWord t.freeCtr).setWidth 32).setWidth 64 }).core j := rfl

/-- A read of the cycle counter: cycles in which nothing retired show, and nothing is written. -/
theorem Chip.coreCsr_cycle (t : Chip) (k : Nat) {op : CsrOp} (hop : op ≠ .rw) (rd : Nat) :
    t.coreCsr k op 0xC00 rd (.reg 0) = (t.countStalls k).retireX k rd ((t.countStalls k).core k).cycle 4 := by
  have hread : (t.countStalls k).csrRead k 0xC00 = some ((t.countStalls k).core k).cycle := rfl
  unfold Chip.coreCsr
  dsimp only
  rw [if_pos rfl, hread]
  exact if_neg fun h => h.elim hop (by decide)

theorem gives_csrWrite_own (s : State) (k : Fin 264) (n : BitVec 12) (rd r : BitVec 5) (hissue : s.mayIssue k.val 4)
    (hlow : 0x800 ≤ n.toNat) (hhigh : n.toNat ≤ 0x80A) :
    s.gives (.csrWrite k .rw n rd (.reg r)) fun c => (c.core k.val).csr n.toNat = (s.core k.val).rx r ∧
      (rd ≠ 0 → (c.core k.val).rx rd = (s.core k.val).csr n.toNat) ∧ (∀ m, m ≠ n.toNat → (c.core k.val).csr m = (s.core k.val).csr m) ∧
      (∀ q, q ≠ rd → (c.core k.val).rx q = (s.core k.val).rx q) ∧ (c.core k.val).pc = (s.core k.val).pc + 4 ∧
      c = { s.toChip with cores := c.cores } := by
  refine State.gives_issued hissue rfl ?_
  dsimp only
  rw [Chip.coreCsr_own _ _ hlow hhigh]
  have hcore : (((s.toChip.fetched k.val).setCore k.val fun _ => { (s.toChip.fetched k.val).core k.val with
      csrs := Tab.set 0 ((s.toChip.fetched k.val).core k.val).csrs n.toNat (((s.toChip.fetched k.val).core k.val).rx r) }).retireX
      k.val rd.toNat (((s.toChip.fetched k.val).core k.val).csr n.toNat) 4).core k.val =
      (({ s.core k.val with icache := true, csrs := Tab.set 0 (s.core k.val).csrs n.toNat ((s.core k.val).rx r) } : CoreSt).setX
        rd.toNat ((s.core k.val).csr n.toNat)).retire 4 := by
    rw [Chip.retireX, Chip.setCore_same, Chip.setCore_same, Chip.fetched_core]
    rfl
  rw [hcore]
  have hcsr (m : Nat) (x : CoreSt) (v : Word) : ((x.setX rd.toNat v).retire 4).csr m = x.csr m := by
    unfold CoreSt.setX
    split <;> rfl
  have hpc (x : CoreSt) (v : Word) : ((x.setX rd.toNat v).retire 4).pc = x.pc + 4 := by
    unfold CoreSt.setX
    split <;> rfl
  have hrx (q : BitVec 5) (x : CoreSt) (v : Word) : ((x.setX rd.toNat v).retire 4).rx q = (x.setX rd.toNat v).rx q := rfl
  refine ⟨?_, fun hrd => ?_, fun m hm => ?_, fun q hq => ?_, ?_, rfl⟩
  · rw [hcsr]
    exact (CoreSt.csr_set ..).trans (if_pos rfl)
  · rw [hrx, CoreSt.rx_setX, if_pos ⟨rfl, hrd⟩]
  · rw [hcsr]
    exact (CoreSt.csr_set ..).trans (if_neg hm)
  · rw [hrx, CoreSt.rx_setX, if_neg fun h => hq h.1]
    rfl
  · exact hpc _ _

theorem gives_csrWrite_cycle (s : State) (k : Fin 264) (op : CsrOp) (rd : BitVec 5) (hissue : s.mayIssue k.val 4) (hop : op ≠ .rw) (hrd : rd ≠ 0) :
    s.gives (.csrWrite k op 0xC00 rd (.reg 0)) fun c => ∃ n, n < 2 ^ 32 ∧
      (c.core k.val).rx rd = (s.core k.val).cycle + BitVec.ofNat 64 n ∧ (c.core k.val).cycle = (c.core k.val).rx rd + 1 ∧
      (∀ q, q ≠ rd → (c.core k.val).rx q = (s.core k.val).rx q) ∧ (∀ j, j ≠ k.val → c.core j = s.core j) ∧ c.mem = s.mem := by
  refine State.gives_issued hissue rfl ?_
  have hcsr := (s.toChip.fetched k.val).coreCsr_cycle k.val hop rd.toNat
  have hcounted : ((s.toChip.fetched k.val).countStalls k.val).core k.val = { s.core k.val with
      icache := true, cycle := (s.core k.val).cycle + ((Config.freeWord s.freeCtr).setWidth 32).setWidth 64 } := by
    rw [Chip.countStalls_core, Chip.setCore_same, Chip.fetched_core]
    rfl
  have hother (j : Nat) (hj : j ≠ k.val) : ((s.toChip.fetched k.val).countStalls k.val).core j = s.core j := by
    rw [Chip.countStalls_core, Chip.setCore_other _ _ _ _ hj, Chip.fetched_core_other _ _ hj]
  have hcycle (x : CoreSt) (v : Word) : ((x.setX rd.toNat v).retire 4).cycle = x.cycle + 1 := by
    unfold CoreSt.setX
    split <;> rfl
  have hrx (q : BitVec 5) (x : CoreSt) (v : Word) : ((x.setX rd.toNat v).retire 4).rx q = (x.setX rd.toNat v).rx q := rfl
  rw [show (0xC00 : BitVec 12).toNat = 0xC00 from rfl, hcsr]
  refine ⟨((Config.freeWord s.freeCtr).setWidth 32).toNat, BitVec.isLt _, ?_, ?_, fun q hq => ?_, fun j hj => ?_, ?_⟩
  · rw [Chip.retireX, Chip.setCore_same, hrx, CoreSt.rx_setX, if_pos ⟨rfl, hrd⟩, hcounted, BitVec.ofNat_toNat]
  · rw [Chip.retireX, Chip.setCore_same, hrx, CoreSt.rx_setX, if_pos ⟨rfl, hrd⟩, hcycle]
  · rw [Chip.retireX, Chip.setCore_same, hrx, CoreSt.rx_setX, if_neg fun h => hq h.1, hcounted]
    rfl
  · rw [Chip.retireX, Chip.setCore_other _ _ _ _ hj, hother j hj]
  · rw [Chip.retireX, Chip.setCore_mem]
    rfl

theorem fault_stops_core (s : Chip) (k : Nat) (cause : Cause) (a : Word) (y : KernelCtx) (hkernel : (s.core k).kernel = some y)
    (hrunning : (s.core k).faulted = none) (hfate : y.fateShare = false) : ((s.fault k cause a).core k).fault =
      { timestamp := s.timebase, addr := a, pc := (s.core k).pc, index := y.num.setWidth 16, queue := BitVec.ofNat 14 y.queue,
        unit := 0, sub := 0, status := cause.status.code, cause := cause.code } ∧
    ((s.fault k cause a).core k).arrayQ = [] ∧ ((s.fault k cause a).core k).vectorQ = [] ∧ ((s.fault k cause a).core k).dmaQ = [] ∧
    ((s.fault k cause a).core k).issuing = false ∧ (∀ j, j ≠ k → (s.fault k cause a).core j = s.core j) ∧
    (s.fault k cause a).mem = s.mem := by
  have hfault := (congrArg Chip.bench (s.fault_alone k hkernel hrunning hfate cause a)).trans
    (s.faultOne_core k hkernel hrunning cause cause.status a 0 0 false)
  have hcore := Chip.core_of_bench hfault k
  rw [Chip.setCore_same] at hcore
  have hmem : (s.fault k cause a).mem = s.mem := (Chip.mem_of_bench hfault).trans rfl
  obtain ⟨hrecord, hnone, _, harray, hvector, hdma⟩ := ((s.core k).atFault y s.timebase cause cause.status a 0 0).atEnd_keeps
  rw [hcore]
  refine ⟨?_, ?_, ?_, ?_, ?_, fun j hj => ?_, hmem⟩
  · split
    · exact hrecord
    · rfl
  · split
    · exact harray rfl
    · rfl
  · split
    · exact hvector rfl
    · rfl
  · split
    · exact hdma rfl
    · rfl
  · split
    · simp [CoreSt.issuing, hnone]
    · simp [CoreSt.issuing, CoreSt.atFault]
  · rw [Chip.core_of_bench hfault, Chip.setCore_other _ _ _ _ hj]

/-- Settles O41: each clause is one branch of what the core does; a fault keeps memory and the other cores. -/
theorem controlCoreAccesses : Obligations.Control_core_accesses := by
  unfold Obligations.Control_core_accesses
  refine ⟨?_, ?_, ?_, ?_, ?_, ?_, ?_, ?_, ?_, ?_, ?_, ?_, ?_, ?_, ?_, ?_, ?_, ?_, ?_⟩
  · intro s k q rd rs1 imm b t w o hissue ht hw haccess hdata hint hclean
    refine State.gives_issued hissue rfl ?_
    rw [← ht, ← hw, Chip.coreLoad_data haccess hdata, hclean, hint]
    rfl
  · intro s k q rd rs1 imm b t w o hissue ht hw haccess hdata hpoison
    refine State.gives_issued hissue rfl ?_
    rw [← ht, ← hw, Chip.coreLoad_data haccess hdata, hpoison]
    rfl
  · intro s k q rs1 rs2 imm b t w v o hissue ht hw hv haccess hdata
    refine State.gives_issued hissue rfl ?_
    dsimp only
    rw [← ht, ← hw, ← hv, Chip.coreStore, haccess]
    exact if_pos hdata
  · intro s k i n x q w hissue hi haccess
    have hrx (r : BitVec 5) : ((s.toChip.fetched k.val).core k.val).rx r = (s.core k.val).rx r := by
      rw [Chip.fetched_core]
      rfl
    rcases hi with ⟨l, rd, rs1, imm, b, rfl, rfl, rfl, rfl, rfl⟩ | ⟨l, rs1, rs2, imm, b, rfl, rfl, rfl, rfl, rfl⟩ |
      ⟨op, d, rd, rs1, rs2, rfl, rfl, rfl, rfl, rfl⟩
    · refine State.gives_issued hissue rfl ?_
      rw [hrx, Chip.coreLoad]
      dsimp only
      rw [haccess]
      rfl
    · refine State.gives_issued hissue rfl ?_
      dsimp only
      rw [hrx rs1, Chip.coreStore]
      dsimp only
      rw [haccess]
      rfl
    · refine State.gives_issued hissue rfl ?_
      rw [hrx, Chip.coreAmo, Chip.coreAtomic]
      dsimp only
      rw [haccess]
      rfl
  · intro s k op d rd rs1 rs2 t n o hissue ht hn haccess hclean
    refine State.gives_issued hissue rfl ?_
    dsimp only
    rw [← ht, Chip.coreAmo, Chip.coreAtomic_chip hn haccess hclean]
    subst hn
    cases d <;> rfl
  · intro s k d rd rs1 t n o hissue ht hn haccess hclean
    subst hn
    refine State.gives_issued hissue rfl ?_
    dsimp only
    rw [← ht, if_neg Bool.false_ne_true, if_pos rfl, Chip.coreLr]
    dsimp only
    rw [haccess]
    dsimp only
    rw [hclean]
    rfl
  · intro s k d rd rs1 rs2 t n o hissue ht hn haccess
    subst hn
    refine State.gives_issued hissue rfl ?_
    dsimp only
    rw [← ht, if_pos rfl, Chip.coreSc]
    dsimp only
    rw [haccess]
    refine ⟨fun hheld => ?_, fun hnone => ?_⟩
    · rw [hheld]
      exact if_pos (by simp)
    · rw [hnone, ht]
      exact ⟨rfl, rfl⟩
  · intro s k hissue hstores
    refine State.gives_issued hissue rfl ?_
    exact Chip.when_pos (by rw [Chip.fetched_core]; simpa using hstores)
  · intro s k hissue hstores
    refine State.gives_issued hissue rfl ?_
    exact if_neg (by rw [Chip.fetched_core]; simpa using hstores)
  · intro s k hissue
    refine State.gives_issued hissue rfl ?_
    have hcore : ((s.toChip.fetched k.val).coreFenceI k.val).core k.val =
        { ({ s.core k.val with icache := true } : CoreSt).retire 4 with icache := false } := by
      rw [Chip.coreFenceI, Chip.setCore_same, Chip.fetched_core]
    dsimp only
    rw [hcore]
    exact ⟨rfl, rfl, rfl⟩
  · intro s k b hissue
    exact State.gives_issued hissue rfl rfl
  · exact gives_csrWrite_own
  · exact gives_csrWrite_cycle
  · intro s k rd rs1 rs2 t o hissue ht hdet haccess hclean
    refine State.gives_issued hissue rfl ?_
    dsimp only
    have hmode : t.objb O.detMode = false := by rw [ht]; exact hdet
    rw [← ht, Chip.coreFadd, hmode, if_neg (by simp), Chip.coreAtomic_chip rfl haccess hclean]
    rfl
  · intro s k rd rs1 rs2 hissue hdet
    refine State.gives_issued hissue rfl ?_
    have hmode : (s.toChip.fetched k.val).objb O.detMode = true := hdet
    rw [Chip.coreFadd, hmode, if_pos rfl, Chip.fetched_core]
    rfl
  · exact fault_stops_core
  · intro s k hlive
    exact State.gives_live (f := fun c => c.fault k.val .time 0) rfl hlive rfl
  · intro s k w x a hlive hissuing hawake hstall hfetch
    refine State.gives_live (f := fun c => c.issue k.val (rvLen w.toNat) (Rv.own (decodeRv w.toNat)) _) rfl hlive ?_
    simp only [Chip.issue, hissuing, hawake, hstall, Option.all_none, Bool.not_false, Bool.and_self, Chip.when, if_true, hfetch]
  · intro s k y hlive hstate hkernel hrunning
    refine State.gives_live (f := fun c => c.coreDeadline k.val) rfl hlive ?_
    rw [Chip.coreDeadline, if_pos hstate]
    exact s.toChip.coreCancel_draining k.val hstate hkernel hrunning

end Sys2Proof.Machine
end

section
/-! PROOF. Signals, waits and the end of a kernel on the core, and the statement `Core_synchronisation`. -/

namespace Sys2Proof.Machine

theorem CoreSt.unit_empty (x : CoreSt) (h : x.unitsIdle = true) (u : Nat) : ((x.unitQ u).isEmpty && (x.unitRun u).isEmpty) = true := by
  simp only [CoreSt.unitsIdle, Bool.and_eq_true] at h
  obtain ⟨⟨⟨⟨⟨harrayQ, hvectorQ⟩, hdmaQ⟩, harrayRun⟩, hvectorRun⟩, hdmaRun⟩ := h
  unfold CoreSt.unitQ CoreSt.unitRun
  split
  · rw [harrayQ, harrayRun]
    rfl
  · split
    · rw [hvectorQ, hvectorRun]
      rfl
    · rw [hdmaQ, hdmaRun]
      rfl

/-- Settles O42: each clause is one branch of what the core does. -/
theorem coreSynchronisation : Obligations.Core_synchronisation := by
  unfold Obligations.Core_synchronisation
  refine ⟨?_, ?_, ?_, ?_, ?_, ?_, ?_, ?_, ?_⟩
  · intro s k rs1 rs2 t hissue ht hreleased
    refine State.gives_issued hissue rfl ?_
    rw [← ht, Chip.coreSigl, if_neg (by decide)]
    exact Chip.when_pos hreleased
  · intro s k i rd rs1 rs2 hissue hrd hi
    have hnat : rd.toNat ≠ 0 := fun h => hrd (BitVec.eq_of_toNat_eq h)
    rcases hi with rfl | rfl | rfl | rfl | rfl | rfl
    · exact State.gives_issued hissue rfl (if_pos hnat)
    · exact State.gives_issued hissue rfl (if_pos hnat)
    · exact State.gives_issued hissue rfl (if_pos hnat)
    · exact State.gives_issued hissue rfl (if_pos (.inl hnat))
    · exact State.gives_issued hissue rfl (if_pos hnat)
    · exact State.gives_issued hissue rfl (if_pos (.inr (.inl hnat)))
  · intro s k rs1 rs2 t j hissue ht hj
    refine State.gives_issued hissue rfl ?_
    rw [← ht, Chip.coreWaitl, if_neg (by decide), hj]
    rfl
  · intro s k rd rs1 rs2 t hissue ht
    refine State.gives_issued hissue rfl ?_
    rw [← ht]
    rfl
  · intro s k rd rs1 rs2 t u old hissue ht hreleased hctr hadd
    have hstall : (t.core k.val).stall = none := by
      obtain ⟨_, _, _, hstall, _⟩ := hissue
      rw [ht, Chip.fetched_core]
      exact hstall
    refine State.gives_issued hissue rfl ?_
    rw [← ht, Chip.coreSigc, hstall]
    dsimp only
    rw [if_neg (by omega), Chip.when_pos hreleased, hadd]
  · intro s k rs1 rs2 t u b hissue ht hctr hwait
    refine State.gives_issued hissue rfl ?_
    rw [← ht, Chip.coreWaitc, if_neg (by decide), if_neg (by omega), hwait]
    cases b <;> rfl
  · intro s k rd rs1 rs2 t hissue ht hunits hroom
    refine State.gives_issued hissue rfl ?_
    dsimp only
    rw [← ht, hunits, Chip.coreQwait, if_neg (by decide), show unitsOf 2 = [2] by decide]
    exact Chip.when_pos (by simpa [CoreSt.unitRoom, CoreSt.unitQ] using hroom)
  · intro s k rs1 rs2 t hissue ht hunits hidle
    refine State.gives_issued hissue rfl ?_
    have hall : ((unitsOf ((t.core k.val).rx rs1)).all fun u => ((t.core k.val).unitQ u).isEmpty && ((t.core k.val).unitRun u).isEmpty) = true :=
      List.all_eq_true.mpr fun u _ => (t.core k.val).unit_empty hidle u
    rw [← ht, Chip.coreWaitu, if_neg (by simp; omega)]
    exact if_pos hall
  · intro s k rs1 rs2 hissue hidle hstores hstate hoffline hrunning
    refine State.gives_issued hissue rfl ?_
    have hkernel : (s.core k.val).kernel.isSome = true := by
      obtain ⟨_, hissuing, _⟩ := hissue
      simp only [CoreSt.issuing, Bool.and_eq_true] at hissuing
      exact hissuing.1.1
    let x : CoreSt := { s.core k.val with icache := true, ended := true, stall := none, state := .ending }
    let u := (s.toChip.fetched k.val).setCore k.val fun x => { x with
      ended := true, stall := none, state := if x.state = .draining then .draining else .ending }
    have hu : u.core k.val = x := by
      change (Chip.setCore _ k.val _).core k.val = x
      rw [Chip.setCore_same, Chip.fetched_core, hstate]
      rfl
    have hend : (u.coreEndIf k.val).bench = (u.setCore k.val CoreSt.atEnd).bench := by
      refine (u.coreEndIf_bench k.val).trans (if_pos ?_)
      rw [hu]
      simp only [x, hkernel, hstores, beq_self_eq_true, Bool.or_true, Bool.and_true, Bool.true_and]
      exact hidle
    rw [Chip.coreXend, if_neg (by decide)]
    change ((u.coreEndIf k.val).core k.val).state = _ ∧ ((u.coreEndIf k.val).core k.val).kernel = _ ∧
      ((u.coreEndIf k.val).core k.val).array = _ ∧ (u.coreEndIf k.val).mem = _ ∧ ∀ j, j ≠ k.val → (u.coreEndIf k.val).core j = _
    rw [Chip.core_of_bench hend, Chip.mem_of_bench hend, Chip.setCore_same, hu]
    refine ⟨?_, rfl, rfl, ?_, fun j hj => ?_⟩
    · change (if (s.core k.val).drainOffline then CoreState.offline else CoreState.idle) = .idle
      rw [hoffline]
      rfl
    · rw [Chip.setCore_mem, Chip.setCore_mem]
      rfl
    · rw [Chip.core_of_bench hend, Chip.setCore_other _ _ _ _ hj, Chip.setCore_other _ _ _ _ hj, Chip.fetched_core_other _ _ hj]

end Sys2Proof.Machine
end

section
/-! PROOF. Vector, DMA and array instructions enter their unit's queue, and the statements `Vector_instructions` and
`Dma_and_array_instructions`. -/

namespace Sys2Proof.Machine

section
variable {t : Chip} {k : Nat}

/-- With room in its queue an instruction enters it and retires. -/
theorem Chip.coreEnqueue_room {u : Nat} (hroom : ((t.core k).unitQ u).length < 16) (op : UnitOp) (sig : Option Nat) :
    t.coreEnqueue k u op sig = t.setCore k fun x => (x.enqueue u op sig).retire 4 :=
  Chip.when_pos (by simpa [CoreSt.unitRoom] using hroom)

/-! ### Vector instructions -/

theorem Chip.issueVec_form {op : Nat} {form : Nat} (hform : vecForm op form = false) (rd rs1 rs2 : BitVec 5) :
    t.issueVec k op form rd rs1 rs2 = t.fault k .illegal 0 := by
  unfold Chip.issueVec
  dsimp only
  rw [if_pos (by simp [hform])]
  rfl

/-- What passes the checks of R334 enters the vector engine's queue. -/
theorem Chip.issueVec_passes {op : Nat} {form : BitVec 3} {rd rs1 rs2 : BitVec 5} {y f d n : Nat} {b : Word} (hform : form.toNat ≤ 3)
    (hlisted : vecForm op form.toNat = true) (hrs2 : form = 3 → rs2 = 0) (hrs1 : op = 0 → form ≠ 3 → rs1 = 0)
    (hy : y = ((t.core k).csr 0x801).toNat) (hyBits : y < 2 ^ 9) (hf : f = y % 16) (hd : d = y / 16 % 16)
    (hformats : vecFormats op form.toNat f d = true) (hn : n = vlen ((t.core k).csr 0x800)) (hnBits : ((t.core k).csr 0x800).toNat < 2 ^ 16)
    (hsig : ((t.core k).csr 0x803).toNat < 2 ^ 7) (hmx : op = 0x18 → fmtMx f = true ∨ fmtMx d = true → n % 32 = 0)
    (hround : vecRounds op f = true → (t.core k).frm.toNat ≤ 4)
    (hb : b = if form = 2 then (t.core k).rf rs2 else (t.core k).rx rs2) (hroom : (t.core k).vectorQ.length < 16)
    (hranges : ∀ r, r ∈ vecRanges op form.toNat ((t.core k).rx rd) ((t.core k).rx rs1) b n f d (vmasked ((t.core k).csr 0x801))
      ((t.core k).csr 0x802) → r.addr.toNat / 2 ^ 56 = 2 ∧ r.addr.toNat % 2 ^ 56 < ownBytes k ∧
        r.addr.toNat % 2 ^ 56 + r.len ≤ ownBytes k ∧ r.addr.toNat % r.align = 0) :
    t.issueVec k op form.toNat rd rs1 rs2 = t.setCore k fun x => (x.enqueue 2 (.vec op form.toNat ((t.core k).rx rd) ((t.core k).rx rs1) b
      ((t.core k).csr 0x800) ((t.core k).csr 0x801) ((t.core k).csr 0x802) (t.core k).frm ((t.core k).csr 0x809)
      (BitVec.ofNat 8 (t.obj O.vecTrapEn))) (sigOf ((t.core k).csr 0x803))).retire 4 := by
  have hfmt : vfmt ((t.core k).csr 0x801) = f := by rw [vfmt, bitsOf, hf, hy]; simp
  have hdfmt : vdfmt ((t.core k).csr 0x801) = d := by rw [vdfmt, bitsOf, hd, hy]; rfl
  have hform3 : form.toNat = 3 ↔ form = 3 := ⟨fun h => BitVec.eq_of_toNat_eq h, fun h => by rw [h]; rfl⟩
  have hform2 : form.toNat = 2 ↔ form = 2 := ⟨fun h => BitVec.eq_of_toNat_eq h, fun h => by rw [h]; rfl⟩
  have hoperand : (if form.toNat = 2 then (t.core k).rf rs2 else (t.core k).rx rs2) = b := by
    rw [hb]
    exact if_congr hform2 rfl rfl
  have hthird : (form.toNat == 3 && rs2 != 0) = false := by
    simp only [Bool.and_eq_false_imp, beq_iff_eq, bne_eq_false_iff_eq, hform3]
    exact hrs2
  have hcopy : (op == 0 && form.toNat != 3 && rs1 != 0) = false := by
    simp only [Bool.and_eq_false_imp, Bool.and_eq_true, beq_iff_eq, bne_iff_ne, bne_eq_false_iff_eq, ne_eq, hform3]
    exact fun h => hrs1 h.1 h.2
  have hblocks : (op == 0x18 && (fmtMx f || fmtMx d) && n % 32 != 0) = false := by
    simp only [Bool.and_eq_false_imp, Bool.and_eq_true, Bool.or_eq_true, beq_iff_eq, bne_eq_false_iff_eq]
    exact fun h => hmx h.1 h.2
  have hrounding : (vecRounds op f && decide ((t.core k).frm.toNat > 4)) = false := by
    simp only [Bool.and_eq_false_imp, decide_eq_false_iff_not]
    exact fun h => Nat.not_lt.mpr (hround h)
  have hsigBits : badSig ((t.core k).csr 0x803) = false := by
    rw [badSig]
    exact decide_eq_false (Nat.not_le.mpr hsig)
  have hfits : (vecRanges op form.toNat ((t.core k).rx rd) ((t.core k).rx rs1) b n f d (vmasked ((t.core k).csr 0x801))
      ((t.core k).csr 0x802)).find? (fun r => match ownOffset k r.addr with
        | some o => decide (o + r.len > ownBytes k)
        | none => true) = none :=
    List.find?_eq_none.mpr fun r hr => by
      obtain ⟨hspace, hstart, hend, _⟩ := hranges r hr
      rw [ownOffset, if_pos ⟨hspace, hstart⟩]
      simpa using hend
  have haligned : (vecRanges op form.toNat ((t.core k).rx rd) ((t.core k).rx rs1) b n f d (vmasked ((t.core k).csr 0x801))
      ((t.core k).csr 0x802)).find? (fun r => r.addr.toNat % r.align != 0) = none :=
    List.find?_eq_none.mpr fun r hr => by simpa using (hranges r hr).2.2.2
  unfold Chip.issueVec
  dsimp only
  rw [hfmt, hdfmt, ← hn, hoperand]
  rw [if_neg (by
    rw [hlisted, hthird, hcopy, hformats, hsigBits, hblocks, hrounding, decide_eq_false (Nat.not_lt.mpr hform),
      decide_eq_false (Nat.not_le.mpr (hy ▸ hyBits)), decide_eq_false (Nat.not_le.mpr hnBits)]
    simp)]
  split
  · rename_i r hr
    cases hr.symm.trans hfits
  · rw [haligned]
    exact Chip.coreEnqueue_room (u := 2) hroom _ _

end

/-- Settles O43: the checks of R334 passed, the instruction enters its queue. -/
theorem vectorInstructions : Obligations.Vector_instructions := by
  unfold Obligations.Vector_instructions
  intro i op s k form rd rs1 rs2 t hi hissue ht
  have hexec : exec i s = s.act fun c => c.issue k.val 4 plain fun c => c.issueVec k.val op form.toNat rd rs1 rs2 := by
    repeat' (refine Or.elim hi (fun hi => ?_) fun hi => ?_)
    all_goals
      obtain ⟨rfl, rfl⟩ := hi
      rfl
  refine ⟨fun hform => ?_, ?_⟩
  · refine State.gives_issued hissue hexec ?_
    rw [← ht, Chip.issueVec_form hform]
  · intro y f d n b hform hlisted hrs2 hrs1 hy hyBits hf hd hformats hn hnBits hsig hmx hround hb hroom hranges
    refine State.gives_issued hissue hexec ?_
    rw [← ht]
    exact Chip.issueVec_passes hform hlisted hrs2 hrs1 hy hyBits hf hd hformats hn hnBits hsig hmx hround hb hroom hranges

end Sys2Proof.Machine
end

section
/-! PROOF. DMA and array instructions enter their unit's queue, and the statement `Dma_and_array_instructions`. -/

namespace Sys2Proof.Machine

section
variable {t : Chip} {k : Nat}

/-! ### DMA -/

theorem isFlagged_zero : isFlagged 0 = false := by decide

theorem Chip.issueDcopy_passes {d a n : Word} {e : Target × Target} (hcsrs : (t.core k).badDmaCsrs = false) (hcfg : (t.core k).csr 0x806 = 0)
    (hroom : (t.core k).dmaQ.length < 16) (hn : n.toNat < 2 ^ 32) (hends : t.dmaEnds k d a n.toNat = .ok e) :
    t.issueDcopy k d a n = t.setCore k fun x => (x.enqueue 3 (.dcopy d a n.toNat 0) (sigOf ((t.core k).csr 0x807))).retire 4 := by
  unfold Chip.issueDcopy
  dsimp only
  rw [hcsrs, hcfg, isFlagged_zero, hends, if_neg Bool.false_ne_true, if_neg (by omega)]
  exact Chip.coreEnqueue_room (u := 3) hroom _ _

theorem Chip.issueDcopy2_passes {d a n : Word} {e : Target × Target} (hcsrs : (t.core k).badDmaCsrs = false) (hcfg : (t.core k).csr 0x806 = 0)
    (hstrides : (t.core k).csr 0x808 = 0) (hroom : (t.core k).dmaQ.length < 16) (hn : n.toNat < 2 ^ 32)
    (hends : t.dmaEnds k d a n.toNat = .ok e) :
    t.issueDcopy2 k d a n = t.setCore k fun x => (x.enqueue 3 (.dcopy2 d a n.toNat 1 0 0 0) (sigOf ((t.core k).csr 0x807))).retire 4 := by
  have hbytes : bitsOf n.toNat 31 0 = n.toNat := by
    rw [bitsOf, Nat.pow_zero, Nat.div_one]
    exact Nat.mod_eq_of_lt hn
  have hrows : bitsOf n.toNat 47 32 + 1 = 1 := by
    rw [bitsOf, Nat.div_eq_of_lt hn]
    rfl
  have hone : dmaRows d a 1 0 0 = [(d, a)] := by simp [dmaRows]
  unfold Chip.issueDcopy2
  dsimp only
  rw [hcsrs, hcfg, hstrides, hbytes, hrows, if_neg (by simp; omega)]
  rw [show ((0 : Word).toNat % 2 ^ 32) = 0 from rfl, show ((0 : Word).toNat / 2 ^ 32) = 0 from rfl, hone]
  dsimp only [List.findSome?]
  rw [hends]
  exact Chip.coreEnqueue_room (u := 3) hroom _ _

theorem Chip.issueDfill_passes {d a n : Word} {e : Target} (hcsrs : (t.core k).badDmaCsrs = false) (hcfg : (t.core k).csr 0x806 = 0)
    (hroom : (t.core k).dmaQ.length < 16) (hn : n.toNat < 2 ^ 32) (hend : t.dmaEnd k .wr d n.toNat = .ok e) :
    t.issueDfill k d a n = t.setCore k fun x => (x.enqueue 3 (.dfill d a n.toNat 0) (sigOf ((t.core k).csr 0x807))).retire 4 := by
  unfold Chip.issueDfill
  dsimp only
  rw [hcsrs, hcfg, isFlagged_zero, hend, if_neg Bool.false_ne_true, if_neg (by omega)]
  exact Chip.coreEnqueue_room (u := 3) hroom _ _

/-! ### The array -/

/-- What lies within the core's own memory enters the array's queue. -/
theorem Chip.arrayIssue_fits {op : UnitOp} {w : Word} {l h : Nat} (hprint : op.footprint = some (l, h)) (hl : l < ownBytes k)
    (hh : h ≤ ownBytes k) (hroom : (t.core k).arrayQ.length < 16) :
    t.arrayIssue k op w = t.setCore k fun x => (x.enqueue 1 op (sigOf ((t.core k).csr 0x805))).retire 4 := by
  rw [Chip.arrayIssue, hprint]
  dsimp only
  rw [if_neg (by omega)]
  exact Chip.coreEnqueue_room (u := 1) hroom _ _

theorem wfmtOf_small (w : Word) : wfmtOf w < 16 := by
  unfold wfmtOf bitsOf
  exact Nat.mod_lt _ (by decide)

theorem Chip.issueAmm_passes {stride addr r : Word} {b m row d n : Nat} {p : ArrayPair} {op : UnitOp} {l h : Nat} (hk : k < 256)
    (hcsrs : (t.core k).badArrayCsrs = false) (hr : r.toNat < 2 ^ 23) (hb : b = r.toNat % 4) (hm : m = r.toNat / 4 % 1024 + 1)
    (hrow : row = r.toNat / 4096 % 1024) (hrows : row + m ≤ 1024)
    (hpair : arrayPair (wfmtOf ((t.core k).csr 0x804)) (afmtOf ((t.core k).csr 0x804)) = some p)
    (htag : (t.core k).array.shadowOf b = (true, BitVec.ofNat 4 (wfmtOf ((t.core k).csr 0x804)), d, n))
    (htile : tileOk p (wfmtOf ((t.core k).csr 0x804)) d = true)
    (hop : op = .amm stride.toNat (arrayAddr k addr) b m row (r.getLsbD 22) false ((t.core k).csr 0x804) d n)
    (hprint : op.footprint = some (l, h)) (hl : l < ownBytes k) (hh : h ≤ ownBytes k) (hroom : (t.core k).arrayQ.length < 16) :
    t.issueAmm k stride addr r = t.setCore k fun x => (x.enqueue 1 op (sigOf ((t.core k).csr 0x805))).retire 4 := by
  have hbank : bitsOf r.toNat 1 0 = b := by rw [bitsOf, hb, Nat.pow_zero, Nat.div_one]; rfl
  have hcount : bitsOf r.toNat 11 2 + 1 = m := by rw [bitsOf, hm]; rfl
  have hfirst : bitsOf r.toNat 21 12 = row := by rw [bitsOf, hrow]; rfl
  have hdense : r.getLsbD 23 = false := Nat.testBit_eq_false_of_lt hr
  have hformat : (BitVec.ofNat 4 (wfmtOf ((t.core k).csr 0x804))).toNat = wfmtOf ((t.core k).csr 0x804) := by
    rw [BitVec.toNat_ofNat]
    exact Nat.mod_eq_of_lt (wfmtOf_small _)
  unfold Chip.issueAmm
  dsimp only
  rw [hbank, hcount, hfirst, hdense, htag, hcsrs, hpair]
  dsimp only
  rw [if_neg (by simp; omega), hformat, htile, if_neg (by simp), if_neg (by omega), ← hop]
  exact Chip.arrayIssue_fits hprint hl hh hroom

theorem Chip.issueAdrain_passes {dst r stride : Word} {row rows : Nat} {op : UnitOp} {l h : Nat} (hk : k < 256)
    (hcsrs : (t.core k).badArrayCsrs = false) (hr : r.toNat < 2 ^ 21) (hrow : row = r.toNat % 1024)
    (hrows : rows = r.toNat / 1024 % 1024 + 1) (hfits : row + rows ≤ 1024) (hformat : drainFormat (ofmtOf ((t.core k).csr 0x804)) = true)
    (hop : op = .adrain (arrayAddr k dst) row rows (r.getLsbD 20) stride.toNat ((t.core k).csr 0x804))
    (hprint : op.footprint = some (l, h)) (hl : l < ownBytes k) (hh : h ≤ ownBytes k) (hroom : (t.core k).arrayQ.length < 16) :
    t.issueAdrain k dst r stride = t.setCore k fun x => (x.enqueue 1 op (sigOf ((t.core k).csr 0x805))).retire 4 := by
  have hfirst : bitsOf r.toNat 9 0 = row := by rw [bitsOf, hrow, Nat.pow_zero, Nat.div_one]; rfl
  have hcount : bitsOf r.toNat 19 10 + 1 = rows := by rw [bitsOf, hrows]; rfl
  unfold Chip.issueAdrain
  dsimp only
  rw [hfirst, hcount, hcsrs, hformat, if_neg (by simp; omega), if_neg (by omega), ← hop]
  exact Chip.arrayIssue_fits hprint hl hh hroom

theorem Chip.issueAclr_passes {r : Word} {row rows : Nat} (hk : k < 256) (hcsrs : (t.core k).badArrayCsrs = false) (hr : r.toNat < 2 ^ 20)
    (hrow : row = r.toNat % 1024) (hrows : rows = r.toNat / 1024 % 1024 + 1) (hfits : row + rows ≤ 1024)
    (hroom : (t.core k).arrayQ.length < 16) :
    t.issueAclr k 0 r = t.setCore k fun x => (x.enqueue 1 (.aclr row rows) (sigOf ((t.core k).csr 0x805))).retire 4 := by
  have hfirst : bitsOf r.toNat 9 0 = row := by rw [bitsOf, hrow, Nat.pow_zero, Nat.div_one]; rfl
  have hcount : bitsOf r.toNat 19 10 + 1 = rows := by rw [bitsOf, hrows]; rfl
  unfold Chip.issueAclr
  dsimp only
  rw [hfirst, hcount, hcsrs, if_neg (by simp; omega), if_neg (by omega)]
  exact Chip.coreEnqueue_room (u := 1) hroom _ _

/-- XALDW enters the array's queue, and sets the bank's tag in the shadow. -/
theorem Chip.issueAldw_passes {stride addr r : Word} {b d n : Nat} {p : ArrayPair} {op : UnitOp} {l h : Nat} (hk : k < 256)
    (hissuing : (t.core k).kernel.isSome = true ∧ (t.core k).ended = false) (hcsrs : (t.core k).badArrayCsrs = false)
    (hr : r.toNat < 2 ^ 17) (hb : b = r.toNat % 4) (hd : d = r.toNat / 4 % 128 + 1) (hn : n = r.toNat / 512 % 256 + 1)
    (hpair : arrayPair (wfmtOf ((t.core k).csr 0x804)) (afmtOf ((t.core k).csr 0x804)) = some p)
    (htile : tileOk p (wfmtOf ((t.core k).csr 0x804)) d = true) (hstride : fmtMx (wfmtOf ((t.core k).csr 0x804)) = true → n ≤ stride.toNat)
    (hop : op = .aldw stride.toNat (arrayAddr k addr) b d n ((t.core k).csr 0x804))
    (hprint : op.footprint = some (l, h)) (hl : l < ownBytes k) (hh : h ≤ ownBytes k) (hroom : (t.core k).arrayQ.length < 16) :
    t.issueAldw k stride addr r = (t.setCore k fun x => (x.enqueue 1 op (sigOf ((t.core k).csr 0x805))).retire 4).setCore k fun x =>
      { x with array := { x.array with
        shadow := Tab.set (false, 0, 0, 0) x.array.shadow b (true, BitVec.ofNat 4 (wfmtOf ((t.core k).csr 0x804)), d, n) } } := by
  have hbank : bitsOf r.toNat 1 0 = b := by rw [bitsOf, hb, Nat.pow_zero, Nat.div_one]; rfl
  have hdepth : bitsOf r.toNat 8 2 + 1 = d := by rw [bitsOf, hd]; rfl
  have hcolumns : bitsOf r.toNat 16 9 + 1 = n := by rw [bitsOf, hn]; rfl
  have hpasses : (!tileOk p (wfmtOf ((t.core k).csr 0x804)) d || (fmtMx (wfmtOf ((t.core k).csr 0x804)) && decide (stride.toNat < n))) = false := by
    rw [htile, Bool.not_true, Bool.false_or, Bool.and_eq_false_imp]
    exact fun hmx => decide_eq_false (Nat.not_lt.mpr (hstride hmx))
  unfold Chip.issueAldw
  dsimp only
  rw [hbank, hdepth, hcolumns, hcsrs, hpair, if_neg (by simp; omega)]
  dsimp only
  rw [hpasses, if_neg Bool.false_ne_true, ← hop, Chip.arrayIssue_fits hprint hl hh hroom]
  refine Chip.when_pos ?_
  rw [Chip.setCore_same]
  change (decide ((t.core k).arrayQ.length < 16) && (t.core k).kernel.isSome && !(t.core k).ended) = true
  rw [hissuing.1, hissuing.2, decide_eq_true hroom]
  rfl

end

/-- Settles O44: the checks passed, the instruction enters its queue. -/
theorem dmaAndArrayInstructions : Obligations.Dma_and_array_instructions := by
  unfold Obligations.Dma_and_array_instructions
  refine ⟨?_, ?_, ?_, ?_, ?_, ?_⟩
  · intro s k i op rd rs1 rs2 t d a n e hissue ht hd ha hn hcsrs hcfg hroom hi
    rcases hi with ⟨rfl, hlen, hends, rfl⟩ | ⟨rfl, hlen, hstrides, hends, rfl⟩ | ⟨rfl, hlen, hend, rfl⟩
    · refine State.gives_issued hissue rfl ?_
      dsimp only
      rw [← ht, ← hd, ← ha, ← hn, Chip.issueDcopy_passes hcsrs hcfg hroom hlen hends]
    · refine State.gives_issued hissue rfl ?_
      dsimp only
      rw [← ht, ← hd, ← ha, ← hn, Chip.issueDcopy2_passes hcsrs hcfg hstrides hroom hlen hends]
    · refine State.gives_issued hissue rfl ?_
      dsimp only
      rw [← ht, ← hd, ← ha, ← hn, Chip.issueDfill_passes hcsrs hcfg hroom hlen hend]
  · intro s k rd rs1 rs2 t w b d n p op l h hissue ht hk hcsrs hw hr hb hd hn hpair htile hstride hop hprint hl hh hroom
    have hissuing : (t.core k.val).kernel.isSome = true ∧ (t.core k.val).ended = false := by
      obtain ⟨_, hissuing, _⟩ := hissue
      simp only [CoreSt.issuing, Bool.and_eq_true, Bool.not_eq_true'] at hissuing
      rw [ht, Chip.fetched_core]
      exact hissuing.1
    refine State.gives_issued hissue rfl ?_
    dsimp only
    rw [← ht, ← hw, Chip.issueAldw_passes hk hissuing hcsrs hr hb hd hn hpair htile hstride hop hprint hl hh hroom, Chip.setCore_same,
      Chip.setCore_same]
    refine ⟨rfl, ?_, rfl, fun j hj => ?_, ?_⟩
    · rw [ArraySt.shadowOf, Tab.get_set_same]
    · rw [Chip.setCore_other _ _ _ _ hj, Chip.setCore_other _ _ _ _ hj, ht, Chip.fetched_core_other _ _ hj]
    · rw [ht]
      rfl
  · intro s k rd rs1 rs2 t w b m row d n p op l h hissue ht hk hcsrs hw hr hb hm hrow hrows hpair htag htile hop hprint hl hh hroom
    refine State.gives_issued hissue rfl ?_
    dsimp only
    rw [← ht, ← hw, Chip.issueAmm_passes hk hcsrs hr hb hm hrow hrows hpair htag htile hop hprint hl hh hroom]
  · intro s k rd rs1 rs2 t w row rows op l h hissue ht hk hcsrs hw hr hrow hrows hfits hformat hop hprint hl hh hroom
    refine State.gives_issued hissue rfl ?_
    dsimp only
    rw [← ht, ← hw, Chip.issueAdrain_passes hk hcsrs hr hrow hrows hfits hformat hop hprint hl hh hroom]
  · intro s k rs1 rs2 t w row rows hissue ht hk hcsrs hw hr hrow hrows hfits hroom
    refine State.gives_issued hissue rfl ?_
    rw [← ht, ← hw]
    exact Chip.issueAclr_passes hk hcsrs hr hrow hrows hfits hroom
  · intro s k i rd rs1 rs2 hissue hk hi
    rcases hi with rfl | rfl | rfl | rfl
    · exact State.gives_issued hissue rfl (if_pos (.inl hk))
    · exact State.gives_issued hissue rfl (if_pos (.inl hk))
    · exact State.gives_issued hissue rfl (if_pos (.inl hk))
    · exact State.gives_issued hissue rfl (if_pos (.inl hk))

end Sys2Proof.Machine
end

section
/-! PROOF. Units start, wait and complete what is at the head of their queues, and the statement `Units_at_work`. -/

namespace Sys2Proof.Machine

section
variable {s : Chip} {k : Nat}

/-- Two updates that agree on a core update the chip alike. -/
theorem Chip.setCore_congr {f g : CoreSt → CoreSt} (h : f (s.core k) = g (s.core k)) : s.setCore k f = s.setCore k g := by
  simp only [Chip.setCore, Tab.modify]
  exact congrArg (fun x => { s with cores := Tab.set CoreSt.reset s.cores k x }) h

/-- What is no wait at the head of a queue stays there. -/
theorem Chip.pastWaits_op {i : UnitInstr} (r : List UnitInstr) (h : i.op.isWait = false) : s.pastWaits k (i :: r) = i :: r := by
  unfold Chip.pastWaits
  split
  · rename_i ctr threshold hop
    rw [hop] at h
    cases h
  · rfl

theorem Chip.pastWaits_unmet {u : UnitInstr} {j : Nat} {w : Word} (r : List UnitInstr) (hop : u.op = .wait j w)
    (hunmet : (s.coreCounter k j).value.toNat < w.toNat) : s.pastWaits k (u :: r) = u :: r := by
  rw [Chip.pastWaits, hop]
  exact if_neg (Nat.not_le.mpr hunmet)

theorem Chip.pastWaits_met {u : UnitInstr} {j : Nat} {w : Word} (hop : u.op = .wait j w)
    (hmet : w.toNat ≤ (s.coreCounter k j).value.toNat) : s.pastWaits k [u] = [] := by
  rw [Chip.pastWaits, hop]
  exact if_pos hmet

/-- The head of a queue starts. -/
theorem Chip.unitStart_op {u : Nat} {i : UnitInstr} {r : List UnitInstr} {ok : UnitInstr → Bool} {run : Chip → UnitInstr → Chip}
    (hqueue : (s.core k).unitQ u = i :: r) (hop : i.op.isWait = false) (hok : ok i = true) :
    s.unitStart k u ok run = run (((s.setCore k fun x => x.setUnitQ u (i :: r)).setCore k fun x =>
      (x.setUnitQ u r).setUnitRun u (x.unitRun u ++ [i])).noteLocalWaits k) i := by
  have hset : (s.setCore k fun x => x.setUnitQ u (s.pastWaits k (x.unitQ u))) = s.setCore k fun x => x.setUnitQ u (i :: r) :=
    Chip.setCore_congr (by rw [hqueue, Chip.pastWaits_op r hop])
  unfold Chip.unitStart
  dsimp only
  rw [hqueue, Chip.pastWaits_op r hop, hset]
  dsimp only
  rw [hop, hok]
  rfl

/-- An unmet wait at the head of a queue stays, and is noted. -/
theorem Chip.unitStart_unmet {q : Nat} {u : UnitInstr} {r : List UnitInstr} {j : Nat} {w : Word} {ok : UnitInstr → Bool}
    {run : Chip → UnitInstr → Chip} (hqueue : (s.core k).unitQ q = u :: r) (hop : u.op = .wait j w)
    (hunmet : (s.coreCounter k j).value.toNat < w.toNat) :
    s.unitStart k q ok run = (s.setCore k fun x => x.setUnitQ q (u :: r)).noteLocalWaits k := by
  have hset : (s.setCore k fun x => x.setUnitQ q (s.pastWaits k (x.unitQ q))) = s.setCore k fun x => x.setUnitQ q (u :: r) :=
    Chip.setCore_congr (by rw [hqueue, Chip.pastWaits_unmet r hop hunmet])
  have hlater (f : CoreSt → CoreSt) : (s.setCore k f).pastWaits k (u :: r) = u :: r := Chip.pastWaits_unmet r hop hunmet
  have hwait : u.op.isWait = true := by rw [hop]; rfl
  unfold Chip.unitStart
  dsimp only
  rw [hqueue, hlater, hset]
  dsimp only
  rw [hwait]
  rfl

/-- With only met waits in its queue nothing starts, and a core that has nothing else left ends. -/
theorem Chip.unitStart_met {q : Nat} {u : UnitInstr} {j : Nat} {w : Word} {ok : UnitInstr → Bool} {run : Chip → UnitInstr → Chip}
    (hqueue : (s.core k).unitQ q = [u]) (hop : u.op = .wait j w) (hmet : w.toNat ≤ (s.coreCounter k j).value.toNat) :
    s.unitStart k q ok run = (s.setCore k fun x => x.setUnitQ q []).coreEndIf k := by
  have hpast : s.pastWaits k [u] = [] := Chip.pastWaits_met hop hmet
  have hlater (f : CoreSt → CoreSt) : (s.setCore k f).pastWaits k [u] = [] := Chip.pastWaits_met hop hmet
  have hset : (s.setCore k fun x => x.setUnitQ q (s.pastWaits k (x.unitQ q))) = s.setCore k fun x => x.setUnitQ q [] :=
    Chip.setCore_congr (by rw [hqueue, hpast])
  unfold Chip.unitStart
  dsimp only
  rw [hqueue, hlater, hset]

/-! ### Noting the waits of a core's own counters -/

theorem Chip.noteLocalWaits_core (s : Chip) (k : Nat) : (s.noteLocalWaits k).core k =
    { s.core k with localWaits := ((s.noteLocalWaits k).core k).localWaits } := by
  rw [Chip.noteLocalWaits, Chip.setCore_same]

theorem Chip.noteLocalWaits_core_other {j : Nat} (h : j ≠ k) : (s.noteLocalWaits k).core j = s.core j := Chip.setCore_other _ _ _ _ h

theorem Chip.noteLocalWaits_mem {x : Nat × Nat × Nat} (h : x ∈ s.localWaits k) : x ∈ ((s.noteLocalWaits k).core k).localWaits := by
  rw [Chip.noteLocalWaits, Chip.setCore_same, List.mem_append, List.mem_filter, List.mem_filter]
  by_cases hold : x ∈ (s.core k).localWaits
  · exact .inl ⟨hold, by simpa using h⟩
  · exact .inr ⟨h, by simpa using hold⟩

/-- An unmet wait at the head of a queue is one of the waits of the core. -/
theorem Chip.localWaits_of_unmet {q : Nat} {u : UnitInstr} {j : Nat} {w : Word} (hq : q ∈ [1, 2, 3])
    (hqueue : ((s.core k).unitQ q).head? = some u) (hop : u.op = .wait j w) (hunmet : (s.coreCounter k j).value.toNat < w.toNat) :
    (q, j, u.id) ∈ s.localWaits k := by
  unfold Chip.localWaits
  refine List.mem_append_right _ (List.mem_filterMap.mpr ⟨q, hq, ?_⟩)
  rw [hqueue]
  dsimp only
  rw [hop]
  exact if_pos (decide_eq_true hunmet)

/-! ### Units that start -/

theorem gives_arrayInstrStart (s : State) (k : Fin 264) (i : UnitInstr) (r : List UnitInstr) (hlive : s.live = true)
    (hawake : (s.core k.val).unitFallow = 0) (hqueue : (s.core k.val).arrayQ = i :: r) (hop : i.op.isWait = false)
    (hidle : (s.core k.val).arrayRun = []) : s.gives (.arrayInstrStart k) fun c =>
      (c.core k.val).arrayQ = r ∧ (c.core k.val).arrayRun = [i] ∧ (∀ j, j ≠ k.val → c.core j = s.core j) ∧
      c = { s.toChip with cores := c.cores } := by
  refine State.gives_live (f := fun c => c.when (!((c.core k.val).unitFallow.getLsbD 1)) fun c =>
    c.unitStart k.val 1 (fun i => (c.core k.val).arrayRun.all fun e => !(mustWait i.op e.op)) fun c _ => c) rfl hlive ?_
  rw [hawake, Chip.when_pos (by decide), Chip.unitStart_op (u := 1) hqueue hop (by rw [hidle]; rfl), Chip.noteLocalWaits_core, Chip.setCore_same,
    Chip.setCore_same]
  refine ⟨rfl, ?_, fun j hj => ?_, rfl⟩
  · change (s.core k.val).arrayRun ++ [i] = [i]
    rw [hidle]
    rfl
  · rw [Chip.noteLocalWaits_core_other hj, Chip.setCore_other _ _ _ _ hj, Chip.setCore_other _ _ _ _ hj]

theorem gives_vectorInstrStart (s : State) (k : Fin 264) (i : UnitInstr) (r : List UnitInstr) (hlive : s.live = true)
    (hawake : (s.core k.val).unitFallow = 0) (hqueue : (s.core k.val).vectorQ = i :: r) (hop : i.op.isWait = false)
    (hidle : (s.core k.val).vectorRun = []) : s.gives (.vectorInstrStart k) fun c =>
      (c.core k.val).vectorQ = r ∧ (c.core k.val).vectorRun = [i] ∧ (∀ j, j ≠ k.val → c.core j = s.core j) ∧
      c = { s.toChip with cores := c.cores } := by
  refine State.gives_live (f := fun c => c.when (!((c.core k.val).unitFallow.getLsbD 2)) fun c =>
    c.unitStart k.val 2 (fun i => (c.core k.val).vectorRun.all fun e => !(vecWaits i.op e.op)) fun c _ => c) rfl hlive ?_
  rw [hawake, Chip.when_pos (by decide), Chip.unitStart_op (u := 2) hqueue hop (by rw [hidle]; rfl), Chip.noteLocalWaits_core, Chip.setCore_same,
    Chip.setCore_same]
  refine ⟨rfl, ?_, fun j hj => ?_, rfl⟩
  · change (s.core k.val).vectorRun ++ [i] = [i]
    rw [hidle]
    rfl
  · rw [Chip.noteLocalWaits_core_other hj, Chip.setCore_other _ _ _ _ hj, Chip.setCore_other _ _ _ _ hj]

/-- A wait that is not met holds its queue back. -/
theorem Chip.unitStart_holds {q : Nat} {u : UnitInstr} {j : Nat} {w : Word} {ok : UnitInstr → Bool} {run : Chip → UnitInstr → Chip}
    (hq : q ∈ [1, 2, 3]) (hqueue : (s.core k).unitQ q = [u]) (hop : u.op = .wait j w) (hunmet : (s.coreCounter k j).value.toNat < w.toNat) :
    (s.unitStart k q ok run).core k = { s.core k with localWaits := ((s.unitStart k q ok run).core k).localWaits } ∧
      (∃ n, (n, j, u.id) ∈ ((s.unitStart k q ok run).core k).localWaits) ∧
      s.unitStart k q ok run = { s with cores := (s.unitStart k q ok run).cores } := by
  rw [Chip.unitStart_unmet hqueue hop hunmet]
  have hsame (x : CoreSt) : x.setUnitQ q (x.unitQ q) = x := by
    unfold CoreSt.setUnitQ CoreSt.unitQ
    split
    · rfl
    · split <;> rfl
  have hcore : (s.setCore k fun x => x.setUnitQ q [u]).core k = s.core k := by
    rw [Chip.setCore_same, ← hqueue, hsame]
  refine ⟨?_, ⟨q, Chip.noteLocalWaits_mem ?_⟩, rfl⟩
  · exact (Chip.noteLocalWaits_core _ k).trans (by rw [hcore])
  · exact Chip.localWaits_of_unmet hq (by rw [hcore, hqueue]; rfl) hop hunmet

/-! ### Units that complete -/

/-- A core whose kernel goes on does not end. -/
theorem Chip.coreEndIf_goesOn (hended : (s.core k).ended = false) : s.coreEndIf k = s := by
  unfold Chip.coreEndIf
  exact if_neg (by simp [hended])

/-- A core whose kernel has ended and that has nothing left is idle, with its memory as it was. -/
theorem Chip.coreEndIf_ends {y : KernelCtx} (hkernel : (s.core k).kernel = some y) (hended : (s.core k).ended = true)
    (hidle : (s.core k).unitsIdle = true) (hstores : (s.core k).storesOut = 0) (honline : (s.core k).drainOffline = false) :
    ((s.coreEndIf k).core k).state = .idle ∧ ((s.coreEndIf k).core k).kernel = none ∧ (s.coreEndIf k).mem = s.mem := by
  have hbench : (s.coreEndIf k).bench = (s.setCore k CoreSt.atEnd).bench := by
    rw [Chip.coreEndIf_bench, if_pos]
    simp [hkernel, hended, hidle, hstores]
  obtain ⟨_, hgone, hstate, _, _, _⟩ := CoreSt.atEnd_keeps (s.core k)
  rw [Chip.core_of_bench hbench, Chip.setCore_same, Chip.mem_of_bench hbench]
  exact ⟨by rw [hstate, honline]; rfl, hgone, rfl⟩

theorem gives_dmaWaitMet (s : State) (k : Fin 264) (u : UnitInstr) (y : KernelCtx) (j : Nat) (w : Word) (hlive : s.live = true)
    (hawake : (s.core k.val).unitFallow = 0) (hqueue : (s.core k.val).dmaQ = [u]) (hop : u.op = .wait j w)
    (hmet : w.toNat ≤ (s.coreCounter k.val j).value.toNat) (harrayQ : (s.core k.val).arrayQ = []) (hvectorQ : (s.core k.val).vectorQ = [])
    (harray : (s.core k.val).arrayRun = []) (hvector : (s.core k.val).vectorRun = []) (hdma : (s.core k.val).dmaRun = [])
    (hstores : (s.core k.val).storesOut = 0) (hended : (s.core k.val).ended = true) (hkernel : (s.core k.val).kernel = some y)
    (honline : (s.core k.val).drainOffline = false) : s.gives (.dmaInstrStart k) fun c =>
      (c.core k.val).state = .idle ∧ (c.core k.val).kernel = none ∧ c.mem = s.mem := by
  refine State.gives_live (f := fun c => c.when (!((c.core k.val).unitFallow.getLsbD 3)) fun c =>
    c.unitStart k.val 3 (fun _ => true) fun c i => c.dmaRun k.val i) rfl hlive ?_
  rw [hawake, Chip.when_pos (by decide), Chip.unitStart_met (q := 3) hqueue hop hmet]
  have hcore : (s.toChip.setCore k.val fun x => x.setUnitQ 3 []).core k.val = { s.core k.val with dmaQ := [] } := Chip.setCore_same ..
  refine Chip.coreEndIf_ends (y := y) ?_ ?_ ?_ ?_ ?_ <;> rw [hcore]
  · exact hkernel
  · exact hended
  · simp [CoreSt.unitsIdle, harrayQ, hvectorQ, harray, hvector, hdma]
  · exact hstores
  · exact honline

theorem gives_unitWaits (s : State) (k : Fin 264) (i : Instr) (u : UnitInstr) (j : Nat) (w : Word) (hlive : s.live = true)
    (hawake : (s.core k.val).unitFallow = 0) (hop : u.op = .wait j w) (hunmet : (s.coreCounter k.val j).value.toNat < w.toNat)
    (hi : (i = .arrayInstrStart k ∧ (s.core k.val).arrayQ = [u]) ∨ (i = .vectorInstrStart k ∧ (s.core k.val).vectorQ = [u]) ∨
      (i = .dmaInstrStart k ∧ (s.core k.val).dmaQ = [u])) : s.gives i fun c =>
      c.core k.val = { s.core k.val with localWaits := (c.core k.val).localWaits } ∧
      (∃ n, (n, j, u.id) ∈ (c.core k.val).localWaits) ∧ c = { s.toChip with cores := c.cores } := by
  rcases hi with ⟨rfl, hqueue⟩ | ⟨rfl, hqueue⟩ | ⟨rfl, hqueue⟩
  · refine State.gives_live (f := fun c => c.when (!((c.core k.val).unitFallow.getLsbD 1)) fun c =>
      c.unitStart k.val 1 (fun i => (c.core k.val).arrayRun.all fun e => !(mustWait i.op e.op)) fun c _ => c) rfl hlive ?_
    rw [hawake, Chip.when_pos (by decide)]
    exact Chip.unitStart_holds (by decide) hqueue hop hunmet
  · refine State.gives_live (f := fun c => c.when (!((c.core k.val).unitFallow.getLsbD 2)) fun c =>
      c.unitStart k.val 2 (fun i => (c.core k.val).vectorRun.all fun e => !(vecWaits i.op e.op)) fun c _ => c) rfl hlive ?_
    rw [hawake, Chip.when_pos (by decide)]
    exact Chip.unitStart_holds (by decide) hqueue hop hunmet
  · refine State.gives_live (f := fun c => c.when (!((c.core k.val).unitFallow.getLsbD 3)) fun c =>
      c.unitStart k.val 3 (fun _ => true) fun c i => c.dmaRun k.val i) rfl hlive ?_
    rw [hawake, Chip.when_pos (by decide)]
    exact Chip.unitStart_holds (by decide) hqueue hop hunmet

/-- A core without the instruction among those its unit runs. -/
def CoreSt.without (x : CoreSt) (u : Nat) (i : UnitInstr) : CoreSt := x.setUnitRun u ((x.unitRun u).filter (·.id != i.id))

theorem CoreSt.filter_self (i : UnitInstr) : [i].filter (·.id != i.id) = [] := by simp

/-- A DMA instruction without a fault and without a signal only leaves its unit. -/
theorem Chip.unitEnd_silent {i : UnitInstr} (hsig : i.sig = none) (hended : (s.core k).ended = false) :
    s.unitEnd k 3 i 0 .ok 0 = s.setCore k fun x => x.without 3 i := by
  unfold Chip.unitEnd
  dsimp only
  rw [hsig, if_pos rfl, if_neg (by simp), if_neg (by simp)]
  exact Chip.coreEndIf_goesOn (by rw [Chip.setCore_same]; exact hended)

/-- A DMA instruction without a fault signals as it leaves its unit. -/
theorem Chip.unitEnd_signals {i : UnitInstr} {j : Nat} (hsig : i.sig = some j) (hended : (s.core k).ended = false)
    (hfits : (s.coreCounter k j).value.toNat + 1 < 2 ^ 64) :
    s.unitEnd k 3 i 0 .ok 0 = (s.setCore k fun x => x.without 3 i).localAdd k j 1 (.core k 3) := by
  unfold Chip.unitEnd
  dsimp only
  rw [hsig, if_pos rfl, if_neg (by simp), if_neg (by simp)]
  refine Chip.coreEndIf_goesOn ?_
  dsimp only
  rw [Chip.localAdd_fits _ hfits]
  change ((s.setCore k fun x => x.without 3 i).core k).ended = false
  rw [Chip.setCore_same]
  exact hended

/-- An array instruction without a fault and without a signal leaves its unit, and one on a core is counted. -/
theorem Chip.unitEnd_array {i : UnitInstr} (hcore : k < 256) (hsig : i.sig = none) (hended : (s.core k).ended = false) :
    s.unitEnd k 1 i 0 .ok 0 = (s.setCore k fun x => x.without 1 i).bump (O.arrayInstrs + 256 * k) 1 := by
  unfold Chip.unitEnd
  dsimp only
  rw [hsig, if_pos rfl, if_pos (by simpa using hcore)]
  refine Chip.coreEndIf_goesOn ?_
  change ((s.setCore k fun x => x.without 1 i).core k).ended = false
  rw [Chip.setCore_same]
  exact hended

theorem Chip.unitComplete_dma {i : UnitInstr} (hrun : (s.core k).dmaRun = [i]) (hanswered : i.outstanding = 0) (hfault : i.fault = none) :
    s.unitComplete k 3 0 false = s.unitEnd k 3 i 0 .ok 0 := by
  have hhead : ((s.core k).unitRun 3)[0]? = some i := by
    change (s.core k).dmaRun[0]? = some i
    rw [hrun]
    rfl
  simp only [Chip.unitComplete, hhead, Chip.dmaComplete, hanswered, hfault, Chip.when]
  rfl

theorem gives_dmaComplete (s : State) (k : Fin 264) (i : UnitInstr) (hlive : s.live = true) (hrun : (s.core k.val).dmaRun = [i])
    (hanswered : i.outstanding = 0) (hfault : i.fault = none) (hsig : i.sig = none) (hended : (s.core k.val).ended = false) :
    s.gives (.unitInstrComplete k 3 0 false) fun c => (c.core k.val).dmaRun = [] ∧ (∀ j, j ≠ k.val → c.core j = s.core j) ∧
      c = { s.toChip with cores := c.cores } := by
  refine State.gives_live (f := fun c => c.unitComplete k.val 3 0 false) rfl hlive ?_
  rw [Chip.unitComplete_dma hrun hanswered hfault, Chip.unitEnd_silent hsig hended, Chip.setCore_same]
  refine ⟨?_, fun j hj => Chip.setCore_other _ _ _ _ hj, rfl⟩
  change (s.core k.val).dmaRun.filter (·.id != i.id) = []
  rw [hrun, CoreSt.filter_self]

theorem gives_dmaSignals (s : State) (k : Fin 264) (i : UnitInstr) (j : Nat) (hlive : s.live = true)
    (hrun : (s.core k.val).dmaRun = [i]) (hanswered : i.outstanding = 0) (hfault : i.fault = none) (hsig : i.sig = some j)
    (hended : (s.core k.val).ended = false) (hfits : (s.coreCounter k.val j).value.toNat + 1 < 2 ^ 64) :
    s.gives (.unitInstrComplete k 3 0 false) fun c => (c.core k.val).dmaRun = [] ∧
      (c.coreCounter k.val j).value = (s.coreCounter k.val j).value + 1 ∧ c.mem = s.mem ∧ c.log = s.log := by
  refine State.gives_live (f := fun c => c.unitComplete k.val 3 0 false) rfl hlive ?_
  rw [Chip.unitComplete_dma hrun hanswered hfault, Chip.unitEnd_signals hsig hended hfits, Chip.localAdd_fits _ hfits,
    Chip.coreCounter_setCoreCounter]
  refine ⟨?_, rfl, rfl, rfl⟩
  change ((s.toChip.setCore k.val fun x => x.without 3 i).core k.val).dmaRun = []
  rw [Chip.setCore_same]
  change (s.core k.val).dmaRun.filter (·.id != i.id) = []
  rw [hrun, CoreSt.filter_self]

/-! ### XACLR (R322) -/

/-- An array with its rows from `row` on empty. -/
def ArraySt.clearRows (a : ArraySt) (row rows : Nat) : ArraySt :=
  (List.range rows).foldl (fun a j => a.setRow (row + j) AccRow.empty) a

theorem ArraySt.setRow_same (a : ArraySt) (j : Nat) (v : AccRow) : (a.setRow j v).row j = v := Tab.get_set_same ..
theorem ArraySt.setRow_other (a : ArraySt) (v : AccRow) {j m : Nat} (h : m ≠ j) : (a.setRow j v).row m = a.row m := Tab.get_set_ne _ _ _ _ _ h

theorem ArraySt.clearRows_succ (a : ArraySt) (row n : Nat) :
    a.clearRows row (n + 1) = (a.clearRows row n).setRow (row + n) AccRow.empty := by
  simp [ArraySt.clearRows, List.range_succ]

theorem ArraySt.clearRows_row (a : ArraySt) (row rows j : Nat) : (a.clearRows row rows).row j =
    if row ≤ j ∧ j < row + rows then AccRow.empty else a.row j := by
  induction rows with
  | zero => exact (if_neg (by omega)).symm
  | succ n ih =>
    rw [ArraySt.clearRows_succ]
    by_cases hlast : j = row + n
    · rw [hlast, ArraySt.setRow_same, if_pos (by omega)]
    · rw [ArraySt.setRow_other _ _ hlast, ih]
      exact if_congr (by omega) rfl rfl

theorem ArraySt.clearRows_banks (a : ArraySt) (row rows : Nat) : (a.clearRows row rows).banks = a.banks := by
  induction rows with
  | zero => rfl
  | succ n ih => rw [ArraySt.clearRows_succ]; exact ih

theorem Chip.unitComplete_aclr {i : UnitInstr} {row rows : Nat} (hrun : (s.core k).arrayRun = [i]) (hop : i.op = .aclr row rows) :
    s.unitComplete k 1 0 false = (s.setArray k fun a => a.clearRows row rows).unitEnd k 1 i 0 .ok 0 := by
  have hhead : ((s.core k).unitRun 1)[0]? = some i := by
    change (s.core k).arrayRun[0]? = some i
    rw [hrun]
    rfl
  have holdest : ((s.core k).arrayRun.find? (·.op.engine == i.op.engine)).any (·.id == i.id) = true := by
    rw [hrun]
    simp
  simp only [Chip.unitComplete, hhead, Chip.arrayComplete, holdest, Chip.when, Chip.aclrDone, ArraySt.clearRows]
  rw [hop]
  rfl

theorem gives_aclrComplete (s : State) (k : Fin 264) (i : UnitInstr) (row rows : Nat) (hlive : s.live = true) (hcore : k.val < 256)
    (hrun : (s.core k.val).arrayRun = [i]) (hop : i.op = .aclr row rows) (hsig : i.sig = none) (hended : (s.core k.val).ended = false) :
    s.gives (.unitInstrComplete k 1 0 false) fun c =>
      (c.core k.val).arrayRun = [] ∧ (∀ j, row ≤ j → j < row + rows → (c.core k.val).array.row j = AccRow.empty) ∧
      (∀ j, j < row ∨ row + rows ≤ j → (c.core k.val).array.row j = (s.core k.val).array.row j) ∧
      (c.core k.val).array.banks = (s.core k.val).array.banks ∧ c = { s.toChip with cores := c.cores, objs := c.objs } := by
  refine State.gives_live (f := fun c => c.unitComplete k.val 1 0 false) rfl hlive ?_
  have hgoesOn : ((s.toChip.setArray k.val fun a => a.clearRows row rows).core k.val).ended = false :=
    (congrArg CoreSt.ended (Chip.setCore_same s.toChip k.val _)).trans hended
  have hdone (x : CoreSt → CoreSt) (n m : Nat) : (((s.toChip.setArray k.val fun a => a.clearRows row rows).setCore k.val x).bump n m).core
      k.val = x { s.core k.val with array := (s.core k.val).array.clearRows row rows } := by
    rw [Chip.bump_core, Chip.setCore_same, Chip.setArray, Chip.setCore_same]
  rw [Chip.unitComplete_aclr hrun hop, Chip.unitEnd_array hcore hsig hgoesOn, hdone]
  refine ⟨?_, fun j hlow hhigh => ?_, fun j hj => ?_, ArraySt.clearRows_banks _ _ _, rfl⟩
  · change (s.core k.val).arrayRun.filter (·.id != i.id) = []
    rw [hrun, CoreSt.filter_self]
  · exact (ArraySt.clearRows_row _ _ _ _).trans (if_pos ⟨hlow, hhigh⟩)
  · exact (ArraySt.clearRows_row _ _ _ _).trans (if_neg (by omega))

end

/-- Settles O45: each unit's start and completion is one of the shapes of `unitStart` and `unitEnd`: the head starts, a wait
holds or passes, an instruction leaves its unit with or without a signal. -/
theorem unitsAtWork : Obligations.Units_at_work := by
  refine ⟨gives_arrayInstrStart, gives_vectorInstrStart, ?_, gives_unitWaits, ?_, gives_dmaComplete, gives_dmaSignals, gives_aclrComplete⟩
  · intro s k i r hlive hawake hqueue hop
    refine State.gives_live (f := fun c => c.when (!((c.core k.val).unitFallow.getLsbD 3)) fun c =>
      c.unitStart k.val 3 (fun _ => true) fun c i => c.dmaRun k.val i) rfl hlive ?_
    rw [hawake, Chip.when_pos (by decide), Chip.unitStart_op (u := 3) hqueue hop rfl]
  · intro s k u y j w hlive hawake hqueue hop hmet harrayQ hvectorQ harray hvector hdma hstores hended hkernel _ honline _
    exact gives_dmaWaitMet s k u y j w hlive hawake hqueue hop hmet harrayQ hvectorQ harray hvector hdma hstores hended hkernel honline

end Sys2Proof.Machine
end

section
/-! PROOF. Integers of the vector engine, exact FIXED accumulation, and the statement `Engine_integers`. -/

namespace Sys2Proof.Machine

theorem signed_eq_toInt {n : Nat} (hn : 0 < n) (x : Nat) : signed n x = (BitVec.ofNat n x).toInt := by
  have hhalf : 2 ^ n = 2 * 2 ^ (n - 1) := by rw [← pow_succ', Nat.sub_add_cancel hn]
  rw [signed, BitVec.toInt_eq_toNat_cond, BitVec.toNat_ofNat]
  by_cases h : 2 ^ (n - 1) ≤ x % 2 ^ n
  · rw [if_pos h, if_neg (by omega)]
    norm_cast
  · rw [if_neg h, if_pos (by omega)]
    norm_cast

theorem signed_toNat {n : Nat} (hn : 0 < n) (b : BitVec n) : signed n b.toNat = b.toInt := by
  rw [signed_eq_toInt hn, BitVec.ofNat_toNat, BitVec.setWidth_eq]

/-! ### The vector engine (R337, R338) -/

section
variable {f : Nat} (rm : RMode) {a b : Nat} (d : Nat)

/-- The formats of class I are no floating-point formats. -/
theorem isF_of_integer (hf : f = 0xD ∨ f = 0xE) : isF f = false := by
  rcases hf with rfl | rfl <;> rfl

theorem vecElem_add (hf : isF f = false) : vecElem 0x01 f rm a b d = ((a + b) % 2 ^ 32, FFlags.none) := by
  simp only [vecElem, hf]
  rfl

theorem vecElem_sub (hf : isF f = false) (hb : b < 2 ^ 32) : vecElem 0x02 f rm a b d = ((a + (2 ^ 32 - b)) % 2 ^ 32, FFlags.none) := by
  simp only [vecElem, hf, Nat.mod_eq_of_lt hb]
  rfl

theorem vecElem_mul (hf : isF f = false) : vecElem 0x03 f rm a b d = (a * b % 2 ^ 32, FFlags.none) := by
  simp only [vecElem, hf]
  rfl

theorem vecElem_shl : vecElem 0x0C f rm a b d = (if 32 ≤ b then 0 else a * 2 ^ b % 2 ^ 32, FFlags.none) := rfl

theorem vecElem_eq (hf : isF f = false) : vecElem 0x10 f rm a b d = ((a == b).toNat, FFlags.none) := by
  simp only [vecElem, hf]
  rfl

theorem vecElem_ltSigned : vecElem 0x11 0xD rm a b d = ((decide (signed 32 a < signed 32 b)).toNat, FFlags.none) := rfl
theorem vecElem_ltUnsigned : vecElem 0x11 0xE rm a b d = ((decide (a < b)).toNat, FFlags.none) := rfl
theorem vecElem_shrSigned : vecElem 0x0D 0xD rm a b d = (toTwos 32 (signed 32 a / 2 ^ (min b 32)), FFlags.none) := rfl
theorem vecElem_shrUnsigned : vecElem 0x0D 0xE rm a b d = (if 32 ≤ b then 0 else a / 2 ^ b, FFlags.none) := rfl

end

theorem ofNat_toTwos (n : Nat) (i : Int) : BitVec.ofNat n (toTwos n i) = BitVec.ofInt n i := by
  have htwos : toTwos n i = (BitVec.ofInt n i).toNat := by
    rw [BitVec.toNat_ofInt, toTwos]
    norm_cast
  rw [htwos, BitVec.ofNat_toNat, BitVec.setWidth_eq]

/-- A shift by more than the width gives what a shift by the width gives. -/
theorem toInt_div_min (x : BitVec 32) (b : Nat) : x.toInt / 2 ^ (min b 32) = x.toInt / 2 ^ b := by
  rcases le_total b 32 with h | h
  · rw [min_eq_left h]
  · have hwide : (2 : Int) ^ 32 ≤ 2 ^ b := by
      exact_mod_cast Nat.pow_le_pow_right (by decide : 0 < 2) h
    have hhigh := x.toInt_lt
    have hlow := x.le_toInt
    rw [min_eq_right h]
    rcases lt_or_ge x.toInt 0 with hneg | hpos
    · rw [Int.ediv_eq_neg_one_of_neg_of_le hneg (by omega), Int.ediv_eq_neg_one_of_neg_of_le hneg (by omega)]
    · rw [Int.ediv_eq_zero_of_lt hpos (by omega), Int.ediv_eq_zero_of_lt hpos (by omega)]

/-- The arithmetic shift of class I is that of a 32-bit word. -/
theorem ofNat_vecElem_shrSigned (rm : RMode) (a b d : Nat) :
    BitVec.ofNat 32 (vecElem 0x0D 0xD rm a b d).1 = (BitVec.ofNat 32 a).sshiftRight b := by
  rw [vecElem_shrSigned, ofNat_toTwos, signed_eq_toInt (by decide), toInt_div_min, BitVec.sshiftRight_eq, Int.shiftRight_eq_div_pow]
  norm_cast

/-! ### The array (R317, R320, R363) -/

/-- The product of two INT8 codes. -/
def int8Product (p : Nat × Nat) : Int := (BitVec.ofNat 8 p.1).toInt * (BitVec.ofNat 8 p.2).toInt

theorem int8Product_le (p : Nat × Nat) : (int8Product p).natAbs ≤ 2 ^ 14 := by
  have hbound (x : Nat) : (BitVec.ofNat 8 x).toInt.natAbs ≤ 2 ^ 7 := by
    have hhigh := (BitVec.ofNat 8 x).toInt_lt
    have hlow := (BitVec.ofNat 8 x).le_toInt
    omega
  rw [int8Product, Int.natAbs_mul]
  exact (Nat.mul_le_mul (hbound p.1) (hbound p.2)).trans_eq (by norm_num)

theorem int8Products_le (l : List (Nat × Nat)) : (l.map int8Product).sum.natAbs ≤ l.length * 2 ^ 14 := by
  induction l with
  | nil => exact le_rfl
  | cons p l ih =>
    have hp := int8Product_le p
    rw [List.map_cons, List.sum_cons, List.length_cons]
    omega

/-- The value the array multiplies out of two INT8 codes. -/
theorem mul_int8 (p : Nat × Nat) : ∃ neg m, (FVal.mul (elemValue 0xB p.1) (elemValue 0xB p.2)).1 = .fin neg m 0 ∧
    (if neg then -1 else 1) * (m : Int) = int8Product p := by
  refine ⟨_, _, rfl, ?_⟩
  rw [int8Product, ← signed_eq_toInt (by decide), ← signed_eq_toInt (by decide)]
  push_cast
  rcases lt_or_ge (signed 8 p.1) 0 with hx | hx <;> rcases lt_or_ge (signed 8 p.2) 0 with hy | hy <;>
    simp [hx, hy, not_lt.mpr, abs_of_neg, abs_of_nonneg]

/-- A sum taken value by value. -/
theorem foldl_adds {α β : Type} {g : Int → β → Int} {v : α → β} {w : α → Int} (h : ∀ n x, g n (v x) = n + w x) (l : List α) (n : Int) :
    (l.map v).foldl g n = n + (l.map w).sum := by
  induction l generalizing n with
  | nil => simp
  | cons x l ih => rw [List.map_cons, List.foldl_cons, h, ih, List.map_cons, List.sum_cons, add_assoc]

theorem foldl_map_keeps {α β γ : Type} {g : γ → β → γ} {v : α → β} (h : ∀ c x, g c (v x) = c) (l : List α) (c : γ) :
    (l.map v).foldl g c = c := by
  induction l with
  | nil => rfl
  | cons x l ih => rw [List.map_cons, List.foldl_cons, h, ih]

theorem classJoin_finite (c : AccClass) : classJoin c .finite = c := by
  cases c <;> rfl

/-- The bound of an entry as a sum stays within it. -/
theorem clamp_le (n : Int) : (min (max n (-accBound)) accBound).natAbs ≤ 2 ^ 87 - 1 := by
  unfold accBound
  omega

theorem clamp_within {n : Int} (h : n.natAbs ≤ 2 ^ 87 - 1) : min (max n (-accBound)) accBound = n := by
  unfold accBound
  omega

theorem toInt_ofInt_within {n : Int} (h : n.natAbs ≤ 2 ^ 87 - 1) : (BitVec.ofInt 88 n).toInt = n :=
  BitVec.toInt_ofInt_eq_self (by decide) (by omega) (by omega)

/-- What a FIXED entry takes from INT8 products, before the clamp, is their exact sum. -/
theorem fixedAdd_int8 (e : AccEntry) (l : List (Nat × Nat)) : fixedAdd 0xB 0xB 0 e l =
    (⟨BitVec.ofInt 88 (min (max (e.bits.toInt + (l.map int8Product).sum) (-accBound)) accBound), e.cls⟩,
      min (max (e.bits.toInt + (l.map int8Product).sum) (-accBound)) accBound != e.bits.toInt + (l.map int8Product).sum) := by
  unfold fixedAdd
  dsimp only
  rw [foldl_adds (w := int8Product), foldl_map_keeps, signed_toNat (by decide)]
  · intro c p
    obtain ⟨neg, m, hp, _⟩ := mul_int8 p
    rw [hp]
    exact classJoin_finite c
  · intro n p
    obtain ⟨neg, m, hp, hvalue⟩ := mul_int8 p
    rw [hp, ← hvalue]
    simp [shiftInt]

/-- Settles O46: class I wraps to 32 bits, and a sum of INT8 products within the bound is taken as it is. -/
theorem engineIntegers : Obligations.Engine_integers := by
  refine ⟨?_, ?_, ?_, ?_⟩
  · intro f rm a b d hf _ hb
    have hint := isF_of_integer hf
    refine ⟨vecElem_add rm d hint, vecElem_sub rm d hint hb, vecElem_mul rm d hint, by rw [vecElem_shl], ?_⟩
    rw [vecElem_eq rm d hint]
    by_cases hab : a = b <;> simp [hab]
  · intro rm a b d _ _
    refine ⟨?_, ?_, ofNat_vecElem_shrSigned rm a b d, by rw [vecElem_shrUnsigned]⟩
    · rw [vecElem_ltSigned, signed_eq_toInt (by decide), signed_eq_toInt (by decide)]
      simp
    · rw [vecElem_ltUnsigned]
      simp
  · intro f e l _ hold hlength hf
    have hproducts := int8Products_le l
    have hsum : (e.bits.toInt + (l.map int8Product).sum).natAbs ≤ 2 ^ 87 - 1 := by omega
    rw [hf, fixedAdd_int8, clamp_within hsum]
    exact ⟨toInt_ofInt_within hsum, rfl, by simp⟩
  · intro w a f e l
    refine (congrArg Int.natAbs (toInt_ofInt_within ?_)).trans_le ?_
    · exact clamp_le _
    · exact clamp_le _

end Sys2Proof.Machine
end

section
/-! PROOF. What accesses to memory leave alone: everything beside memory, its caches, and what they count and report. -/

namespace Sys2Proof.Machine

/-- A core without its reservation. -/
def CoreSt.unreserved (x : CoreSt) : CoreSt := { x with reservation := none }

theorem CoreSt.unreserve_unreserved (x : CoreSt) (a n : Nat) : (x.unreserve a n).unreserved = x.unreserved := by
  unfold CoreSt.unreserve
  split
  · split <;> rfl
  · rfl

/-- The chip beside memory: what no access to memory changes. -/
def Chip.beside (s : Chip) : Chip :=
  { s with
    objs := [], mem := [], hbm := Hbm.reset, cores := s.cores.map fun e => (e.1, e.2.unreserved), cellar := Cellar.reset
    power := Power.reset, log := EventLog.reset, out := [], freeCtr := 0, mgmt := { s.mgmt with sessions := [] }
    pins := { s.pins with alertLow := false, alertSince := 0 } }

section
variable (s : Chip)

@[simp] theorem Chip.beside_objs (v : Tab Nat) : ({ s with objs := v } : Chip).beside = s.beside := (rfl)
@[simp] theorem Chip.beside_hbm (v : Hbm) : ({ s with hbm := v } : Chip).beside = s.beside := (rfl)
@[simp] theorem Chip.beside_log (v : EventLog) : ({ s with log := v } : Chip).beside = s.beside := (rfl)
@[simp] theorem Chip.beside_out (v : List Output) : ({ s with out := v } : Chip).beside = s.beside := (rfl)
@[simp] theorem Chip.beside_power (v : Power) : ({ s with power := v } : Chip).beside = s.beside := (rfl)
@[simp] theorem Chip.beside_cellar (v : Cellar) : ({ s with cellar := v } : Chip).beside = s.beside := (rfl)
@[simp] theorem Chip.beside_freeCtr (v : Nat) : ({ s with freeCtr := v } : Chip).beside = s.beside := (rfl)

@[simp] theorem Chip.each_beside {α : Type} {f : Chip → α → Chip} (h : ∀ t a, (f t a).beside = t.beside) (l : List α) :
    (s.each l f).beside = s.beside := s.each_keeps Chip.beside f h l

@[simp] theorem Chip.raiseCount_beside (code : Nat) (count : Nat) (args : List Arg) :
    (s.raiseCount code count args).beside = s.beside := by
  unfold Chip.raiseCount Chip.beside
  dsimp only
  split <;> rfl

@[simp] theorem Chip.raise_beside (code : Nat) (args : List Arg) : (s.raise code args).beside = s.beside :=
  s.raiseCount_beside code 1 args

@[simp] theorem Chip.drew_beside : s.drew.beside = s.beside := (rfl)

@[simp] theorem Chip.wakeStack_beside (t : Nat) : (s.wakeStack t).beside = s.beside := by
  unfold Chip.wakeStack
  split <;> simp

@[simp] theorem Chip.putBytes_beside (a : Nat) (bs : List Byte) : (s.putBytes a bs).beside = s.beside := by
  have hcores : (unreserveAll s.cores a bs.length).map (fun e => (e.1, e.2.unreserved)) = s.cores.map fun e => (e.1, e.2.unreserved) := by
    unfold unreserveAll
    split
    · rfl
    · rw [List.map_map]
      refine List.map_congr_left fun e _ => ?_
      exact congrArg (Prod.mk e.1) (e.2.unreserve_unreserved a bs.length)
  unfold Chip.beside Chip.putBytes
  dsimp only
  rw [hcores]

@[simp] theorem Chip.mark_beside (a : Nat) (b : Bool) : (s.mark a b).beside = s.beside := (rfl)

@[simp] theorem Chip.putLine_beside (a : Nat) (bs : List Byte) (poison : Bool) : (s.putLine a bs poison).beside = s.beside := by
  simp [Chip.putLine, apply_ite Chip.beside]

@[simp] theorem Chip.noteWritten_beside (u : Nat) (line : Nat) : (s.noteWritten u line).beside = s.beside := by
  unfold Chip.noteWritten
  split <;> simp

@[simp] theorem Chip.setCache_beside (line : Nat) (c : Option CacheLine) : (s.setCache line c).beside = s.beside := (rfl)

@[simp] theorem Chip.evict_beside (line : Nat) : (s.evict line).beside = s.beside := by
  unfold Chip.evict
  split
  · rfl
  · dsimp only
    split <;> simp

@[simp] theorem Chip.keepRoom_beside (line : Nat) : (s.keepRoom line).beside = s.beside := by
  unfold Chip.keepRoom
  dsimp only
  split
  · rfl
  · split
    · rfl
    · split <;> simp

@[simp] theorem Chip.touch_beside (line : Nat) (c : CacheLine) (keep : Bool) : (s.touch line c keep).beside = s.beside := by
  simp only [Chip.touch, Chip.beside_hbm, Chip.setCache_beside]
  split <;> simp

@[simp] theorem Chip.raiseLimited_beside (code : Nat) (unit : Nat) (args : List Arg) :
    (s.raiseLimited code unit args).beside = s.beside := by
  unfold Chip.raiseLimited
  split
  · dsimp only
    split <;> rfl
  · exact (Chip.beside_log _ _).trans (s.raise_beside code args)

@[simp] theorem Chip.setObj_beside (key : Nat) (v : Nat) : (s.setObj key v).beside = s.beside := (rfl)

@[simp] theorem Chip.bump_beside (key : Nat) (n : Nat) : (s.bump key n).beside = s.beside := (rfl)

@[simp] theorem Chip.unanswered_beside (p : Nat) : (s.unanswered p).1.beside = s.beside := by
  simp [Chip.unanswered]

@[simp] theorem Chip.setChannel_beside (n : Nat) (f : Channel → Channel) : (s.setChannel n f).beside = s.beside := (rfl)

@[simp] theorem Chip.setPc_beside (p : Nat) (f : PseudoChannel → PseudoChannel) : (s.setPc p f).beside = s.beside := (rfl)

@[simp] theorem Chip.clearDonor_beside (d : Nat) : (s.clearDonor d).beside = s.beside := (rfl)

@[simp] theorem Chip.relocate_beside (u : Nat) (d : Nat) : (s.relocate u d).beside = s.beside := by
  simp only [Chip.relocate]
  split <;> simp

@[simp] theorem Chip.redeal_beside (bad : Nat → Bool) : (s.redeal bad).beside = s.beside := by
  unfold Chip.redeal
  refine (Chip.each_beside _ (fun t w => Chip.each_beside _ (fun u v => ?_) _) _).trans ?_
  · split <;> rfl
  · split
    · rfl
    · refine Chip.each_beside _ (fun u v => ?_) _
      split <;> rfl

@[simp] theorem Chip.beginMapout_beside (n : Nat) (cause : MapCause) : (s.beginMapout n cause).beside = s.beside := by
  simp only [Chip.beginMapout]
  split <;> simp

@[simp] theorem Chip.tryMapout_beside (n : Nat) (cause : MapCause) : (s.tryMapout n cause).beside = s.beside := by
  unfold Chip.tryMapout
  split <;> simp

@[simp] theorem Chip.judge_beside (n : Nat) (cause : MapCause) : (s.judge n cause).beside = s.beside := by
  unfold Chip.judge
  dsimp only
  split
  · split
    · split <;> simp
    · split
      · simp
      · split <;> simp
  · split <;> simp
  · split
    · split
      · split <;> simp
      · simp
    · simp
  · rfl

@[simp] theorem Chip.rowRepair_beside (p : Nat) (b : Nat) (r : Nat) : (s.rowRepair p b r).beside = s.beside := by
  simp [Chip.rowRepair, apply_ite Chip.beside]

@[simp] theorem Chip.markGroup_beside (p : Nat) (k : Nat) : (s.markGroup p k).beside = s.beside := by
  unfold Chip.markGroup
  split <;> simp

@[simp] theorem Chip.book_beside (p : Nat) (pcaddr : Nat) (groups : List Nat) (ue : Bool) :
    (s.book p pcaddr groups ue).beside = s.beside := by
  unfold Chip.book
  dsimp only
  split <;> simp [apply_ite Chip.beside]

@[simp] theorem Chip.decodeLine_beside (p : Nat) (pcaddr : Nat) (d0 : List Byte) (m0 : Bool) (errors : List (Nat × Nat)) :
    (s.decodeLine p pcaddr d0 m0 errors).1.beside = s.beside := by
  unfold Chip.decodeLine
  split <;> simp [apply_ite Chip.beside]

@[simp] theorem Chip.setHbmCopy_beside (line : Nat) (d : List Byte) (p : Bool) : (s.setHbmCopy line d p).beside = s.beside := by
  unfold Chip.setHbmCopy
  split <;> simp

@[simp] theorem Chip.readStored_beside (line : Nat) (errors : List (Nat × Nat)) : (s.readStored line errors).1.beside = s.beside := by
  unfold Chip.readStored
  split
  · rfl
  · dsimp only
    split
    · simp
    · split
      · simp
      · split <;> simp

@[simp] theorem Chip.mergeLine_beside (pl : Place) (line : Nat) (errors : List (Nat × Nat)) :
    (s.mergeLine pl line errors).beside = s.beside := by
  simp only [Chip.mergeLine]
  split <;> simp

@[simp] theorem Chip.lineRoom_beside (line : Nat) : (s.lineRoom line).beside = s.beside := by
  unfold Chip.lineRoom
  dsimp only
  split
  · rfl
  · split
    · rfl
    · split
      · simp
      · split <;> simp

@[simp] theorem Chip.allocate_beside (line : Nat) (keep : Bool) (dirty : Bool) (under : Option (List Byte × Bool)) :
    (s.allocate line keep dirty under).beside = s.beside := by
  simp only [Chip.allocate, Chip.beside_hbm, Chip.setCache_beside]
  split <;> simp

@[simp] theorem Chip.writeHbmLine_beside (a : Nat) (bs : List Byte) (poison : Bool) (hint : Hint) (errors : List (Nat × Nat)) :
    (s.writeHbmLine a bs poison hint errors).beside = s.beside := by
  unfold Chip.writeHbmLine
  dsimp only
  split
  · rfl
  · split
    · simp [apply_ite Chip.beside]
    · split
      · split <;> simp
      · rename_i pl _ _ _ _
        have hmerged : (if bs.length = 64 then s.wakeStack (unitChannel (s.servingUnit pl.unit) / 32)
            else (s.wakeStack (unitChannel (s.servingUnit pl.unit) / 32)).mergeLine pl (a / 64) errors).beside = s.beside := by
          split <;> simp
        split
        · rw [Chip.putLine_beside, Chip.allocate_beside, hmerged]
        · rw [Chip.putLine_beside, hmerged]

@[simp] theorem Chip.wakeCellar_beside (a : Nat) : (s.wakeCellar a).beside = s.beside := by
  unfold Chip.wakeCellar
  split <;> rfl

@[simp] theorem Chip.writePiece_beside (a : Nat) (bs : List Byte) (poison : Bool) (hint : Hint) :
    (s.writePiece a bs poison hint).beside = s.beside := by
  unfold Chip.writePiece
  split
  · simp
  · split
    · split <;> simp
    · simp

@[simp] theorem Chip.write_beside (a : Nat) (bs : List Byte) (poison : Bool) (hint : Hint) :
    (s.write a bs poison hint).beside = s.beside := by
  unfold Chip.write
  exact s.each_beside (fun t p => t.writePiece_beside _ _ _ _) _

@[simp] theorem Chip.dropLine_beside (line : Nat) : (s.dropLine line).beside = s.beside := by
  unfold Chip.dropLine
  split
  · rfl
  · dsimp only
    split <;> simp

@[simp] theorem Chip.readHbmLine_beside (line : Nat) (hint : Hint) (errors : List (Nat × Nat)) :
    (s.readHbmLine line hint errors).1.beside = s.beside := by
  unfold Chip.readHbmLine
  split
  · rfl
  · dsimp only
    split
    · simp
    · split
      · split
        · simp
        · split <;> simp
      · split <;> simp

@[simp] theorem Chip.readPiece_beside (a n : Nat) (hint : Hint) : (s.readPiece a n hint).1.beside = s.beside := by
  unfold Chip.readPiece
  split
  · rfl
  · split <;> simp

@[simp] theorem Chip.read_beside (a len : Nat) (hint : Hint) : (s.read a len hint).1.beside = s.beside := by
  unfold Chip.read
  refine foldl_fst_keeps Chip.beside (fun r p => ?_) _ _
  exact r.1.readPiece_beside p.1 p.2 hint

end

end Sys2Proof.Machine
end

section
/-! PROOF. Array instructions and the floating-point flags, and the statement `Array_clear_and_flags`. -/

namespace Sys2Proof.Machine

/-- From `s` to `t` the flags of every core stay or are cleared. -/
structure Chip.sparesFlags (s t : Chip) : Prop where
  core : ∀ j, (t.core j).fflags = (s.core j).fflags ∨ (t.core j).fflags = 0

section
variable {s t u : Chip} {k : Nat}

theorem Chip.sparesFlags.refl (s : Chip) : s.sparesFlags s := ⟨fun _ => .inl rfl⟩

theorem Chip.sparesFlags.trans (h : s.sparesFlags t) (h' : t.sparesFlags u) : s.sparesFlags u := by
  refine ⟨fun j => ?_⟩
  rcases h'.core j with hkept | hcleared
  · rw [hkept]
    exact h.core j
  · exact .inr hcleared

/-- No flag rises where flags stay or are cleared. -/
theorem Chip.sparesFlags.no_rise (h : s.sparesFlags t) (j : Nat) : (t.core j).fflags &&& ~~~(s.core j).fflags = 0 := by
  rcases h.core j with hkept | hcleared
  · rw [hkept]
    simp
  · rw [hcleared]
    simp

theorem Chip.sparesFlags_of_bench (h : t.bench = s.bench) : s.sparesFlags t := ⟨fun j => .inl (by rw [Chip.core_of_bench h])⟩

theorem Tab.get_map_view {α β : Type} (f : α → α) (p : α → β) (hf : ∀ a, p (f a) = p a) (d : α) (t : Tab α) (k : Nat) :
    p (Tab.get d (t.map fun e => (e.1, f e.2)) k) = p (Tab.get d t k) := by
  induction t with
  | nil => rfl
  | cons e r ih =>
    rw [List.map_cons, Tab.get, Tab.get]
    split
    · exact hf e.2
    · exact ih

/-- What changes nothing beside memory leaves the flags of the cores. -/
theorem Chip.sparesFlags_of_beside (h : t.beside = s.beside) : s.sparesFlags t := by
  refine ⟨fun j => ?_⟩
  have hview (c : Chip) : (c.beside.core j).fflags = (c.core j).fflags :=
    Tab.get_map_view CoreSt.unreserved CoreSt.fflags (fun _ => rfl) CoreSt.reset c.cores j
  rw [← hview t, h, hview s]
  exact .inl rfl

theorem Chip.sparesFlags_setCore {f : CoreSt → CoreSt} (hf : ∀ x, (f x).fflags = x.fflags ∨ (f x).fflags = 0) : s.sparesFlags (s.setCore k f) := by
  refine ⟨fun j => ?_⟩
  rw [Chip.core_setCore]
  split
  · rename_i h
    rw [h]
    exact hf _
  · exact .inl rfl

theorem Chip.sparesFlags_each {α : Type} {f : Chip → α → Chip} (hf : ∀ (s : Chip) a, s.sparesFlags (f s a)) (l : List α) : s.sparesFlags (s.each l f) := by
  induction l generalizing s with
  | nil => exact .refl s
  | cons a l ih => exact (hf s a).trans ih

theorem Chip.sparesFlags_when {f : Chip → Chip} (hf : s.sparesFlags (f s)) (b : Bool) : s.sparesFlags (s.when b f) := by
  cases b with
  | true => exact hf
  | false => exact .refl s

/-! ### The end of a core, and faults -/

theorem CoreSt.atEnd_fflags (x : CoreSt) : x.atEnd.fflags = x.fflags ∨ x.atEnd.fflags = 0 := by
  unfold CoreSt.atEnd
  split
  · exact .inr rfl
  · exact .inl rfl

theorem Chip.sparesFlags_coreEndIf : s.sparesFlags (s.coreEndIf k) := by
  have hend := s.coreEndIf_bench k
  split at hend
  · exact (Chip.sparesFlags_setCore CoreSt.atEnd_fflags).trans (Chip.sparesFlags_of_bench hend)
  · exact Chip.sparesFlags_of_bench hend

theorem Chip.sparesFlags_faultOne (cause : Cause) (st : Status) (addr : Word) (unit sub : Nat) (fate : Bool) :
    s.sparesFlags (s.faultOne k cause st addr unit sub fate) := by
  rcases hkernel : (s.core k).kernel with _ | y
  · simp only [Chip.faultOne, hkernel]
    exact .refl s
  · rcases hfaulted : (s.core k).faulted with _ | z
    · obtain ⟨t, hfault, hbench⟩ := s.faultOne_bench k hkernel hfaulted cause st addr unit sub fate
      rw [hfault]
      refine .trans ?_ (Chip.sparesFlags_coreEndIf (s := t))
      refine .trans ?_ (Chip.sparesFlags_of_bench hbench)
      refine ⟨fun j => ?_⟩
      rw [Chip.core_setCore]
      split
      · rename_i h
        rw [h]
        exact .inl rfl
      · exact .inl rfl
    · simp only [Chip.faultOne, hkernel, hfaulted]
      exact .refl s

theorem Chip.sparesFlags_coreFault (cause : Cause) (st : Status) (addr : Word) (unit sub : Nat) :
    s.sparesFlags (s.coreFault k cause st addr unit sub) := by
  unfold Chip.coreFault
  split
  · exact (Chip.sparesFlags_each (fun s d => Chip.sparesFlags_faultOne (s := s) cause st addr unit sub false) _).trans
      (Chip.sparesFlags_each (fun s d => Chip.sparesFlags_faultOne (s := s) .cancel .cancelled 0 0 0 true) _)
  · exact .refl s

theorem Chip.sparesFlags_fault (cause : Cause) (addr : Word) : s.sparesFlags (s.fault k cause addr) := Chip.sparesFlags_coreFault ..

theorem CoreSt.setUnitRun_fflags (x : CoreSt) (q : Nat) (l : List UnitInstr) : (x.setUnitRun q l).fflags = x.fflags := by
  unfold CoreSt.setUnitRun
  split
  · rfl
  · split <;> rfl

theorem CoreSt.setUnitQ_fflags (x : CoreSt) (q : Nat) (l : List UnitInstr) : (x.setUnitQ q l).fflags = x.fflags := by
  unfold CoreSt.setUnitQ
  split
  · rfl
  · split <;> rfl

/-- The end of a unit's instruction leaves the flags. -/
theorem Chip.sparesFlags_unitEnd (q : Nat) (i : UnitInstr) (sub : Nat) (st : Status) (addr : Word) :
    s.sparesFlags (s.unitEnd k q i sub st addr) := by
  have hleave : s.sparesFlags (s.setCore k fun x => x.setUnitRun q ((x.unitRun q).filter (·.id != i.id))) :=
    Chip.sparesFlags_setCore fun x => .inl (x.setUnitRun_fflags q _)
  have hadd (t : Chip) (j : Nat) (a : Word) (src : AddSrc) : (t.localAdd k j a src).bench = t.bench := by
    unfold Chip.localAdd
    dsimp only
    split <;> rfl
  unfold Chip.unitEnd
  dsimp only
  split
  · refine .trans ?_ Chip.sparesFlags_coreEndIf
    refine hleave.trans (Chip.sparesFlags_of_bench ?_)
    split <;> simp only [hadd, apply_ite Chip.bench, Chip.bump_bench, ite_self]
  · exact (hleave.trans (Chip.sparesFlags_coreFault _ _ _ _ _)).trans Chip.sparesFlags_coreEndIf

/-! ### What an array instruction does as it completes -/

theorem Chip.sparesFlags_setArray (f : ArraySt → ArraySt) : s.sparesFlags (s.setArray k f) := Chip.sparesFlags_setCore fun _ => .inl rfl

theorem Chip.sparesFlags_aldwDone (i : UnitInstr) (stride addr b d n : Nat) (w : Word) : s.sparesFlags (s.aldwDone k i stride addr b d n w) := by
  unfold Chip.aldwDone
  dsimp only
  split <;> exact (Chip.sparesFlags_setArray _).trans (Chip.sparesFlags_unitEnd _ _ _ _ _)

theorem Chip.sparesFlags_ammDone (i : UnitInstr) (stride addr b m row : Nat) (accum sparse : Bool) (w : Word) (d : Nat) :
    s.sparesFlags (s.ammDone k i stride addr b m row accum sparse w d) := by
  have hcount (t : Chip) (r : Nat × Nat) : ((List.range r.2).foldl (fun s _ =>
      (s.bump (O.accSaturations + 256 * k) 1).raiseLimited 0x4911 k [.u16 k, .u16 r.1]) t).bench = t.bench :=
    t.each_keeps Chip.bench (fun s _ => (s.bump (O.accSaturations + 256 * k) 1).raiseLimited 0x4911 k [.u16 k, .u16 r.1])
      (fun s _ => by simp) (List.range r.2)
  unfold Chip.ammDone
  split
  · exact .refl s
  · rename_i p _
    dsimp only
    have hrows (g : ArraySt → ArraySt) (n : Nat) (cl : List (Nat × Nat)) :
        s.sparesFlags (((s.setArray k g).bump (O.arrayBusy + 256 * k) n).each cl fun s r =>
          (List.range r.2).foldl (fun s _ => (s.bump (O.accSaturations + 256 * k) 1).raiseLimited 0x4911 k [.u16 k, .u16 r.1]) s) := by
      refine (Chip.sparesFlags_setArray (k := k) g).trans (Chip.sparesFlags_of_bench ?_)
      exact (Chip.each_keeps _ Chip.bench _ hcount cl).trans (Chip.bump_bench _ _ _)
    split <;> exact (hrows _ _ _).trans (Chip.sparesFlags_unitEnd _ _ _ _ _)

theorem Chip.sparesFlags_drainRows (dst row : Nat) (clear : Bool) (stride f n i : Nat) (p : Bool) :
    s.sparesFlags (Chip.drainRows k dst row clear stride f n i p s).1 := by
  induction n generalizing s i p with
  | zero => exact .refl s
  | succ n ih =>
    unfold Chip.drainRows
    dsimp only
    split
    · exact .refl s
    · refine .trans ?_ (ih _ _)
      split
      · exact (Chip.sparesFlags_of_beside (Chip.write_beside _ _ _ _ _)).trans (Chip.sparesFlags_setArray _)
      · exact Chip.sparesFlags_of_beside (Chip.write_beside _ _ _ _ _)

theorem Chip.sparesFlags_drainDone (i : UnitInstr) (dst row rows : Nat) (clear : Bool) (stride : Nat) (w : Word) :
    s.sparesFlags (s.drainDone k i dst row rows clear stride w) := by
  have hrows := Chip.sparesFlags_drainRows (s := s) (k := k) dst row clear stride (ofmtOf w) rows 0 false
  unfold Chip.drainDone
  split <;> rename_i hdone <;> rw [hdone] at hrows <;> exact hrows.trans (Chip.sparesFlags_unitEnd _ _ _ _ _)

theorem Chip.sparesFlags_arrayComplete (i : UnitInstr) : s.sparesFlags (s.arrayComplete k i) := by
  unfold Chip.arrayComplete
  dsimp only
  refine Chip.sparesFlags_when ?_ _
  split
  · exact Chip.sparesFlags_aldwDone ..
  · exact Chip.sparesFlags_ammDone ..
  · exact Chip.sparesFlags_drainDone ..
  · exact (Chip.sparesFlags_setArray _).trans (Chip.sparesFlags_unitEnd _ _ _ _ _)
  · exact .refl s

/-! ### What an array instruction does as it issues and starts -/

theorem Chip.sparesFlags_illegal : s.sparesFlags (s.illegal k) := Chip.sparesFlags_fault ..

theorem CoreSt.enqueue_fflags (x : CoreSt) (q : Nat) (op : UnitOp) (sig : Option Nat) : (x.enqueue q op sig).fflags = x.fflags :=
  (congrArg CoreSt.fflags (rfl : x.enqueue q op sig = { x.setUnitQ q _ with issued := x.issued + 1 })).trans (x.setUnitQ_fflags q _)

theorem Chip.sparesFlags_coreEnqueue (q : Nat) (op : UnitOp) (sig : Option Nat) : s.sparesFlags (s.coreEnqueue k q op sig) :=
  Chip.sparesFlags_when (f := fun s => s.setCore k fun x => (x.enqueue q op sig).retire 4)
    (Chip.sparesFlags_setCore fun x => .inl (x.enqueue_fflags q op sig)) _

theorem Chip.sparesFlags_arrayIssue (op : UnitOp) (w : Word) : s.sparesFlags (s.arrayIssue k op w) := by
  unfold Chip.arrayIssue
  split
  · split
    · exact Chip.sparesFlags_fault ..
    · exact Chip.sparesFlags_coreEnqueue ..
  · exact Chip.sparesFlags_coreEnqueue ..

theorem Chip.sparesFlags_issueAldw (stride addr r : Word) : s.sparesFlags (s.issueAldw k stride addr r) := by
  unfold Chip.issueAldw
  dsimp only
  split
  · exact Chip.sparesFlags_illegal
  · split
    · exact Chip.sparesFlags_illegal
    · split
      · exact Chip.sparesFlags_illegal
      · refine .trans (Chip.sparesFlags_arrayIssue _ _) (Chip.sparesFlags_when ?_ _)
        exact Chip.sparesFlags_setCore fun _ => .inl rfl

theorem Chip.sparesFlags_issueAmm (stride addr r : Word) : s.sparesFlags (s.issueAmm k stride addr r) := by
  unfold Chip.issueAmm
  dsimp only
  split
  · exact Chip.sparesFlags_illegal
  · split
    · exact Chip.sparesFlags_illegal
    · split
      · exact Chip.sparesFlags_illegal
      · split
        · exact Chip.sparesFlags_fault ..
        · exact Chip.sparesFlags_arrayIssue ..

theorem Chip.sparesFlags_issueAdrain (dst r stride : Word) : s.sparesFlags (s.issueAdrain k dst r stride) := by
  unfold Chip.issueAdrain
  dsimp only
  split
  · exact Chip.sparesFlags_illegal
  · split
    · exact Chip.sparesFlags_fault ..
    · exact Chip.sparesFlags_arrayIssue ..

theorem Chip.sparesFlags_issueAclr (rd : Nat) (r : Word) : s.sparesFlags (s.issueAclr k rd r) := by
  unfold Chip.issueAclr
  dsimp only
  split
  · exact Chip.sparesFlags_illegal
  · split
    · exact Chip.sparesFlags_fault ..
    · exact Chip.sparesFlags_arrayIssue ..

theorem Chip.sparesFlags_issue {n : Nat} {own : Stall → Bool} {f : Chip → Chip} (hf : ∀ t : Chip, t.sparesFlags (f t)) :
    s.sparesFlags (s.issue k n own f) := by
  unfold Chip.issue
  refine Chip.sparesFlags_when ?_ _
  split
  · exact Chip.sparesFlags_fault ..
  · refine .trans ?_ (hf _)
    exact Chip.sparesFlags_setCore fun _ => .inl rfl

theorem Chip.sparesFlags_unitStart (q : Nat) {ok : UnitInstr → Bool} {run : Chip → UnitInstr → Chip}
    (hrun : ∀ (t : Chip) i, t.sparesFlags (run t i)) : s.sparesFlags (s.unitStart k q ok run) := by
  have hpast : s.sparesFlags (s.setCore k fun x => x.setUnitQ q (s.pastWaits k (x.unitQ q))) :=
    Chip.sparesFlags_setCore fun x => .inl (x.setUnitQ_fflags q _)
  have hnote (t : Chip) : t.sparesFlags (t.noteLocalWaits k) := Chip.sparesFlags_setCore fun _ => .inl rfl
  unfold Chip.unitStart
  dsimp only
  split
  · exact hpast.trans Chip.sparesFlags_coreEndIf
  · split
    · refine .trans ?_ (hrun _ _)
      refine (hpast.trans ?_).trans (hnote _)
      exact Chip.sparesFlags_setCore fun x => .inl ((CoreSt.setUnitRun_fflags _ q _).trans (x.setUnitQ_fflags q _))
    · exact hpast.trans (hnote _)

/-! ### XACLR -/

/-- The end of an array instruction without fault and signal, as the cores and memory see it. -/
theorem Chip.unitEnd_bench {i : UnitInstr} (hsig : i.sig = none) (hended : (s.core k).ended = false) :
    (s.unitEnd k 1 i 0 .ok 0).bench = (s.setCore k fun x => x.without 1 i).bench := by
  unfold Chip.unitEnd
  dsimp only
  rw [hsig, if_pos rfl, Chip.coreEndIf_goesOn]
  · simp only [apply_ite Chip.bench, Chip.bump_bench, ite_self]
    rfl
  · dsimp only
    split
    · rw [Chip.bump_core, Chip.setCore_same]
      exact hended
    · rw [if_neg (by simp), Chip.setCore_same]
      exact hended

theorem Chip.arrayComplete_aclr {i : UnitInstr} {row rows : Nat} (hop : i.op = .aclr row rows) (hrun : (s.core k).arrayRun = [i]) :
    s.arrayComplete k i = (s.setArray k fun a => a.clearRows row rows).unitEnd k 1 i 0 .ok 0 := by
  have holdest : ((s.core k).arrayRun.find? (·.op.engine == i.op.engine)).any (·.id == i.id) = true := by
    rw [hrun]
    simp
  simp only [Chip.arrayComplete, holdest, Chip.when, Chip.aclrDone, ArraySt.clearRows]
  rw [hop]
  rfl

end

/-- No array instruction raises a flag as it issues or starts. -/
theorem gives_arrayFlags (s : State) (k : Fin 264) (i : Instr) (hi : (∃ d a b, i = .xaldw k d a b) ∨ (∃ d a b, i = .xamm k d a b) ∨
    (∃ d a b, i = .xadrain k d a b) ∨ (∃ d a b, i = .xaclr k d a b) ∨ i = .arrayInstrStart k) (hlive : s.live = true) :
    s.gives i fun c => ∀ j, (c.core j).fflags &&& ~~~(s.core j).fflags = 0 := by
  rcases hi with ⟨d, a, b, rfl⟩ | ⟨d, a, b, rfl⟩ | ⟨d, a, b, rfl⟩ | ⟨d, a, b, rfl⟩ | rfl
  · exact State.gives_live rfl hlive (Chip.sparesFlags_issue fun t => t.sparesFlags_issueAldw _ _ _).no_rise
  · exact State.gives_live rfl hlive (Chip.sparesFlags_issue fun t => t.sparesFlags_issueAmm _ _ _).no_rise
  · exact State.gives_live rfl hlive (Chip.sparesFlags_issue fun t => t.sparesFlags_issueAdrain _ _ _).no_rise
  · exact State.gives_live rfl hlive (Chip.sparesFlags_issue fun t => t.sparesFlags_issueAclr _ _).no_rise
  · refine State.gives_live rfl hlive (Chip.sparesFlags.no_rise (Chip.sparesFlags_when ?_ _))
    exact Chip.sparesFlags_unitStart 1 fun t _ => .refl t

/-- Settles O48: XACLR writes the array of its core alone, and no step of an array instruction does more to a core's flags than a
reset of the core does. -/
theorem arrayClearAndFlags : Obligations.Array_clear_and_flags := by
  refine ⟨?_, rfl, rfl, gives_arrayFlags, fun s k u => (Chip.sparesFlags_arrayComplete u).no_rise⟩
  intro s k u row rows hop hsig hrun _ hended
  have hgoesOn : ((s.setArray k fun a => a.clearRows row rows).core k).ended = false := by
    rw [Chip.setArray, Chip.setCore_same]
    exact hended
  have hbench : (s.arrayComplete k u).bench = ((s.setArray k fun a => a.clearRows row rows).setCore k fun x => x.without 1 u).bench := by
    rw [Chip.arrayComplete_aclr hop hrun, Chip.unitEnd_bench hsig hgoesOn]
  refine ⟨fun r => ?_, (Chip.mem_of_bench hbench).trans rfl, fun j hj => ?_⟩
  · rw [Chip.core_of_bench hbench, Chip.setCore_same, Chip.setArray, Chip.setCore_same]
    exact ArraySt.clearRows_row _ _ _ _
  · rw [Chip.core_of_bench hbench, Chip.setCore_other _ _ _ _ hj]
    exact Chip.setCore_other _ _ _ _ hj

end Sys2Proof.Machine
end

section
/-! PROOF. Cores and update engines offline and online, self-tests, and the statement `Core_administration`. -/

namespace Sys2Proof.Machine

section
variable {s : Chip} {k : Nat}

theorem Chip.coreOffline_idle (h : (s.core k).state = .idle) (hcore : k < 256) : s.coreOffline k =
    ((s.setObj (adminKey k) 0).setCore k fun x => { x.cleared with state := .offline }).raise 0x0902 [.u16 k] := by
  simp [Chip.coreOffline, h, hcore]

theorem Chip.coreOffline_idleEngine (h : (s.core k).state = .idle) (hengine : ¬ k < 256) : s.coreOffline k =
    (s.setObj (adminKey k) 0).setCore k fun x => { x.cleared with state := .offline } := by
  simp [Chip.coreOffline, h, hengine]

/-- A running core drains on its way to Offline. -/
theorem Chip.coreOffline_running (h : (s.core k).state = .running) : s.coreOffline k =
    ((s.setObj (adminKey k) 0).setCore k fun x => { x with state := .draining }).setCore k fun x => { x with drainOffline := true } := by
  simp [Chip.coreOffline, Chip.coreStop, h]

theorem Chip.coreOnline_offline (h : (s.core k).state = .offline) : s.coreOnline k =
    (s.setObj (adminKey k) 1).setCore k fun x => { x with state := .testing, adminTest := true } := by
  simp [Chip.coreOnline, h]

/-- A self-test that CORE_ADMIN began passes, and the core is free. -/
theorem Chip.testPassed_online (hadmin : (s.core k).adminTest = true) (honline : s.obj (adminKey k) ≠ 0) (event : Nat) (arg : Arg) :
    s.testPassed k event arg = (s.setCore k fun x => { x with state := .idle, adminTest := false }).raise event [arg] := by
  simp [Chip.testPassed, hadmin, honline]

theorem Chip.selfTestDone_testing (h : (s.core k).state = .testing) : s.selfTestDone k .pass = s.testPassed k 0x0901 (.u16 k) := by
  simp [Chip.selfTestDone, h, Chip.when]

theorem Chip.selfTestDone_unit (h : (s.core k).state = .testing) (u : Fin 4) : s.selfTestDone k (.unit u) =
    (s.testFailed k).raise 0x8902 [.u16 k, .u8 u.val] := by
  simp [Chip.selfTestDone, h, Chip.when]

theorem Chip.selfTestDone_none (h : (s.core k).state ≠ .testing) (r : SelfTest) : s.selfTestDone k r = s := by
  simp [Chip.selfTestDone, h, Chip.when]

/-- After the boot, a self-test that ends ends no boot's run. -/
theorem Chip.bootTestsEnd_booted (h : s.mgmt.booting = false) : s.bootTestsEnd = s := by
  simp [Chip.bootTestsEnd, h, Chip.when]

theorem Chip.nvRunWrite_idle (hcore : k < 256) (h : (s.core k).state = .idle) :
    s.nvRunWrite k = some (s.setCore k fun x => { x with state := .testing, adminTest := false }) := if_pos ⟨hcore, h⟩

end

/-- Settles O49: each clause is one branch of the functions that write CORE_ADMIN and end a self-test. -/
theorem coreAdministration : Obligations.Core_administration := by
  refine ⟨?_, ?_, ?_, ?_, ?_, ?_, ?_, ?_, ?_, ?_⟩
  · intro s k hlive hidle
    exact State.gives_live rfl hlive (Chip.coreOffline_idle hidle k.isLt)
  · intro s k hlive hrunning
    refine State.gives_live (f := fun c => c.coreOffline k.val) rfl hlive ?_
    rw [Chip.coreOffline_running hrunning, Chip.setCore_same, Chip.setCore_same]
    refine ⟨rfl, rfl, rfl, fun j hj => ?_, rfl⟩
    rw [Chip.setCore_other _ _ _ _ hj, Chip.setCore_other _ _ _ _ hj]
    rfl
  · intro s k hlive hoffline
    exact State.gives_live rfl hlive (Chip.coreOnline_offline hoffline)
  · intro s e hlive hidle
    refine State.gives_live (f := fun c => c.coreOffline (256 + e.val)) rfl hlive ?_
    exact Chip.coreOffline_idleEngine hidle (by omega)
  · intro s k hlive htesting hadmin honline hbooted
    refine State.gives_live (f := fun c => (c.selfTestDone k.val .pass).bootTestsEnd) rfl hlive ?_
    rw [Chip.selfTestDone_testing htesting, Chip.testPassed_online hadmin honline]
    exact Chip.bootTestsEnd_booted hbooted
  · intro s k u hlive htesting hbooted
    refine State.gives_live (f := fun c => (c.selfTestDone k.val (.unit u)).bootTestsEnd) rfl hlive ?_
    rw [Chip.selfTestDone_unit htesting]
    exact Chip.bootTestsEnd_booted hbooted
  · intro s k r hlive htesting hbooted
    refine State.gives_live (f := fun c => (c.selfTestDone k.val r).bootTestsEnd) rfl hlive ?_
    rw [Chip.selfTestDone_none htesting]
    exact Chip.bootTestsEnd_booted hbooted
  · intro s k hlive hcore hidle
    refine State.gives_live (f := fun c => (c.nvRunWrite k.toNat).getD c) rfl hlive ?_
    rw [Chip.nvRunWrite_idle hcore hidle]
    rfl
  · intro s e hlive htesting
    refine State.gives_live (f := fun c => c.when ((c.core (256 + e.val)).state == .testing) fun c =>
      if false then c.testPassed (256 + e.val) 0x0B01 (.u8 e.val) else c.testFailed (256 + e.val)) rfl hlive ?_
    rw [htesting]
    rfl
  · intro s e hlive htesting hadmin honline
    refine State.gives_live (f := fun c => c.when ((c.core (256 + e.val)).state == .testing) fun c =>
      if true then c.testPassed (256 + e.val) 0x0B01 (.u8 e.val) else c.testFailed (256 + e.val)) rfl hlive ?_
    rw [htesting]
    exact Chip.testPassed_online hadmin honline _ _

end Sys2Proof.Machine
end

section
/-! PROOF. UPDATE layer by layer, its drain deadline, and the statement `Updates`. -/

namespace Sys2Proof.Machine

/-! ### What a completing command leaves of the cellar -/

section
variable (s : Chip)

@[simp] theorem Chip.each_cellar {α : Type} {f : Chip → α → Chip} (h : ∀ t a, (f t a).cellar = t.cellar) (l : List α) :
    (s.each l f).cellar = s.cellar := s.each_keeps Chip.cellar f h l

@[simp] theorem Chip.raiseLimited_cellar (code u : Nat) (args : List Arg) : (s.raiseLimited code u args).cellar = s.cellar :=
  congrArg Outside.cellar (Chip.raiseLimited_outside ..)

@[simp] theorem Chip.gnPump_cellar (p : Nat) : (s.gnPump p).cellar = s.cellar :=
  Chip.gnPump_keeps Chip.cellar (fun _ _ _ => rfl) (fun _ _ => rfl) (fun _ _ => rfl) s p

@[simp] theorem Chip.write_cellar (a : Nat) (bs : List Byte) (poison : Bool) (hint : Hint) :
    (s.write a bs poison hint).cellar = s.cellar :=
  congrArg Outside.cellar (Chip.write_outside ..)

@[simp] theorem Chip.noteMirrorRecord_cellar (q : Nat) (e : QEntry) (st : Status) :
    (s.noteMirrorRecord q e st).cellar = s.cellar := by
  unfold Chip.noteMirrorRecord
  split <;> simp

@[simp] theorem Chip.dropWaits_cellar (owner : WaitOwner) : (s.dropWaits owner).cellar = s.cellar := rfl

@[simp] theorem Chip.dropWaitsOf_cellar (q : Nat) (e : QEntry) : (s.dropWaitsOf q e).cellar = s.cellar := by
  unfold Chip.dropWaitsOf
  split <;> simp

@[simp] theorem Chip.staleArrival_cellar (b : Nat) (v : Word) (src : AddSrc) : (s.staleArrival b v src).cellar = s.cellar := rfl

@[simp] theorem Chip.noteArrival_cellar (b : Nat) (v : Word) (src : AddSrc) : (s.noteArrival b v src).cellar = s.cellar := rfl

@[simp] theorem Chip.wake_cellar (i : Nat) : (s.wake i).cellar = s.cellar := rfl

@[simp] theorem Chip.plainAdd_cellar (i : Nat) (amount : Word) (sig : Nat × Nat × Nat) :
    (s.plainAdd i amount sig).cellar = s.cellar := by
  simp only [Chip.plainAdd]
  split <;> simp

@[simp] theorem Chip.enqueue_cellar (p : Nat) (slots : List (BitVec 512)) : (s.enqueue p slots).cellar = s.cellar := rfl

@[simp] theorem Chip.gnQueue_cellar (port : Nat) (p : GnPacket) : (s.gnQueue port p).cellar = s.cellar := by
  simp [Chip.gnQueue]

@[simp] theorem Chip.gnRespond_cellar (p : GnPacket) : (s.gnRespond p).cellar = s.cellar := by
  unfold Chip.gnRespond
  split <;> simp

@[simp] theorem Chip.gnAnswer_cellar (req : GnPacket) (status : BitVec 4) (opA : Word) (payload : List Byte)
    (marks : List Bool) : (s.gnAnswer req status opA payload marks).cellar = s.cellar := by
  simp [Chip.gnAnswer]

@[simp] theorem Chip.acknowledge_cellar (src : AddSrc) (i : Nat) (old : Word) : (s.acknowledge src i old).cellar = s.cellar := by
  unfold Chip.acknowledge
  split <;> simp [apply_ite Chip.cellar]

@[simp] theorem Chip.applyHeld_cellar (b : Nat) (h : HeldArrival) : (s.applyHeld b h).cellar = s.cellar := by
  simp only [Chip.applyHeld]
  split <;> simp

@[simp] theorem Chip.barrierLoop_cellar (b fuel : Nat) : (Chip.barrierLoop b fuel s).cellar = s.cellar := by
  induction fuel generalizing s with
  | zero => rfl
  | succ n ih =>
    unfold Chip.barrierLoop
    dsimp only
    split
    · rw [ih]
      simp
    · rfl

@[simp] theorem Chip.tick_cellar : s.tick.cellar = s.cellar := rfl

@[simp] theorem Chip.arrive_cellar (b : Nat) (v : Word) (src : AddSrc) (hasEntry : Bool) :
    (s.arrive b v src hasEntry).1.cellar = s.cellar := by
  unfold Chip.arrive
  dsimp only
  split
  · simp
  · split
    · simp
    · split
      · split <;> simp
      · split
        · split <;> simp
        · split
          · dsimp only
            split <;> simp
          · simp

@[simp] theorem Chip.counterRefusal_cellar : s.counterRefusal.cellar = s.cellar := by
  simp [Chip.counterRefusal]

@[simp] theorem Chip.counterAdd_cellar (i : Nat) (amount : Word) (src : AddSrc) (hasEntry : Bool) :
    (s.counterAdd i amount src hasEntry).1.cellar = s.cellar := by
  unfold Chip.counterAdd
  split
  · simp
  · split <;> simp

@[simp] theorem Chip.addFrom_cellar (i : Nat) (amount : Word) (src : AddSrc) : (s.addFrom i amount src).1.cellar = s.cellar := by
  unfold Chip.addFrom
  dsimp only
  split
  · simp
  · split <;> simp [apply_ite Chip.cellar]
  · split <;> simp
  · split <;> simp [apply_ite Chip.cellar]

@[simp] theorem Chip.settleQueue_cellar (q : Nat) : (s.settleQueue q).cellar = s.cellar := by
  simp only [Chip.settleQueue]
  split <;> simp

@[simp] theorem Chip.record_cellar (q : Nat) (e : QEntry) (st : Status) : (s.record q e st).cellar = s.cellar := by
  simp [Chip.record, apply_ite Chip.cellar]

@[simp] theorem Chip.cancelUnstarted_cellar (q : Nat) : (s.cancelUnstarted q).cellar = s.cellar := by
  simp [Chip.cancelUnstarted]

@[simp] theorem Chip.completeWith_cellar (q : Nat) (e : QEntry) (st : Status) : (s.completeWith q e st).cellar = s.cellar := by
  simp only [Chip.completeWith]
  split <;> simp

@[simp] theorem Chip.setStream_cellar (n : Nat) (v : Option SendStream) : (s.setStream n v).cellar = s.cellar := rfl

@[simp] theorem Chip.offer_cellar (c : Cell) : (s.offer c).cellar = s.cellar := by
  unfold Chip.offer
  split <;> rfl

@[simp] theorem Chip.bindStream_cellar (o : StreamOwner) (dest : Half) : (s.bindStream o dest).1.cellar = s.cellar := by
  unfold Chip.bindStream
  split
  · rfl
  · dsimp only
    split <;> rfl

@[simp] theorem Chip.streamFuel_cellar (n fuel : Nat) : (Chip.streamFuel n fuel s).cellar = s.cellar := by
  induction fuel generalizing s with
  | zero => rfl
  | succ fuel ih =>
    unfold Chip.streamFuel
    split
    · split
      · rfl
      · dsimp only
        split
        · rfl
        · rw [ih]
          split <;> simp
    · rfl

@[simp] theorem Chip.streamPump_cellar (n : Nat) : (s.streamPump n).cellar = s.cellar := by
  unfold Chip.streamPump
  split <;> simp

@[simp] theorem Chip.sendCells_cellar (n : Nat) (l : List (Cell × Work)) : (s.sendCells n l).cellar = s.cellar := by
  unfold Chip.sendCells
  split <;> simp

@[simp] theorem Chip.signalRemote_cellar (q : Nat) (e : QEntry) : (s.signalRemote q e).cellar = s.cellar := by
  have hbound : (if s.tnReady then s.bindStream (.queue q) (BitVec.ofNat 16 e.sigChip) else (s, none)).1.cellar = s.cellar := by
    split <;> simp
  unfold Chip.signalRemote
  split
  · rfl
  · split <;> rename_i hbind <;> rw [hbind] at hbound <;> simpa using hbound

@[simp] theorem Chip.signalLocal_cellar (q : Nat) (e : QEntry) : (s.signalLocal q e).cellar = s.cellar := by
  simp [Chip.signalLocal]

@[simp] theorem Chip.complete_cellar (q : Nat) (n : Word32) : (s.complete q n).cellar = s.cellar := by
  have hsignal (e : QEntry) : (if e.sigRemote then s.signalRemote q e else s.signalLocal q e).cellar = s.cellar := by
    split <;> simp
  unfold Chip.complete
  split
  · rfl
  · split
    · simp
    · split
      · rfl
      · split
        · split
          · simp
          · dsimp only
            split
            · split
              · simp [hsignal]
              · exact hsignal _
            · exact hsignal _
          · rfl
        · simp

/-! ### Layers that end -/

theorem Chip.setDie_other {d n : Nat} (h : n ≠ d) (f : CellarDie → CellarDie) : (s.setDie d f).die n = s.die n :=
  (Tab.get_modify ..).trans (if_neg h)

theorem Chip.die_of_cellar {s t : Chip} (h : s.cellar = t.cellar) (d : Nat) : s.die d = t.die d := by
  rw [Chip.die, Chip.die, h]

end

section
variable {s : Chip} {d : Nat} {j : UpdateJob} {x : Desc} {e : LayerEnd}

/-- The entry of the ratio ring for a layer that ended. -/
def Chip.ratioEntry (s : Chip) (j : UpdateJob) (x : Desc) (e : LayerEnd) : RatioEntry :=
  { step := j.step, timestamp := s.timebase, layerId := BitVec.ofNat 32 x.layerId, ratio := BitVec.ofNat 32 e.ratio
    rmsW := BitVec.ofNat 32 e.rmsW, status := e.status.code, rule := BitVec.ofNat 8 x.rule, held := e.held
    high := (x.outOfBounds e.ratio).2, low := (x.outOfBounds e.ratio).1 }

/-- A report adds an entry to the ratio ring and a layer to its die's count. -/
theorem Chip.layerReport_cellar : (s.layerReport d j x e).cellar =
    { s.cellar with
      dies := Tab.modify CellarDie.reset s.cellar.dies d fun y => { y with layersDone := y.layersDone + 1 }
      ratioRing := Tab.set RatioEntry.zero s.cellar.ratioRing s.cellar.ratioNext (s.ratioEntry j x e)
      ratioNext := (s.cellar.ratioNext + 1) % 1024 } := by
  unfold Chip.layerReport
  dsimp only
  split
  · rw [Chip.raise_cellar]
    split <;> rfl
  · split <;> rfl

theorem Chip.layerReport_mem : (s.layerReport d j x e).mem = s.mem := by
  unfold Chip.layerReport
  dsimp only
  split <;> split <;> rfl

theorem Chip.layerReport_hbm : (s.layerReport d j x e).hbm = s.hbm := by
  unfold Chip.layerReport
  dsimp only
  split <;> split <;> rfl

/-- A layer that ended amiss leaves its state header as it was. -/
theorem Chip.layerDone_amiss (h : e.status ≠ .ok) (i : Nat) : s.layerDone d j i x e =
    (s.layerReport d j x e).setEntry j.queue j.num fun v =>
      { v.failParts (64 * i / j.ndesc) (64 * i / j.ndesc) e.status with detail := v.detail + 1 } := by
  unfold Chip.layerDone
  simp only [if_neg h]

theorem Chip.layerDone_amiss_die (h : e.status ≠ .ok) (i : Nat) :
    (s.layerDone d j i x e).die d = { s.die d with layersDone := (s.die d).layersDone + 1 } := by
  rw [Chip.layerDone_amiss h]
  change (s.layerReport d j x e).die d = _
  rw [Chip.die, Chip.layerReport_cellar, Chip.die]
  dsimp only
  rw [Tab.get_modify_same]

theorem Chip.layerDone_amiss_die_other (h : e.status ≠ .ok) (i : Nat) {n : Nat} (hn : n ≠ d) :
    (s.layerDone d j i x e).die n = s.die n := by
  rw [Chip.layerDone_amiss h]
  change (s.layerReport d j x e).die n = _
  rw [Chip.die, Chip.layerReport_cellar, Chip.die]
  dsimp only
  rw [Tab.get_modify, if_neg hn]

/-- Layers that were not started are counted one by one. -/
theorem Chip.layersCancelled_die (l : List (Nat × BitVec 1024 × BitVec 512)) :
    (s.each l fun s t => s.layerDone d j t.1 ⟨t.2.1.toNat⟩ (LayerEnd.early .cancelled)).die d =
      { s.die d with layersDone := (s.die d).layersDone + BitVec.ofNat 64 l.length } := by
  induction l generalizing s with
  | nil => simp [Chip.each]
  | cons t l ih =>
    refine ih.trans ?_
    rw [Chip.layerDone_amiss_die (by decide), List.length_cons, BitVec.ofNat_add, BitVec.add_comm (BitVec.ofNat 64 l.length),
      ← BitVec.add_assoc]
    rfl

theorem Chip.layersCancelled_die_other (l : List (Nat × BitVec 1024 × BitVec 512)) {n : Nat} (hn : n ≠ d) :
    (s.each l fun s t => s.layerDone d j t.1 ⟨t.2.1.toNat⟩ (LayerEnd.early .cancelled)).die n = s.die n :=
  s.each_keeps (fun c => c.die n) _ (fun _ _ => Chip.layerDone_amiss_die_other (by decide) _ hn) l

theorem Chip.updateDigest_die (q : Nat) (m : Word32) (n : Nat) : (s.updateDigest q m).die n = s.die n := by
  have hnote (e : QEntry) (bs : List Byte) : (s.noteDigest q e bs).cellar = s.cellar := by
    unfold Chip.noteDigest
    split <;> rfl
  unfold Chip.updateDigest
  dsimp only
  split
  · rename_i e _
    change Tab.get CellarDie.reset (s.noteDigest q e _).cellar.dies n = _
    rw [hnote]
    rfl
  · rfl

/-- A die with more layers to run keeps its job. -/
theorem Chip.jobIf_more {js : List UpdateJob} (hjobs : (s.die d).jobs = j :: js) (htodo : j.todo ≠ []) : s.jobIf d = s := by
  simp [Chip.jobIf, hjobs, htodo]

/-- The next layer of a die starts, without engines where no USER program runs. -/
theorem Chip.layerStart_begins {js : List UpdateJob} {i : Nat} {desc : BitVec 1024} {h : BitVec 512}
    {rest : List (Nat × BitVec 1024 × BitVec 512)} {t : Chip} {st : Option Status} (hfree : (s.die d).layer = none)
    (hjobs : (s.die d).jobs = j :: js) (htodo : j.todo = (i, desc, h) :: rest) (hawake : s.enginesAwake d = true)
    (hstays : s.dieRestarts d = false) (hcheck : s.layerCheck d j.noWorking ⟨desc.toNat⟩ = (t, st))
    (huser : st.isSome = true ∨ (⟨desc.toNat⟩ : Desc).rule ≠ 4) : s.layerStart d =
      t.setDie d fun y => { y with jobs := { j with todo := rest, begun := true } :: js, layer := some ⟨i, desc, st, [], []⟩ } := by
  have hbuiltin : (st.isNone && (⟨desc.toNat⟩ : Desc).rule == 4) = false := by
    rcases huser with hended | hrule
    · cases st with
      | none => cases hended
      | some _ => rfl
    · simp [hrule]
  simp only [Chip.layerStart, Chip.when, hawake, hstays, hfree, hjobs, htodo, hcheck, hbuiltin]
  rfl

theorem Chip.layerEnd_early {l : LayerRun} {js : List UpdateJob} {st : Status} (hlayer : (s.die d).layer = some l)
    (hjobs : (s.die d).jobs = j :: js) (hengines : l.engines = []) (hearly : l.early = some st) : s.layerEnd d =
      ((s.setDie d fun y => { y with layer := none }).layerDone d j l.index ⟨l.desc.toNat⟩ (LayerEnd.early st)).jobIf d := by
  simp only [Chip.layerEnd, hlayer, hjobs, hengines, hearly]
  rfl

theorem Chip.layerEnd_builtin {l : LayerRun} {js : List UpdateJob} (hlayer : (s.die d).layer = some l)
    (hjobs : (s.die d).jobs = j :: js) (hengines : l.engines = []) (hearly : l.early = none) (hrule : (⟨l.desc.toNat⟩ : Desc).rule ≠ 4) :
    s.layerEnd d = (((s.layerRun j l.index ⟨l.desc.toNat⟩).1.setDie d fun y => { y with layer := none }).layerDone d j l.index
      ⟨l.desc.toNat⟩ (s.layerRun j l.index ⟨l.desc.toNat⟩).2).jobIf d := by
  simp only [Chip.layerEnd, hlayer, hjobs, hengines, hearly, if_neg hrule]
  rfl

/-- Under HOLD a layer found amiss is read and nothing more. -/
theorem Chip.layerRun_held (i : Nat) (hhold : j.hold = true) (hamiss : (x.run j.lrScale.toNat (s.layerRead x j.hint).2).status ≠ .ok) :
    (s.layerRun j i x).1 = (s.layerRead x j.hint).1 ∧ (s.layerRun j i x).2.held = true ∧
      (s.layerRun j i x).2.status = (x.run j.lrScale.toNat (s.layerRead x j.hint).2).status := by
  have hne : ((x.run j.lrScale.toNat (s.layerRead x j.hint).2).status != .ok) = true := by simpa using hamiss
  unfold Chip.layerRun
  dsimp only
  rw [if_pos (by simp [hhold, hne])]
  exact ⟨rfl, rfl, if_neg hamiss⟩

/-! ### The drain deadline -/

theorem Chip.cancelUpdates_none (h : (s.die d).jobs = []) : s.cancelUpdates d = s := by
  rw [Chip.cancelUpdates, h]
  rfl

/-- An UPDATE of a draining queue, none of whose layers runs, leaves its die with its layers counted. -/
theorem Chip.cancelUpdates_waiting (hjobs : (s.die d).jobs = [j]) (hlayer : (s.die d).layer = none)
    (hqueue : (s.queueAt j.queue).state = .draining) :
    (s.cancelUpdates d).die d = { s.die d with jobs := [], layersDone := (s.die d).layersDone + BitVec.ofNat 64 j.todo.length } ∧
      ∀ n, n ≠ d → (s.cancelUpdates d).die n = s.die n := by
  let t := s.each j.todo fun s t => s.layerDone d j t.1 ⟨t.2.1.toNat⟩ (LayerEnd.early .cancelled)
  let u := t.setDie d fun y => { y with jobs := y.jobs.filter fun k => !(k.queue == j.queue && k.num == j.num) }
  have hdrains : ((s.queueAt j.queue).state != .draining) = false := by rw [hqueue]; rfl
  have hcancel (n : Nat) : (s.cancelUpdates d).die n = u.die n := by
    rw [Chip.cancelUpdates, hjobs]
    simp only [Chip.each, List.foldl_cons, List.foldl_nil, hdrains, hlayer]
    refine Eq.trans (b := (if (u.die (1 - d)).jobs.any fun k => k.queue == j.queue && k.num == j.num then u
      else u.updateDigest j.queue j.num).die n) rfl ?_
    split
    · rfl
    · exact Chip.updateDigest_die ..
  refine ⟨?_, fun n hn => ?_⟩
  · rw [hcancel, Chip.setDie_same, Chip.layersCancelled_die, hjobs]
    simp
  · rw [hcancel, Chip.setDie_other _ hn, Chip.layersCancelled_die_other _ hn]

/-- The drain deadline of one UPDATE that waits at die 0. -/
theorem Chip.updateDeadline_waiting (hjobs : (s.die 0).jobs = [j]) (hlayer : (s.die 0).layer = none) (hother : (s.die 1).jobs = [])
    (hqueue : (s.queueAt j.queue).state = .draining) : s.updateDeadline.die 0 =
      { s.die 0 with jobs := [], layersDone := (s.die 0).layersDone + BitVec.ofNat 64 j.todo.length } := by
  obtain ⟨hdie, hkept⟩ := Chip.cancelUpdates_waiting hjobs hlayer hqueue
  have hmine : ((((s.die 0).jobs ++ (s.die 1).jobs).filter fun j => (s.queueAt j.queue).state == .draining).map
      fun j => (j.queue, j.num)).eraseDups = [(j.queue, j.num)] := by
    rw [hjobs, hother]
    simp [hqueue, List.eraseDups_cons]
  have hsecond : (s.cancelUpdates 0).cancelUpdates 1 = s.cancelUpdates 0 :=
    Chip.cancelUpdates_none (by rw [hkept 1 (by decide)]; exact hother)
  unfold Chip.updateDeadline
  dsimp only
  rw [hmine, hsecond, ← hdie]
  refine Chip.die_of_cellar ?_ 0
  exact Chip.complete_cellar _ _ _

end

/-- Settles O51: layers start, run and end by the branches of `layerStart`, `layerEnd` and `layerDone`; the rules are their definitions. -/
theorem updates : Obligations.Updates := by
  refine ⟨?_, ?_, ?_, ?_, ?_, ?_, ?_, ?_, ?_, ?_, ?_⟩
  · intro s d j js i desc h rest t st hlive hfree hjobs htodo hawake hstays hcheck huser
    exact State.gives_live rfl hlive (Chip.layerStart_begins hfree hjobs htodo hawake hstays hcheck huser)
  · intro s d hlive hrestarts
    refine State.gives_live (f := fun c => c.layerStart d.val) rfl hlive ?_
    simp [Chip.layerStart, Chip.when, hrestarts]
  · intro s d l j js st hlive hlayer hjobs hengines hearly hst htodo
    refine State.gives_live (f := fun c => c.layerEnd d.val) rfl hlive ?_
    let t := s.toChip.setDie d.val fun y => { y with layer := none }
    have hdie := Chip.layerDone_amiss_die (s := t) (d := d.val) (j := j) (x := ⟨l.desc.toNat⟩) (e := LayerEnd.early st) hst l.index
    rw [Chip.setDie_same] at hdie
    rw [Chip.layerEnd_early hlayer hjobs hengines hearly, Chip.jobIf_more (j := j) (js := js) (by rw [hdie]; exact hjobs) htodo, hdie,
      Chip.layerDone_amiss hst, Chip.setEntry_cellar, Chip.layerReport_cellar]
    refine ⟨rfl, rfl, hjobs, ?_, ?_, ?_, rfl, Chip.layerReport_mem, Chip.layerReport_hbm⟩ <;>
      exact (congrArg _ (Tab.get_set_same ..)).trans rfl
  · intro s d l j js hlive hlayer hjobs hengines hearly hrule
    exact State.gives_live rfl hlive (Chip.layerEnd_builtin hlayer hjobs hengines hearly hrule)
  · intro s j i x hhold hamiss
    exact Chip.layerRun_held i hhold hamiss
  · intro s hlive hnone
    refine State.gives_live (f := fun c => c.updateDeadline) rfl hlive ?_
    have hmine : (((s.die 0).jobs ++ (s.die 1).jobs).filter fun j => (s.queueAt j.queue).state == .draining) = [] :=
      List.filter_eq_nil_iff.mpr fun j hj => by simpa using hnone j hj
    unfold Chip.updateDeadline
    dsimp only
    rw [hmine]
    rfl
  · intro s j hlive hjobs hlayer hother hqueue
    refine State.gives_live (f := fun c => c.updateDeadline) rfl hlive ?_
    rw [Chip.updateDeadline_waiting hjobs hlayer hother hqueue]
    exact ⟨rfl, hlayer, rfl⟩
  · intro d c w m g hplain
    simp [Desc.sgd, hplain]
  · intro d c w m g hnesterov
    simp [Desc.sgd, hnesterov]
  · intro d c c1 c2 w m v g
    exact ⟨rfl, rfl, rfl⟩
  · intro d lr
    exact ⟨rfl, rfl⟩

end Sys2Proof.Machine
end

section
/-! PROOF. Accesses to the cellar over its links, and the statement `Cellar_accesses`. -/

namespace Sys2Proof.Machine

section
variable {s : Chip}

/-! ### Messages that cross links with room -/

theorem Chip.gdpSend_room {l : Nat} {m : GdpMsg} (h : gdpSlots m ≤ nth 0 (s.link l).credits m.prio.toNat) : s.gdpSend l m = s.emit (.gdp l m) :=
  if_pos h

theorem Chip.each_emit (m : GdpMsg) (l : List Nat) :
    (s.each l fun s k => s.emit (.gdp k m)) = { s with out := l.reverse.map (.gdp · m) ++ s.out } := by
  induction l generalizing s with
  | nil => rfl
  | cons k l ih =>
    refine ih.trans ?_
    simp [Chip.emit]

/-- A message that finds room on each link of its way crosses them all. -/
theorem Chip.foldl_gdpSend (m : GdpMsg) (l : List Nat) (h : ∀ k, k ∈ l → gdpSlots m ≤ nth 0 (s.link k).credits m.prio.toNat) :
    l.foldl (fun (s : Chip) k => s.gdpSend k m) s = { s with out := l.reverse.map (.gdp · m) ++ s.out } := by
  induction l generalizing s with
  | nil => rfl
  | cons k l ih =>
    rw [List.foldl_cons, Chip.gdpSend_room (h k List.mem_cons_self)]
    refine (ih (s := s.emit (.gdp k m)) fun j hj => h j (List.mem_cons_of_mem k hj)).trans ?_
    simp [Chip.emit]

theorem Chip.wakeCellar_power (a : Nat) : ∃ p, s.wakeCellar a = { s with power := p } := by
  unfold Chip.wakeCellar
  split
  · exact ⟨_, rfl⟩
  · exact ⟨s.power, rfl⟩

/-! ### The request and its answer -/

/-- The request of a site to a cellar die by the link `l`. -/
def Chip.cellarAsk (s : Chip) (site l tag : Nat) (x : HbmAccess) : GdpMsg :=
  { op := if x.write.isSome then .write else .read, prio := 2, hint := 0
    poison := (match x.write with | some (_, m) => m | none => false)
    tag := BitVec.ofNat 12 tag, src := BitVec.ofNat 8 site, dst := s.peerUnit l, status := 0, aop := 0
    addr := BitVec.ofNat 44 x.addr, len := BitVec.ofNat 9 x.len
    payload := (match x.write with | some (bs, _) => bs | none => []) }

/-- The die's answer to a request, before what its operation adds. -/
def answerTo (m : GdpMsg) : GdpMsg := { m with src := m.dst, dst := m.src, poison := false, payload := [] }

/-- The answer to a READ. -/
def readAnswer (m : GdpMsg) (poison : Bool) (bs : List Byte) : GdpMsg :=
  { answerTo m with op := .readResp, poison := poison, status := if poison then 1 else 0, payload := bs }

/-- The chip once a request has crossed the links of its way, the first of which waits for the answer. -/
def Chip.asked (s : Chip) (way : List Nat) (a : Nat) (m : GdpMsg) : Chip :=
  { ((s.wakeCellar a).setLink (way.headD 0) fun x => { x with outstanding := x.outstanding ++ [m] }) with
    out := way.reverse.map (.gdp · m) ++ s.out }

theorem Chip.asked_outside (way : List Nat) (a : Nat) (m : GdpMsg) :
    (s.asked way a m).mem = s.mem ∧ (s.asked way a m).hbm = s.hbm ∧ (s.asked way a m).log = s.log ∧ (s.asked way a m).queues = s.queues := by
  obtain ⟨p, hp⟩ := s.wakeCellar_power a
  rw [Chip.asked, hp]
  exact ⟨rfl, rfl, rfl, rfl⟩

theorem Chip.setLink_outstanding_credits (m : GdpMsg) (l k : Nat) :
    ((s.setLink l fun x => { x with outstanding := x.outstanding ++ [m] }).link k).credits = (s.link k).credits := by
  by_cases h : k = l
  · rw [h, Chip.setLink_same]
  · rw [Chip.setLink_other _ _ _ _ h]

/-- A request of one slot crosses links with room. -/
theorem Chip.crosses {k : Nat} {rest : List Nat} {m : GdpMsg} (a : Nat) (hprio : m.prio = 2) (hslots : gdpSlots m = 1)
    (hroom : ∀ j, j ∈ k :: rest → 0 < nth 0 (s.link j).credits 2) :
    rest.foldl (fun (s : Chip) l => s.gdpSend l m) ((s.wakeCellar a).gdpRequest k m) = s.asked (k :: rest) a m := by
  obtain ⟨p, hp⟩ := s.wakeCellar_power a
  let t := (s.wakeCellar a).setLink k fun x => { x with outstanding := x.outstanding ++ [m] }
  have hfits (j : Nat) (hj : j ∈ k :: rest) : gdpSlots m ≤ nth 0 (t.link j).credits m.prio.toNat := by
    rw [Chip.setLink_outstanding_credits, hslots, hprio, hp]
    exact hroom j hj
  rw [Chip.gdpRequest, Chip.gdpSend_room (hfits k List.mem_cons_self)]
  refine (Chip.foldl_gdpSend (s := t.emit (.gdp k m)) m rest fun j hj => hfits j (List.mem_cons_of_mem k hj)).trans ?_
  rw [Chip.asked]
  simp only [t, hp]
  simp [Chip.emit, Chip.setLink]

theorem Chip.asked_bytes (way : List Nat) (a : Nat) (m : GdpMsg) (b n : Nat) : (s.asked way a m).bytes b n = s.bytes b n := by
  obtain ⟨p, hp⟩ := s.wakeCellar_power a
  rw [Chip.asked, hp]
  rfl

theorem Chip.asked_poisoned (way : List Nat) (a : Nat) (m : GdpMsg) (b : Nat) : (s.asked way a m).poisoned b = s.poisoned b := by
  obtain ⟨p, hp⟩ := s.wakeCellar_power a
  rw [Chip.asked, hp]
  rfl

section
variable {way : List Nat} {site die tag : Nat} {x : HbmAccess} (hway : way ≠ [])
  (hroom : ∀ j, j ∈ way → 0 < nth 0 (s.link j).credits 2)

include hway hroom

/-- A read whose way has room: the request crosses it, and the die's answer comes back with the bytes of the line. -/
theorem Chip.cellarExchange_read (hread : x.write = none) {m : GdpMsg} (hm : m = s.cellarAsk site (s.cellarLink site die) tag x) :
    s.cellarExchange way site die tag x [] = { s.asked way x.addr m with
      out := way.map (.gdp · (readAnswer m (s.poisoned (64 * (x.addr / 64)))
        (((s.bytes (64 * (x.addr / 64)) 64).drop (x.addr % 64)).take x.len))) ++ (s.asked way x.addr m).out } := by
  obtain ⟨addr, len, write, hint, errors⟩ := x
  subst hread
  cases way with
  | nil => exact absurd rfl hway
  | cons k rest =>
    have hcross := Chip.crosses addr (m := m) (by rw [hm]; rfl) (by rw [hm]; simp [gdpSlots, Chip.cellarAsk]) hroom
    have hanswer : s.cellarExchange (k :: rest) site die tag ⟨addr, len, none, hint, errors⟩ [] =
        (s.asked (k :: rest) addr m).each (k :: rest).reverse fun t l => t.emit (.gdp l (readAnswer m
          ((s.asked (k :: rest) addr m).poisoned (64 * (addr / 64)))
          ((((s.asked (k :: rest) addr m).bytes (64 * (addr / 64)) 64).drop (addr % 64)).take len))) := by
      rw [← hcross, hm]
      rfl
    rw [hanswer, Chip.each_emit, List.reverse_reverse, Chip.asked_bytes, Chip.asked_poisoned]

/-- A write whose way has room: the request crosses it, the bytes are stored, and the die acknowledges. -/
theorem Chip.cellarExchange_write {bs : List Byte} {p : Bool} (hwrite : x.write = some (bs, p)) (hline : bs.length ≤ 64) {m : GdpMsg}
    (hm : m = s.cellarAsk site (s.cellarLink site die) tag x) :
    s.cellarExchange way site die tag x [] = { (s.asked way x.addr m).putLine x.addr bs p with
      out := way.map (.gdp · { answerTo m with op := .writeAck, len := 0 }) ++ ((s.asked way x.addr m).putLine x.addr bs p).out } := by
  obtain ⟨addr, len, write, hint, errors⟩ := x
  subst hwrite
  cases way with
  | nil => exact absurd rfl hway
  | cons k rest =>
    have hslots : gdpSlots m = 1 := by
      have hpayload : m.payload = bs := by rw [hm]; rfl
      rw [gdpSlots, hpayload]
      omega
    have hcross := Chip.crosses addr (m := m) (by rw [hm]; rfl) hslots hroom
    have hanswer : s.cellarExchange (k :: rest) site die tag ⟨addr, len, some (bs, p), hint, errors⟩ [] =
        ((if bs.length = 64 then s.asked (k :: rest) addr m else s.asked (k :: rest) addr m).putLine addr bs p).each (k :: rest).reverse
          fun t l => t.emit (.gdp l { answerTo m with op := .writeAck, len := 0 }) := by
      rw [← hcross, hm]
      rfl
    rw [hanswer, ite_self, Chip.each_emit, List.reverse_reverse]

end

/-! ### The access as a whole -/

/-- The report of a die on one link changes nothing an access reads. -/
theorem Chip.oneLink_keeps (d l : Nat) : (s.oneLink d l).links = s.links ∧ (s.oneLink d l).mem = s.mem ∧ (s.oneLink d l).hbm = s.hbm ∧
    (s.oneLink d l).queues = s.queues := by
  unfold Chip.oneLink
  dsimp only
  split
  · exact ⟨rfl, rfl, rfl, rfl⟩
  · split <;> exact ⟨rfl, rfl, rfl, rfl⟩

theorem Chip.link_of_links {t : Chip} (h : t.links = s.links) (l : Nat) : t.link l = s.link l := by rw [Chip.link, Chip.link, h]

theorem Chip.oneLink_link (d l k : Nat) : (s.oneLink d l).link k = s.link k := Chip.link_of_links (s.oneLink_keeps d l).1 k

theorem Chip.oneLink_cellarLink (d l site die : Nat) : (s.oneLink d l).cellarLink site die = s.cellarLink site die := by
  simp only [Chip.cellarLink, Chip.oneLink_link]

theorem Chip.oneLink_peerUnit (d l k : Nat) : (s.oneLink d l).peerUnit k = s.peerUnit k := by
  simp only [Chip.peerUnit, Chip.oneLink_link]

theorem Chip.oneLink_bytes (d l a n : Nat) : (s.oneLink d l).bytes a n = s.bytes a n := by
  obtain ⟨_, hmem, _, _⟩ := s.oneLink_keeps d l
  simp only [Chip.bytes, Chip.byte, hmem]

theorem Chip.oneLink_poisoned (d l a : Nat) : (s.oneLink d l).poisoned a = s.poisoned a := by
  obtain ⟨_, _, hhbm, _⟩ := s.oneLink_keeps d l
  simp only [Chip.poisoned, Chip.place, Chip.regions, hhbm]

/-- The way of a site to a cellar die ends with the die's link. -/
theorem Chip.cellarWay_ne_nil {site die : Nat} {way : List Nat} (h : s.cellarWay site die = some way) : way ≠ [] := by
  unfold Chip.cellarWay at h
  obtain ⟨path, _, rfl⟩ := Option.map_eq_some_iff.mp h
  simp

section
variable {site tag : Nat} {x : HbmAccess}

/-- An access of the cellar that stays within a line and finds a way and a tag. -/
theorem Chip.cellarAccess_exchange {way : List Nat} (hcellar : x.addr / 2 ^ 40 = 4) (hlen : 0 < x.len) (hline : x.addr % 64 + x.len ≤ 64)
    (hwrite : ∀ bs p, x.write = some (bs, p) → bs.length = x.len) (herrors : x.errors = []) (hreach : s.cutOff site x.addr = false)
    (hway : s.cellarWay site (x.addr / 2 ^ 39 % 2) = some way) (htag : s.freeTag (way.headD 0) = some tag) :
    s.cellarAccess site x = (s.oneLink (x.addr / 2 ^ 39 % 2) (s.cellarLink site (x.addr / 2 ^ 39 % 2))).cellarExchange way site
      (x.addr / 2 ^ 39 % 2) tag x [] := by
  unfold Chip.cellarAccess
  dsimp only
  rw [if_neg, hreach, hway]
  · dsimp only
    rw [htag, herrors]
    rfl
  · rcases hw : x.write with _ | ⟨bs, p⟩
    · simp only [Bool.not_true, Bool.false_eq_true, or_false]
      omega
    · simp only [hwrite bs p hw, BEq.rfl, Bool.not_true, Bool.false_eq_true, or_false]
      omega

/-- A read that no message carries to the die gives ones marked poisoned. -/
theorem Chip.cellarAccess_lostRead (hcellar : x.addr / 2 ^ 40 = 4) (hlen : 0 < x.len) (hline : x.addr % 64 + x.len ≤ 64)
    (hread : x.write = none) (hlost : s.cutOff site x.addr = true) :
    s.cellarAccess site x = s.emit (.data (List.replicate x.len 0xFF) true) := by
  unfold Chip.cellarAccess
  dsimp only
  rw [hread, if_neg, hlost]
  simp only [Bool.not_true, Bool.false_eq_true, or_false]
  omega

/-- A write that no message carries to the die is one of a site whose way is cut off. -/
theorem Chip.cellarAccess_lostWrite (hcellar : x.addr / 2 ^ 40 = 4) (hlen : 0 < x.len) (hline : x.addr % 64 + x.len ≤ 64)
    {bs : List Byte} {p : Bool} (hwrite : x.write = some (bs, p)) (hbytes : bs.length = x.len) (hlost : s.cutOff site x.addr = true) :
    s.cellarAccess site x = s.writePieceFrom site x.addr bs p x.hint := by
  unfold Chip.cellarAccess
  dsimp only
  rw [hwrite, if_neg, hlost]
  simp only [hbytes, BEq.rfl, Bool.not_true, Bool.false_eq_true, or_false]
  omega

theorem Chip.cutOff_of_down (hcellar : x.addr / 2 ^ 40 = 4) (h : s.cellarDown (x.addr / 2 ^ 39 % 2) = true ∨ s.cutOff site x.addr = true) :
    s.cutOff site x.addr = true := by
  rcases h with hdown | hcut
  · have hrange : 0x40000000000 ≤ x.addr ∧ x.addr < 0x50000000000 := by omega
    have hdead : s.unreachable x.addr = true := by
      rw [Chip.unreachable, hdown]
      simp [hrange]
    rw [Chip.cutOff, hdead, Bool.true_or]
  · exact hcut

/-- A write that no message carries is reported with event 0x8109 and stores nothing. -/
theorem Chip.writePieceFrom_lost (bs : List Byte) (p : Bool) (hint : Hint) {a : Nat} (hlost : s.cutOff site a = true) :
    ∃ args : List Arg, s.writePieceFrom site a bs p hint = (s.raise 0x8109 args).drew := by
  unfold Chip.writePieceFrom
  cases hdown : s.unreachable a with
  | false =>
    rw [hlost, if_pos (by rfl)]
    exact ⟨_, rfl⟩
  | true =>
    rw [if_neg (by simp), Chip.writePiece, if_pos hdown]
    exact ⟨_, rfl⟩

end

end

/-- What an access crosses on its way out. -/
theorem Chip.asked_out (s : Chip) (way : List Nat) (a : Nat) (m : GdpMsg) : (s.asked way a m).out = way.reverse.map (.gdp · m) ++ s.out := rfl

theorem Chip.putLine_out (s : Chip) (a : Nat) (bs : List Byte) (p : Bool) : (s.putLine a bs p).out = s.out := by
  unfold Chip.putLine
  dsimp only
  split
  · split <;> rfl
  · split <;> rfl

theorem Chip.putLine_log (s : Chip) (a : Nat) (bs : List Byte) (p : Bool) : (s.putLine a bs p).log = s.log := by
  unfold Chip.putLine
  dsimp only
  split
  · split <;> rfl
  · split <;> rfl

theorem gives_cellarRead (s : State) (r : CellarReq) (l d tag : Nat) (way : List Nat) (hlive : s.live = true)
    (hcellar : r.access.addr / 2 ^ 40 = 4) (hlen : 0 < r.access.len) (hline : r.access.addr % 64 + r.access.len ≤ 64)
    (hread : r.access.write = none) (herrors : r.access.errors = []) (hd : d = r.access.addr / 2 ^ 39 % 2)
    (hl : l = s.cellarLink r.site.val d) (hreach : s.cutOff r.site.val r.access.addr = false) (hway : s.cellarWay r.site.val d = some way)
    (htag : s.freeTag (way.headD 0) = some tag) (hroom : ∀ k, k ∈ way → 0 < nth 0 (s.link k).credits 2) :
    s.gives (.cellarAccess r) fun c =>
    (∃ a b : GdpMsg, c.out = way.map (.gdp · b) ++ way.reverse.map (.gdp · a) ++ (s.toChip.oneLink d l).out ∧ a.op = .read ∧
      b.op = .readResp ∧ a.tag = BitVec.ofNat 12 tag ∧ b.tag = a.tag ∧ a.src = BitVec.ofNat 8 r.site.val ∧ a.dst = s.peerUnit l ∧
      b.dst = a.src ∧ b.src = a.dst ∧ a.addr = BitVec.ofNat 44 r.access.addr ∧
      b.payload = ((s.bytes (64 * (r.access.addr / 64)) 64).drop (r.access.addr % 64)).take r.access.len ∧
      b.poison = s.poisoned (64 * (r.access.addr / 64))) ∧ c.mem = s.mem ∧ c.log = (s.toChip.oneLink d l).log ∧ c.queues = s.queues := by
  subst hd hl
  let d := r.access.addr / 2 ^ 39 % 2
  let t := s.toChip.oneLink d (s.cellarLink r.site.val d)
  let m := t.cellarAsk r.site.val (t.cellarLink r.site.val d) tag r.access
  obtain ⟨_, hmem, _, hqueues⟩ := s.toChip.oneLink_keeps d (s.cellarLink r.site.val d)
  obtain ⟨haskmem, _, hasklog, haskqueues⟩ := t.asked_outside way r.access.addr m
  refine State.gives_live (f := fun c => c.cellarAccess r.site.val r.access) rfl hlive ?_
  rw [Chip.cellarAccess_exchange hcellar hlen hline (by simp [hread]) herrors hreach hway htag, Chip.cellarExchange_read (m := m)
    (Chip.cellarWay_ne_nil hway) (fun k hk => by rw [Chip.oneLink_link]; exact hroom k hk) hread rfl]
  refine ⟨⟨m, readAnswer m (t.poisoned (64 * (r.access.addr / 64)))
    (((t.bytes (64 * (r.access.addr / 64)) 64).drop (r.access.addr % 64)).take r.access.len), ?_, ?_, rfl, rfl, rfl, rfl, ?_, rfl, rfl, rfl, ?_, ?_⟩, haskmem.trans hmem, hasklog, haskqueues.trans hqueues⟩
  · rw [Chip.asked_out, ← List.append_assoc]
  · simp [m, Chip.cellarAsk, hread]
  · change t.peerUnit (t.cellarLink r.site.val d) = _
    rw [Chip.oneLink_peerUnit, Chip.oneLink_cellarLink]
  · change ((t.bytes _ 64).drop _).take _ = _
    rw [Chip.oneLink_bytes]
  · exact Chip.oneLink_poisoned _ _ _

theorem gives_cellarWrite (s : State) (r : CellarReq) (l d tag : Nat) (way : List Nat) (bs : List Byte) (p : Bool) (hlive : s.live = true)
    (hcellar : r.access.addr / 2 ^ 40 = 4) (hlen : 0 < r.access.len) (hline : r.access.addr % 64 + r.access.len ≤ 64)
    (hwrite : r.access.write = some (bs, p)) (hbytes : bs.length = r.access.len) (herrors : r.access.errors = [])
    (hd : d = r.access.addr / 2 ^ 39 % 2) (hl : l = s.cellarLink r.site.val d) (hreach : s.cutOff r.site.val r.access.addr = false)
    (hway : s.cellarWay r.site.val d = some way) (htag : s.freeTag (way.headD 0) = some tag)
    (hroom : ∀ k, k ∈ way → 0 < nth 0 (s.link k).credits 2) : s.gives (.cellarAccess r) fun c =>
    (∃ a b : GdpMsg, c.out = way.map (.gdp · b) ++ way.reverse.map (.gdp · a) ++ (s.toChip.oneLink d l).out ∧ a.op = .write ∧
      b.op = .writeAck ∧ a.payload = bs ∧ a.poison = p ∧ a.tag = BitVec.ofNat 12 tag ∧ b.tag = a.tag ∧ b.status = 0) ∧
    (∀ i, i < bs.length → c.byte (r.access.addr + i) = nth 0 bs i) ∧
    (∀ k, k < r.access.addr ∨ r.access.addr + bs.length ≤ k → c.byte k = s.byte k) ∧
    c.log = (s.toChip.oneLink d l).log ∧ c.queues = s.queues := by
  subst hd hl
  let d := r.access.addr / 2 ^ 39 % 2
  let t := s.toChip.oneLink d (s.cellarLink r.site.val d)
  let m := t.cellarAsk r.site.val (t.cellarLink r.site.val d) tag r.access
  obtain ⟨_, hmem, _, hqueues⟩ := s.toChip.oneLink_keeps d (s.cellarLink r.site.val d)
  obtain ⟨haskmem, _, hasklog, haskqueues⟩ := t.asked_outside way r.access.addr m
  refine State.gives_live (f := fun c => c.cellarAccess r.site.val r.access) rfl hlive ?_
  rw [Chip.cellarAccess_exchange hcellar hlen hline (by simp [hwrite, hbytes]) herrors hreach hway htag, Chip.cellarExchange_write (m := m)
    (Chip.cellarWay_ne_nil hway) (fun k hk => by rw [Chip.oneLink_link]; exact hroom k hk) hwrite (by omega) rfl]
  have hbyte (k : Nat) : ((t.asked way r.access.addr m).putLine r.access.addr bs p).byte k = (t.putBytes r.access.addr bs).byte k := by
    rw [Chip.putLine_byte]
    change Tab.get 0 (memPut (t.asked way r.access.addr m).mem r.access.addr bs) k = Tab.get 0 (memPut t.mem r.access.addr bs) k
    rw [haskmem]
  have hstored (k : Nat) (h : k < r.access.addr ∨ r.access.addr + bs.length ≤ k) : (t.putBytes r.access.addr bs).byte k = s.byte k := by
    rw [Chip.putBytes_byte_other _ _ _ _ h, Chip.byte, Chip.byte, hmem]
  refine ⟨⟨m, { answerTo m with op := .writeAck, len := 0 }, ?_, ?_, rfl, ?_, ?_, rfl, rfl, rfl⟩, fun i hi => ?_, fun k hk => ?_, ?_, ?_⟩
  · dsimp only
    rw [Chip.putLine_out, Chip.asked_out, ← List.append_assoc]
  · simp [m, Chip.cellarAsk, hwrite]
  · simp [m, Chip.cellarAsk, hwrite]
  · simp [m, Chip.cellarAsk, hwrite]
  · refine (hbyte _).trans ((Chip.putBytes_byte_same _ _ i bs hi).trans ?_)
    simp [nth, hi]
  · exact (hbyte k).trans (hstored k hk)
  · exact (Chip.putLine_log _ _ _ _).trans hasklog
  · exact (Chip.putLine_queues _ _ _ _).trans (haskqueues.trans hqueues)

/-- Settles O52: an access that finds a way exchanges a request and an answer over it; one that finds none is lost. -/
theorem cellarAccesses : Obligations.Cellar_accesses := by
  refine ⟨gives_cellarRead, gives_cellarWrite, ?_, ?_, ?_⟩
  · intro s r hlive hcellar hlen hline hread hlost
    exact State.gives_live rfl hlive (Chip.cellarAccess_lostRead hcellar hlen hline hread (Chip.cutOff_of_down hcellar hlost))
  · intro s r bs p hlive hcellar hlen hline hwrite hbytes hlost
    have hcut := Chip.cutOff_of_down hcellar hlost
    obtain ⟨args, hreport⟩ := Chip.writePieceFrom_lost bs p r.access.hint hcut
    refine State.gives_live (f := fun c => c.cellarAccess r.site.val r.access) rfl hlive ?_
    rw [Chip.cellarAccess_lostWrite hcellar hlen hline hwrite hbytes hcut, hreport]
    exact ⟨rfl, rfl, rfl, congrArg LogEntry.code (Tab.get_set_same ..)⟩
  · intro s r hlive hoff
    refine State.gives_live (f := fun c => c.cellarAccess r.site.val r.access) rfl hlive ?_
    unfold Chip.cellarAccess
    dsimp only
    rw [if_pos]
    rcases hoff with hcellar | hlen | hline
    · exact .inl hcellar
    · exact .inr (.inl hlen)
    · exact .inr (.inr (.inl hline))

end Sys2Proof.Machine
end

section
/-! PROOF. Sessions, their events, repeated requests, RESET and the UART, and the statement `Sessions_and_requests`. -/

namespace Sys2Proof.Machine

section
variable {s : Chip} {id ty : Nat} {q : Word32} {v : Session} {f : Chip → Session → Answer}

/-! ### Messages (R447) -/

/-- A new request of an open session is answered. -/
theorem Chip.message_asks (h : s.asks id q v) : s.message id ty q f =
    (f s v).chip.respond id ⟨BitVec.ofNat 8 (ty + 0x80), q, (f s v).status, (f s v).body⟩ := by
  obtain ⟨hserving, hsession, hnew⟩ := h
  simp only [Chip.message, hserving, hsession, hnew, if_true]

/-- A request answered before is answered again from what is kept. -/
theorem Chip.message_repeated {r : Response} (hserving : s.serving = true) (hsession : s.session id = some v)
    (hkept : v.kept.find? (·.reqId == q) = some r) : s.message id ty q f = s.emit (.response id r) := by
  simp only [Chip.message, hserving, hsession, hkept, if_true]

/-- A request on no open session, or while management is not served, does nothing. -/
theorem Chip.message_unserved (h : s.serving = false ∨ s.session id = none) : s.message id ty q f = s := by
  have hnone : (if s.serving then s.session id else none) = none := by
    rcases h with hserving | hsession
    · rw [hserving]
      rfl
    · rw [hsession, ite_self]
  unfold Chip.message
  rw [hnone]

theorem Chip.resets_repeated {r : Response} (hsession : s.session id = some v) (hkept : v.kept.find? (·.reqId == q) = some r) :
    s.resets id q = false := by
  have hall : v.kept.all (·.reqId != q) = false := by
    refine List.all_eq_false.mpr ⟨r, List.mem_of_find?_eq_some hkept, ?_⟩
    simpa using List.find?_some hkept
  simp [Chip.resets, hsession, hall]

theorem Chip.resets_unserved (h : s.serving = false ∨ s.session id = none) : s.resets id q = false := by
  rcases h with hserving | hsession
  · simp [Chip.resets, hserving]
  · simp [Chip.resets, hsession]

theorem Chip.resets_owner (h : s.asks id q v) (howns : v.owns = true) (hup : s.power.shutdown = none) : s.resets id q = true := by
  obtain ⟨hserving, hsession, hnew⟩ := h
  have hall : v.kept.all (·.reqId != q) = true := by simpa using hnew
  simp [Chip.resets, hserving, hsession, howns, hup, hall]

theorem Chip.resets_latched (hup : s.power.shutdown.isSome = true) : s.resets id q = false := by
  obtain ⟨x, hx⟩ := Option.isSome_iff_exists.mp hup
  simp [Chip.resets, hx]

/-! ### Sessions and their events -/

theorem Chip.session_id (h : s.session id = some v) : v.id = id := by simpa using List.find?_some h

/-- A session that is changed is found again. -/
theorem Chip.session_setSession {g : Session → Session} (hg : ∀ v, (g v).id = v.id) (h : s.session id = some v) :
    (s.setSession id g).session id = some (g v) := by
  have hsame : ((fun x : Session => x.id == id) ∘ fun x : Session => if x.id = id then g x else x) = fun x : Session => x.id == id := by
    funext x
    by_cases hx : x.id = id <;> simp [hx, hg]
  unfold Chip.session Chip.setSession
  dsimp only
  rw [List.find?_map, hsame]
  have hv := Chip.session_id h
  unfold Chip.session at h
  rw [h, Option.map_some, if_pos hv]

/-- An event without acknowledgement goes out again. -/
theorem Chip.resendEvent_one {u : UnackedEvent} (h : s.session id = some v) (hu : v.unacked = [u]) :
    s.resendEvent id u.entry.seq = (s.setSession id fun v => { v with
      unacked := if u.resends + 1 ≥ 10 then v.unacked.filter (·.entry.seq != u.entry.seq)
        else v.unacked.map fun x => if x.entry.seq = u.entry.seq then { u with resends := u.resends + 1 } else x }).emit
          (.event id u.entry) := by
  simp only [Chip.resendEvent, h, hu, List.find?_cons, beq_self_eq_true]

/-- What a resent event leaves of its session. -/
theorem Chip.resendEvent_session {u : UnackedEvent} (h : s.session id = some v) (hu : v.unacked = [u]) :
    (s.resendEvent id u.entry.seq).session id =
      some { v with unacked := if u.resends + 1 ≥ 10 then [] else [{ u with resends := u.resends + 1 }] } := by
  have hone : (if u.resends + 1 ≥ 10 then v.unacked.filter (·.entry.seq != u.entry.seq)
      else v.unacked.map fun x => if x.entry.seq = u.entry.seq then { u with resends := u.resends + 1 } else x) =
      if u.resends + 1 ≥ 10 then [] else [{ u with resends := u.resends + 1 }] := by
    rw [hu]
    simp
  rw [Chip.resendEvent_one h hu, ← hone]
  exact Chip.session_setSession (fun _ => rfl) h

/-! ### The UART (R440, R472) -/

/-- IMAGE_ABORT on the UART of the recovery loader ends the transfer that came over it. -/
theorem Chip.uart_abort {b : List Byte} {t : Transfer} (hloader : s.mgmt.loader = true)
    (hm : uartMessage b = some (eulenMessage 11 1 .ok [])) (ht : s.transferOf none = some t) :
    s.uart b = ({ s with mgmt := { s.mgmt with transfer := none } } : Chip).emit (.uart (uartFrame (eulenMessage 0x8B 1 .ok []))) := by
  have hlength : (eulenMessage 11 1 .ok []).length = 16 := by decide
  have htype : leNat (((eulenMessage 11 1 .ok []).drop 3).take 1) = 11 := by decide
  have hreq : leNat (((eulenMessage 11 1 .ok []).drop 4).take 4) = 1 := by decide
  have hbody : (eulenMessage 11 1 .ok []).drop 16 = [] := by decide
  have hmagic : leNat (((eulenMessage 11 1 .ok []).drop 0).take 2) = 0x4555 := by decide
  have hversion : leNat (((eulenMessage 11 1 .ok []).drop 2).take 1) = 1 := by decide
  have hbytes : leNat (((eulenMessage 11 1 .ok []).drop 8).take 2) = 0 := by decide
  have hstatus : leNat (((eulenMessage 11 1 .ok []).drop 10).take 1) = 0 := by decide
  have hflags : leNat (((eulenMessage 11 1 .ok []).drop 11).take 1) = 0 := by decide
  have hreserved : leNat (((eulenMessage 11 1 .ok []).drop 12).take 4) = 0 := by decide
  have hrequest : s.uartRequest 11 [] = .plain (.ok, s.imageDrop) := by
    simp [Chip.uartRequest, Chip.imageAbort, ht]
  unfold Chip.uart
  rw [hloader, if_pos rfl, hm]
  simp only [hlength, htype, hreq, hbody, hmagic, hversion, hbytes, hstatus, hflags, hreserved, hrequest]
  rfl

end

/-- A command that is one message. -/
theorem State.gives_message {s : State} {i : Instr} {id ty : Nat} {q : Word32} {f : Chip → Session → Answer} {P : Chip → Prop}
    (he : exec i s = s.always fun c => c.message id ty q f) (hp : P (s.toChip.message id ty q f)) : s.gives i P :=
  State.gives_always he hp

/-- What RESET is answered. -/
def Chip.resetAnswer (c : Chip) (v : Session) : Answer :=
  if !v.owns then .no c .role else if c.power.shutdown.isSome then .no c .access else ⟨.ok, [], c⟩

theorem State.gives_reset {s : State} {id : Nat} {q : Word32} {P : Chip → Prop}
    (hp : P (if s.toChip.resets id q then (s.toChip.message id 0x0C q Chip.resetAnswer).eulenReset
      else s.toChip.message id 0x0C q Chip.resetAnswer)) : s.gives (.eulenReset id q) P :=
  State.gives_always (f := fun c => if c.resets id q then (c.message id 0x0C q Chip.resetAnswer).eulenReset
    else c.message id 0x0C q Chip.resetAnswer) rfl hp

theorem gives_request_repeated (s : State) (i : Instr) (id : Nat) (q : Word32) (v : Session) (r : Response)
    (hi : (∃ b e, i = .get id q b e) ∨ (∃ e, i = .set id q e) ∨ (∃ a b, i = .subscribe id q a b) ∨ (∃ a, i = .eventAck id q a) ∨
      (∃ a b, i = .memRead id q a b) ∨ (∃ a b, i = .memWrite id q a b) ∨ (∃ a, i = .attest id q a) ∨
      (∃ a b, i = .imageBegin id q a b) ∨ (∃ a b, i = .imageData id q a b) ∨ i = .imageEnd id q ∨ i = .imageAbort id q ∨
      i = .eulenReset id q ∨ (∃ a, i = .badMessage id q a))
    (hserving : s.serving = true) (hsession : s.session id = some v) (hkept : v.kept.find? (·.reqId == q) = some r) :
    s.gives i fun c => c = s.toChip.emit (.response id r) := by
  have hmessage (ty : Nat) (f : Chip → Session → Answer) : s.toChip.message id ty q f = s.toChip.emit (.response id r) :=
    Chip.message_repeated hserving hsession hkept
  rcases hi with ⟨b, e, rfl⟩ | ⟨e, rfl⟩ | ⟨a, b, rfl⟩ | ⟨a, rfl⟩ | ⟨a, b, rfl⟩ | ⟨a, b, rfl⟩ | ⟨a, rfl⟩ | ⟨a, b, rfl⟩ | ⟨a, b, rfl⟩ |
    rfl | rfl | rfl | ⟨a, rfl⟩
  case inr.inr.inr.inr.inr.inr.inr.inr.inr.inr.inr.inl =>
    refine State.gives_reset ?_
    rw [Chip.resets_repeated hsession hkept]
    exact hmessage _ _
  all_goals exact State.gives_message rfl (hmessage _ _)

theorem gives_request_unserved (s : State) (i : Instr) (id : Nat) (q : Word32)
    (hi : (∃ b e, i = .get id q b e) ∨ (∃ e, i = .set id q e) ∨ (∃ a b, i = .subscribe id q a b) ∨ (∃ a, i = .eventAck id q a) ∨
      (∃ a b, i = .memRead id q a b) ∨ (∃ a b, i = .memWrite id q a b) ∨ (∃ a, i = .attest id q a) ∨
      (∃ a b, i = .imageBegin id q a b) ∨ (∃ a b, i = .imageData id q a b) ∨ i = .imageEnd id q ∨ i = .imageAbort id q ∨
      i = .eulenReset id q ∨ (∃ a, i = .badMessage id q a))
    (hnone : s.serving = false ∨ s.session id = none) : s.gives i fun c => c = s.toChip := by
  have hmessage (ty : Nat) (f : Chip → Session → Answer) : s.toChip.message id ty q f = s.toChip := Chip.message_unserved hnone
  rcases hi with ⟨b, e, rfl⟩ | ⟨e, rfl⟩ | ⟨a, b, rfl⟩ | ⟨a, rfl⟩ | ⟨a, b, rfl⟩ | ⟨a, b, rfl⟩ | ⟨a, rfl⟩ | ⟨a, b, rfl⟩ | ⟨a, b, rfl⟩ |
    rfl | rfl | rfl | ⟨a, rfl⟩
  case inr.inr.inr.inr.inr.inr.inr.inr.inr.inr.inr.inl =>
    refine State.gives_reset ?_
    rw [Chip.resets_unserved hnone]
    exact hmessage _ _
  all_goals exact State.gives_message rfl (hmessage _ _)

/-- Settles O53: a message is answered anew, answered from what is kept, or not at all; each command on a session is one of these. -/
theorem sessionsAndRequests : Obligations.Sessions_and_requests := by
  refine ⟨?_, ?_, ?_, ?_, ?_, ?_, ?_, ?_, ?_, ?_, gives_request_repeated, gives_request_unserved, ?_, ?_, ?_, ?_, ?_⟩
  · intro s k hserving hroom
    refine State.gives_always (f := fun c => c.handshake k) rfl ?_
    unfold Chip.handshake
    rw [hserving, Chip.when_pos rfl, if_neg (by omega)]
    rcases s.toChip.admits k with _ | ⟨role, claim⟩ <;> rfl
  · intro s k hclaimed
    rw [Chip.admits, if_pos hclaimed]
  · intro s k hclaimed
    rw [Chip.admits, if_neg (by simp [hclaimed])]
    simp
  · intro s k hserving hfull
    refine State.gives_always (f := fun c => c.handshake k) rfl ?_
    unfold Chip.handshake
    rw [hserving, Chip.when_pos rfl, if_pos (by omega)]
  · intro s id v hsession hnone
    refine State.gives_always (f := fun c => c.closeSession id) rfl ?_
    simp [Chip.closeSession, hsession, hnone, Chip.when]
  · intro s id v t hsession hsome
    refine State.gives_always (f := fun c => c.closeSession id) rfl ?_
    simp [Chip.closeSession, hsession, hsome, Chip.when, Chip.imageDrop]
  · intro s id q v a b hasks hloader
    refine State.gives_message rfl ((Chip.message_asks hasks).trans ?_)
    simp only [Chip.loaderOnly, hloader]
    rfl
  · intro s id q v n hasks hloader
    refine State.gives_message rfl ((Chip.message_asks hasks).trans ?_)
    simp only [Chip.loaderOnly, hloader]
    rfl
  · intro s id v u hsession hu hagain
    refine State.gives_always (f := fun c => c.resendEvent id u.entry.seq) rfl ?_
    refine ⟨?_, ?_, ?_, ?_⟩
    · rw [Chip.resendEvent_one hsession hu]
      rfl
    · rw [Chip.resendEvent_session hsession hu, if_neg (by omega)]
    · rw [Chip.resendEvent_one hsession hu]
      rfl
    · rw [Chip.resendEvent_one hsession hu]
      rfl
  · intro s id v u hsession hu hlast
    refine State.gives_always (f := fun c => c.resendEvent id u.entry.seq) rfl ?_
    refine ⟨?_, ?_, ?_, ?_⟩
    · rw [Chip.resendEvent_one hsession hu]
      rfl
    · rw [Chip.resendEvent_session hsession hu, if_pos (by omega)]
    · rw [Chip.resendEvent_one hsession hu]
      rfl
    · rw [Chip.resendEvent_one hsession hu]
      rfl
  · intro s id q v hasks howns hup
    refine State.gives_reset ?_
    rw [Chip.resets_owner hasks howns hup, if_pos rfl, Chip.message_asks hasks]
    simp only [Chip.resetAnswer, howns, hup]
    rfl
  · intro s id q v hasks howns hlatched
    refine State.gives_reset ?_
    rw [Chip.resets_latched hlatched, if_neg Bool.false_ne_true, Chip.message_asks hasks]
    simp only [Chip.resetAnswer, howns, hlatched]
    rfl
  · intro s id q v ty hasks
    exact State.gives_message rfl (Chip.message_asks hasks)
  · intro s b hloader
    refine State.gives_always (f := fun c => c.uart b) rfl ?_
    simp [Chip.uart, hloader]
  · intro s b m t hloader hb hm ht
    exact State.gives_always (f := fun c => c.uart b) rfl (Chip.uart_abort hloader (hm ▸ hb) ht)

end Sys2Proof.Machine
end

section
/-! PROOF. GET, SET, and what each kind of object takes, and the statement `Objects`. -/

namespace Sys2Proof.Machine

/-! ### GET (R448, R452) -/

theorem leBytes_length (n x : Nat) : (leBytes n x).length = n := by
  induction n generalizing x with
  | zero => rfl
  | succ n ih => rw [leBytes, List.length_cons, ih]

theorem pad4_length_le (b : List Byte) : (pad4 b).length ≤ b.length + 3 := by
  rw [pad4, List.length_append, List.length_replicate]
  omega

theorem getBytes_length_le (e : GetEntry) (r : EStatus × List Byte) : (getBytes e r).length ≤ r.2.length + 9 := by
  refine (pad4_length_le _).trans ?_
  simp only [List.length_append, leBytes_length, List.length_cons, List.length_nil]
  omega

theorem OType.bytes_le {t : OType} {n : Nat} (h : t.bytes = some n) : n ≤ 8 := by
  cases t <;> simp [OType.bytes] at h <;> omega

section
variable {s : Chip} {id : Nat} {q : Word32} {v : Session}

/-- A GET of one entry without SNAPSHOT. -/
theorem Chip.get_single (e : GetEntry) (old : List Copy) (h : (s.getEntry [] e).2.length ≤ 64) :
    s.get id false [e] old = ⟨.ok, getBytes e (s.getEntry [] e), s.setSession id fun v => { v with snapshot := [] }⟩ := by
  have hfits := (getBytes_length_le e (s.getEntry [] e)).trans (Nat.add_le_add_right h 9)
  unfold Chip.get
  simp only [List.length_cons, List.length_nil, List.flatMap_cons, List.flatMap_nil, List.append_nil]
  rw [if_neg (by decide), if_neg (by simpa using by omega)]
  rfl

theorem Chip.getEntry_number {e : GetEntry} {r : DictRow} (hloader : s.mgmt.loader = false)
    (hrow : dictRow (256 * e.index.toNat + e.sub.toNat) = some r) (hread : r.acc ≠ .wo) (hbytes : r.ty.bytes.isSome = true) :
    s.getEntry [] e = (.ok, s.value r (256 * e.index.toNat + e.sub.toNat)) := by
  have hplain : r.ty ≠ .blob := by
    intro h
    rw [h] at hbytes
    cases hbytes
  simp only [Chip.getEntry, hrow, Chip.loaderOnly, hloader, hread, hplain, Bool.false_eq_true, false_and, or_false, if_false]

theorem Chip.value_length {r : DictRow} (hbytes : r.ty.bytes.isSome = true) (key : Nat) : (s.value r key).length ≤ 8 := by
  obtain ⟨n, hn⟩ := Option.isSome_iff_exists.mp hbytes
  simp only [Chip.value, hn, leBytes_length]
  exact OType.bytes_le hn

theorem Chip.getEntry_none {e : GetEntry} (hrow : dictRow (256 * e.index.toNat + e.sub.toNat) = none) (hsub : e.sub ≠ 0) :
    s.getEntry [] e = (.noObject, []) := by
  have hsub' : e.sub.toNat ≠ 0 := fun h => hsub (BitVec.eq_of_toNat_eq h)
  simp only [Chip.getEntry, hrow, hsub', ne_eq, not_false_eq_true, true_or, if_true]

/-! ### SET (R447) -/

/-- A SET of one entry. -/
theorem Chip.set_single {w : Writer} {e : SetEntry} {st : EStatus} {t : Chip} (hloader : s.mgmt.loader = false) (hlength : e.value.length ≤ 64)
    (hwrite : s.writeObject w e.index.toNat e.sub.toNat e.type.toNat e.value = (st, t)) :
    s.set w [e] = ⟨.ok, leBytes 2 e.index.toNat ++ [e.sub, st.code], t⟩ := by
  have hfits : ¬ setBytes [e] > 1152 := by
    simp only [setBytes, List.foldl_cons, List.foldl_nil]
    omega
  unfold Chip.set
  rw [if_neg hfits]
  simp only [Chip.setEntries, List.foldl_cons, List.foldl_nil, Chip.loaderOnly, hloader, hwrite]
  rfl

/-- Nothing that writes nothing may write an object. -/
theorem Chip.writeObject_none {idx sub ty : Nat} {b : List Byte} {r : DictRow} (hrow : dictRow (256 * idx + sub) = some r) :
    s.writeObject .none idx sub ty b = (.role, s) := by
  simp only [Chip.writeObject, hrow]
  rfl

/-! ### Objects without a behaviour of their own (R452, R453) -/

theorem Chip.numberWrite_plain {r : DictRow} (hplain : (actionsAon ++ actionsA ++ actionsB).find? (·.1 == r.key) = none) (key x : Nat) :
    s.numberWrite r key x = s.plainWrite r key x := by
  rw [List.append_assoc, List.find?_append, Option.or_eq_none_iff] at hplain
  obtain ⟨haon, hrest⟩ := hplain
  simp only [Chip.numberWrite, haon, hrest]

/-- SERVICE_CMD has no fixed width. -/
theorem serviceCmd_blob {key : Nat} {r : DictRow} (hrow : dictRow key = some r) (hkey : r.key = O.serviceCmd) : r.ty.bytes = none := by
  have hall : ∀ r ∈ dictionary, r.key = O.serviceCmd → r.ty.bytes = none := by decide +kernel
  exact hall r (List.mem_of_find?_eq_some hrow) hkey

theorem OType.code_toNat (t : OType) : (BitVec.ofNat 8 t.code).toNat = t.code := by
  cases t <;> rfl

/-- A value out of its range is refused. -/
theorem Chip.writeObject_outOfRange {idx sub : Nat} {b : List Byte} {r : DictRow} {n : Nat} (hrow : dictRow (256 * idx + sub) = some r)
    (hbytes : r.ty.bytes = some n) (hplain : (actionsAon ++ actionsA ++ actionsB).find? (·.1 == r.key) = none)
    (hrange : valueInRange r (leNat b) = false) : (s.writeObject .owner idx sub r.ty.code b).2 = s := by
  have hnumber : s.numberWrite r (256 * idx + sub) (leNat b) = none := by
    rw [Chip.numberWrite_plain hplain, Chip.plainWrite, hrange]
    rfl
  have hkey : r.key ≠ O.serviceCmd := fun h => by
    rw [serviceCmd_blob hrow h] at hbytes
    cases hbytes
  simp only [Chip.writeObject, hrow, hbytes, hnumber, hkey, Writer.may, if_false]
  split_ifs <;> rfl

/-- A read-only object, and an RWL object outside Configure, is never written. -/
theorem Chip.writeObject_locked {idx sub ty : Nat} {b : List Byte} (h : ∀ r, dictRow (256 * idx + sub) = some r →
    r.acc = .ro ∨ (r.acc = .rwl ∧ s.mgmt.configOpen = false)) : (s.writeObject .owner idx sub ty b).2 = s := by
  cases hrow : dictRow (256 * idx + sub) with
  | none =>
    simp only [Chip.writeObject, hrow]
    split_ifs <;> rfl
  | some r =>
    rcases h r hrow with hro | ⟨hrwl, hclosed⟩
    · simp only [Chip.writeObject, hrow, hro]
      split_ifs <;> rfl
    · simp only [Chip.writeObject, hrow, hrwl, hclosed, Bool.not_false, Bool.and_true, decide_true, if_true]
      split_ifs <;> rfl

end

/-- Settles O54: a GET reads its entry, a SET is one `writeObject`, and an object without an action of its own is set within its range. -/
theorem objects : Obligations.Objects := by
  refine ⟨?_, ?_, ?_, ?_, ?_, ?_, ?_, ?_⟩
  · intro s id q v e r hasks hloader hrow hread hbytes
    have hentry := Chip.getEntry_number hloader hrow hread hbytes
    have hfits : (s.toChip.getEntry [] e).2.length ≤ 64 := by
      rw [hentry]
      exact (Chip.value_length hbytes _).trans (by decide)
    refine State.gives_message rfl ((Chip.message_asks hasks).trans ?_)
    rw [Chip.get_single e v.snapshot hfits, hentry]
    rfl
  · intro s id q v e hasks hrow hsub
    have hentry := Chip.getEntry_none (s := s.toChip) hrow hsub
    have hfits : (s.toChip.getEntry [] e).2.length ≤ 64 := by
      rw [hentry]
      exact Nat.zero_le _
    refine State.gives_message rfl ((Chip.message_asks hasks).trans ?_)
    rw [Chip.get_single e v.snapshot hfits, hentry]
    rfl
  · intro s id q v e r hasks hloader hrole hclaim hlength hrow
    have hwriter : v.writer = .none := by simp [Session.writer, hclaim, hrole]
    refine State.gives_message rfl ((Chip.message_asks hasks).trans ?_)
    rw [hwriter, Chip.set_single hloader hlength (Chip.writeObject_none hrow)]
    rfl
  · intro s id q v e st t hasks hloader hlength hwrite
    refine State.gives_message rfl ((Chip.message_asks hasks).trans ?_)
    rw [Chip.set_single hloader hlength hwrite]
    rfl
  · intro s id
    exact State.gives_always (f := fun c => c.setSession id fun v => { v with
      snapshot := v.snapshot.filter fun k => c.aon < k.time + 1000000000 }) rfl rfl
  · intro s i j b r n hawake hrow hacc hbytes hlength hplain hrange hallowed
    have hkey : r.key ≠ O.serviceCmd := fun h => by
      rw [serviceCmd_blob hrow h] at hbytes
      cases hbytes
    refine State.gives_awake rfl hawake ?_
    rw [OType.code_toNat, Chip.writeObject_number _ hrow hacc (hlength ▸ hbytes) hkey, Chip.numberWrite_plain hplain, Chip.plainWrite,
      hrange, hallowed]
    rfl
  · intro s i j b r n hawake hrow hbytes _ hplain hrange
    refine State.gives_awake rfl hawake ?_
    rw [OType.code_toNat]
    exact Chip.writeObject_outOfRange hrow hbytes hplain hrange
  · intro s i j t b hawake hlocked
    exact State.gives_awake rfl hawake (Chip.writeObject_locked hlocked)

end Sys2Proof.Machine
end

section
/-! PROOF. Register access and attestation, and the statement `Registers_and_attestation`. -/

namespace Sys2Proof.Machine

/-! ### The length of a digest (R464) -/

/-- A state of four and four words. -/
def ShaState.Full (x : ShaState) : Prop := x.as.length = 4 ∧ x.es.length = 4

theorem ShaState.init_full : ShaState.init.Full := by
  have hprimes : smallPrimes.length = 80 := by decide +kernel
  simp [ShaState.Full, ShaState.init, hprimes]

theorem ShaState.Full.round {x : ShaState} (h : x.Full) (w : Word) : (x.round w).Full := by
  unfold ShaState.round
  split
  · exact ⟨rfl, rfl⟩
  · exact h

theorem ShaState.Full.rounds {x : ShaState} (h : x.Full) (l : List Word) : (l.foldl ShaState.round x).Full := by
  induction l generalizing x with
  | nil => exact h
  | cons w l ih => exact ih (h.round w)

theorem ShaState.Full.block {x : ShaState} (h : x.Full) (b : List Byte) : (x.block b).Full := by
  obtain ⟨has, hes⟩ := h
  unfold ShaState.block
  dsimp only
  obtain ⟨has', hes'⟩ := ShaState.Full.rounds ⟨has, hes⟩ (List.zipWith (· + ·) shaConstants (shaExtend 64 ((List.range 16).map fun i =>
    BitVec.ofNat 64 (beNat ((b.drop (8 * i)).take 8))).reverse).reverse)
  exact ⟨by rw [List.length_zipWith, has, has']; rfl, by rw [List.length_zipWith, hes, hes']; rfl⟩

theorem ShaState.Full.blocks {x : ShaState} (h : x.Full) (n : Nat) (l : List Byte) : (shaBlocks n x l).Full := by
  induction n generalizing x l with
  | zero => exact h
  | succ n ih => exact ih (h.block _) _

theorem beBytes_length (n x : Nat) : (beBytes n x).length = n := by rw [beBytes, List.length_reverse, leBytes_length]

/-- Six words of a full state are 48 bytes. -/
theorem ShaState.Full.digest_length {x : ShaState} (h : x.Full) :
    (((x.as ++ x.es).take 6).flatMap fun w => beBytes 8 w.toNat).length = 48 := by
  obtain ⟨has, hes⟩ := h
  simp [List.length_flatMap, beBytes_length, has, hes]

theorem sha384_length (m : List Byte) : (sha384 m).length = 48 := (ShaState.init_full.blocks _ _).digest_length

/-! ### The report (R464, R465) -/

theorem fit_length (n : Nat) (l : List Byte) : (fit n l).length = n := by
  rw [fit, slice, List.length_append, List.length_replicate, List.length_take]
  omega

section
variable {s : Chip}

theorem Chip.reportComponent_length (k : Nat) : (s.reportComponent k).length = 64 := by
  simp [Chip.reportComponent, leBytes_length, measurement, sha384_length]

theorem Chip.report_length {n : List Byte} (h : n.length = 48) : (s.report n).length = 768 := by
  have howner : (if s.mgmt.claimed then sha384 s.mgmt.ownerRoot else List.replicate 48 0).length = 48 := by
    split
    · exact sha384_length _
    · exact List.length_replicate
  have hcomponents : ((List.range 8).flatMap s.reportComponent).length = 512 := by
    simp [List.length_flatMap, Chip.reportComponent_length]
  simp only [Chip.report, List.length_append, leBytes_length, Chip.configDigest, sha384_length, howner, h, hcomponents,
    List.length_replicate]

/-! ### Registers (R449) -/

theorem Chip.memRead_of_range {o n : Nat} {b : List Byte} (hrange : s.memRange o n = true) (hbytes : s.regBytes o n = some b) :
    s.memRead o n = ⟨.ok, b, s⟩ := by
  simp only [Chip.memRead, hrange, hbytes, if_true]

theorem Chip.memRead_outside {o n : Nat} (hrange : s.memRange o n = false) : s.memRead o n = .no s .access := by
  simp only [Chip.memRead, hrange, Bool.false_eq_true, if_false]

/-- A MEM_WRITE of one word. -/
theorem Chip.memWrite_word {o : Nat} {d : List Byte} (hrange : s.memRange o 8 = true) (hd : d.length = 8) :
    s.memWrite o d = ⟨.ok, [], s.regWrite o 8 (leNat d) .mgmt⟩ := by
  have hone : List.range (8 / 8) = [0] := rfl
  rw [Chip.memWrite, hd, if_pos hrange, hone]
  simp only [Chip.each, List.foldl_cons, List.foldl_nil, Nat.mul_zero, Nat.add_zero, List.drop_zero, List.take_of_length_le hd.le]

end

/-- Settles O55: each message is one branch of `memRead`, `memWrite` or `attest`; a digest has 48 bytes whatever it is taken of. -/
theorem registersAndAttestation : Obligations.Registers_and_attestation := by
  refine ⟨?_, ?_, ?_, ?_, ?_, ?_, ?_⟩
  · intro s id q v o n b hasks hoperates hrange hbytes
    refine State.gives_message rfl ((Chip.message_asks hasks).trans ?_)
    rw [hoperates, if_pos rfl, Chip.memRead_of_range hrange hbytes]
    rfl
  · intro s id q v o d hasks hoperates hrange hd
    refine State.gives_message rfl ((Chip.message_asks hasks).trans ?_)
    rw [hoperates, if_pos rfl, Chip.memWrite_word hrange hd]
    rfl
  · intro s id q v o n hasks hoperates hrange
    refine State.gives_message rfl ((Chip.message_asks hasks).trans ?_)
    rw [hoperates, if_pos rfl, Chip.memRead_outside hrange]
    rfl
  · intro s i id q v ty hasks hoperates hi
    rcases hi with ⟨o, n, rfl, rfl⟩ | ⟨o, d, rfl, rfl⟩
    · refine State.gives_message rfl ((Chip.message_asks hasks).trans ?_)
      rw [hoperates, if_neg Bool.false_ne_true]
      rfl
    · refine State.gives_message rfl ((Chip.message_asks hasks).trans ?_)
      rw [hoperates, if_neg Bool.false_ne_true]
      rfl
  · intro s id q v n hasks hloader hn
    refine State.gives_message rfl ((Chip.message_asks hasks).trans ?_)
    rw [Chip.attest, if_neg (by simp [hn]), Chip.loaderOnly, hloader, if_neg Bool.false_ne_true]
    rfl
  · intro s id q v n hasks hn
    refine State.gives_message rfl ((Chip.message_asks hasks).trans ?_)
    rw [Chip.attest, if_pos hn]
    rfl
  · intro s n b hn
    rw [List.length_append, Chip.report_length hn, fit_length]

end Sys2Proof.Machine
end

section
/-! PROOF. Image transfers and activation, and the statement `Images`. -/

namespace Sys2Proof.Machine

/-! ### Transfers (R468) -/

section
variable {s : Chip} {who : Option Nat} {t : Transfer}

theorem Chip.transferOf_session (h : s.mgmt.transfer = some t) (hwho : t.session = who) : s.transferOf who = some t := by
  simp only [Chip.transferOf, h, hwho, if_true]

theorem Chip.imageBegin_free {k n : Nat} (htransfer : s.mgmt.transfer = none) (hactivation : s.mgmt.activation = none)
    (hk : 1 ≤ k ∧ k ≤ 7 ∨ k = 0x0F) (hn : n ≤ 2097152) : s.imageBegin who k n = (.ok, s.setTransfer (some ⟨who, k, n, []⟩)) := by
  unfold Chip.imageBegin
  rw [htransfer, hactivation, if_neg (by simp), if_neg]
  rcases hk with ⟨hlow, hhigh⟩ | rfl
  · simp [hlow, hhigh, hn]
  · simp [compRevoke, hn]

theorem Chip.imageBegin_busy (h : s.mgmt.transfer.isSome = true ∨ s.mgmt.activation.isSome = true) (k n : Nat) :
    s.imageBegin who k n = (.busy, s) := by
  unfold Chip.imageBegin
  rw [if_pos (by simpa using h)]

theorem Chip.imageData_byte {o : Nat} (b : Byte) (h : s.transferOf who = some t) (ho : o < t.total) : s.imageData who o [b] =
    (.ok, s.setTransfer (some { t with data := Tab.set none t.data o (some b) })) := by
  unfold Chip.imageData
  rw [if_neg (by simp), h]
  dsimp only
  rw [if_neg (by simpa using by omega)]
  rfl

theorem Chip.imageAbort_open (h : s.transferOf who = some t) : s.imageAbort who = (.ok, s.imageDrop) := by
  simp only [Chip.imageAbort, h]

theorem mapM_id_length {α : Type} {l : List (Option α)} {r : List α} (h : l.mapM id = some r) : r.length = l.length := by
  induction l generalizing r with
  | nil =>
    cases h
    rfl
  | cons a l ih =>
    rw [List.mapM_cons] at h
    obtain ⟨b, _, h⟩ := Option.bind_eq_some_iff.mp h
    obtain ⟨m, hm, h⟩ := Option.bind_eq_some_iff.mp h
    cases h
    rw [List.length_cons, List.length_cons, ih hm]

/-- A staged image is no longer than its total. -/
theorem Transfer.whole_length_le (t : Transfer) : (t.whole.getD []).length ≤ t.total := by
  cases hwhole : t.whole with
  | none => exact Nat.zero_le _
  | some b =>
    have hlength := mapM_id_length hwhole
    rw [List.length_map, List.length_range] at hlength
    exact hlength.le

theorem Mgmt.checkImage_short (m : Mgmt) (k : Nat) {b : Image} (h : b.length < 256) : m.checkImage k b = .imageInvalid := by
  unfold Mgmt.checkImage
  refine if_neg ?_
  simp [Nat.not_le.mpr h]

/-- An image whose check fails is discarded with event 0x4D02. -/
theorem Chip.imageEnd_fails (h : s.transferOf who = some t) (hcheck : s.mgmt.checkImage t.component (t.whole.getD []) ≠ .ok) :
    s.imageEnd who = (s.mgmt.checkImage t.component (t.whole.getD []), s.imageDrop.raise 0x4D02
      [.u8 t.component, .u8 (s.mgmt.checkImage t.component (t.whole.getD [])).code.toNat]) := by
  have hdrop : s.imageDrop.mgmt.checkImage t.component (t.whole.getD []) = s.mgmt.checkImage t.component (t.whole.getD []) := rfl
  unfold Chip.imageEnd
  rw [h]
  dsimp only
  rw [hdrop]
  split
  · rename_i hok
    exact absurd hok hcheck
  · rfl

theorem Chip.resets_other {id : Nat} {q : Word32} {v : Session} (h : s.asks id q v) (howns : v.owns = false) : s.resets id q = false := by
  obtain ⟨_, hsession, _⟩ := h
  simp [Chip.resets, hsession, howns]

/-- An image that passes is written to its slot and activates. -/
theorem Chip.imageEnd_passes (h : s.transferOf who = some t) (hlive : s.live = true) (hk : t.component ≠ 0x0F)
    (hcheck : s.mgmt.checkImage t.component (t.whole.getD []) = .ok) :
    s.imageEnd who = (.ok, ((s.imageDrop.setComponent t.component fun x =>
      { x with image := some (imageWhole (t.whole.getD [])), state := .staged }).activate t.component
        ((s.mgmt.component t.component).state == .invalid))) := by
  have hdrop : s.imageDrop.mgmt.checkImage t.component (t.whole.getD []) = .ok := hcheck
  unfold Chip.imageEnd
  rw [h]
  dsimp only
  rw [hdrop]
  dsimp only
  rw [if_neg (show ¬ t.component = compRevoke from hk), if_pos]
  · rfl
  · rw [Bool.or_eq_true]
    exact .inl hlive

end

/-! ### Activation (R460, R470, R471) -/

section
variable {s : Chip} {k u : Nat} {a : Activation}

/-- The chip once a component's last unit runs the new image. -/
def Chip.activated (s : Chip) (k : Nat) : Chip :=
  ({ s.setComponent k fun x => { x with state := .active, floor := max x.floor (imageSvn (s.mgmt.image k)) } with
    mgmt := { (s.setComponent k fun x => { x with state := .active, floor := max x.floor (imageSvn (s.mgmt.image k)) }).mgmt with
      activation := none } } : Chip).raise 0x0D02 [.u8 k, .u32 (imageVersion (s.mgmt.image k)), .u32 (imageSvn (s.mgmt.image k))]

theorem Chip.activated_component : (s.activated k).mgmt.component k =
    { s.mgmt.component k with state := .active, floor := max (s.mgmt.component k).floor (imageSvn (s.mgmt.image k)) } :=
  Eq.trans
    (b := (s.setComponent k fun x => { x with state := .active, floor := max x.floor (imageSvn (s.mgmt.image k)) }).mgmt.component k)
    rfl (s.setComponent_same k _)

theorem Chip.activated_code : (Tab.get LogEntry.zero (s.activated k).log.ring s.log.next).code = 0x0D02 :=
  congrArg LogEntry.code (Tab.get_set_same ..)

theorem Chip.activationEnd_last {f : Bool} (h : s.mgmt.activation = some ⟨k, [], f⟩) : s.activationEnd = s.activated k := by
  simp only [Chip.activationEnd, h]
  rfl

/-- The chip once an activation has failed. -/
def Chip.failed (s : Chip) (k u : Nat) : Chip :=
  ({ s.setComponent k fun x => { x with state := .activationFailed } with
    mgmt := { (s.setComponent k fun x => { x with state := .activationFailed }).mgmt with activation := none } } :
      Chip).raise 0x8D02 [.u8 k, unitArg k u]

theorem Chip.failed_component : (s.failed k u).mgmt.component k = { s.mgmt.component k with state := .activationFailed } :=
  Eq.trans
    (b := (s.setComponent k fun x => { x with state := .activationFailed }).mgmt.component k)
    rfl (s.setComponent_same k _)

theorem Chip.failed_code : (Tab.get LogEntry.zero (s.failed k u).log.ring s.log.next).code = 0x8D02 :=
  congrArg LogEntry.code (Tab.get_set_same ..)

theorem Chip.failed_port (p : Nat) : (s.failed k u).port p = s.port p := rfl
theorem Chip.failed_obju (o p : Nat) : (s.failed k u).obju o p = s.obju o p := rfl

/-- The one unit that is left of a site's or a die's activation runs its new image. -/
theorem Chip.activationUnit_last {f : Bool} (h : s.mgmt.activation = some ⟨k, [u], f⟩) (hlive : s.live = true)
    (hk : k = 2 ∨ k = 6 ∧ (s.die u).midUpdate = false) : s.activationUnit u false = s.activated k := by
  have hturn : s.unitTurn ⟨k, [u], f⟩ u = true := by
    rcases hk with rfl | ⟨rfl, hidle⟩
    · simp [Chip.unitTurn, hlive]
    · simp [Chip.unitTurn, hlive, hidle]
  have hnext (t : Chip) (ht : t.mgmt.activation = some ⟨k, [], f⟩) : t.activationNext = t := by
    rcases hk with rfl | ⟨rfl, _⟩ <;> simp [Chip.activationNext, ht]
  have hloaded : s.unitLoaded ⟨k, [u], f⟩ u = s := by
    rcases hk with rfl | ⟨rfl, _⟩ <;> rfl
  have hno4 : k ≠ 4 := by omega
  simp only [Chip.activationUnit, h, hturn, hloaded, List.erase_cons_head, hno4, Bool.not_true, Bool.false_eq_true, Bool.false_and, if_false]
  rw [hnext _ rfl, Chip.activationEnd_last rfl]
  rfl

theorem Chip.each_stays {α : Type} {f : Chip → α → Chip} (h : ∀ a, f s a = s) (l : List α) : s.each l f = s := by
  induction l with
  | nil => rfl
  | cons a r ih => exact (congrArg (fun u : Chip => u.each r f) (h a)).trans ih

/-- An engine whose ports wait for nothing resumes nothing. -/
theorem Chip.engineResumes_idle (h : ∀ p, (s.port p).needs = [] ∧ s.obju O.portAdmin p ≠ 2) (e : Nat) : s.engineResumes e = s := by
  refine Chip.each_stays (fun p => ?_) _
  obtain ⟨hneeds, hadmin⟩ := h p
  have hserved : Chip.serveNeeds p (s.port p).needs.length s = s := by
    rw [hneeds]
    rfl
  dsimp only
  rw [hserved]
  simp [Chip.when, hadmin]

/-- A failed activation, where no cores are in their test and no engine resumes. -/
theorem Chip.activationFail_plain (h : s.mgmt.activation = some a) (h3 : a.component ≠ 3)
    (h4 : a.component = 4 → ∀ p, (s.port p).needs = [] ∧ s.obju O.portAdmin p ≠ 2) : s.activationFail u = s.failed a.component u := by
  have hstep : s.activationFail u = if a.component = 4 then (s.failed a.component u).each (List.range 20) Chip.engineResumes
      else s.failed a.component u := by
    simp only [Chip.activationFail, h, h3, if_false]
    rfl
  rw [hstep]
  split
  · rename_i hengine
    refine Chip.each_stays (fun e => Chip.engineResumes_idle (fun p => ?_) e) _
    rw [Chip.failed_port, Chip.failed_obju]
    exact h4 hengine p
  · rfl

/-- Cores in their test are free again when their activation fails. -/
def Chip.freeTests (s : Chip) (l : List Nat) : Chip :=
  s.each l fun s c => if (s.core c).state = .testing then s.setCore c fun x => { x with state := .idle } else s

theorem Chip.freeTests_cons (c : Nat) (l : List Nat) : s.freeTests (c :: l) =
    (if (s.core c).state = .testing then s.setCore c fun x => { x with state := .idle } else s).freeTests l := rfl

/-- What freeing the cores of a list does to one core. -/
theorem Chip.freeTests_core (l : List Nat) (j : Nat) : (s.freeTests l).core j =
    if j ∈ l ∧ (s.core j).state = .testing then { s.core j with state := .idle } else s.core j := by
  induction l generalizing s with
  | nil => rw [if_neg (by simp)]; rfl
  | cons c l ih =>
    rw [Chip.freeTests_cons, ih]
    by_cases htesting : (s.core c).state = .testing
    · rw [if_pos htesting, Chip.core_setCore]
      by_cases hj : j = c
      · subst hj
        simp [htesting]
      · simp [hj]
    · rw [if_neg htesting]
      by_cases hj : j = c
      · subst hj
        simp [htesting]
      · simp [hj]

theorem Chip.freeTests_keeps {β : Type} (f : Chip → β) (hf : ∀ (t : Chip) c g, f (t.setCore c g) = f t) (l : List Nat) : f (s.freeTests l) = f s :=
  s.each_keeps f _ (fun t c => by split <;> simp [hf]) l

/-- A failed activation of cores frees those in their test. -/
theorem Chip.activationFail_cores (h : s.mgmt.activation = some a) (h3 : a.component = 3) :
    s.activationFail u = (s.freeTests a.units).failed 3 u := by
  simp only [Chip.activationFail, h, h3, if_true]
  rfl

theorem Chip.activationLate_unit (h : s.mgmt.activation = some a) (hu : u ∈ a.units) (h2 : a.component ≠ 2) :
    s.activationLate u = s.activationFail u := by
  simp [Chip.activationLate, h, hu, h2]

end

/-- Settles O56: a transfer's messages are the branches of its functions; an activation ends with its last unit or fails as a whole. -/
theorem images : Obligations.Images := by
  refine ⟨?_, ?_, ?_, ?_, ?_, ?_, ?_, ?_, ?_, ?_, ?_, ?_, ?_⟩
  · intro s id q v k n hasks howns htransfer hactivation hk hn
    refine State.gives_message rfl ((Chip.message_asks hasks).trans ?_)
    have hk' : 1 ≤ k.toNat ∧ k.toNat ≤ 7 ∨ k.toNat = 0x0F := hk.imp_right fun h => by rw [h]; rfl
    rw [howns, if_pos rfl, Chip.imageBegin_free htransfer hactivation hk' (by omega)]
    rfl
  · intro s id q v k n hasks howns hbusy
    refine State.gives_message rfl ((Chip.message_asks hasks).trans ?_)
    rw [howns, if_pos rfl, Chip.imageBegin_busy hbusy]
    rfl
  · intro s id q v t o b hasks howns htransfer hsession ho
    refine State.gives_message rfl ((Chip.message_asks hasks).trans ?_)
    rw [howns, if_pos rfl, Chip.imageData_byte b (Chip.transferOf_session htransfer hsession) ho]
    rfl
  · intro s id q v t hasks howns htransfer hsession
    refine State.gives_message rfl ((Chip.message_asks hasks).trans ?_)
    rw [howns, if_pos rfl, Chip.imageAbort_open (Chip.transferOf_session htransfer hsession)]
    rfl
  · intro s hidle
    refine State.gives_always (f := Chip.imageIdle) rfl ?_
    exact Chip.when_pos (by simpa using hidle)
  · intro s id q v t hasks howns htransfer hsession hshort
    have hcheck := s.mgmt.checkImage_short t.component (t.whole_length_le.trans_lt hshort)
    refine State.gives_message rfl ((Chip.message_asks hasks).trans ?_)
    rw [howns, if_pos rfl, Chip.imageEnd_fails (Chip.transferOf_session htransfer hsession) (by rw [hcheck]; decide), hcheck]
    rfl
  · intro s id q v t hasks howns htransfer hsession hlive hk
    refine State.gives_message rfl ?_
    rw [Chip.message_asks hasks, howns, if_pos rfl]
    split
    · rename_i hok
      rw [Chip.imageEnd_passes (Chip.transferOf_session htransfer hsession) hlive hk hok]
      rfl
    · rename_i st hfails
      rw [Chip.imageEnd_fails (Chip.transferOf_session htransfer hsession) hfails]
      rfl
  · intro s i id q v ty hasks howns hi
    rcases hi with ⟨k, n, rfl, rfl⟩ | ⟨o, d, rfl, rfl⟩ | ⟨rfl, rfl⟩ | ⟨rfl, rfl⟩ | ⟨rfl, rfl⟩
    case inr.inr.inr.inr =>
      refine State.gives_reset ?_
      rw [Chip.resets_other hasks howns, if_neg Bool.false_ne_true, Chip.message_asks hasks, Chip.resetAnswer, howns]
      rfl
    all_goals
      refine State.gives_message rfl ((Chip.message_asks hasks).trans ?_)
      rw [howns, if_neg Bool.false_ne_true]
      rfl
  · intro s u k f hlive hactivation hk
    refine State.gives_awake (f := fun c => c.activationUnit u false) rfl (Chip.awake_of_live _ hlive) ?_
    rw [Chip.activationUnit_last hactivation hlive hk, Chip.activated_component]
    exact ⟨rfl, rfl, rfl, rfl, rfl, Chip.activated_code, rfl, rfl, rfl⟩
  · intro s a u hawake hactivation h2 h3 h4 hu
    refine State.gives_awake (f := fun c => c.activationLate u) rfl hawake ?_
    rw [Chip.activationLate_unit hactivation hu h2, Chip.activationFail_plain hactivation h3 h4, Chip.failed_component]
    exact ⟨rfl, rfl, rfl, rfl, Chip.failed_code, rfl, rfl⟩
  · intro s a u hawake hactivation h3 hu
    refine State.gives_awake (f := fun c => c.activationLate u) rfl hawake ?_
    rw [Chip.activationLate_unit hactivation hu (by omega), Chip.activationFail_cores hactivation h3, Chip.failed_component]
    refine ⟨rfl, rfl, fun k hk htesting => ?_, fun k hk => ?_, ?_, ?_⟩
    · change ((s.toChip.freeTests a.units).core k).state = .idle
      rw [Chip.freeTests_core, if_pos ⟨hk, htesting⟩]
    · change (s.toChip.freeTests a.units).core k = s.core k
      rw [Chip.freeTests_core, if_neg fun h => hk h.1]
    · change (s.toChip.freeTests a.units).log.seq + 1 = s.log.seq + 1
      rw [Chip.freeTests_keeps (fun c : Chip => c.log) fun _ _ _ => rfl]
    · exact Chip.freeTests_keeps (fun c : Chip => c.mem) (fun _ _ _ => rfl) _
  · intro s a u hawake hactivation h2 hu hqueues
    refine State.gives_awake (f := fun c => c.activationLate u) rfl hawake ?_
    have hfail := Chip.activationFail_plain (u := u) hactivation (by omega) (fun h4 => by omega)
    rw [h2] at hfail
    have hlate : s.toChip.activationLate u = (s.toChip.activationFail u).cpFault u := by
      simp [Chip.activationLate, hactivation, hu, h2]
    have hempty : (s.toChip.failed 2 u).queues = [] := hqueues
    have hcp : (s.toChip.failed 2 u).cpFault u = (s.toChip.failed 2 u).raise 0x8501 [.u8 u] := by
      simp [Chip.cpFault, hempty, Chip.each]
    rw [hlate, hfail, hcp]
    exact ⟨rfl, rfl, congrArg Component.state (Chip.failed_component (s := s.toChip) (k := 2) (u := u))⟩
  · intro s i u hawake hnone hi
    rcases hactivation : s.mgmt.activation with _ | a
    · rcases hi with ⟨b, rfl⟩ | rfl
      · refine State.gives_awake (f := fun c => c.activationUnit u b) rfl hawake ?_
        simp [Chip.activationUnit, hactivation]
      · refine State.gives_awake (f := fun c => c.activationLate u) rfl hawake ?_
        simp [Chip.activationLate, hactivation]
    · have hu := hnone a hactivation
      rcases hi with ⟨b, rfl⟩ | rfl
      · refine State.gives_awake (f := fun c => c.activationUnit u b) rfl hawake ?_
        simp [Chip.activationUnit, hactivation, Chip.unitTurn, hu]
      · refine State.gives_awake (f := fun c => c.activationLate u) rfl hawake ?_
        simp [Chip.activationLate, hactivation, hu]

end Sys2Proof.Machine
end

section
/-! PROOF. Ownership and debug, and the statement `Ownership_and_debug` (R443, R466, R472). -/

namespace Sys2Proof.Machine

section
variable {s : Chip}

/-! ### The owner (R443, R472) -/

theorem Chip.ownerRootWrite_unclaimed {b : List Byte} (h : s.mgmt.claimed = false) (hb : b.length ≤ 2048) : (s.ownerRootWrite b).getD s =
    if Config.validCert b then
      ({ s with mgmt := { s.mgmt with claimed := true, ownerRoot := b } } : Chip).raise 0x0D04 []
    else s := by
  rw [Chip.ownerRootWrite, h, decide_eq_true hb]
  cases Config.validCert b <;> rfl

theorem Chip.ownerRootWrite_claimed {b : List Byte} (h : s.mgmt.claimed = true) : s.ownerRootWrite b = none := by
  rw [Chip.ownerRootWrite, h]
  rfl

theorem Chip.ownerRelease_idle (h : s.job.state = 0) : s.ownerRelease true =
    some (({ s.sanitiseNow with
      objs := Tab.keep (fun k => !ownerKey k) s.sanitiseNow.objs
      mgmt := { s.mgmt with claimed := false, ownerRoot := [], ownerDebugKey := [] } } : Chip).closeSessions) := by
  rw [Chip.ownerRelease, h]
  rfl

theorem Chip.ownerRelease_busy (h : s.job.state ≠ 0) : s.ownerRelease true = none := by
  rw [Chip.ownerRelease, if_neg (by decide), if_pos h]

/-! ### Debug (R466) -/

/-- The challenge a chip makes for a scope: fresh bytes, its own number, the scope, and zeros (R466). -/
def Chip.challengeFor (s : Chip) (scope : Nat) : List Byte :=
  s.randomBytes ++ leBytes 8 (Config.dieUid 0).toNat ++ [BitVec.ofNat 8 scope] ++ List.replicate 7 0

theorem Chip.debugRequest_scope {k : Nat} (h1 : 1 ≤ k) (h3 : k ≤ 3) : s.debugRequest k =
    some { s with
      freeCtr := s.freeCtr + 6
      mgmt := { s.mgmt with challenge := s.challengeFor k, challengeScope := k, challengeLive := true } } := by
  rw [Chip.debugRequest, if_pos ⟨h1, h3⟩]
  rfl

theorem Chip.debugRequest_outside {k : Nat} (h : k = 0 ∨ 3 < k) : s.debugRequest k = none := by
  rw [Chip.debugRequest, if_neg (by omega)]

theorem Chip.randomBytes_length : s.randomBytes.length = 48 := by
  simp [Chip.randomBytes, leBytes_length, List.range_succ]

theorem Chip.challengeFor_length (k : Nat) : (s.challengeFor k).length = 64 := by
  simp [Chip.challengeFor, Chip.randomBytes_length, leBytes_length]

theorem Chip.challengeFor_scope (k : Nat) : nth 0 (s.challengeFor k) 56 = BitVec.ofNat 8 k := by
  simp [nth, Chip.challengeFor, List.getD, Chip.randomBytes_length, leBytes_length]

theorem Chip.debugResponse_dead {b : List Byte} (h : s.mgmt.challengeLive = false) : s.debugResponse b = s.raiseLimited 0x4D01 1 [] := by
  have hsame : ({ s with mgmt := { s.mgmt with challengeLive := false } } : Chip) = s := by rw [← h]
  simp only [Chip.debugResponse, h, Bool.false_and, Bool.false_eq_true, if_false, hsame]

/-- A response to a challenge for the first scope: the signature alone decides. -/
theorem Chip.debugResponse_first {b : List Byte} {k : Nat × Nat} (h : s.mgmt.challengeLive = true) (hscope : s.mgmt.challengeScope = 1)
    (hb : b.length = 96) (hk : s.debugKey 1 = some k) : s.debugResponse b =
    let t : Chip := { s with mgmt := { s.mgmt with challengeLive := false } }
    if ecdsaVerify k s.mgmt.challenge (leNat (b.take 48)) (leNat ((b.drop 48).take 48)) then
      ({ t with mgmt := { t.mgmt with debugScope := 1 } } : Chip).raise 0x0D03 [.u8 1]
    else t.raiseLimited 0x4D01 1 [] := by
  simp [Chip.debugResponse, h, hscope, hb, hk, Chip.debugAllowed]

end

/-- Settles O57: each command is one branch of its function; byte 56 of a challenge follows 48 fresh ones and the 8 of the chip's number. -/
theorem ownershipAndDebug : Obligations.Ownership_and_debug := by
  refine ⟨?_, ?_, ?_, ?_, ?_, ?_, ?_, ?_, ?_⟩
  · intro s b hawake hunclaimed hb
    exact State.gives_awake (f := fun c => (c.ownerRootWrite b).getD c) rfl hawake (Chip.ownerRootWrite_unclaimed hunclaimed hb)
  · intro s b hawake hclaimed
    refine State.gives_awake (f := fun c => (c.ownerRootWrite b).getD c) rfl hawake ?_
    rw [Chip.ownerRootWrite_claimed hclaimed]
    rfl
  · intro s hlive hidle
    refine State.gives_live (f := fun c => (c.ownerRelease true).getD c) rfl hlive ?_
    rw [Chip.ownerRelease_idle hidle]
    exact ⟨rfl, rfl, rfl, rfl, rfl, rfl, rfl, rfl⟩
  · intro s hlive hbusy
    refine State.gives_live (f := fun c => (c.ownerRelease true).getD c) rfl hlive ?_
    rw [Chip.ownerRelease_busy hbusy]
    rfl
  · intro s hawake
    exact State.gives_awake (f := fun c => c.recoveryRequest true) rfl hawake rfl
  · intro s k hawake h1 h3
    refine State.gives_awake (f := fun c => (c.debugRequest k.toNat).getD c) rfl hawake ?_
    rw [Chip.debugRequest_scope h1 h3]
    exact ⟨rfl, rfl, (Chip.challengeFor_scope _).trans (by rw [BitVec.ofNat_toNat, BitVec.setWidth_eq]), Chip.challengeFor_length _, rfl, rfl⟩
  · intro s k hawake hk
    refine State.gives_awake (f := fun c => (c.debugRequest k.toNat).getD c) rfl hawake ?_
    rw [Chip.debugRequest_outside hk]
    rfl
  · intro s b hawake hdead
    exact State.gives_awake (f := fun c => c.debugResponse b) rfl hawake (Chip.debugResponse_dead hdead)
  · intro s b k hawake hchallenge hscope hb hk
    exact State.gives_awake (f := fun c => c.debugResponse b) rfl hawake (Chip.debugResponse_first hchallenge hscope hb hk)

end Sys2Proof.Machine
end

section
/-! PROOF. Health scores and the causes of SUSPECT, and the statement `Health` (R478–R480). -/

namespace Sys2Proof.Machine

/-! ### What an evaluation may touch -/

/-- The second chip is the first with its service record and with what reporting an event touches. -/
def Chip.Reported (s c : Chip) : Prop :=
  c = { s with service := c.service, log := c.log, mgmt := c.mgmt, out := c.out, pins := c.pins }

section
variable {s t u : Chip}

theorem Chip.Reported.refl : s.Reported s := rfl

theorem Chip.Reported.trans (h : s.Reported t) (h' : t.Reported u) : s.Reported u := by
  unfold Chip.Reported at *
  rw [h] at h'
  exact h'

theorem Chip.Reported.raise (h : s.Reported t) (code : Nat) (args : List Arg) : s.Reported (t.raise code args) :=
  h.trans rfl

theorem Chip.Reported.service (h : s.Reported t) (v : Service) : s.Reported { t with service := v } := h.trans rfl

/-- What an evaluation reads of a chip, its report leaves as it was. -/
theorem Chip.Reported.obj (h : s.Reported t) (k : Nat) : t.obj k = s.obj k := by
  rw [h]
  rfl

theorem Chip.Reported.lateLimit (h : s.Reported t) : t.lateLimit = s.lateLimit := by
  rw [h]
  rfl

theorem Chip.Reported.lateness (h : s.Reported t) : t.lateness = s.lateness := by
  rw [h]
  rfl

/-! ### The causes of SUSPECT (R480) -/

/-- The bits of SUSPECT once a cause is set or cleared. -/
def suspectBits (m : BitVec 3) (bit : Nat) (on : Bool) : BitVec 3 :=
  if on then m ||| BitVec.ofNat 3 (2 ^ bit) else m &&& ~~~ BitVec.ofNat 3 (2 ^ bit)

theorem Chip.setSuspect_service (bit : Nat) (on : Bool) :
    (s.setSuspect bit on).service = { s.service with suspect := suspectBits s.service.suspect bit on } := by
  unfold Chip.setSuspect
  dsimp only
  split <;> rfl

theorem Chip.setSuspect_clear (bit : Nat) :
    s.setSuspect bit false = { s with service := { s.service with suspect := s.service.suspect &&& ~~~ BitVec.ofNat 3 (2 ^ bit) } } := rfl

theorem Chip.setSuspect_new {bit : Nat} (h : s.service.suspect.getLsbD bit = false) : s.setSuspect bit true =
    ({ s with service := { s.service with suspect := s.service.suspect ||| BitVec.ofNat 3 (2 ^ bit) } } : Chip).raise 0x4E02 [.u8 bit] := by
  simp [Chip.setSuspect, h]

theorem Chip.Reported.setSuspect (h : s.Reported t) (bit : Nat) (on : Bool) : s.Reported (t.setSuspect bit on) := by
  unfold Chip.setSuspect
  dsimp only
  split
  · exact (h.service _).raise _ _
  · exact h.service _

theorem suspectBits_set (m : BitVec 3) {bit : Nat} (h : bit < 3) : (suspectBits m bit true).getLsbD bit = true := by
  obtain rfl | rfl | rfl : bit = 0 ∨ bit = 1 ∨ bit = 2 := by omega
  all_goals simp [suspectBits]

theorem suspectBits_other (m : BitVec 3) (on : Bool) : (suspectBits m 1 on).getLsbD 0 = m.getLsbD 0 := by
  cases on <;> simp [suspectBits]

/-! ### The evaluation (R478, R479) -/

/-- The score of an evaluation: the lowest of its weighted margins, in thousandths. -/
def Chip.healthScore (s : Chip) : Nat := roundRat (1000 * leastOf 1 (s.margins.map fun m => 1 - m.2 * (1 - m.1)))

/-- The chip once its score stands, before its warning and its causes. -/
def Chip.scored (s : Chip) : Chip :=
  { s with service := { s.service with score := s.healthScore, components := s.margins.map fun m => roundRat (1000 * m.1) } }

/-- The warning of a low score, armed once until the score has recovered. -/
def Chip.healthWarned (s : Chip) : Chip :=
  if s.healthScore < s.obj O.healthWarn && s.service.warnArmed then
    ({ s.scored with service := { s.scored.service with warnArmed := false } } : Chip).raise 0x4E01
      [.u8 ((s.margins.map fun m => 1 - m.2 * (1 - m.1)).findIdx (· == leastOf 1 (s.margins.map fun m => 1 - m.2 * (1 - m.1))))]
  else if s.healthScore ≥ s.obj O.healthWarn + 50 then { s.scored with service := { s.scored.service with warnArmed := true } }
  else s.scored

/-- The chip once its score has been held against SUSPECT_SCORE. -/
def Chip.scoreJudged (s : Chip) : Chip :=
  if s.healthScore < s.obj O.suspectScore then s.healthWarned.setSuspect 0 true else s.healthWarned

/-- The chip once its lateness has been held against its limit. -/
def Chip.latenessJudged (s : Chip) : Chip :=
  if s.lateLimit ≤ s.lateness then s.scoreJudged.setSuspect 1 true
  else if s.lateness < s.lateLimit / 2 then s.scoreJudged.setSuspect 1 false
  else s.scoreJudged

theorem Chip.Reported.healthWarned : s.Reported s.healthWarned := by
  unfold Chip.healthWarned
  split
  · rfl
  · split <;> rfl

theorem Chip.Reported.scoreJudged : s.Reported s.scoreJudged := by
  unfold Chip.scoreJudged
  split
  · exact Chip.Reported.healthWarned.setSuspect 0 true
  · exact Chip.Reported.healthWarned

theorem Chip.Reported.latenessJudged : s.Reported s.latenessJudged := by
  unfold Chip.latenessJudged
  split
  · exact Chip.Reported.scoreJudged.setSuspect 1 true
  · split
    · exact Chip.Reported.scoreJudged.setSuspect 1 false
    · exact Chip.Reported.scoreJudged

/-- The chip as the evaluation holds a second chip against the first one's score. -/
def Chip.scoreJudgedOn (s t : Chip) : Chip := if s.healthScore < t.obj O.suspectScore then t.setSuspect 0 true else t

/-- The chip as the evaluation holds it against its own limit of lateness. -/
def Chip.latenessJudgedOn (t : Chip) : Chip :=
  if t.lateLimit ≤ t.lateness then t.setSuspect 1 true
  else if t.lateness < t.lateLimit / 2 then t.setSuspect 1 false
  else t

/-- What each step of an evaluation reads, the steps before it left as it was. -/
theorem Chip.evaluateHealth_eq : s.evaluateHealth = s.latenessJudged := by
  have hsteps : s.evaluateHealth = (s.scoreJudgedOn s.healthWarned).latenessJudgedOn := rfl
  have hscore : s.scoreJudgedOn s.healthWarned = s.scoreJudged := by
    rw [Chip.scoreJudgedOn, Chip.Reported.healthWarned.obj, Chip.scoreJudged]
  rw [hsteps, hscore, Chip.latenessJudgedOn, Chip.Reported.scoreJudged.lateLimit, Chip.Reported.scoreJudged.lateness, Chip.latenessJudged]

/-- The service record of a second chip is that of the first but for its score, its margins, its warning and its causes. -/
structure Chip.Scored (s c : Chip) : Prop where
  score : c.service.score = s.healthScore
  components : c.service.components = s.margins.map fun m => roundRat (1000 * m.1)
  state : c.service.state = s.service.state

theorem Chip.Scored.setSuspect (h : s.Scored t) (bit : Nat) (on : Bool) : s.Scored (t.setSuspect bit on) := by
  obtain ⟨hscore, hcomponents, hstate⟩ := h
  constructor <;> rw [Chip.setSuspect_service] <;> assumption

theorem Chip.Scored.healthWarned : s.Scored s.healthWarned := by
  unfold Chip.healthWarned
  split
  · exact ⟨rfl, rfl, rfl⟩
  · split <;> exact ⟨rfl, rfl, rfl⟩

theorem Chip.Scored.scoreJudged : s.Scored s.scoreJudged := by
  unfold Chip.scoreJudged
  split
  · exact Chip.Scored.healthWarned.setSuspect 0 true
  · exact Chip.Scored.healthWarned

theorem Chip.Scored.latenessJudged : s.Scored s.latenessJudged := by
  unfold Chip.latenessJudged
  split
  · exact Chip.Scored.scoreJudged.setSuspect 1 true
  · split
    · exact Chip.Scored.scoreJudged.setSuspect 1 false
    · exact Chip.Scored.scoreJudged

theorem Chip.scoreJudged_suspects (h : s.healthScore < s.obj O.suspectScore) : s.scoreJudged.service.suspect.getLsbD 0 = true := by
  rw [Chip.scoreJudged, if_pos h, Chip.setSuspect_service]
  exact suspectBits_set _ (by decide)

/-- Lateness sets or clears the second cause and leaves the first. -/
theorem Chip.latenessJudged_first : s.latenessJudged.service.suspect.getLsbD 0 = s.scoreJudged.service.suspect.getLsbD 0 := by
  unfold Chip.latenessJudged
  split
  · rw [Chip.setSuspect_service]
    exact suspectBits_other _ _
  · split
    · rw [Chip.setSuspect_service]
      exact suspectBits_other _ _
    · rfl

theorem Chip.latenessJudged_suspects (h : s.lateLimit ≤ s.lateness) : s.latenessJudged.service.suspect.getLsbD 1 = true := by
  rw [Chip.latenessJudged, if_pos h, Chip.setSuspect_service]
  exact suspectBits_set _ (by decide)

end

/-- Settles O58: an evaluation scores, warns, and holds the score and then the lateness against their limits; each step leaves the rest. -/
theorem health : Obligations.Health := by
  refine ⟨?_, ?_, ?_, ?_, ?_, ?_⟩
  · intro s hlive
    refine State.gives_live (f := Chip.evaluateHealth) rfl hlive ?_
    rw [Chip.evaluateHealth_eq]
    obtain ⟨hscore, hcomponents, hstate⟩ := Chip.Scored.latenessJudged (s := s.toChip)
    refine ⟨hscore, hcomponents, fun h => ?_, Chip.latenessJudged_suspects, hstate, Chip.Reported.latenessJudged⟩
    rw [Chip.latenessJudged_first]
    exact Chip.scoreJudged_suspects (hscore ▸ h)
  · intro s hlive hfree
    exact State.gives_live (f := fun c => (c.suspectSet 1).getD c) rfl hlive (Chip.setSuspect_new hfree)
  · intro s hlive
    exact State.gives_live (f := fun c => (c.suspectSet 0).getD c) rfl hlive (Chip.setSuspect_clear 2)
  · intro s v hlive hv
    refine State.gives_live (f := fun c => (c.suspectSet v.toNat).getD c) rfl hlive ?_
    rw [Chip.suspectSet, if_neg (by omega), if_neg (by omega)]
    rfl
  · intro s hlive hrecovered
    refine State.gives_live rfl hlive ?_
    exact (Chip.when_pos (decide_eq_true hrecovered)).trans (Chip.setSuspect_clear 0)
  · intro s hlive hlow
    refine State.gives_live rfl hlive ?_
    exact congrFun (congrArg (Chip.when _) (decide_eq_false (by omega))) _

end Sys2Proof.Machine
end

section
/-! PROOF. Drains, QUARANTINE and PROMOTE, and the statement `Drains_and_quarantine` (R481–R484). -/

namespace Sys2Proof.Machine

section
variable {s : Chip}

/-! ### Drains (R482, R483) -/

theorem Chip.serviceDrain_serving (h : s.service.state = .serving) : s.serviceDrain = some s.drainChip := if_pos h

theorem Chip.serviceDrain_refused (h : s.service.state ≠ .serving) : s.serviceDrain = none := if_neg h

/-- A chip without queues and cores has nothing to stop. -/
theorem Chip.drainChip_nothing (hq : s.queues = []) (hc : s.cores = []) :
    s.drainChip = { s with service := { s.service with state := .draining } } := by
  simp [Chip.drainChip, Chip.drainAllQueues, Chip.liveQueues, hq, hc]

theorem Chip.partDrain_taken {ok : Prop} [Decidable ok] {f : Chip → Chip} (h : ok) (hs : s.service.state = .serving ∨ s.service.state = .source) :
    s.partDrain ok f = some (f s) := by
  simp [Chip.partDrain, h, hs]

theorem Chip.partDrain_refused {ok : Prop} [Decidable ok] {f : Chip → Chip} (h1 : s.service.state ≠ .serving) (h2 : s.service.state ≠ .source) :
    s.partDrain ok f = none := by
  simp [Chip.partDrain, h1, h2]

theorem Chip.coreStop_running {n : Nat} (h : (s.core n).state = .running) :
    s.coreStop n = s.setCore n fun x => { x with state := .draining } := by
  rw [Chip.coreStop, h]

/-! ### The end of a drain -/

theorem Chip.serviceDrained_drained (h : s.service.state = .draining) (hd : s.drained = true) (hq : s.service.quarantining = false) :
    s.serviceDrained = ({ s with service := { s.service with state := .drained } } : Chip).serviceDone 2 .ok := by
  rw [Chip.serviceDrained, Chip.when_pos (by rw [h, hd]; rfl), hq, if_neg Bool.false_ne_true]

theorem Chip.serviceDrained_quarantines (h : s.service.state = .draining) (hd : s.drained = true) (hq : s.service.quarantining = true) :
    s.serviceDrained = s.quarantineEnd.serviceDone 1 .ok := by
  rw [Chip.serviceDrained, Chip.when_pos (by rw [h, hd]; rfl), hq, if_pos rfl]

theorem Chip.serviceDrained_early (h : s.service.state ≠ .draining ∨ s.drained = false) : s.serviceDrained = s := by
  have hnot : (s.service.state == .draining && s.drained) = false := by
    rw [Bool.and_eq_false_iff, beq_eq_false_iff_ne]
    exact h
  rw [Chip.serviceDrained, hnot, Chip.when_false]

/-! ### QUARANTINE and PROMOTE (R481, R484) -/

/-- The chip once QUARANTINE is written and reported. -/
def Chip.quarantineMarked (s : Chip) : Chip :=
  ({ s with service := { s.service with quarantined := true, quarantining := true } } : Chip).raise 0x8E02 []

/-- QUARANTINE of a chip that mirrors to nobody. -/
theorem Chip.serviceQuarantine_alone (hq : s.service.state ≠ .quarantined) (hs : s.service.state ≠ .source) (hn : s.service.quarantining = false) :
    s.serviceQuarantine = some (if s.service.state = .drained then s.quarantineMarked.quarantineEnd
      else if s.service.state = .draining then s.quarantineMarked else s.quarantineMarked.drainChip) := by
  rw [Chip.serviceQuarantine, if_neg (by simp [hq, hn]), if_neg hs]
  rfl

theorem Chip.serviceQuarantine_again (h : s.service.state = .quarantined ∨ s.service.quarantining = true) : s.serviceQuarantine = none := if_pos h

/-- The chip once PROMOTE has made a Verified one the serving one. -/
def Chip.promoted (s : Chip) : Chip := { s with service := { s.service.unpaired with state := .serving, quarantined := false } }

theorem Chip.servicePromote_verified (h : s.service.state = .verified) : s.servicePromote = some (s.promoted.jobEnd.raise 0x0E02 []) := if_pos h

theorem Chip.servicePromote_refused (h : s.service.state ≠ .verified) : s.servicePromote = none := if_neg h

end

/-- Settles O59: each command is one branch of its function, and what it answers stands in SERVICE_RESULT. -/
theorem drainsAndQuarantine : Obligations.Drains_and_quarantine := by
  refine ⟨?_, ?_, ?_, ?_, ?_, ?_, ?_, ?_, ?_, ?_, ?_, ?_, ?_, ?_, ?_⟩
  · intro s hlive hserving
    refine State.gives_live (f := fun c => c.service' 2 c.serviceDrain) rfl hlive ?_
    rw [Chip.serviceDrain_serving hserving]
    rfl
  · intro s hlive hserving
    refine State.gives_live (f := fun c => c.service' 2 c.serviceDrain) rfl hlive ?_
    rw [Chip.serviceDrain_refused hserving]
    rfl
  · intro s hlive hserving hqueues hcores
    refine State.gives_live (f := fun c => c.service' 2 c.serviceDrain) rfl hlive ?_
    rw [Chip.serviceDrain_serving hserving, Chip.drainChip_nothing hqueues hcores]
    rfl
  · intro s i n t hi hlive hstate
    rcases hi with ⟨rfl, hn, rfl⟩ | ⟨rfl, hn, rfl⟩ | ⟨rfl, hn, rfl⟩ | ⟨rfl, hn, rfl⟩
    · refine State.gives_live (f := fun c => c.service' 2 (c.serviceDrainQueue n.toNat)) rfl hlive ?_
      rw [Chip.serviceDrainQueue, Chip.partDrain_taken hn hstate]
      rfl
    · refine State.gives_live (f := fun c => c.service' 2 (c.serviceDrainCore n.toNat)) rfl hlive ?_
      rw [Chip.serviceDrainCore, Chip.partDrain_taken hn hstate]
      rfl
    · refine State.gives_live (f := fun c => c.service' 2 (c.serviceDrainPort n.toNat)) rfl hlive ?_
      rw [Chip.serviceDrainPort, Chip.partDrain_taken hn hstate]
      rfl
    · refine State.gives_live (f := fun c => c.service' 2 (c.serviceDrainSlot n.toNat)) rfl hlive ?_
      rw [Chip.serviceDrainSlot, Chip.partDrain_taken hn hstate]
      rfl
  · intro s i n hi hlive hserving hsource
    rcases hi with rfl | rfl | rfl | rfl
    · refine State.gives_live (f := fun c => c.service' 2 (c.serviceDrainQueue n.toNat)) rfl hlive ?_
      rw [Chip.serviceDrainQueue, Chip.partDrain_refused hserving hsource]
      rfl
    · refine State.gives_live (f := fun c => c.service' 2 (c.serviceDrainCore n.toNat)) rfl hlive ?_
      rw [Chip.serviceDrainCore, Chip.partDrain_refused hserving hsource]
      rfl
    · refine State.gives_live (f := fun c => c.service' 2 (c.serviceDrainPort n.toNat)) rfl hlive ?_
      rw [Chip.serviceDrainPort, Chip.partDrain_refused hserving hsource]
      rfl
    · refine State.gives_live (f := fun c => c.service' 2 (c.serviceDrainSlot n.toNat)) rfl hlive ?_
      rw [Chip.serviceDrainSlot, Chip.partDrain_refused hserving hsource]
      rfl
  · intro s n hlive hn hrunning hserving
    refine State.gives_live (f := fun c => c.service' 2 (c.serviceDrainCore n.toNat)) rfl hlive ?_
    rw [Chip.serviceDrainCore, Chip.partDrain_taken hn (.inl hserving), Chip.coreStop_running hrunning]
    refine ⟨?_, fun j hj => ?_⟩
    · exact congrArg CoreSt.state ((Chip.core_setCore s.toChip n.toNat (fun x => { x with state := .draining }) n.toNat).trans (if_pos rfl))
    · exact (Chip.core_setCore s.toChip n.toNat (fun x => { x with state := .draining }) j).trans (if_neg hj)
  · intro s hlive hstate hdrained hnot
    refine State.gives_live (f := Chip.serviceDrained) rfl hlive ?_
    rw [Chip.serviceDrained_drained hstate hdrained hnot]
    rfl
  · intro s hlive hstate hdrained hquarantining
    exact State.gives_live (f := Chip.serviceDrained) rfl hlive (Chip.serviceDrained_quarantines hstate hdrained hquarantining)
  · intro s hlive hearly
    exact State.gives_live (f := Chip.serviceDrained) rfl hlive (Chip.serviceDrained_early hearly)
  · intro s hlive hstate hnot
    refine State.gives_live (f := fun c => c.service' 1 c.serviceQuarantine) rfl hlive ?_
    rw [Chip.serviceQuarantine_alone (by simp [hstate]) (by simp [hstate]) hnot, hstate]
    rfl
  · intro s hlive hstate hnot
    refine State.gives_live (f := fun c => c.service' 1 c.serviceQuarantine) rfl hlive ?_
    rw [Chip.serviceQuarantine_alone (by simp [hstate]) (by simp [hstate]) hnot, hstate]
    rfl
  · intro s hlive hstate hnot
    refine State.gives_live (f := fun c => c.service' 1 c.serviceQuarantine) rfl hlive ?_
    rw [Chip.serviceQuarantine_alone (by simp [hstate]) (by simp [hstate]) hnot, hstate]
    rfl
  · intro s hlive hagain
    refine State.gives_live (f := fun c => c.service' 1 c.serviceQuarantine) rfl hlive ?_
    rw [Chip.serviceQuarantine_again hagain]
    rfl
  · intro s hlive hverified hqueues hjob
    refine State.gives_live (f := fun c => c.service' 4 c.servicePromote) rfl hlive ?_
    rw [Chip.servicePromote_verified hverified, Chip.jobEnd_idle (s := s.promoted) hjob hqueues rfl]
    refine ⟨rfl, rfl, rfl, rfl, rfl, rfl, ?_, rfl⟩
    exact congrArg LogEntry.code (Tab.get_set_same ..)
  · intro s hlive hverified
    refine State.gives_live (f := fun c => c.service' 4 c.servicePromote) rfl hlive ?_
    rw [Chip.servicePromote_refused hverified]
    rfl

end Sys2Proof.Machine
end

section
/-! PROOF. Shadow pairs and their mirror records, and the statement `Shadowing` (R481–R492). -/

namespace Sys2Proof.Machine

section
variable {s : Chip}

/-! ### Shadow pairs (R482, R488) -/

theorem pairFields_valid {peer ringLog2 counter : Nat} (hp : peer < 0x10000) (h6 : 6 ≤ ringLog2) (h20 : ringLog2 ≤ 20) (hc : counter < 2 ^ 18) :
    pairFields peer ringLog2 counter = true := by
  rw [pairFields, decide_eq_true hp, decide_eq_true h6, decide_eq_true h20, decide_eq_true hc]
  rfl

/-- The chip once SHADOW has made it the shadow of a pair. -/
def Chip.shadowed (s : Chip) (p : Pair) : Chip :=
  let t := s.pairWith .shadowing p
  { t with service := { t.service with shadowEqual := 0, shadowMismatches := 0 } }

theorem Chip.serviceShadow_taken {peer ring l n : Nat} {st : Word32}
    (hs : s.service.state = .quarantined ∨ s.service.state = .serving ∧ s.job.state = 0) (hf : pairFields peer l n = true)
    (hring : ring % 4096 = 0) (hfits : ring + 32 * 2 ^ l ≤ s.hbmVisible) :
    s.serviceShadow peer st ring l n = some (s.shadowed ⟨BitVec.ofNat 20 peer, st, ring, l, n⟩) := if_pos ⟨hs, hf, hring, hfits⟩

theorem Chip.serviceShadow_refused {peer ring l n : Nat} {st : Word32} (hq : s.service.state ≠ .quarantined) (hs : s.service.state ≠ .serving) :
    s.serviceShadow peer st ring l n = none := by
  rw [Chip.serviceShadow, if_neg]
  rintro ⟨h | ⟨h, _⟩, _⟩
  · exact hq h
  · exact hs h

theorem Chip.serviceSource_taken {peer ring l n : Nat} {st : Word32} (hs : s.service.state = .serving) (hf : pairFields peer l n = true)
    (hring : ring % 4096 = 0) (hfits : ring + 32 * 2 ^ l ≤ 0x30000000000) :
    s.serviceSource peer st ring l n = some (s.pairWith .source ⟨BitVec.ofNat 20 peer, st, ring, l, n⟩) := if_pos ⟨hs, hf, hring, hfits⟩

theorem Chip.serviceSource_refused {peer ring l n : Nat} {st : Word32} (hs : s.service.state ≠ .serving) :
    s.serviceSource peer st ring l n = none := if_neg fun h => hs h.1

theorem Chip.serviceStop_source (h : s.service.state = .source) :
    s.serviceStop = some { s with service := { s.service.unpaired with state := .serving } } := if_pos h

theorem Chip.serviceStop_shadow (h : s.service.state = .shadowing ∨ s.service.state = .verified) : s.serviceStop =
    some { s with service := { s.service.unpaired with state := if s.service.quarantined then .quarantined else .serving } } := by
  rw [Chip.serviceStop, if_neg (by rcases h with h | h <;> simp [h]), if_pos h]

theorem Chip.serviceStop_refused (h1 : s.service.state ≠ .shadowing) (h2 : s.service.state ≠ .verified) (h3 : s.service.state ≠ .source) :
    s.serviceStop = none := by
  rw [Chip.serviceStop, if_neg h3, if_neg (by simp [h1, h2])]

/-! ### Mirror records of the source (R489, R490) -/

theorem Chip.mirrorRecordWrite_idle {q : Nat} {n : Word32} (h : s.mirroring = false) : s.mirrorRecordWrite q n = s := by
  rw [Chip.mirrorRecordWrite, h, Chip.when_false]

/-- The chip once a record is in the ring's queue, and the counter's increment behind it. -/
def Chip.recordQueued (t : Chip) (p : Pair) (r : MirrorRecord) : Chip :=
  { t with service := { t.service with
      mirrorRecords := t.service.mirrorRecords.erase r
      recordsWritten := t.service.recordsWritten + 1
      mirrorQueue := t.service.mirrorQueue ++
        [.write (p.ring + 32 * (t.service.recordsWritten % 2 ^ p.ringLog2)) r.bytes, .atomic (counterOffset p.counter) 0 true 1 0] } }

theorem Chip.mirrorRecordWrite_room {q : Nat} {n : Word32} {p : Pair} {r : MirrorRecord} (h : s.mirroring = true)
    (hp : s.mirrorPump.service.pair = some p)
    (hr : s.mirrorPump.service.mirrorRecords.find? (fun r => r.queue.toNat == q && r.index == n.setWidth 16) = some r)
    (hroom : s.mirrorPump.service.recordsWritten < s.mirrorPump.announced p + 2 ^ p.ringLog2) :
    s.mirrorRecordWrite q n = (s.mirrorPump.recordQueued p r).mirrorPump := by
  have hfree : ¬ s.mirrorPump.service.recordsWritten - s.mirrorPump.announced p ≥ 2 ^ p.ringLog2 := by
    have := Nat.two_pow_pos p.ringLog2
    omega
  rw [Chip.mirrorRecordWrite, Chip.when_pos h]
  dsimp only
  split
  case h_1 p' r' hp' hr' =>
    obtain rfl : p = p' := Option.some.inj (hp.symm.trans hp')
    obtain rfl : r = r' := Option.some.inj (hr.symm.trans hr')
    rw [if_neg hfree]
    rfl
  case h_2 hnot => exact absurd hr (hnot p r hp)

/-! ### The shadow's comparison (R491, R492) -/

theorem Chip.shadowComplete_idle {q : Nat} {n : Word32} (h : s.service.pair = none ∨ s.isShadow = false ∨ s.service.pairActive = false) :
    s.shadowComplete q n = s := by
  unfold Chip.shadowComplete
  split
  case h_2 => rfl
  case h_1 p e hp _ =>
    have hoff : (!s.isShadow || !s.service.pairActive) = true := by
      rcases h with h | h | h
      · simp [h] at hp
      · simp [h]
      · simp [h]
    simp only [hoff, Bool.true_or, if_true]

/-- What a shadow's command becomes once its record has been taken. -/
def QEntry.asRecorded (code seg : Nat) (e : QEntry) : QEntry :=
  { e with phase := .finished, outstanding := 0, status := statusOf code, segMap := some (BitVec.ofNat 64 seg) }

/-- The chip once a record has been taken for a command of its own. -/
def Chip.recordTaken (s : Chip) (p : Pair) (q k : Nat) (num : Word32) : Chip :=
  { s with service := { s.service with
      recordsTaken := k :: (s.service.recordsTaken.filter fun j => s.announced p - 2 ^ p.ringLog2 ≤ j)
      digests := s.service.digests.filter fun d => !(d.1 == q && d.2.1 == num)
      mirrorQueue := s.service.mirrorQueue ++ [.atomic (counterOffset p.counter) 0 true 1 0] } }

section
variable {q : Nat} {n : Word32} {p : Pair} {e : QEntry}

/-- A network-facing command of an active shadow that waits for its record alone. -/
structure Chip.AwaitsRecord (s : Chip) (q : Nat) (n : Word32) (p : Pair) (e : QEntry) : Prop where
  pair : s.service.pair = some p
  entry : (s.queueAt q).entry n = some e
  shadow : s.isShadow = true
  active : s.service.pairActive = true
  facing : e.netFacing = true
  started : e.phase = .started
  signals : e.opcode ≠ 5
  last : e.outstanding = 1

/-- The record that the command's own work gives (R491). -/
structure Chip.Agrees (s : Chip) (q : Nat) (e : QEntry) (raw : List Byte) : Prop where
  status : leNat ((raw.drop 4).take 1) = (({ e with outstanding := 0 } : QEntry).finishIf).status.code.toNat
  segments : leNat ((raw.drop 8).take 8) = (({ e with outstanding := 0 } : QEntry).finishIf).segBits
  first : leNat ((raw.drop 16).take 8) = (s.digestFor q e).1.toNat
  second : leNat ((raw.drop 24).take 8) = (s.digestFor q e).2.toNat

theorem Chip.shadowComplete_agrees (h : s.AwaitsRecord q n p e) {k : Nat}
    (hk : (s.freshRecords p).find? (fun k => s.word (p.slot k) 4 == q + 65536 * (e.num.toNat % 65536)) = some k)
    (hsame : s.Agrees q e (s.bytes (p.slot k) 32)) : s.shadowComplete q n =
      (((s.recordTaken p q k e.num).setEntry q n
        (QEntry.asRecorded (({ e with outstanding := 0 } : QEntry).finishIf).status.code.toNat
          (({ e with outstanding := 0 } : QEntry).finishIf).segBits)).mirrorPump).complete q n := by
  obtain ⟨hpair, hentry, hshadow, hactive, hfacing, hstarted, hop, hlast⟩ := h
  obtain ⟨hstatus, hseg, hfirst, hsecond⟩ := hsame
  unfold Chip.shadowComplete
  split
  case h_2 hnot => exact absurd hentry (hnot p e hpair)
  case h_1 p' e' hp' he' =>
    obtain rfl : p = p' := Option.some.inj (hpair.symm.trans hp')
    obtain rfl : e = e' := Option.some.inj (hentry.symm.trans he')
    dsimp only
    rw [if_neg hop, if_neg (by simp [hshadow, hactive, hfacing, hstarted, hlast])]
    split
    case h_1 hnone => exact absurd hk (by rw [hnone]; simp)
    case h_2 k' hk' =>
      obtain rfl : k = k' := Option.some.inj (hk.symm.trans hk')
      rw [if_neg hop, if_pos (by simp [hstatus, hseg, hfirst, hsecond]), hstatus, hseg]
      rfl

end

/-! ### A difference (R492) -/

/-- The chip once the step is known to be unequal, before the event. -/
theorem Chip.shadowDiffers_first (q : Nat) (e : QEntry) (raw : List Byte) (st : Status) (a b : Word) (h : s.service.stepEqual = true) :
    (s.shadowDiffers q e raw st a b).service.stepEqual = false ∧ (s.shadowDiffers q e raw st a b).service.shadowEqual = 0 ∧
    (s.shadowDiffers q e raw st a b).service.shadowMismatches = s.service.shadowMismatches + 1 ∧
    (s.shadowDiffers q e raw st a b).log.seq = s.log.seq + 1 := by
  rw [Chip.shadowDiffers, h]
  exact ⟨rfl, rfl, rfl, rfl⟩

end

/-- Settles O60: each command is one branch of its function; a record that agrees is taken as it stands. -/
theorem shadowing : Obligations.Shadowing := by
  refine ⟨?_, ?_, ?_, ?_, ?_, ?_, ?_, ?_, ?_⟩
  · intro s p st ring l n hlive hstate hp h6 h20 hn hring hfits
    refine State.gives_live (f := fun c => c.service' 3 (c.serviceShadow p.toNat st ring.toNat l.toNat n.toNat)) rfl hlive ?_
    rw [Chip.serviceShadow_taken hstate (pairFields_valid hp h6 h20 hn) hring hfits]
    exact ⟨rfl, rfl, rfl, rfl, rfl, rfl, rfl, rfl, rfl⟩
  · intro s p st ring l n hlive hstate hp h6 h20 hn hring hfits
    refine State.gives_live (f := fun c => c.service' 3 (c.serviceSource p.toNat st ring.toNat l.toNat n.toNat)) rfl hlive ?_
    rw [Chip.serviceSource_taken hstate (pairFields_valid hp h6 h20 hn) hring hfits]
    exact ⟨rfl, rfl, rfl, rfl, rfl⟩
  · intro s hlive hstate
    refine State.gives_live (f := fun c => c.service' 3 c.serviceStop) rfl hlive ?_
    by_cases hsource : s.service.state = .source
    · rw [Chip.serviceStop_source hsource]
      exact ⟨by rw [if_neg fun h => h.1 hsource]; rfl, rfl, rfl, rfl⟩
    · have hshadow : s.service.state = .shadowing ∨ s.service.state = .verified := by
        rcases hstate with h | h | h
        · exact .inl h
        · exact .inr h
        · exact absurd h hsource
      rw [Chip.serviceStop_shadow hshadow]
      exact ⟨by simp only [hsource, ne_eq, not_false_eq_true, true_and]; rfl, rfl, rfl, rfl⟩
  · intro s i hlive hi
    rcases hi with ⟨⟨p, st, ring, l, n, rfl⟩, hquarantined, hserving⟩ | ⟨⟨p, st, ring, l, n, rfl⟩, hserving⟩ | ⟨rfl, hshadowing, hverified, hsource⟩
    · refine State.gives_live (f := fun c => c.service' 3 (c.serviceShadow p.toNat st ring.toNat l.toNat n.toNat)) rfl hlive ?_
      rw [Chip.serviceShadow_refused hquarantined hserving]
      rfl
    · refine State.gives_live (f := fun c => c.service' 3 (c.serviceSource p.toNat st ring.toNat l.toNat n.toNat)) rfl hlive ?_
      rw [Chip.serviceSource_refused hserving]
      rfl
    · refine State.gives_live (f := fun c => c.service' 3 c.serviceStop) rfl hlive ?_
      rw [Chip.serviceStop_refused hshadowing hverified hsource]
      rfl
  · intro s q n t p r hlive hmirroring ht hp hr hroom
    subst ht
    exact State.gives_live (f := fun c => c.mirrorRecordWrite q.val n) rfl hlive (Chip.mirrorRecordWrite_room hmirroring hp hr hroom)
  · intro s q n hlive hmirroring
    exact State.gives_live (f := fun c => c.mirrorRecordWrite q.val n) rfl hlive (Chip.mirrorRecordWrite_idle hmirroring)
  · intro s q n hlive hidle
    exact State.gives_live (f := fun c => c.shadowComplete q.val n) rfl hlive (Chip.shadowComplete_idle hidle)
  · intro s q n p e own k raw hlive hpair hentry hshadow hactive hfacing hstarted hop hlast hk hraw hown hstatus hseg hfirst hsecond
    subst hraw hown
    exact State.gives_live (f := fun c => c.shadowComplete q.val n) rfl hlive
      (Chip.shadowComplete_agrees ⟨hpair, hentry, hshadow, hactive, hfacing, hstarted, hop, hlast⟩ hk ⟨hstatus, hseg, hfirst, hsecond⟩)
  · intro s q e raw st a b hequal
    exact Chip.shadowDiffers_first q e raw st a b hequal

end Sys2Proof.Machine
end

section
/-! PROOF. Which ports are lit: no packet that a port's end sends back or completes changes it (R51, R65, R79). -/

namespace Sys2Proof.Machine

/-- A port's state and its shutter. -/
def Port.lamp (x : Port) : PortState × Bool := (x.state, x.shutterOpen)

def Outside.lamps (o : Outside) (p : Nat) : PortState × Bool := (Tab.get Port.reset o.ports p).lamp

/-- The state and the shutter of each port. -/
def Chip.lamps (s : Chip) (p : Nat) : PortState × Bool := s.outside.lamps p

section
variable (s : Chip)

theorem Chip.lamps_eq (p : Nat) : s.lamps p = (s.port p).lamp := rfl

@[simp] theorem Chip.lamps_gn (v : Gn) : ({ s with gn := v } : Chip).lamps = s.lamps := rfl
@[simp] theorem Chip.lamps_service (v : Service) : ({ s with service := v } : Chip).lamps = s.lamps := rfl
@[simp] theorem Chip.lamps_sync (v : Sync) : ({ s with sync := v } : Chip).lamps = s.lamps := rfl
@[simp] theorem Chip.lamps_queues (v : Tab Queue) : ({ s with queues := v } : Chip).lamps = s.lamps := rfl

@[simp] theorem Chip.each_lamps {α : Type} {f : Chip → α → Chip} (h : ∀ t a, (f t a).lamps = t.lamps) (l : List α) :
    (s.each l f).lamps = s.lamps := s.each_keeps Chip.lamps f h l

theorem Chip.foldl_lamps {α : Type} {f : Chip → α → Chip} (h : ∀ t a, (f t a).lamps = t.lamps) (l : List α) :
    (l.foldl f s).lamps = s.lamps := s.each_keeps Chip.lamps f h l

/-- A change of a port that leaves its lamp. -/
theorem Chip.setPort_lamps (p : Nat) {f : Port → Port} (h : ∀ x, (f x).lamp = x.lamp) : (s.setPort p f).lamps = s.lamps := by
  funext q
  refine (congrArg Port.lamp (Tab.get_modify Port.reset s.ports p q f)).trans ?_
  split
  · rename_i hq
    exact (h _).trans (by rw [hq]; rfl)
  · rfl

@[simp] theorem Chip.raiseCount_lamps (code : Nat) (count : Nat) (args : List Arg) :
    (s.raiseCount code count args).lamps = s.lamps :=
  congrArg Outside.lamps (Chip.raiseCount_outside ..)

@[simp] theorem Chip.raise_lamps (code : Nat) (args : List Arg) : (s.raise code args).lamps = s.lamps :=
  congrArg Outside.lamps (Chip.raise_outside ..)

@[simp] theorem Chip.raiseLimited_lamps (code : Nat) (unit : Nat) (args : List Arg) :
    (s.raiseLimited code unit args).lamps = s.lamps :=
  congrArg Outside.lamps (Chip.raiseLimited_outside ..)

@[simp] theorem Chip.setObj_lamps (key : Nat) (v : Nat) : (s.setObj key v).lamps = s.lamps :=
  congrArg Outside.lamps (Chip.setObj_outside ..)

@[simp] theorem Chip.bump_lamps (key : Nat) (n : Nat) : (s.bump key n).lamps = s.lamps :=
  congrArg Outside.lamps (Chip.bump_outside ..)

@[simp] theorem Chip.dropWaits_lamps (owner : WaitOwner) : (s.dropWaits owner).lamps = s.lamps := rfl

@[simp] theorem Chip.setQueue_lamps (q : Nat) (f : Queue → Queue) : (s.setQueue q f).lamps = s.lamps := rfl

@[simp] theorem Chip.setCore_lamps (c : Nat) (f : CoreSt → CoreSt) : (s.setCore c f).lamps = s.lamps := rfl

@[simp] theorem Chip.setGnCredits_lamps (port : Nat) (f : GnCredits → GnCredits) : (s.setGnCredits port f).lamps = s.lamps := rfl

@[simp] theorem Chip.enqueue_lamps (p : Nat) (slots : List (BitVec 512)) : (s.enqueue p slots).lamps = s.lamps :=
  Chip.setPort_lamps s p fun _ => rfl

@[simp] theorem Chip.emit_lamps (o : Output) : (s.emit o).lamps = s.lamps := rfl

@[simp] theorem Chip.transmit_lamps (p : Nat) (out : List (Nat × LaneFrame) → Output) (frames : List (Nat × LaneFrame)) :
    (s.transmit p out frames).lamps = s.lamps := by
  rw [Chip.transmit, Chip.emit_lamps]
  exact Chip.setPort_lamps s p fun _ => rfl

@[simp] theorem Chip.sendFrame_lamps (p : Nat) (e : TxFrame) : (s.sendFrame p e).lamps = s.lamps :=
  Chip.transmit_lamps ..

theorem Port.switchTx_lamp (x : Port) : x.switchTx.lamp = x.lamp := by
  unfold Port.switchTx
  split
  · split <;> rfl
  · rfl

@[simp] theorem Chip.sendSuperframe_lamps (p : Nat) (ctrl : Option CtrlSlot) : (s.sendSuperframe p ctrl).lamps = s.lamps := by
  rw [Chip.sendSuperframe, Chip.sendFrame_lamps]
  rw [Chip.setPort_lamps, Chip.setPort_lamps]
  · exact Port.switchTx_lamp
  · exact fun _ => rfl

@[simp] theorem Chip.flushFuel_lamps (p fuel : Nat) : (Chip.flushFuel p fuel s).lamps = s.lamps := by
  induction fuel generalizing s with
  | zero => rfl
  | succ n ih =>
    unfold Chip.flushFuel
    dsimp only
    split
    · rw [ih, Chip.sendSuperframe_lamps]
    · rfl

@[simp] theorem Chip.flushPort_lamps (p : Nat) : (s.flushPort p).lamps = s.lamps := by
  exact Chip.flushFuel_lamps ..

@[simp] theorem Chip.startPacket_lamps (o : OutPacket) (rr1 : Nat) (rr2 : Nat) : (s.startPacket o rr1 rr2).lamps = s.lamps := by
  rw [Chip.startPacket, Chip.flushPort_lamps, Chip.emit_lamps, Chip.lamps_gn, Chip.enqueue_lamps, Chip.setGnCredits_lamps]

@[simp] theorem Chip.pumpFuel_lamps (p fuel : Nat) : (Chip.pumpFuel p fuel s).lamps = s.lamps := by
  induction fuel generalizing s with
  | zero => rfl
  | succ n ih =>
    unfold Chip.pumpFuel
    split
    · rw [ih, Chip.startPacket_lamps]
    · rfl

@[simp] theorem Chip.gnPump_lamps (port : Nat) : (s.gnPump port).lamps = s.lamps := by
  unfold Chip.gnPump
  split <;> simp

@[simp] theorem Chip.gnQueue_lamps (port : Nat) (p : GnPacket) : (s.gnQueue port p).lamps = s.lamps := by
  simp [Chip.gnQueue]

@[simp] theorem Chip.gnRespond_lamps (p : GnPacket) : (s.gnRespond p).lamps = s.lamps := by
  unfold Chip.gnRespond
  split <;> simp

@[simp] theorem Chip.setEngine_lamps (e : Nat) (f : Engine → Engine) : (s.setEngine e f).lamps = s.lamps := rfl

@[simp] theorem Chip.setLaser_lamps (e : Nat) (c : Nat) (v : LaserState) : (s.setLaser e c v).lamps = s.lamps := rfl

@[simp] theorem Chip.idleLasers_lamps (e : Nat) (l : List Nat) (v : LaserState) : (s.idleLasers e l v).lamps = s.lamps := by
  simp [Chip.idleLasers, apply_ite Chip.lamps]

@[simp] theorem Chip.coolSpares_lamps (was : PortState) (e : Nat) : (s.coolSpares was e).lamps = s.lamps := by
  unfold Chip.coolSpares
  split <;> simp

@[simp] theorem Chip.writeFrom_lamps (site : Nat) (a : Nat) (bs : List Byte) (poison : Bool) (hint : Hint) :
    (s.writeFrom site a bs poison hint).lamps = s.lamps :=
  congrArg Outside.lamps (Chip.writeFrom_outside ..)

@[simp] theorem Chip.noteMirror_lamps (e : MirrorEffect) : (s.noteMirror e).lamps = s.lamps := by
  unfold Chip.noteMirror
  split <;> simp

@[simp] theorem Chip.landBytes_lamps (site : Nat) (a : Nat) (bs : List Byte) (marks : List Bool) (hint : Hint) :
    (s.landBytes site a bs marks hint).lamps = s.lamps := by
  unfold Chip.landBytes
  exact (Chip.noteMirror_lamps ..).trans (s.foldl_lamps (fun t i => t.writeFrom_lamps ..) _)

@[simp] theorem Chip.dropCoreWaits_lamps (c : Nat) : (s.dropCoreWaits c).lamps = s.lamps := by
  unfold Chip.dropCoreWaits
  exact Chip.each_lamps _ (fun t u => t.dropWaits_lamps _) _

section
variable {lost : Chip → GnReq → Chip} (hlost : ∀ t r, (lost t r).lamps = t.lamps)

include hlost

theorem Chip.gnSendOr_lamps (r : GnReq) : (s.gnSendOr lost r).lamps = s.lamps := by
  unfold Chip.gnSendOr
  split
  · exact hlost s r
  · dsimp only
    split <;> simp

theorem Chip.gnTag_lamps (r : GnReq) : (s.gnTag lost r).lamps = s.lamps := by
  unfold Chip.gnTag
  dsimp only
  split
  · rw [Chip.bump_lamps]
    change Chip.lamps (if _ then _ else _) = s.lamps
    split <;> rfl
  · rw [Chip.gnSendOr_lamps _ hlost]
    split <;> rfl

theorem Chip.gnGrant_lamps : (s.gnGrant lost).lamps = s.lamps := by
  unfold Chip.gnGrant
  refine foldl_fst_keeps Chip.lamps (fun a r => ?_) _ _
  dsimp only
  split
  · rfl
  · split
    · exact hlost _ r
    · split
      · exact Chip.gnTag_lamps _ hlost r
      · rfl

end

@[simp] theorem Chip.waitOn_lamps (r : GnReq) : (s.waitOn r).lamps = s.lamps := rfl

@[simp] theorem Chip.orphan_lamps (p : Work → Bool) : (s.orphan p).lamps = s.lamps := by
  exact Chip.gnGrant_lamps _ Chip.waitOn_lamps

@[simp] theorem Chip.engineEnded_lamps (e : Nat) (st : Status) : (s.engineEnded e st).lamps = s.lamps := rfl

@[simp] theorem Chip.coreEnd_lamps (c : Nat) : (s.coreEnd c).lamps = s.lamps := by
  unfold Chip.coreEnd
  dsimp only
  split <;> simp [apply_ite Chip.lamps]

@[simp] theorem Chip.coreEndIf_lamps (c : Nat) : (s.coreEndIf c).lamps = s.lamps := by
  simp only [Chip.coreEndIf]
  split <;> simp

@[simp] theorem Chip.faultOne_lamps (c : Nat) (cause : Cause) (st : Status) (addr : Word) (unit : Nat) (sub : Nat)
    (fate : Bool) : (s.faultOne c cause st addr unit sub fate).lamps = s.lamps := by
  unfold Chip.faultOne
  dsimp only
  split <;> simp [apply_ite Chip.lamps]

@[simp] theorem Chip.coreFault_lamps (c : Nat) (cause : Cause) (st : Status) (addr : Word) (unit : Nat) (sub : Nat) :
    (s.coreFault c cause st addr unit sub).lamps = s.lamps := by
  unfold Chip.coreFault
  split <;> simp

@[simp] theorem Chip.fault_lamps (c : Nat) (cause : Cause) (addr : Word) : (s.fault c cause addr).lamps = s.lamps := by
  simp [Chip.fault]

@[simp] theorem Chip.gnFinish_lamps (r : GnReq) (st : Status) (data : List Byte) (marks : List Bool) (old : Word) :
    (s.gnFinish r st data marks old).lamps = s.lamps := by
  unfold Chip.gnFinish
  dsimp only
  split
  · simp
    split <;> simp [apply_ite Chip.lamps]
  · split
    · split
      · split <;> simp [apply_ite Chip.lamps]
      · split <;> simp [*, apply_ite Chip.lamps]
    · split <;> simp [apply_ite Chip.lamps]
  · split <;> simp [apply_ite Chip.lamps]
  · split <;> simp [apply_ite Chip.lamps]
  · split <;> simp [apply_ite Chip.lamps]
  · split <;> simp [apply_ite Chip.lamps]

@[simp] theorem Chip.gnSettle_lamps (r : GnReq) (st : Status) (data : List Byte) (marks : List Bool) (old : Word) :
    (s.gnSettle r st data marks old).lamps = s.lamps := by
  simp [Chip.gnSettle]

@[simp] theorem Chip.gnFail_lamps (r : GnReq) (st : Status) : (s.gnFail r st).lamps = s.lamps := by
  simp [Chip.gnFail]

@[simp] theorem Chip.gnLost_lamps (r : GnReq) : (s.gnLost r).lamps = s.lamps := by
  simp [Chip.gnLost]

@[simp] theorem Chip.gnSend_lamps (r : GnReq) : (s.gnSend r).lamps = s.lamps := by
  exact s.gnSendOr_lamps Chip.gnLost_lamps r

@[simp] theorem Chip.granuleRelease_lamps (g : Nat) : (s.granuleRelease g).lamps = s.lamps := by
  simp [Chip.granuleRelease]

@[simp] theorem Chip.gnFeed_lamps : s.gnFeed.lamps = s.lamps := by
  exact s.gnGrant_lamps Chip.gnLost_lamps

@[simp] theorem Chip.gnReroute_lamps (port : Nat) : (s.gnReroute port).lamps = s.lamps := by
  simp only [Chip.gnReroute]
  split <;> simp

@[simp] theorem Chip.rebuildPortMap_lamps (port : Nat) : (s.rebuildPortMap port).lamps = s.lamps := by
  simp only [Chip.rebuildPortMap]
  split <;> simp

@[simp] theorem Chip.gnPortDown_lamps (port : Nat) : (s.gnPortDown port).lamps = s.lamps := by
  simp [Chip.gnPortDown]

@[simp] theorem Chip.takeBack_lamps (slots : List (BitVec 512)) : (s.takeBack slots).lamps = s.lamps := rfl

/-- A port that is closed has the state it was closed with, and its shutter is closed. -/
theorem Chip.closePort_lamp (p : Nat) (st : PortState) : ((s.closePort p st).port p).lamp = (st, false) := by
  rw [← Chip.lamps_eq, Chip.closePort]
  dsimp only
  split
  · rw [Chip.gnPortDown_lamps, Chip.coolSpares_lamps]
    rw [Chip.lamps_eq, Chip.setPort_same]
    rfl
  · rw [Chip.takeBack_lamps, Chip.coolSpares_lamps]
    rw [Chip.lamps_eq, Chip.setPort_same]
    rfl

theorem Chip.failPort_lamp (p cause : Nat) : ((s.failPort p cause).port p).lamp = (.failed, false) := by
  rw [Chip.failPort, ← Chip.lamps_eq, Chip.raise_lamps]
  exact Chip.closePort_lamp s p .failed

end

end Sys2Proof.Machine
end

section
/-! PROOF. Lanes that move to spare channels, widths and lane maps, and the statement `Lanes` (R51, R74–R80). -/

namespace Sys2Proof.Machine

section
variable {s : Chip} {p : Nat}

/-- A slot of its own code on a linked port is taken, and then does what its code says. -/
theorem Chip.ctrlRow_taken {v : CtrlSlot} {b : Byte} (k : Nat) (f : Chip → Chip) (hlinked : (s.port p).state.linked = true) (hv : v.ctrl = b)
    (hb : b.toNat = k) : s.ctrlRow p v k f = f (s.takeSlot p v) :=
  Chip.when_pos (by rw [hlinked, hv, hb, beq_self_eq_true]; rfl)

/-! ### What a settled port keeps -/

theorem Port.settle_proc (x : Port) : x.settle.proc = x.proc := by
  unfold Port.settle
  split <;> rfl

theorem Port.settle_txMap (x : Port) : x.settle.txMap = x.txMap := by
  unfold Port.settle
  split <;> rfl

theorem Port.settle_txEpoch (x : Port) : x.settle.txEpoch = x.txEpoch := by
  unfold Port.settle
  split <;> rfl

theorem Port.settle_spares (x : Port) : x.settle.spares = x.spares := by
  unfold Port.settle
  split <;> rfl

/-- A port that carries traffic shows a procedure as Sparing. -/
theorem Port.settle_sparing {x : Port} (h : x.state.carries = true) (hproc : x.proc.isSome = true) : x.settle.state = .sparing := by
  simp [Port.settle, h, hproc]

/-! ### The start of a move (R78) -/

/-- The procedure that moves a lane to a channel. -/
def Port.moveOf (x : Port) (lane c : Nat) (k : LaneNeed) : LaneProc :=
  { kind := if k = .dead then .moveDead else .move, step := .warming, lane := lane, oldChannel := nth 255 x.txMap lane
    channel := c, epoch := x.txEpoch + 1, switchSeq := 0, newMap := setAt x.txMap lane c, oldMap := x.txMap
    oldWidth := mapWidth x.txMap, retried := false }

/-- An Active port with no procedure starts one for a lane that it uses. -/
theorem Chip.needLane_free {lane : Nat} {k : LaneNeed} (hactive : (s.port p).state = .active) (hused : nth 255 (s.port p).txMap lane ≠ 255)
    (hfree : (s.port p).proc = none) (hengine : s.engineRestarts p = false) : s.needLane p lane k = s.startLane p lane k := by
  simp [Chip.needLane, hactive, PortState.carries, hused, hfree, hengine]

theorem Chip.startLane_port {lane c : Nat} {k : LaneNeed} (hspare : s.nextSpare p = some c) :
    (s.startLane p lane k).port p = Port.settle { s.port p with proc := some ((s.port p).moveOf lane c k) } := by
  rw [Chip.startLane, hspare]
  dsimp only
  rw [Chip.setPort_same, Chip.setPort_same]
  split <;> rfl

theorem Chip.startLane_none {lane : Nat} (hspare : s.nextSpare p = none) : s.startLane p lane .fading = s := by
  rw [Chip.startLane, hspare]
  rfl

/-! ### The end of a move -/

/-- The port once the peer has confirmed a move. -/
def Port.moved (x : Port) (w : LaneProc) : Port :=
  { x with txEpoch := w.epoch, txMap := w.newMap, spares := if w.kind = .move ∨ w.kind = .moveDead then x.spares.erase w.channel else x.spares }

/-- The chip once a move is confirmed and reported. -/
def Chip.moveReported (s : Chip) (p : Nat) (w : LaneProc) : Chip :=
  (s.setPort p fun x => x.moved w).raise 0x0201 [.u8 p, .u8 w.lane, .u8 w.oldChannel, .u8 w.channel]

theorem Chip.moveReported_port {w : LaneProc} : (s.moveReported p w).port p = (s.port p).moved w := by
  rw [Chip.moveReported, Chip.raise_port, Chip.setPort_same]

theorem Chip.setPort_laser (f : Port → Port) (e c : Nat) : (s.setPort p f).laser e c = s.laser e c := rfl

/-- A move whose old channel is not fading is confirmed and reported. -/
theorem Chip.confirmProc_move {w : LaneProc} (hkind : w.kind = .move) (hlaser : s.laser (p / 8) w.oldChannel ≠ .fading) :
    s.confirmProc p w = (s.moveReported p w).endProc p := by
  rw [Chip.confirmProc, Chip.setPort_laser, if_neg hlaser, if_pos (.inl hkind),
    if_neg (show ¬ (w.kind = .moveDead ∨ w.kind = .deadWidth) by simp [hkind])]
  rfl

/-- A procedure that ends where no other lane waits leaves its port settled. -/
theorem Chip.endProc_idle (hneeds : (s.port p).needs = []) : s.endProc p = s.setPort p fun x => Port.settle { x with proc := none } := by
  rw [Chip.endProc, hneeds]
  rfl

/-- A confirmed move leaves its new map, no procedure and one spare less, and touches no memory. -/
theorem Chip.confirmProc_ends {w : LaneProc} (hkind : w.kind = .move) (hlaser : s.laser (p / 8) w.oldChannel ≠ .fading)
    (hneeds : (s.port p).needs = []) : ((s.confirmProc p w).port p).txMap = w.newMap ∧ ((s.confirmProc p w).port p).txEpoch = w.epoch ∧
    ((s.confirmProc p w).port p).proc = none ∧ ((s.confirmProc p w).port p).spares = (s.port p).spares.erase w.channel ∧
    (s.confirmProc p w).mem = s.mem := by
  have hidle : ((s.moveReported p w).port p).needs = [] := by
    rw [Chip.moveReported_port]
    exact hneeds
  rw [Chip.confirmProc_move hkind hlaser, Chip.endProc_idle hidle, Chip.setPort_same, Chip.moveReported_port]
  refine ⟨Port.settle_txMap _, Port.settle_txEpoch _, Port.settle_proc _, ?_, rfl⟩
  rw [Port.settle_spares]
  exact if_pos (.inl hkind)

end

/-- Settles O16: each slot is one branch of its command; a width below MIN_WIDTH closes the port, and nothing its end sends changes a lamp. -/
theorem lanes : Obligations.Lanes := by
  refine ⟨?_, ?_, ?_, ?_, ?_, ?_, ?_, ?_, ?_, ?_, ?_, ?_, ?_⟩
  · intro s p v hlive hlinked hv
    exact State.gives_live rfl hlive (Chip.ctrlRow_taken 0x14 (fun c => c.needLane p.val (argField v 447 440) .planned) hlinked hv rfl)
  · intro s p v hlive hlinked hv
    exact State.gives_live rfl hlive (Chip.ctrlRow_taken 0x15 (fun c => c.needLane p.val (argField v 447 440) .dead) hlinked hv rfl)
  · intro s p lane hactive hused hfree hengine hspare
    rw [Chip.needLane_free hactive hused hfree hengine, Chip.startLane_none hspare]
  · intro s p lane c k hactive hused hfree hengine hspare
    rw [Chip.needLane_free hactive hused hfree hengine, Chip.startLane_port hspare]
    refine ⟨(s.port p).moveOf lane c k, Port.settle_proc _, rfl, rfl, rfl, rfl, rfl, Port.settle_sparing ?_ rfl, Port.settle_txMap _⟩
    exact congrArg PortState.carries hactive
  · intro s p w hlive hproc hstep hlaser
    refine State.gives_live rfl hlive ?_
    rw [hproc]
    dsimp only
    rw [Chip.when_pos (by rw [hstep]; rfl), if_pos hlaser]
    rfl
  · intro s p v hlive hlinked hv hlane hcarries hdead
    refine State.gives_live rfl hlive ((Chip.ctrlRow_taken _ _ hlinked hv rfl).trans ?_)
    dsimp only
    rw [Chip.when_pos (by rw [hcarries, decide_eq_true hlane]; rfl), hdead]
    rfl
  · intro s p v w hlive hlinked hv hproc hstep hlane hepoch
    refine State.gives_live rfl hlive ((Chip.ctrlRow_taken _ _ hlinked hv rfl).trans ?_)
    dsimp only
    rw [hproc]
    exact Chip.when_pos (by simp [hstep, hlane, hepoch])
  · intro s p v w hlive hlinked hv hchange hepoch
    refine State.gives_live rfl hlive ((Chip.ctrlRow_taken _ _ hlinked hv rfl).trans ?_)
    rw [hchange]
    exact Chip.when_pos (by rw [hepoch, beq_self_eq_true])
  · intro s p v w hlive hlinked hv hproc hstep hkind hepoch hneeds hlaser
    refine State.gives_live rfl hlive ?_
    rw [Chip.ctrlRow_taken 0x13 _ hlinked hv rfl, hproc]
    dsimp only
    rw [Chip.when_pos (by simp [hstep, hepoch])]
    exact Chip.confirmProc_ends hkind hlaser hneeds
  · intro s p w hlive hproc hstep hretried
    refine State.gives_live rfl hlive ?_
    rw [hproc]
    dsimp only
    rw [Chip.when_pos (by rw [hstep]; rfl), hretried, if_neg Bool.false_ne_true]
    rfl
  · intro s p v hlive hlinked hv
    exact State.gives_live rfl hlive (Chip.ctrlRow_taken 0x17 _ hlinked hv rfl)
  · intro s p v hlive hlinked hv hcarries hwidth
    refine State.gives_live rfl hlive ((Chip.ctrlRow_taken _ _ hlinked hv rfl).trans ?_)
    rw [Chip.when_pos hcarries, if_neg (by omega)]
  · intro s p v hlive hlinked hv hcarries hwidth
    refine State.gives_live rfl hlive ?_
    rw [Chip.ctrlRow_taken 0x16 _ hlinked hv rfl]
    rw [Chip.when_pos hcarries, if_pos hwidth]
    obtain ⟨hstate, hshutter⟩ := Prod.mk.inj (Chip.failPort_lamp (s.toChip.takeSlot p.val v) p.val failWidth)
    exact ⟨hstate, hshutter⟩

end Sys2Proof.Machine
end
